-- ==== Sys2Proof/Word.lean ====
section
/-! DEFINITION. The word types of the block and their plainest arithmetic: the 32-bit value slot (R145), the byte of
a frame (R135), and small list and number helpers. -/

namespace Sys2Proof

/-- A 4-byte value slot (R145). -/
abbrev Word := BitVec 32

/-- A byte of a frame or of the link buffer (R135). -/
abbrev Byte := BitVec 8

/-- An axis number, AX0 to AX7 (R9). -/
abbrev Axis := Fin 8

/-- A time or count on a device counter, unbounded where the counter wraps only when it is read. -/
abbrev Ticks := Nat

/-- `x` kept within `lo` and `hi`. -/
def clampInt (x lo hi : Int) : Int := max lo (min hi x)

/-- `x` kept within `lo` and `hi`. -/
def clampRat (x lo hi : Rat) : Rat := max lo (min hi x)

/-- The absolute value of a rational. -/
def absRat (x : Rat) : Rat := if x < 0 then -x else x

/-- The nearest whole number, a tie rounded up (R285). -/
def roundHalfUp (x : Rat) : Int := (x + 1 / 2).floor

/-- The eight axes in ascending order (R9). -/
def allAxes : List Axis := [0, 1, 2, 3, 4, 5, 6, 7]

/-- Bit `i` of a natural number used as a bit field. -/
def bitOf (x i : Nat) : Bool := x.testBit i

/-- The number with only bit `i` set where `b` holds. -/
def bitIf (b : Bool) (i : Nat) : Nat := if b then 2 ^ i else 0

/-- The sum of a list of numbers. -/
def sumNat : List Nat → Nat
  | [] => 0
  | x :: xs => x + sumNat xs

/-- The sum of a list of rationals. -/
def sumRat : List Rat → Rat
  | [] => 0
  | x :: xs => x + sumRat xs

/-- Append to a bounded list, keeping its newest `n` entries. -/
def pushLast {α : Type} (n : Nat) (xs : List α) (x : α) : List α :=
  let ys := xs ++ [x]
  ys.drop (ys.length - n)

/-- The list with entry `i` replaced (unchanged where there is none). -/
def setAt {α : Type} : List α → Nat → α → List α
  | [], _, _ => []
  | _ :: xs, 0, y => y :: xs
  | x :: xs, i + 1, y => x :: setAt xs i y

/-- Combine the bit `b x` of each member into a mask. -/
def maskOf (xs : List Axis) (b : Axis → Bool) : Nat :=
  xs.foldl (fun m x => m + bitIf (b x) x.val) 0

end Sys2Proof
end

