-- ==== Sys2Proof/Syntax.lean ====
section
/-! DEFINITION. The commands of the block: one constructor per row of the table of operations and events. A row of the
host (a frame's command) carries the header of its request and its payload; a row that names an event of the part carries
the values that the event's surroundings supply (a measured level, a detected mismatch, a strap value). -/

namespace Sys2Proof

/-- The header of a request as the device holds it once the frame is taken (R135, R136, R162): the request ring that
carried it, TAG, NO_REPLY, DEV_SEL, AXIS_SEL, DEADLINE, the response ring it resolved to, the DEV:US_TIME instant of
the take, for a request that came over the Emquin ring FWD and the entry device, and the axes that AXIS_SEL selects,
a group resolved at the take (R156). -/
structure Req where
  ring : Nat
  tag : Nat
  noReply : Bool
  devSel : Nat
  axisSel : Nat
  deadline : Nat
  resp : Nat
  taken : Nat
  fwd : Bool
  entry : Nat
  mask : Nat
  deriving DecidableEq, Repr

/-- The payload of a MOVE (R152). -/
structure MoveArgs where
  kind : Nat
  cls : Nat
  waitDone : Bool
  target : Int
  vmax : Nat
  acc : Nat
  dec : Nat
  jerk : Nat
  vstart : Nat
  vstop : Nat
  deriving DecidableEq, Repr

/-- What a resolver channel measures in the excitation step of a boot (R85, R348): carrier phase and angle in 2⁻¹⁶ turn, amplitude in
1/16 LSB. A channel that is not listed measures no amplitude. -/
structure RsvLearn where
  n : Axis
  phase : Int
  amp : Nat
  angle : Nat
  deriving DecidableEq, Repr

/-- What the surroundings give a FUSE_PROGRAM or a RETIRE: whether VFSRC is inside its window when the request is judged, what the two CD
temperature sensors read in °C, the words that do not read back as programmed with their values at the normal and the margin reference,
after how many pulses VFSRC leaves its window while the request runs, and after how many words an ABORT that wins arrives (R166), where
either does. -/
structure FuseEnv where
  vfsrcOk : Bool
  temps : List Int
  sense : List (Nat × Word × Word)
  cut : Option Nat
  abort : Option Nat
  deriving DecidableEq, Repr

/-- What the surroundings give the boot of R85: the strap levels, which checks of R91 find a failure, whether VFSRC is inside its window,
the fuse words that read differently at the margin reference with the value they read there, the words whose commit bit does, the outcome of the resolver phase learning per channel, and the time the
boot took. -/
structure BootEnv where
  straps : Nat
  dsOk : Bool
  vioOk : Bool
  vdrvOk : Bool
  vfsrcOk : Bool
  weakFuses : List (Nat × Word)
  weakCommits : List Nat
  paramCrcOk : Bool
  tableBad : List Axis
  refOk : Bool
  pllOk : Bool
  clkFail : Bool
  biscOk : Bool
  pstFail : List (Axis × Nat)
  learned : List RsvLearn
  tailOpen : Bool
  bootUs : Nat
  deriving DecidableEq, Repr

/-- What the surroundings give the end of a verification: the boot of the restart it may lead to, and whether the supply is lost while the
record is written (R101, R107). -/
structure CommitEnv where
  boot : BootEnv
  lost : Bool
  deriving DecidableEq, Repr

/-- An IMG_CONFIRM: its request, and whether the supply is lost while the record is written (R107). -/
structure Confirm where
  req : Req
  lost : Bool
  deriving DecidableEq, Repr

/-- How the tests of a SELFTEST go: whether the proof of Biscotti holds, and, where an ABORT wins while they run, the tests that have run by
then (R166, R492). -/
structure TestRun where
  biscOk : Bool
  ended : Option Nat
  deriving DecidableEq, Repr

/-- A gate of a half-bridge: the phase (0 U, 1 V, 2 W) and whether it is the high side. -/
structure Gate where
  ph : Fin 3
  hi : Bool
  deriving DecidableEq, Repr

/-- What a Biscotti checkpoint finds when it compares the passes of a task (R478 to R484): no difference, or a difference
with the three bits of KIND (R502: 4 SNAP, 2 SIG, 1 OUT), and whether the retry passes; and whether other work is pending at the
checkpoint (R483). -/
structure Check where
  mismatch : Option Nat
  retryOk : Bool
  pending : Bool
  deriving DecidableEq, Repr

/-- The memory check of an access (R533). -/
inductive MemCheck where
  | good | corrected | uncorrectable
  deriving DecidableEq, Repr

/-- The header of a Finyr request (R625): PORT (0 MP, 1 LE0, 2 LE1, 3 SYS, 4 REC, 5 SES), SEQ, LEN, PAGE, ADDRESS, and
whether its CRC-16 holds. -/
structure DbgReq where
  port : Nat
  seq : Nat
  len : Nat
  page : Nat
  addr : Nat
  crcOk : Bool
  deriving DecidableEq, Repr

/-- The commands of the block, one constructor per row of the table, in the table's order. -/
inductive Instr where
  -- resets, supplies, clocks and power states
  | powerOnReset (env : BootEnv)
  | externalReset (lowNs : Nat) (env : BootEnv)
  | alwaysOnPor
  | vioBrownOut
  | vcoreBrownOut
  | vanaLow
  | vanaRecover
  | mpWatchdogExpiry (env : BootEnv)
  | trialWatchdogExpiry (env : BootEnv)
  | supplyLoss
  | stopDone
  | holdupSwitchOpen
  | vdrvLock
  | vdrvLockRelease (pstFail : List (Axis × Nat))
  | vfsrcWindowExit
  | clkFail (culprit : Nat)
  | pllLock
  | pllFail (refValid : Bool)
  | lfclkSwitchover
  | pwrReqRun (r : Req)
  | pwrReqStandby (r : Req)
  | pwrReqSleep (r : Req)
  | idleSleep
  | sleepEntry
  | wakeVtrc
  | wakePin
  | wakeCsN
  | wakeRing
  | alarm
  | parkingWatchWindow (levels : Nat) (vtrcHigh : Bool)
  | coupling
  | decoupling
  -- host link
  | ringDataWrite (instr ring off : Nat) (data : List Byte)
  | ringDataRead (instr ring off len : Nat)
  | linkRegWrite (instr ring : Nat) (data : List Byte)
  | ringHeadWrite (instr ring : Nat) (data : List Byte)
  | ringTailWrite (instr ring : Nat) (data : List Byte)
  | ringCfgSize (instr ring : Nat) (data : List Byte)
  | clrDrop (instr ring : Nat) (data : List Byte)
  | evtClear (instr ring : Nat) (data : List Byte) (raised : List Nat)
  | frameTake (mem : MemCheck)
  -- commands
  | sigRead (r : Req) (describe : Bool) (sids : List Word)
  | sigWrite (r : Req) (pairs : List (Word × Word)) (straddle : List Axis) (aoLate : Bool)
  | sigSubscribe (r : Req) (handle ring mode : Nat) (period deadband : Nat) (sids : List Word)
  | sigLimit (r : Req) (slot : Nat) (enable : Bool) (ring : Nat) (sid low high hyst : Word) (qual : Nat)
  | axisState (r : Req) (st : Nat) (wait : Bool) (chk : Check)
  | move (r : Req) (m : MoveArgs)
  | stop (r : Req) (kind : Nat) (waitDone : Bool)
  | setGains (r : Req) (loop : Nat) (kp ki : Word)
  | groupSet (r : Req) (group mask : Nat)
  | modeSet (r : Req) (mode mask : Nat) (permit : Word)
  | abort (r : Req) (tag ring : Nat)
  | recRead (r : Req) (seq off maxLen : Nat) (nextOpt : Bool) (fails : Nat)
  | recNote (r : Req) (note : List Byte)
  | imgWrite (r : Req) (off : Nat) (data : List Byte)
  | imgCommit (r : Req) (restart : Bool)
  | imgVerifyEnd (env : CommitEnv)
  | imgConfirm (c : Confirm)
  | fuseProgram (r : Req) (kind index : Nat) (words : List Word) (sig : List Byte) (env : FuseEnv)
  | selftest (r : Req) (tests : Nat) (pstFail : List (Axis × Nat)) (run : TestRun)
  | probeCoupling (r : Req) (noteOnly : Bool) (note : List Byte)
  | deferredStart
  | deferredExpiry
  | deadlineExpiry
  | aggTimeout
  | deliveryTimeout
  | forwardedFrame (src : Nat) (bytes : List Byte)
  | subscriptionPeriod (handle : Nat)
  | budgetTick (chk : Check)
  | honeycombLate
  | grantStale (n : Axis)
  | probeStart
  | probeRailEnd (rail : Fin 4) (v1 i1 v2 i2 : Int) (steady : Bool)
  | thermalStop
  -- supervision between the dies
  | heartbeatSend (chk : Check)
  | cdHeartbeat (good : Bool)
  | dsStatusSend
  | dsStatus (good : Bool)
  | heartbeatLoss
  | disagreeTimeout
  | hardShutdown
  | hardShutdownClear
  | faultEvent (code : Nat)
  | snapshotStage (code : Nat)
  | faultAutoRelease (code : Nat)
  | faultRelease (r : Req) (sid value : Word)
  | fltCfgWrite (r : Req) (value : Word)
  | fltRoleWrite (r : Req) (n : Axis) (value : Word)
  -- PWM
  | counterStart (n : Axis)
  | carrierValley (n : Axis)
  | carrierPeak (n : Axis)
  | compareMatch (n : Axis) (ph : Fin 3)
  | minpwStretchEnd (n : Axis) (ph : Fin 3)
  | bootstrapRefresh (n : Axis) (ph : Fin 3)
  | tagCompare (n : Axis)
  | deadtimeTurnOn (n : Axis) (g : Gate)
  | gateSenseReport (n : Axis) (g : Gate)
  | hsTimeout (n : Axis) (g : Gate)
  | atcWindowOpen (n : Axis)
  | atcWindowClose (n : Axis)
  -- gate drive
  | scTrip (n : Axis) (g : Gate)
  | didtTrip (n : Axis) (g : Gate)
  | gateWeak (n : Axis) (g : Gate)
  | gateWeakSag (n : Axis) (g : Gate)
  | xcmd (n : Axis) (ph : Fin 3)
  | tripIn (n : Axis)
  | gdLatchClear (r : Req) (n : Axis) (value : Word) (active : Nat)
  | prechargePulse (n : Axis)
  | prechargeComplete (n : Axis)
  -- sampling
  | adcConversion (c : Fin 4) (code : Fin 4096)
  | hkIntervalEnd
  | offsetLearnStart (n : Axis)
  | offsetLearnEnd (n : Axis) (meanU meanV : Int)
  | smpGainWrite (r : Req) (n : Axis) (value : Word)
  -- loop engine
  | currentTask (n : Axis) (chk : Check) (mem : MemCheck)
  | speedStep (n : Axis) (chk : Check) (mem : MemCheck)
  | positionStep (n : Axis) (chk : Check) (mem : MemCheck)
  | observerStep (n : Axis) (chk : Check)
  | observerConverged (n : Axis)
  | angleDisagree (n : Axis)
  | hfiPeriodEnd (n : Axis)
  -- Caramel
  | profileClock (n : Axis)
  | compareSlotArm (r : Req) (n : Axis) (slot : Fin 4) (cfg : Bool) (value : Word)
  | replanSwitch (n : Axis)
  | targetReached (n : Axis)
  | stepPulse (n : Axis)
  | stepPulseEnd (n : Axis)
  -- resolver
  | excitationRestart (r : Req) (n : Axis) (amp : Bool) (value : Word)
  | phaseLearnEnd (n : Axis)
  | demodPeriodEnd (n : Axis) (chk : Check)
  | excPeriodEnd (drv : Fin 2) (limited : Bool)
  | openWireProbe (n : Axis)
  | rsvTurnsWrite (r : Req) (n : Axis) (value : Word)
  | cmpStart (r : Req) (n : Axis)
  | cmpCancel (r : Req) (n : Axis)
  | cmpClear (r : Req) (n : Axis)
  | cmpStore (r : Req) (n : Axis)
  | tableWriteEnd (n : Axis)
  | rsvCmpValRead (r : Req) (n : Axis)
  | rsvCmpValWrite (r : Req) (n : Axis) (value : Word)
  -- feedback inputs
  | fbEdgeAccept (n : Axis) (a b z : Bool)
  | fbStill (n : Axis)
  | fbZArm (r : Req) (n : Axis) (value : Word)
  | wssOpen (n : Axis)
  | wssShort (n : Axis)
  | wssRetry (n : Axis) (stillShort : Bool)
  -- analogue outputs
  | aoldStrobe
  | aoLoad (r : Req) (value : Word)
  | aoLimiterTick (k : Fin 6)
  | aoclrAssert
  | aoclrRelease
  | aoSpanWrite (r : Req) (k : Fin 6) (value : Word)
  | spanChangeDone (k : Fin 6)
  | aoShort (k : Fin 6)
  -- Biscotti
  | comparatorProof (detected : List Bool)
  -- Emquin ring
  | ringCycle
  | syncSlot (bytes : List Byte) (arrival : Nat) (own : Bool)
  | ringHeartbeat (p : Fin 16) (bytes : List Byte)
  | censusChange
  | noLead
  | searchTimeout
  | mastershipChange
  | epochAdopt
  | honeycombReport (p : Fin 16) (bytes : List Byte)
  | allotment (bytes : List Byte)
  | streamSlot (slot : Fin 16) (bytes : List Byte)
  | transportSegment (bytes : List Byte)
  | segmentSend
  | segmentResend
  | breakDetected
  | heal
  -- Fruitcake record
  | sliceCommit (readBackOk : Bool)
  | blockReclaim
  | summaryPeriod
  | coupleWaitExpiry
  | fcPin (r : Req) (value : Word)
  | fcUnpin (r : Req) (value : Word)
  -- Finyr
  | lineReset
  | dbgRead (q : DbgReq)
  | dbgWrite (q : DbgReq) (data : List Word)
  | dbgHalt (q : DbgReq)
  | dbgResume (q : DbgReq)
  | dbgStep (q : DbgReq)
  | dbgBpSet (q : DbgReq) (data : List Word)
  | breakpointHit (port slot : Nat)
  | dbgStatus (q : DbgReq)
  | authChallenge (q : DbgReq)
  | authResponse (q : DbgReq) (mac : List Word) (elapsedUs : Nat)
  | authLockoutEnd
  | resetReq (q : DbgReq) (env : BootEnv)
  | closeSession (q : DbgReq)
  | retire (q : DbgReq) (env : FuseEnv)
  | sessionTimeout
  -- rows that end the table
  | vioBrownOutRelease (env : BootEnv)
  | vcoreBrownOutRelease (env : BootEnv)
  | holdupSwitchClose
  | configurationCheck (chk : Check)
  deriving DecidableEq, Repr

end Sys2Proof
end

