-- ==== Sys2Proof/Machine/Signals.lean ====
section
/-! DEFINITION. The signal tables of the spec (one table per block chapter): every signal with its class, item,
type, access, reset value, range, whether the parameter area keeps it, and its descriptor unit and scale.
Keys are SID bits [15:0] (R142). -/

namespace Sys2Proof.Machine

/-- The slot types of R145, with the TYPE codes of R146. -/
inductive SigType where
  | u8 | u16 | s16 | u32 | s32 | q15 | q31 | bits32
  deriving DecidableEq, Repr

/-- The access codes of R146. -/
inductive SigAccess where
  | rw | ro | wo | w1c | rwl
  deriving DecidableEq, Repr

/-- One row of a signal table: `dev` is 1 for a device-wide row and 0 for an axis row; `count` items from `item`;
`lo` and `hi` bound the value (for BITS32 `hi` is the mask of bits that are not reserved); `unit` is the UNIT code and the
SCALE bits of R146, absent where R146 lists no unit for the table's scale. -/
structure SigRow where
  dev : Nat
  item : Nat
  count : Nat
  ty : SigType
  acc : SigAccess
  reset : Nat
  lo : Int
  hi : Int
  kept : Bool
  unit : Option (Nat × Nat)
  deriving DecidableEq, Repr

namespace Sig

/-- DEV: SUP_STAT (R83). -/
abbrev SUP_STAT : Nat := 0x8000

/-- DEV: VBAT_MV (R83). -/
abbrev VBAT_MV : Nat := 0x8001

/-- DEV: VTRC_MV (R83). -/
abbrev VTRC_MV : Nat := 0x8002

/-- DEV: VDRV_MV (R83). -/
abbrev VDRV_MV : Nat := 0x8003

/-- DEV: VEXC_MV (R83). -/
abbrev VEXC_MV : Nat := 0x8004

/-- DEV: VHOLD_MV (R83). -/
abbrev VHOLD_MV : Nat := 0x8005

/-- DEV: VM0_MV–VM3_MV (R83). -/
abbrev VM_MV (k : Nat) : Nat := 0x8006 + k

/-- DEV: PWR_STATE (R83). -/
abbrev PWR_STATE : Nat := 0x8010

/-- DEV: PWR_REQ (R83). -/
abbrev PWR_REQ : Nat := 0x8011

/-- DEV: IDLE_SLEEP (R83). -/
abbrev IDLE_SLEEP : Nat := 0x8012

/-- DEV: WAKE_EN (R83). -/
abbrev WAKE_EN : Nat := 0x8013

/-- DEV: WAKE_CAUSE (R83). -/
abbrev WAKE_CAUSE : Nat := 0x8014

/-- DEV: LF_SECONDS (R83). -/
abbrev LF_SECONDS : Nat := 0x8015

/-- DEV: ALARM (R83). -/
abbrev ALARM : Nat := 0x8016

/-- DEV: PW_MASK (R83). -/
abbrev PW_MASK : Nat := 0x8018

/-- DEV: PW_EDGES (R83). -/
abbrev PW_EDGES : Nat := 0x8019

/-- DEV: PW_WINDOW (R83). -/
abbrev PW_WINDOW : Nat := 0x801A

/-- DEV: REFCLK_SRC (R83). -/
abbrev REFCLK_SRC : Nat := 0x8020

/-- DEV: LFCLK_SRC (R83). -/
abbrev LFCLK_SRC : Nat := 0x8021

/-- DEV: CLK_STAT (R83). -/
abbrev CLK_STAT : Nat := 0x8022

/-- DEV: COUPLED (R83). -/
abbrev COUPLED : Nat := 0x8028

/-- DEV: COUPLE_COUNT (R83). -/
abbrev COUPLE_COUNT : Nat := 0x8029

/-- DEV: RESET_CAUSE (R110). -/
abbrev RESET_CAUSE : Nat := 0x8910

/-- DEV: BOOT_STAT (R110). -/
abbrev BOOT_STAT : Nat := 0x8911

/-- DEV: ACTIVE_BANK (R110). -/
abbrev ACTIVE_BANK : Nat := 0x8912

/-- DEV: IMG_VER_A (R110). -/
abbrev IMG_VER_A : Nat := 0x8913

/-- DEV: IMG_VER_B (R110). -/
abbrev IMG_VER_B : Nat := 0x8914

/-- DEV: UPD_STATE (R110). -/
abbrev UPD_STATE : Nat := 0x8915

/-- DEV: TRIAL_TIMEOUT (R110). -/
abbrev TRIAL_TIMEOUT : Nat := 0x8916

/-- DEV: BOOT_TIME (R110). -/
abbrev BOOT_TIME : Nat := 0x8917

/-- DEV: BOOT_COUNT (R110). -/
abbrev BOOT_COUNT : Nat := 0x8918

/-- DEV: BOOT_PST_EN (R110). -/
abbrev BOOT_PST_EN : Nat := 0x8919

/-- DEV: PART_ID (R175). -/
abbrev PART_ID : Nat := 0x8900

/-- DEV: SILICON (R175). -/
abbrev SILICON : Nat := 0x8901

/-- DEV: RING_ID (R175). -/
abbrev RING_ID : Nat := 0x8902

/-- DEV: PROTOCOL (R175). -/
abbrev PROTOCOL : Nat := 0x8903

/-- DEV: SERIAL_HI (R175). -/
abbrev SERIAL_HI : Nat := 0x8904

/-- DEV: SERIAL_LO (R175). -/
abbrev SERIAL_LO : Nat := 0x8905

/-- DEV: FW_VER (R175). -/
abbrev FW_VER : Nat := 0x8906

/-- DEV: ROM_VER (R175). -/
abbrev ROM_VER : Nat := 0x8907

/-- DEV: US_TIME (R175). -/
abbrev US_TIME : Nat := 0x8920

/-- DEV: GROUP0–GROUP3 (R175). -/
abbrev GROUP (k : Nat) : Nat := 0x8921 + k

/-- DEV: DEFER_MAX (R175). -/
abbrev DEFER_MAX : Nat := 0x8925

/-- DEV: DEFER_DEPTH (R175). -/
abbrev DEFER_DEPTH : Nat := 0x8926

/-- DEV: AGG_TIMEOUT (R175). -/
abbrev AGG_TIMEOUT : Nat := 0x8927

/-- DEV: SUB_ACTIVE (R175). -/
abbrev SUB_ACTIVE : Nat := 0x8928

/-- DEV: SUB_LOAD (R175). -/
abbrev SUB_LOAD : Nat := 0x8929

/-- DEV: LIMIT_ACTIVE (R175). -/
abbrev LIMIT_ACTIVE : Nat := 0x892A

/-- DEV: CMD_COUNT (R175). -/
abbrev CMD_COUNT : Nat := 0x892B

/-- DEV: CMD_FAIL_COUNT (R175). -/
abbrev CMD_FAIL_COUNT : Nat := 0x892C

/-- DEV: LAST_FAIL (R175). -/
abbrev LAST_FAIL : Nat := 0x892D

/-- AXn: PWM_PER (R213). -/
abbrev PWM_PER (n : Nat) : Nat := n * 0x1000 + 0x000

/-- AXn: PWM_ALIGN (R213). -/
abbrev PWM_ALIGN (n : Nat) : Nat := n * 0x1000 + 0x001

/-- AXn: PWM_OFFSET (R213). -/
abbrev PWM_OFFSET (n : Nat) : Nat := n * 0x1000 + 0x002

/-- AXn: PWM_SRC (R213). -/
abbrev PWM_SRC (n : Nat) : Nat := n * 0x1000 + 0x003

/-- AXn: PWM_RELOAD (R213). -/
abbrev PWM_RELOAD (n : Nat) : Nat := n * 0x1000 + 0x004

/-- AXn: PWM_CMPU (R213). -/
abbrev PWM_CMPU (n : Nat) : Nat := n * 0x1000 + 0x008

/-- AXn: PWM_CMPV (R213). -/
abbrev PWM_CMPV (n : Nat) : Nat := n * 0x1000 + 0x009

/-- AXn: PWM_CMPW (R213). -/
abbrev PWM_CMPW (n : Nat) : Nat := n * 0x1000 + 0x00A

/-- AXn: PWM_DTMIN (R213). -/
abbrev PWM_DTMIN (n : Nat) : Nat := n * 0x1000 + 0x010

/-- AXn: PWM_MINPW (R213). -/
abbrev PWM_MINPW (n : Nat) : Nat := n * 0x1000 + 0x011

/-- AXn: PWM_MINPW_MODE (R213). -/
abbrev PWM_MINPW_MODE (n : Nat) : Nat := n * 0x1000 + 0x012

/-- AXn: PWM_BSN (R213). -/
abbrev PWM_BSN (n : Nat) : Nat := n * 0x1000 + 0x014

/-- AXn: PWM_BSREF (R213). -/
abbrev PWM_BSREF (n : Nat) : Nat := n * 0x1000 + 0x015

/-- AXn: PWM_TRGA (R213). -/
abbrev PWM_TRGA (n : Nat) : Nat := n * 0x1000 + 0x018

/-- AXn: PWM_TRGA_SLOPE (R213). -/
abbrev PWM_TRGA_SLOPE (n : Nat) : Nat := n * 0x1000 + 0x019

/-- AXn: PWM_TRGB (R213). -/
abbrev PWM_TRGB (n : Nat) : Nat := n * 0x1000 + 0x01A

/-- AXn: PWM_TRGB_SLOPE (R213). -/
abbrev PWM_TRGB_SLOPE (n : Nat) : Nat := n * 0x1000 + 0x01B

/-- AXn: PWM_STAT (R213). -/
abbrev PWM_STAT (n : Nat) : Nat := n * 0x1000 + 0x020

/-- AXn: ATC_SRC (R213). -/
abbrev ATC_SRC (n : Nat) : Nat := n * 0x1000 + 0x040

/-- AXn: ATC_EDGES (R213). -/
abbrev ATC_EDGES (n : Nat) : Nat := n * 0x1000 + 0x041

/-- AXn: ATC_DELAY (R213). -/
abbrev ATC_DELAY (n : Nat) : Nat := n * 0x1000 + 0x042

/-- AXn: ATC_WIDTH (R213). -/
abbrev ATC_WIDTH (n : Nat) : Nat := n * 0x1000 + 0x043

/-- AXn: PWM_CNT (R213). -/
abbrev PWM_CNT (n : Nat) : Nat := n * 0x1000 + 0x800

/-- AXn: PWM_ACT_CMPU (R213). -/
abbrev PWM_ACT_CMPU (n : Nat) : Nat := n * 0x1000 + 0x801

/-- AXn: PWM_ACT_CMPV (R213). -/
abbrev PWM_ACT_CMPV (n : Nat) : Nat := n * 0x1000 + 0x802

/-- AXn: PWM_ACT_CMPW (R213). -/
abbrev PWM_ACT_CMPW (n : Nat) : Nat := n * 0x1000 + 0x803

/-- AXn: PWM_DT_HS_U (R213). -/
abbrev PWM_DT_HS_U (n : Nat) : Nat := n * 0x1000 + 0x804

/-- AXn: PWM_DT_HS_V (R213). -/
abbrev PWM_DT_HS_V (n : Nat) : Nat := n * 0x1000 + 0x805

/-- AXn: PWM_DT_HS_W (R213). -/
abbrev PWM_DT_HS_W (n : Nat) : Nat := n * 0x1000 + 0x806

/-- AXn: PWM_LATE_COUNT (R213). -/
abbrev PWM_LATE_COUNT (n : Nat) : Nat := n * 0x1000 + 0x807

/-- AXn: PWM_CATCHUP_COUNT (R213). -/
abbrev PWM_CATCHUP_COUNT (n : Nat) : Nat := n * 0x1000 + 0x808

/-- AXn: PWM_FILTER_COUNT (R213). -/
abbrev PWM_FILTER_COUNT (n : Nat) : Nat := n * 0x1000 + 0x809

/-- AXn: PWM_BSREF_COUNT (R213). -/
abbrev PWM_BSREF_COUNT (n : Nat) : Nat := n * 0x1000 + 0x80A

/-- AXn: GD_SC_MODE (R246). -/
abbrev GD_SC_MODE (n : Nat) : Nat := n * 0x1000 + 0x100

/-- AXn: GD_SC_ITHR_HS (R246). -/
abbrev GD_SC_ITHR_HS (n : Nat) : Nat := n * 0x1000 + 0x101

/-- AXn: GD_SC_ITHR_LS (R246). -/
abbrev GD_SC_ITHR_LS (n : Nat) : Nat := n * 0x1000 + 0x102

/-- AXn: GD_DIDT_THR_HS (R246). -/
abbrev GD_DIDT_THR_HS (n : Nat) : Nat := n * 0x1000 + 0x103

/-- AXn: GD_DIDT_THR_LS (R246). -/
abbrev GD_DIDT_THR_LS (n : Nat) : Nat := n * 0x1000 + 0x104

/-- AXn: GD_SC_BLANK (R246). -/
abbrev GD_SC_BLANK (n : Nat) : Nat := n * 0x1000 + 0x105

/-- AXn: GD_SC_FILT (R246). -/
abbrev GD_SC_FILT (n : Nat) : Nat := n * 0x1000 + 0x106

/-- AXn: GD_CPT_EN (R246). -/
abbrev GD_CPT_EN (n : Nat) : Nat := n * 0x1000 + 0x108

/-- AXn: GD_PRECHG_N (R246). -/
abbrev GD_PRECHG_N (n : Nat) : Nat := n * 0x1000 + 0x109

/-- AXn: GD_PRECHG_ON (R246). -/
abbrev GD_PRECHG_ON (n : Nat) : Nat := n * 0x1000 + 0x10A

/-- AXn: GD_PRECHG_OFF (R246). -/
abbrev GD_PRECHG_OFF (n : Nat) : Nat := n * 0x1000 + 0x10B

/-- AXn: GD_SAFE_PAT (R246). -/
abbrev GD_SAFE_PAT (n : Nat) : Nat := n * 0x1000 + 0x110

/-- AXn: GD_SAFE_PAT_NEXT (R246). -/
abbrev GD_SAFE_PAT_NEXT (n : Nat) : Nat := n * 0x1000 + 0x111

/-- AXn: GD_TRIP_ACT (R246). -/
abbrev GD_TRIP_ACT (n : Nat) : Nat := n * 0x1000 + 0x118

/-- AXn: GD_TRIP_FILT (R246). -/
abbrev GD_TRIP_FILT (n : Nat) : Nat := n * 0x1000 + 0x119

/-- AXn: GD_LATCH (R246). -/
abbrev GD_LATCH (n : Nat) : Nat := n * 0x1000 + 0x120

/-- AXn: GD_STAT (R246). -/
abbrev GD_STAT (n : Nat) : Nat := n * 0x1000 + 0x121

/-- AXn: GD_PST_RESULT (R246). -/
abbrev GD_PST_RESULT (n : Nat) : Nat := n * 0x1000 + 0x122

/-- AXn: GD_SC_COUNT (R246). -/
abbrev GD_SC_COUNT (n : Nat) : Nat := n * 0x1000 + 0x810

/-- AXn: GD_DIDT_COUNT (R246). -/
abbrev GD_DIDT_COUNT (n : Nat) : Nat := n * 0x1000 + 0x811

/-- AXn: GD_WEAK_COUNT (R246). -/
abbrev GD_WEAK_COUNT (n : Nat) : Nat := n * 0x1000 + 0x812

/-- AXn: GD_TRIP_COUNT (R246). -/
abbrev GD_TRIP_COUNT (n : Nat) : Nat := n * 0x1000 + 0x813

/-- AXn: GD_RISE_MAX (R246). -/
abbrev GD_RISE_MAX (n : Nat) : Nat := n * 0x1000 + 0x814

/-- AXn: GD_PWR_MW (R246). -/
abbrev GD_PWR_MW (n : Nat) : Nat := n * 0x1000 + 0x815

/-- DEV: SMP_STAT (R270). -/
abbrev SMP_STAT : Nat := 0x8100

/-- DEV: SMP_LIVE (R270). -/
abbrev SMP_LIVE : Nat := 0x8101

/-- DEV: SMP_OVR_COUNT0–SMP_OVR_COUNT3 (R270). -/
abbrev SMP_OVR_COUNT (k : Nat) : Nat := 0x8104 + k

/-- DEV: SMP_TAG_LOST0–SMP_TAG_LOST1 (R270). -/
abbrev SMP_TAG_LOST (k : Nat) : Nat := 0x8108 + k

/-- DEV: SMP_FIFO_MAX0–SMP_FIFO_MAX1 (R270). -/
abbrev SMP_FIFO_MAX (k : Nat) : Nat := 0x810A + k

/-- DEV: SMP_GAIN_AX0–SMP_GAIN_AX7 (R270). -/
abbrev SMP_GAIN_AX (k : Nat) : Nat := 0x8110 + k

/-- DEV: SMP_AVG_W_AX0–SMP_AVG_W_AX7 (R270). -/
abbrev SMP_AVG_W_AX (k : Nat) : Nat := 0x8118 + k

/-- DEV: SMP_SETTLE_AX0–SMP_SETTLE_AX7 (R270). -/
abbrev SMP_SETTLE_AX (k : Nat) : Nat := 0x8120 + k

/-- DEV: SMP_RSHUNT_AX0–SMP_RSHUNT_AX7 (R270). -/
abbrev SMP_RSHUNT_AX (k : Nat) : Nat := 0x8128 + k

/-- DEV: SMP_OFS0–SMP_OFS15 (R270). -/
abbrev SMP_OFS (k : Nat) : Nat := 0x8130 + k

/-- DEV: SMP_DIMAX_AX0–SMP_DIMAX_AX7 (R270). -/
abbrev SMP_DIMAX_AX (k : Nat) : Nat := 0x8140 + k

/-- DEV: SMP_HK0–SMP_HK31 (R270). -/
abbrev SMP_HK (k : Nat) : Nat := 0x8150 + k

/-- AXn: LP_AXIS_STATE (R308). -/
abbrev LP_AXIS_STATE (n : Nat) : Nat := n * 0x1000 + 0x200

/-- AXn: LP_HELD_STATE (R308). -/
abbrev LP_HELD_STATE (n : Nat) : Nat := n * 0x1000 + 0x201

/-- AXn: LP_TAG_SEL (R308). -/
abbrev LP_TAG_SEL (n : Nat) : Nat := n * 0x1000 + 0x202

/-- AXn: LP_DIV_SPD (R308). -/
abbrev LP_DIV_SPD (n : Nat) : Nat := n * 0x1000 + 0x203

/-- AXn: LP_DIV_POS (R308). -/
abbrev LP_DIV_POS (n : Nat) : Nat := n * 0x1000 + 0x204

/-- AXn: LP_ANG_SRC (R308). -/
abbrev LP_ANG_SRC (n : Nat) : Nat := n * 0x1000 + 0x205

/-- AXn: LP_FB_SRC (R308). -/
abbrev LP_FB_SRC (n : Nat) : Nat := n * 0x1000 + 0x206

/-- AXn: LP_EANG_MUL (R308). -/
abbrev LP_EANG_MUL (n : Nat) : Nat := n * 0x1000 + 0x207

/-- AXn: LP_EANG_OFS (R308). -/
abbrev LP_EANG_OFS (n : Nat) : Nat := n * 0x1000 + 0x208

/-- AXn: LP_ADV (R308). -/
abbrev LP_ADV (n : Nat) : Nat := n * 0x1000 + 0x209

/-- AXn: LP_KP_D (R308). -/
abbrev LP_KP_D (n : Nat) : Nat := n * 0x1000 + 0x210

/-- AXn: LP_KI_D (R308). -/
abbrev LP_KI_D (n : Nat) : Nat := n * 0x1000 + 0x211

/-- AXn: LP_KP_Q (R308). -/
abbrev LP_KP_Q (n : Nat) : Nat := n * 0x1000 + 0x212

/-- AXn: LP_KI_Q (R308). -/
abbrev LP_KI_Q (n : Nat) : Nat := n * 0x1000 + 0x213

/-- AXn: LP_KP_SPD (R308). -/
abbrev LP_KP_SPD (n : Nat) : Nat := n * 0x1000 + 0x214

/-- AXn: LP_KI_SPD (R308). -/
abbrev LP_KI_SPD (n : Nat) : Nat := n * 0x1000 + 0x215

/-- AXn: LP_KP_POS (R308). -/
abbrev LP_KP_POS (n : Nat) : Nat := n * 0x1000 + 0x216

/-- AXn: LP_KI_POS (R308). -/
abbrev LP_KI_POS (n : Nat) : Nat := n * 0x1000 + 0x217

/-- AXn: LP_DECOUPLE (R308). -/
abbrev LP_DECOUPLE (n : Nat) : Nat := n * 0x1000 + 0x218

/-- AXn: LP_LD (R308). -/
abbrev LP_LD (n : Nat) : Nat := n * 0x1000 + 0x219

/-- AXn: LP_LQ (R308). -/
abbrev LP_LQ (n : Nat) : Nat := n * 0x1000 + 0x21A

/-- AXn: LP_PSI (R308). -/
abbrev LP_PSI (n : Nat) : Nat := n * 0x1000 + 0x21B

/-- AXn: LP_IMAX (R308). -/
abbrev LP_IMAX (n : Nat) : Nat := n * 0x1000 + 0x220

/-- AXn: LP_ID_REF (R308). -/
abbrev LP_ID_REF (n : Nat) : Nat := n * 0x1000 + 0x221

/-- AXn: LP_IQ_REF (R308). -/
abbrev LP_IQ_REF (n : Nat) : Nat := n * 0x1000 + 0x222

/-- AXn: LP_IQ_SLEW (R308). -/
abbrev LP_IQ_SLEW (n : Nat) : Nat := n * 0x1000 + 0x223

/-- AXn: LP_SPD_REF (R308). -/
abbrev LP_SPD_REF (n : Nat) : Nat := n * 0x1000 + 0x224

/-- AXn: LP_SPD_SLEW (R308). -/
abbrev LP_SPD_SLEW (n : Nat) : Nat := n * 0x1000 + 0x225

/-- AXn: LP_SPD_MAX (R308). -/
abbrev LP_SPD_MAX (n : Nat) : Nat := n * 0x1000 + 0x226

/-- AXn: LP_VD_OL (R308). -/
abbrev LP_VD_OL (n : Nat) : Nat := n * 0x1000 + 0x227

/-- AXn: LP_VQ_OL (R308). -/
abbrev LP_VQ_OL (n : Nat) : Nat := n * 0x1000 + 0x228

/-- AXn: LP_OL_ANG (R308). -/
abbrev LP_OL_ANG (n : Nat) : Nat := n * 0x1000 + 0x229

/-- AXn: LP_OL_SPEED (R308). -/
abbrev LP_OL_SPEED (n : Nat) : Nat := n * 0x1000 + 0x22A

/-- AXn: LP_HOLD_PCT (R308). -/
abbrev LP_HOLD_PCT (n : Nat) : Nat := n * 0x1000 + 0x22B

/-- AXn: LP_MOD_MAX (R308). -/
abbrev LP_MOD_MAX (n : Nat) : Nat := n * 0x1000 + 0x230

/-- AXn: LP_DUTY_MIN (R308). -/
abbrev LP_DUTY_MIN (n : Nat) : Nat := n * 0x1000 + 0x231

/-- AXn: LP_DUTY_MAX (R308). -/
abbrev LP_DUTY_MAX (n : Nat) : Nat := n * 0x1000 + 0x232

/-- AXn: LP_VM_FLOOR (R308). -/
abbrev LP_VM_FLOOR (n : Nat) : Nat := n * 0x1000 + 0x233

/-- AXn: LP_KVFF (R308). -/
abbrev LP_KVFF (n : Nat) : Nat := n * 0x1000 + 0x234

/-- AXn: LP_KAFF (R308). -/
abbrev LP_KAFF (n : Nat) : Nat := n * 0x1000 + 0x235

/-- AXn: LP_INERTIA (R308). -/
abbrev LP_INERTIA (n : Nat) : Nat := n * 0x1000 + 0x236

/-- AXn: LP_KT (R308). -/
abbrev LP_KT (n : Nat) : Nat := n * 0x1000 + 0x237

/-- AXn: LP_POS_ERR_MAX (R308). -/
abbrev LP_POS_ERR_MAX (n : Nat) : Nat := n * 0x1000 + 0x238

/-- AXn: LP_STAT (R308). -/
abbrev LP_STAT (n : Nat) : Nat := n * 0x1000 + 0x240

/-- AXn: LP_ID (R308). -/
abbrev LP_ID (n : Nat) : Nat := n * 0x1000 + 0x820

/-- AXn: LP_IQ (R308). -/
abbrev LP_IQ (n : Nat) : Nat := n * 0x1000 + 0x821

/-- AXn: LP_VD (R308). -/
abbrev LP_VD (n : Nat) : Nat := n * 0x1000 + 0x822

/-- AXn: LP_VQ (R308). -/
abbrev LP_VQ (n : Nat) : Nat := n * 0x1000 + 0x823

/-- AXn: LP_SPEED (R308). -/
abbrev LP_SPEED (n : Nat) : Nat := n * 0x1000 + 0x824

/-- AXn: LP_POS (R308). -/
abbrev LP_POS (n : Nat) : Nat := n * 0x1000 + 0x825

/-- AXn: LP_POS_REF (R308). -/
abbrev LP_POS_REF (n : Nat) : Nat := n * 0x1000 + 0x826

/-- AXn: LP_ILIM (R308). -/
abbrev LP_ILIM (n : Nat) : Nat := n * 0x1000 + 0x827

/-- AXn: LP_TASK_RATE (R308). -/
abbrev LP_TASK_RATE (n : Nat) : Nat := n * 0x1000 + 0x828

/-- AXn: LP_PASSES (R308). -/
abbrev LP_PASSES (n : Nat) : Nat := n * 0x1000 + 0x829

/-- AXn: LP_LOAD (R308). -/
abbrev LP_LOAD (n : Nat) : Nat := n * 0x1000 + 0x82A

/-- AXn: LP_TASK_COUNT (R308). -/
abbrev LP_TASK_COUNT (n : Nat) : Nat := n * 0x1000 + 0x82B

/-- AXn: LP_SKIP_COUNT (R308). -/
abbrev LP_SKIP_COUNT (n : Nat) : Nat := n * 0x1000 + 0x82C

/-- AXn: CAR_TARGET (R339). -/
abbrev CAR_TARGET (n : Nat) : Nat := n * 0x1000 + 0x300

/-- AXn: CAR_VTARGET (R339). -/
abbrev CAR_VTARGET (n : Nat) : Nat := n * 0x1000 + 0x301

/-- AXn: CAR_STATE (R339). -/
abbrev CAR_STATE (n : Nat) : Nat := n * 0x1000 + 0x302

/-- AXn: CAR_VMAX (R339). -/
abbrev CAR_VMAX (n : Nat) : Nat := n * 0x1000 + 0x308

/-- AXn: CAR_ACC (R339). -/
abbrev CAR_ACC (n : Nat) : Nat := n * 0x1000 + 0x309

/-- AXn: CAR_DEC (R339). -/
abbrev CAR_DEC (n : Nat) : Nat := n * 0x1000 + 0x30A

/-- AXn: CAR_JERK (R339). -/
abbrev CAR_JERK (n : Nat) : Nat := n * 0x1000 + 0x30B

/-- AXn: CAR_VSTART (R339). -/
abbrev CAR_VSTART (n : Nat) : Nat := n * 0x1000 + 0x30C

/-- AXn: CAR_VSTOP (R339). -/
abbrev CAR_VSTOP (n : Nat) : Nat := n * 0x1000 + 0x30D

/-- AXn: CAR_STP_SET (R339). -/
abbrev CAR_STP_SET (n : Nat) : Nat := n * 0x1000 + 0x310

/-- AXn: CAR_STP_SHIFT (R339). -/
abbrev CAR_STP_SHIFT (n : Nat) : Nat := n * 0x1000 + 0x311

/-- AXn: CAR_STP_WIDTH (R339). -/
abbrev CAR_STP_WIDTH (n : Nat) : Nat := n * 0x1000 + 0x312

/-- AXn: CAR_DIR_SETUP (R339). -/
abbrev CAR_DIR_SETUP (n : Nat) : Nat := n * 0x1000 + 0x313

/-- AXn: CAR_CMP0_POS–CAR_CMP3_POS (R339). -/
abbrev CAR_CMP_POS (n k : Nat) : Nat := n * 0x1000 + 0x320 + k

/-- AXn: CAR_CMP0_CFG–CAR_CMP3_CFG (R339). -/
abbrev CAR_CMP_CFG (n k : Nat) : Nat := n * 0x1000 + 0x324 + k

/-- AXn: CAR_CMP_STAT (R339). -/
abbrev CAR_CMP_STAT (n : Nat) : Nat := n * 0x1000 + 0x328

/-- AXn: CAR_STAT (R339). -/
abbrev CAR_STAT (n : Nat) : Nat := n * 0x1000 + 0x330

/-- AXn: CAR_POS (R339). -/
abbrev CAR_POS (n : Nat) : Nat := n * 0x1000 + 0x830

/-- AXn: CAR_VEL (R339). -/
abbrev CAR_VEL (n : Nat) : Nat := n * 0x1000 + 0x831

/-- AXn: CAR_ACCEL (R339). -/
abbrev CAR_ACCEL (n : Nat) : Nat := n * 0x1000 + 0x832

/-- AXn: CAR_REMAIN_US (R339). -/
abbrev CAR_REMAIN_US (n : Nat) : Nat := n * 0x1000 + 0x833

/-- AXn: CAR_DNEED (R339). -/
abbrev CAR_DNEED (n : Nat) : Nat := n * 0x1000 + 0x834

/-- AXn: CAR_PEAK_V (R339). -/
abbrev CAR_PEAK_V (n : Nat) : Nat := n * 0x1000 + 0x835

/-- AXn: CAR_PEAK_A (R339). -/
abbrev CAR_PEAK_A (n : Nat) : Nat := n * 0x1000 + 0x836

/-- AXn: CAR_REPLAN_COUNT (R339). -/
abbrev CAR_REPLAN_COUNT (n : Nat) : Nat := n * 0x1000 + 0x837

/-- AXn: CAR_CMP0_TIME–CAR_CMP3_TIME (R339). -/
abbrev CAR_CMP_TIME (n k : Nat) : Nat := n * 0x1000 + 0x838 + k

/-- AXn: CAR_STP_COUNT (R339). -/
abbrev CAR_STP_COUNT (n : Nat) : Nat := n * 0x1000 + 0x83C

/-- AXn: CAR_STP_DEBT (R339). -/
abbrev CAR_STP_DEBT (n : Nat) : Nat := n * 0x1000 + 0x83D

/-- AXn: RSV_EN (R386). -/
abbrev RSV_EN (n : Nat) : Nat := n * 0x1000 + 0x400

/-- AXn: RSV_DIR (R386). -/
abbrev RSV_DIR (n : Nat) : Nat := n * 0x1000 + 0x401

/-- AXn: RSV_IN_GAIN (R386). -/
abbrev RSV_IN_GAIN (n : Nat) : Nat := n * 0x1000 + 0x402

/-- AXn: RSV_BW (R386). -/
abbrev RSV_BW (n : Nat) : Nat := n * 0x1000 + 0x403

/-- AXn: RSV_COAST_MAX (R386). -/
abbrev RSV_COAST_MAX (n : Nat) : Nat := n * 0x1000 + 0x404

/-- AXn: RSV_TURNS (R386). -/
abbrev RSV_TURNS (n : Nat) : Nat := n * 0x1000 + 0x405

/-- AXn: RSV_EXC_FREQ (R386). -/
abbrev RSV_EXC_FREQ (n : Nat) : Nat := n * 0x1000 + 0x408

/-- AXn: RSV_EXC_AMP (R386). -/
abbrev RSV_EXC_AMP (n : Nat) : Nat := n * 0x1000 + 0x409

/-- AXn: RSV_AMP_NOM (R386). -/
abbrev RSV_AMP_NOM (n : Nat) : Nat := n * 0x1000 + 0x40A

/-- AXn: RSV_AMP_LO (R386). -/
abbrev RSV_AMP_LO (n : Nat) : Nat := n * 0x1000 + 0x40B

/-- AXn: RSV_AMP_HI (R386). -/
abbrev RSV_AMP_HI (n : Nat) : Nat := n * 0x1000 + 0x40C

/-- AXn: RSV_OFS_MAX (R386). -/
abbrev RSV_OFS_MAX (n : Nat) : Nat := n * 0x1000 + 0x40D

/-- AXn: RSV_QUAD_MAX (R386). -/
abbrev RSV_QUAD_MAX (n : Nat) : Nat := n * 0x1000 + 0x40E

/-- AXn: RSV_TRK_ERR_MAX (R386). -/
abbrev RSV_TRK_ERR_MAX (n : Nat) : Nat := n * 0x1000 + 0x40F

/-- AXn: RSV_PROBE_PER (R386). -/
abbrev RSV_PROBE_PER (n : Nat) : Nat := n * 0x1000 + 0x410

/-- AXn: RSV_CMP_CTRL (R386). -/
abbrev RSV_CMP_CTRL (n : Nat) : Nat := n * 0x1000 + 0x418

/-- AXn: RSV_CMP_EN (R386). -/
abbrev RSV_CMP_EN (n : Nat) : Nat := n * 0x1000 + 0x419

/-- AXn: RSV_LEARN_VMIN (R386). -/
abbrev RSV_LEARN_VMIN (n : Nat) : Nat := n * 0x1000 + 0x41A

/-- AXn: RSV_LEARN_VMAX (R386). -/
abbrev RSV_LEARN_VMAX (n : Nat) : Nat := n * 0x1000 + 0x41B

/-- AXn: RSV_LEARN_REVS (R386). -/
abbrev RSV_LEARN_REVS (n : Nat) : Nat := n * 0x1000 + 0x41C

/-- AXn: RSV_CMP_IDX (R386). -/
abbrev RSV_CMP_IDX (n : Nat) : Nat := n * 0x1000 + 0x41D

/-- AXn: RSV_CMP_VAL (R386). -/
abbrev RSV_CMP_VAL (n : Nat) : Nat := n * 0x1000 + 0x41E

/-- AXn: RSV_EM_SET (R386). -/
abbrev RSV_EM_SET (n : Nat) : Nat := n * 0x1000 + 0x420

/-- AXn: RSV_EM_LINES (R386). -/
abbrev RSV_EM_LINES (n : Nat) : Nat := n * 0x1000 + 0x421

/-- AXn: RSV_EM_ZOFS (R386). -/
abbrev RSV_EM_ZOFS (n : Nat) : Nat := n * 0x1000 + 0x422

/-- AXn: RSV_EM_CFG (R386). -/
abbrev RSV_EM_CFG (n : Nat) : Nat := n * 0x1000 + 0x423

/-- AXn: RSV_STAT (R386). -/
abbrev RSV_STAT (n : Nat) : Nat := n * 0x1000 + 0x428

/-- AXn: RSV_ANGLE (R386). -/
abbrev RSV_ANGLE (n : Nat) : Nat := n * 0x1000 + 0x840

/-- AXn: RSV_POS (R386). -/
abbrev RSV_POS (n : Nat) : Nat := n * 0x1000 + 0x841

/-- AXn: RSV_SPEED (R386). -/
abbrev RSV_SPEED (n : Nat) : Nat := n * 0x1000 + 0x842

/-- AXn: RSV_AMP (R386). -/
abbrev RSV_AMP (n : Nat) : Nat := n * 0x1000 + 0x843

/-- AXn: RSV_AMP_REF (R386). -/
abbrev RSV_AMP_REF (n : Nat) : Nat := n * 0x1000 + 0x844

/-- AXn: RSV_OFS_S (R386). -/
abbrev RSV_OFS_S (n : Nat) : Nat := n * 0x1000 + 0x845

/-- AXn: RSV_OFS_C (R386). -/
abbrev RSV_OFS_C (n : Nat) : Nat := n * 0x1000 + 0x846

/-- AXn: RSV_PHASE (R386). -/
abbrev RSV_PHASE (n : Nat) : Nat := n * 0x1000 + 0x847

/-- AXn: RSV_QUAD (R386). -/
abbrev RSV_QUAD (n : Nat) : Nat := n * 0x1000 + 0x848

/-- AXn: RSV_TRK_ERR (R386). -/
abbrev RSV_TRK_ERR (n : Nat) : Nat := n * 0x1000 + 0x849

/-- AXn: RSV_LIVE (R386). -/
abbrev RSV_LIVE (n : Nat) : Nat := n * 0x1000 + 0x84A

/-- AXn: RSV_EXC_IPK (R386). -/
abbrev RSV_EXC_IPK (n : Nat) : Nat := n * 0x1000 + 0x84B

/-- AXn: RSV_LEARN_PROG (R386). -/
abbrev RSV_LEARN_PROG (n : Nat) : Nat := n * 0x1000 + 0x84C

/-- AXn: RSV_CMP_PEAK (R386). -/
abbrev RSV_CMP_PEAK (n : Nat) : Nat := n * 0x1000 + 0x84D

/-- AXn: RSV_EM_COUNT (R386). -/
abbrev RSV_EM_COUNT (n : Nat) : Nat := n * 0x1000 + 0x84E

/-- AXn: RSV_FAIL_COUNT (R386). -/
abbrev RSV_FAIL_COUNT (n : Nat) : Nat := n * 0x1000 + 0x84F

/-- AXn: OBS_EN (R406). -/
abbrev OBS_EN (n : Nat) : Nat := n * 0x1000 + 0x600

/-- AXn: OBS_RS (R406). -/
abbrev OBS_RS (n : Nat) : Nat := n * 0x1000 + 0x601

/-- AXn: OBS_RATED_SPEED (R406). -/
abbrev OBS_RATED_SPEED (n : Nat) : Nat := n * 0x1000 + 0x602

/-- AXn: OBS_VMIN_PCT (R406). -/
abbrev OBS_VMIN_PCT (n : Nat) : Nat := n * 0x1000 + 0x603

/-- AXn: OBS_BW (R406). -/
abbrev OBS_BW (n : Nat) : Nat := n * 0x1000 + 0x604

/-- AXn: OBS_AGREE_MAX (R406). -/
abbrev OBS_AGREE_MAX (n : Nat) : Nat := n * 0x1000 + 0x605

/-- AXn: OBS_AGREE_TIME (R406). -/
abbrev OBS_AGREE_TIME (n : Nat) : Nat := n * 0x1000 + 0x606

/-- AXn: OBS_CONT_EN (R406). -/
abbrev OBS_CONT_EN (n : Nat) : Nat := n * 0x1000 + 0x607

/-- AXn: OBS_SENS_PCT (R406). -/
abbrev OBS_SENS_PCT (n : Nat) : Nat := n * 0x1000 + 0x608

/-- AXn: OBS_HFI_EN (R406). -/
abbrev OBS_HFI_EN (n : Nat) : Nat := n * 0x1000 + 0x609

/-- AXn: OBS_HFI_AMP (R406). -/
abbrev OBS_HFI_AMP (n : Nat) : Nat := n * 0x1000 + 0x60A

/-- AXn: OBS_HFI_BW (R406). -/
abbrev OBS_HFI_BW (n : Nat) : Nat := n * 0x1000 + 0x60B

/-- AXn: OBS_STAT (R406). -/
abbrev OBS_STAT (n : Nat) : Nat := n * 0x1000 + 0x610

/-- AXn: OBS_ANGLE (R406). -/
abbrev OBS_ANGLE (n : Nat) : Nat := n * 0x1000 + 0x850

/-- AXn: OBS_SPEED (R406). -/
abbrev OBS_SPEED (n : Nat) : Nat := n * 0x1000 + 0x851

/-- AXn: OBS_DELTA (R406). -/
abbrev OBS_DELTA (n : Nat) : Nat := n * 0x1000 + 0x852

/-- AXn: OBS_EMF (R406). -/
abbrev OBS_EMF (n : Nat) : Nat := n * 0x1000 + 0x853

/-- AXn: OBS_LIVE (R406). -/
abbrev OBS_LIVE (n : Nat) : Nat := n * 0x1000 + 0x854

/-- AXn: OBS_HFI_ERR (R406). -/
abbrev OBS_HFI_ERR (n : Nat) : Nat := n * 0x1000 + 0x855

/-- AXn: OBS_DISAGREE_COUNT (R406). -/
abbrev OBS_DISAGREE_COUNT (n : Nat) : Nat := n * 0x1000 + 0x856

/-- AXn: OBS_SENSORLESS_MS (R406). -/
abbrev OBS_SENSORLESS_MS (n : Nat) : Nat := n * 0x1000 + 0x857

/-- AXn: FB_MODE (R428). -/
abbrev FB_MODE (n : Nat) : Nat := n * 0x1000 + 0x500

/-- AXn: FB_LINES (R428). -/
abbrev FB_LINES (n : Nat) : Nat := n * 0x1000 + 0x501

/-- AXn: FB_INV (R428). -/
abbrev FB_INV (n : Nat) : Nat := n * 0x1000 + 0x502

/-- AXn: FB_FILT_PRE (R428). -/
abbrev FB_FILT_PRE (n : Nat) : Nat := n * 0x1000 + 0x503

/-- AXn: FB_FILT_N (R428). -/
abbrev FB_FILT_N (n : Nat) : Nat := n * 0x1000 + 0x504

/-- AXn: FB_STILL_TIME (R428). -/
abbrev FB_STILL_TIME (n : Nat) : Nat := n * 0x1000 + 0x505

/-- AXn: FB_SPD_WIN (R428). -/
abbrev FB_SPD_WIN (n : Nat) : Nat := n * 0x1000 + 0x506

/-- AXn: FB_Z_EN (R428). -/
abbrev FB_Z_EN (n : Nat) : Nat := n * 0x1000 + 0x507

/-- AXn: FB_Z_TOL (R428). -/
abbrev FB_Z_TOL (n : Nat) : Nat := n * 0x1000 + 0x508

/-- AXn: FB_Z_MODE (R428). -/
abbrev FB_Z_MODE (n : Nat) : Nat := n * 0x1000 + 0x509

/-- AXn: FB_Z_HOME (R428). -/
abbrev FB_Z_HOME (n : Nat) : Nat := n * 0x1000 + 0x50A

/-- AXn: FB_Z_ARM (R428). -/
abbrev FB_Z_ARM (n : Nat) : Nat := n * 0x1000 + 0x50B

/-- AXn: FB_WSS_SIGN (R428). -/
abbrev FB_WSS_SIGN (n : Nat) : Nat := n * 0x1000 + 0x50C

/-- AXn: FB_RING_SRC (R428). -/
abbrev FB_RING_SRC (n : Nat) : Nat := n * 0x1000 + 0x50D

/-- AXn: FB_STAT (R428). -/
abbrev FB_STAT (n : Nat) : Nat := n * 0x1000 + 0x510

/-- AXn: FB_WSS_MA (R428). -/
abbrev FB_WSS_MA (n : Nat) : Nat := n * 0x1000 + 0x511

/-- AXn: FB_COUNT (R428). -/
abbrev FB_COUNT (n : Nat) : Nat := n * 0x1000 + 0x858

/-- AXn: FB_POS (R428). -/
abbrev FB_POS (n : Nat) : Nat := n * 0x1000 + 0x859

/-- AXn: FB_SPEED (R428). -/
abbrev FB_SPEED (n : Nat) : Nat := n * 0x1000 + 0x85A

/-- AXn: FB_PERIOD (R428). -/
abbrev FB_PERIOD (n : Nat) : Nat := n * 0x1000 + 0x85B

/-- AXn: FB_Z_COUNT (R428). -/
abbrev FB_Z_COUNT (n : Nat) : Nat := n * 0x1000 + 0x85C

/-- AXn: FB_Z_DEV (R428). -/
abbrev FB_Z_DEV (n : Nat) : Nat := n * 0x1000 + 0x85D

/-- AXn: FB_LIVE (R428). -/
abbrev FB_LIVE (n : Nat) : Nat := n * 0x1000 + 0x85E

/-- AXn: FB_ERR_COUNT (R428). -/
abbrev FB_ERR_COUNT (n : Nat) : Nat := n * 0x1000 + 0x85F

/-- DEV: AO_LOAD_SRC (R445). -/
abbrev AO_LOAD_SRC : Nat := 0x8200

/-- DEV: AO_LOAD_PWM (R445). -/
abbrev AO_LOAD_PWM : Nat := 0x8201

/-- DEV: AO_LOAD (R445). -/
abbrev AO_LOAD : Nat := 0x8202

/-- DEV: AO_STAT (R445). -/
abbrev AO_STAT : Nat := 0x8203

/-- DEV: AO_LIVE (R445). -/
abbrev AO_LIVE : Nat := 0x8204

/-- DEV: AO_SHORT_COUNT (R445). -/
abbrev AO_SHORT_COUNT : Nat := 0x8205

/-- DEV: AO_SPAN0–AO_SPAN5 (R445). -/
abbrev AO_SPAN (k : Nat) : Nat := 0x8210 + k

/-- DEV: AO_CODE0–AO_CODE5 (R445). -/
abbrev AO_CODE (k : Nat) : Nat := 0x8218 + k

/-- DEV: AO_CLRCODE0–AO_CLRCODE5 (R445). -/
abbrev AO_CLRCODE (k : Nat) : Nat := 0x8220 + k

/-- DEV: AO_SLEW_STEP0–AO_SLEW_STEP5 (R445). -/
abbrev AO_SLEW_STEP (k : Nat) : Nat := 0x8228 + k

/-- DEV: AO_SLEW_INT0–AO_SLEW_INT5 (R445). -/
abbrev AO_SLEW_INT (k : Nat) : Nat := 0x8230 + k

/-- DEV: AO_OUT0–AO_OUT5 (R445). -/
abbrev AO_OUT (k : Nat) : Nat := 0x8238 + k

/-- DEV: HC_STAT (R472). -/
abbrev HC_STAT : Nat := 0x8300

/-- DEV: HC_LIVE (R472). -/
abbrev HC_LIVE : Nat := 0x8301

/-- DEV: HC_CHOLD (R472). -/
abbrev HC_CHOLD : Nat := 0x8302

/-- DEV: HC_ESTOP (R472). -/
abbrev HC_ESTOP : Nat := 0x8303

/-- DEV: HC_VDRV_PMAX (R472). -/
abbrev HC_VDRV_PMAX : Nat := 0x8304

/-- DEV: HC_START_K (R472). -/
abbrev HC_START_K : Nat := 0x8305

/-- DEV: HC_REFINE_DI (R472). -/
abbrev HC_REFINE_DI : Nat := 0x8306

/-- DEV: HC_RSRC_DEF (R472). -/
abbrev HC_RSRC_DEF : Nat := 0x8307

/-- DEV: HC_SHARE_PCT (R472). -/
abbrev HC_SHARE_PCT : Nat := 0x8308

/-- DEV: HC_LATE_COUNT (R472). -/
abbrev HC_LATE_COUNT : Nat := 0x8309

/-- DEV: HC_EHOLD (R472). -/
abbrev HC_EHOLD : Nat := 0x830A

/-- DEV: HC_VDRV_PWR (R472). -/
abbrev HC_VDRV_PWR : Nat := 0x830B

/-- DEV: HC_PROBE_AGE (R472). -/
abbrev HC_PROBE_AGE : Nat := 0x830C

/-- DEV: HC_VFLOOR0–HC_VFLOOR3 (R472). -/
abbrev HC_VFLOOR (k : Nat) : Nat := 0x8310 + k

/-- DEV: HC_ISRC_MAX0–HC_ISRC_MAX3 (R472). -/
abbrev HC_ISRC_MAX (k : Nat) : Nat := 0x8314 + k

/-- DEV: HC_CRAIL0–HC_CRAIL3 (R472). -/
abbrev HC_CRAIL (k : Nat) : Nat := 0x8318 + k

/-- DEV: HC_PRES0–HC_PRES3 (R472). -/
abbrev HC_PRES (k : Nat) : Nat := 0x831C + k

/-- DEV: HC_SHARE_GRP0–HC_SHARE_GRP3 (R472). -/
abbrev HC_SHARE_GRP (k : Nat) : Nat := 0x8320 + k

/-- DEV: HC_PROBE_AX0–HC_PROBE_AX3 (R472). -/
abbrev HC_PROBE_AX (k : Nat) : Nat := 0x8324 + k

/-- DEV: HC_RSRC0–HC_RSRC3 (R472). -/
abbrev HC_RSRC (k : Nat) : Nat := 0x8328 + k

/-- DEV: HC_VOC0–HC_VOC3 (R472). -/
abbrev HC_VOC (k : Nat) : Nat := 0x832C + k

/-- DEV: HC_IRAIL0–HC_IRAIL3 (R472). -/
abbrev HC_IRAIL (k : Nat) : Nat := 0x8330 + k

/-- DEV: HC_PAVAIL0–HC_PAVAIL3 (R472). -/
abbrev HC_PAVAIL (k : Nat) : Nat := 0x8334 + k

/-- DEV: HC_PDEMAND0–HC_PDEMAND3 (R472). -/
abbrev HC_PDEMAND (k : Nat) : Nat := 0x8338 + k

/-- AXn: HC_CLASS (R473). -/
abbrev HC_CLASS (n : Nat) : Nat := n * 0x1000 + 0x700

/-- AXn: HC_RCOND (R473). -/
abbrev HC_RCOND (n : Nat) : Nat := n * 0x1000 + 0x701

/-- AXn: HC_ESW (R473). -/
abbrev HC_ESW (n : Nat) : Nat := n * 0x1000 + 0x702

/-- AXn: HC_RTH (R473). -/
abbrev HC_RTH (n : Nat) : Nat := n * 0x1000 + 0x703

/-- AXn: HC_TAU (R473). -/
abbrev HC_TAU (n : Nat) : Nat := n * 0x1000 + 0x704

/-- AXn: HC_TJ_MAX (R473). -/
abbrev HC_TJ_MAX (n : Nat) : Nat := n * 0x1000 + 0x705

/-- AXn: HC_QG (R473). -/
abbrev HC_QG (n : Nat) : Nat := n * 0x1000 + 0x706

/-- AXn: HC_TS_PRESENT (R473). -/
abbrev HC_TS_PRESENT (n : Nat) : Nat := n * 0x1000 + 0x707

/-- AXn: HC_TS_V0 (R473). -/
abbrev HC_TS_V0 (n : Nat) : Nat := n * 0x1000 + 0x708

/-- AXn: HC_TS_SLOPE (R473). -/
abbrev HC_TS_SLOPE (n : Nat) : Nat := n * 0x1000 + 0x709

/-- AXn: HC_GRANT_I (R473). -/
abbrev HC_GRANT_I (n : Nat) : Nat := n * 0x1000 + 0x860

/-- AXn: HC_VCAP (R473). -/
abbrev HC_VCAP (n : Nat) : Nat := n * 0x1000 + 0x861

/-- AXn: HC_ACAP (R473). -/
abbrev HC_ACAP (n : Nat) : Nat := n * 0x1000 + 0x862

/-- AXn: HC_DCAP (R473). -/
abbrev HC_DCAP (n : Nat) : Nat := n * 0x1000 + 0x863

/-- AXn: HC_K (R473). -/
abbrev HC_K (n : Nat) : Nat := n * 0x1000 + 0x864

/-- AXn: HC_THERM_FACTOR (R473). -/
abbrev HC_THERM_FACTOR (n : Nat) : Nat := n * 0x1000 + 0x865

/-- AXn: HC_TJ (R473). -/
abbrev HC_TJ (n : Nat) : Nat := n * 0x1000 + 0x866

/-- AXn: HC_TCASE (R473). -/
abbrev HC_TCASE (n : Nat) : Nat := n * 0x1000 + 0x867

/-- AXn: HC_PBRIDGE (R473). -/
abbrev HC_PBRIDGE (n : Nat) : Nat := n * 0x1000 + 0x868

/-- AXn: HC_PDEMAND_AX (R473). -/
abbrev HC_PDEMAND_AX (n : Nat) : Nat := n * 0x1000 + 0x869

/-- AXn: HC_IHEAT (R473). -/
abbrev HC_IHEAT (n : Nat) : Nat := n * 0x1000 + 0x86A

/-- AXn: HC_ENERGY (R473). -/
abbrev HC_ENERGY (n : Nat) : Nat := n * 0x1000 + 0x86B

/-- AXn: HC_AX_LIVE (R473). -/
abbrev HC_AX_LIVE (n : Nat) : Nat := n * 0x1000 + 0x86C

/-- DEV: BISC_STAT (R501). -/
abbrev BISC_STAT : Nat := 0x8500

/-- DEV: BISC_LIVE (R501). -/
abbrev BISC_LIVE : Nat := 0x8501

/-- DEV: BISC_PROOF_PER (R501). -/
abbrev BISC_PROOF_PER : Nat := 0x8502

/-- DEV: BISC_PROOF_COUNT (R501). -/
abbrev BISC_PROOF_COUNT : Nat := 0x8503

/-- DEV: BISC_MP_COUNT (R501). -/
abbrev BISC_MP_COUNT : Nat := 0x8504

/-- DEV: BISC_REPLAY_COUNT (R501). -/
abbrev BISC_REPLAY_COUNT : Nat := 0x8505

/-- DEV: BISC_LAST (R501). -/
abbrev BISC_LAST : Nat := 0x8506

/-- DEV: BISC_EVENT_AX0–BISC_EVENT_AX7 (R501). -/
abbrev BISC_EVENT_AX (k : Nat) : Nat := 0x8510 + k

/-- DEV: BISC_RETRY_AX0–BISC_RETRY_AX7 (R501). -/
abbrev BISC_RETRY_AX (k : Nat) : Nat := 0x8518 + k

/-- DEV: BISC_HOLD_AX0–BISC_HOLD_AX7 (R501). -/
abbrev BISC_HOLD_AX (k : Nat) : Nat := 0x8520 + k

/-- DEV: FLT_STAT (R537). -/
abbrev FLT_STAT : Nat := 0x8400

/-- DEV: FLT_LIVE (R537). -/
abbrev FLT_LIVE : Nat := 0x8401

/-- DEV: FLT_SAFE_CAUSE (R537). -/
abbrev FLT_SAFE_CAUSE : Nat := 0x8402

/-- DEV: FLT_IDX (R537). -/
abbrev FLT_IDX : Nat := 0x8403

/-- DEV: FLT_CFG (R537). -/
abbrev FLT_CFG : Nat := 0x8404

/-- DEV: FLT_EVENTS (R537). -/
abbrev FLT_EVENTS : Nat := 0x8405

/-- DEV: FLT_WIN_FILL (R537). -/
abbrev FLT_WIN_FILL : Nat := 0x8406

/-- DEV: FLT_LAST_US (R537). -/
abbrev FLT_LAST_US : Nat := 0x8407

/-- DEV: FLT_ROLE_AX0–FLT_ROLE_AX7 (R537). -/
abbrev FLT_ROLE_AX (k : Nat) : Nat := 0x8410 + k

/-- DEV: FLT_DERATE_AX0–FLT_DERATE_AX7 (R537). -/
abbrev FLT_DERATE_AX (k : Nat) : Nat := 0x8418 + k

/-- DEV: FLT_LASTING_AX0–FLT_LASTING_AX7 (R537). -/
abbrev FLT_LASTING_AX (k : Nat) : Nat := 0x8420 + k

/-- DEV: FLT_LASTING_DEV (R537). -/
abbrev FLT_LASTING_DEV : Nat := 0x8428

/-- DEV: FLT_REACT_AX0–FLT_REACT_AX7 (R537). -/
abbrev FLT_REACT_AX (k : Nat) : Nat := 0x8430 + k

/-- DEV: RING_STAT (R570). -/
abbrev RING_STAT : Nat := 0x8600

/-- DEV: RING_LIVE (R570). -/
abbrev RING_LIVE : Nat := 0x8601

/-- DEV: RING_MODE (R570). -/
abbrev RING_MODE : Nat := 0x8602

/-- DEV: RING_POS (R570). -/
abbrev RING_POS : Nat := 0x8603

/-- DEV: RING_COUNT (R570). -/
abbrev RING_COUNT : Nat := 0x8604

/-- DEV: RING_MASTER (R570). -/
abbrev RING_MASTER : Nat := 0x8605

/-- DEV: RING_CENSUS_LO (R570). -/
abbrev RING_CENSUS_LO : Nat := 0x8606

/-- DEV: RING_CENSUS_HI (R570). -/
abbrev RING_CENSUS_HI : Nat := 0x8607

/-- DEV: RING_PRESENT (R570). -/
abbrev RING_PRESENT : Nat := 0x8608

/-- DEV: RING_PEER_FLAGS (R570). -/
abbrev RING_PEER_FLAGS : Nat := 0x8609

/-- DEV: RING_RX_DELAY (R570). -/
abbrev RING_RX_DELAY : Nat := 0x860A

/-- DEV: RING_LOOP (R570). -/
abbrev RING_LOOP : Nat := 0x860B

/-- DEV: RING_PHASE_ERR (R570). -/
abbrev RING_PHASE_ERR : Nat := 0x860C

/-- DEV: RING_TRIM (R570). -/
abbrev RING_TRIM : Nat := 0x860D

/-- DEV: RING_STRM_SLOT0–RING_STRM_SLOT3 (R570). -/
abbrev RING_STRM_SLOT (k : Nat) : Nat := 0x8610 + k

/-- DEV: RING_BREAK_COUNT (R570). -/
abbrev RING_BREAK_COUNT : Nat := 0x8618

/-- DEV: RING_FWD_COUNT (R570). -/
abbrev RING_FWD_COUNT : Nat := 0x8619

/-- DEV: RING_RESEND_COUNT (R570). -/
abbrev RING_RESEND_COUNT : Nat := 0x861A

/-- DEV: RING_CRC_COUNT (R570). -/
abbrev RING_CRC_COUNT : Nat := 0x861B

/-- DEV: RING_EN (R570). -/
abbrev RING_EN : Nat := 0x861C

/-- DEV: FC_STAT (R593). -/
abbrev FC_STAT : Nat := 0x8700

/-- DEV: FC_LIVE (R593). -/
abbrev FC_LIVE : Nat := 0x8701

/-- DEV: FC_NEWEST (R593). -/
abbrev FC_NEWEST : Nat := 0x8702

/-- DEV: FC_OLDEST (R593). -/
abbrev FC_OLDEST : Nat := 0x8703

/-- DEV: FC_USED (R593). -/
abbrev FC_USED : Nat := 0x8704

/-- DEV: FC_PINNED (R593). -/
abbrev FC_PINNED : Nat := 0x8705

/-- DEV: FC_PIN (R593). -/
abbrev FC_PIN : Nat := 0x8706

/-- DEV: FC_UNPIN (R593). -/
abbrev FC_UNPIN : Nat := 0x8707

/-- DEV: FC_SUM_PER (R593). -/
abbrev FC_SUM_PER : Nat := 0x8708

/-- DEV: FC_SNAP_PRE (R593). -/
abbrev FC_SNAP_PRE : Nat := 0x8709

/-- DEV: FC_SNAP_POST (R593). -/
abbrev FC_SNAP_POST : Nat := 0x870A

/-- DEV: FC_EVT_DROP (R593). -/
abbrev FC_EVT_DROP : Nat := 0x870B

/-- DEV: FC_SLICE_COUNT (R593). -/
abbrev FC_SLICE_COUNT : Nat := 0x870C

/-- DEV: FC_STAGE_FILL (R593). -/
abbrev FC_STAGE_FILL : Nat := 0x870D

/-- DEV: FC_RECLAIM_COUNT (R593). -/
abbrev FC_RECLAIM_COUNT : Nat := 0x870E

/-- DEV: FC_COUPLE_WAIT (R593). -/
abbrev FC_COUPLE_WAIT : Nat := 0x870F

/-- DEV: FUSE_LC (R619). -/
abbrev FUSE_LC : Nat := 0x8800

/-- DEV: FUSE_STAT (R619). -/
abbrev FUSE_STAT : Nat := 0x8801

/-- DEV: FUSE_WLOCK (R619). -/
abbrev FUSE_WLOCK : Nat := 0x8802

/-- DEV: FUSE_RLOCK (R619). -/
abbrev FUSE_RLOCK : Nat := 0x8803

/-- DEV: FUSE_COMMIT_A (R619). -/
abbrev FUSE_COMMIT_A : Nat := 0x8804

/-- DEV: FUSE_COMMIT_B (R619). -/
abbrev FUSE_COMMIT_B : Nat := 0x8805

/-- DEV: FUSE_MARGIN_A (R619). -/
abbrev FUSE_MARGIN_A : Nat := 0x8806

/-- DEV: FUSE_MARGIN_B (R619). -/
abbrev FUSE_MARGIN_B : Nat := 0x8807

/-- DEV: FUSE_ENT_COMMIT_LO, _HI (R619). -/
abbrev FUSE_ENT_COMMIT (k : Nat) : Nat := 0x8808 + k

/-- DEV: FUSE_ENT_MARGIN_LO, _HI (R619). -/
abbrev FUSE_ENT_MARGIN (k : Nat) : Nat := 0x880A + k

/-- DEV: FUSE_PATCH_APPLIED_LO, _HI (R619). -/
abbrev FUSE_PATCH_APPLIED (k : Nat) : Nat := 0x880C + k

/-- DEV: FUSE_PATCH_SKIPPED_LO, _HI (R619). -/
abbrev FUSE_PATCH_SKIPPED (k : Nat) : Nat := 0x880E + k

/-- DEV: FUSE_ID0–FUSE_ID7 (R619). -/
abbrev FUSE_ID (k : Nat) : Nat := 0x8810 + k

/-- DEV: FUSE_KEY0_0–FUSE_KEY1_7 (R619). -/
abbrev FUSE_KEY (k : Nat) : Nat := 0x8818 + k

/-- DEV: FUSE_PATCH40–FUSE_PATCH231 (R619). -/
abbrev FUSE_PATCH (k : Nat) : Nat := 0x8828 + k

/-- DEV: FUSE_CUST232–FUSE_CUST251 (R619). -/
abbrev FUSE_CUST (k : Nat) : Nat := 0x88E8 + k

/-- DEV: FUSE_LOCK252, FUSE_LOCK253 (R619). -/
abbrev FUSE_LOCK (k : Nat) : Nat := 0x88FC + k

/-- DEV: DBG_STAT (R640). -/
abbrev DBG_STAT : Nat := 0x8940

/-- DEV: DBG_LIVE (R640). -/
abbrev DBG_LIVE : Nat := 0x8941

/-- DEV: DBG_IDLE_TIMEOUT (R640). -/
abbrev DBG_IDLE_TIMEOUT : Nat := 0x8942

/-- DEV: DBG_POWER_PERMIT (R640). -/
abbrev DBG_POWER_PERMIT : Nat := 0x8943

/-- DEV: DBG_AUTH_FAIL (R640). -/
abbrev DBG_AUTH_FAIL : Nat := 0x8944

/-- DEV: DBG_SESSIONS (R640). -/
abbrev DBG_SESSIONS : Nat := 0x8945

end Sig

/-- Signal tables of the spec, part 0. -/
def sigRows0 : List SigRow := [
  ⟨1, 0x000, 1, .bits32, .w1c, 0x0, 0, 255, false, (some (0x0D, 0x3F800000))⟩,
  ⟨1, 0x001, 1, .u16, .ro, 0x0, 0, 65535, false, (some (0x01, 0x3A83126F))⟩,
  ⟨1, 0x002, 1, .u16, .ro, 0x0, 0, 65535, false, (some (0x01, 0x3A83126F))⟩,
  ⟨1, 0x003, 1, .u16, .ro, 0x0, 0, 65535, false, (some (0x01, 0x3A83126F))⟩,
  ⟨1, 0x004, 1, .u16, .ro, 0x0, 0, 65535, false, (some (0x01, 0x3A83126F))⟩,
  ⟨1, 0x005, 1, .u16, .ro, 0x0, 0, 65535, false, (some (0x01, 0x3A83126F))⟩,
  ⟨1, 0x006, 4, .u16, .ro, 0x0, 0, 65535, false, (some (0x01, 0x3A83126F))⟩,
  ⟨1, 0x010, 1, .u8, .ro, 0x1, 0, 255, false, (some (0x0C, 0x3F800000))⟩,
  ⟨1, 0x011, 1, .u8, .wo, 0x0, 0, 2, false, (some (0x0C, 0x3F800000))⟩,
  ⟨1, 0x012, 1, .u16, .rw, 0x0, 0, 65535, false, (some (0x05, 0x3A83126F))⟩,
  ⟨1, 0x013, 1, .bits32, .rw, 0x27, 0, 63, false, (some (0x0D, 0x3F800000))⟩,
  ⟨1, 0x014, 1, .bits32, .w1c, 0x0, 0, 63, false, (some (0x0D, 0x3F800000))⟩,
  ⟨1, 0x015, 1, .u32, .ro, 0x0, 0, 4294967295, false, (some (0x05, 0x3F800000))⟩,
  ⟨1, 0x016, 1, .u32, .rw, 0xFFFFFFFF, 0, 4294967295, false, (some (0x05, 0x3F800000))⟩,
  ⟨1, 0x018, 1, .u8, .rw, 0x0, 0, 255, false, (some (0x0D, 0x3F800000))⟩,
  ⟨1, 0x019, 1, .u8, .rw, 0x3, 1, 255, false, (some (0x00, 0x3F800000))⟩,
  ⟨1, 0x01A, 1, .u16, .rw, 0x14, 1, 600, false, (some (0x05, 0x3DCCCCCD))⟩,
  ⟨1, 0x020, 1, .u8, .rw, 0x0, 0, 1, true, (some (0x0C, 0x3F800000))⟩,
  ⟨1, 0x021, 1, .u8, .rw, 0x0, 0, 1, false, (some (0x0C, 0x3F800000))⟩,
  ⟨1, 0x022, 1, .bits32, .ro, 0x0, 0, 4294967295, false, (some (0x0D, 0x3F800000))⟩,
  ⟨1, 0x028, 1, .u8, .ro, 0x0, 0, 255, false, (some (0x0C, 0x3F800000))⟩,
  ⟨1, 0x029, 1, .u32, .ro, 0x0, 0, 4294967295, false, (some (0x00, 0x3F800000))⟩,
  ⟨1, 0x910, 1, .bits32, .w1c, 0x0, 0, 255, false, (some (0x0D, 0x3F800000))⟩,
  ⟨1, 0x911, 1, .bits32, .ro, 0x0, 0, 4294967295, false, (some (0x0D, 0x3F800000))⟩,
  ⟨1, 0x912, 1, .u8, .ro, 0x0, 0, 255, false, (some (0x0C, 0x3F800000))⟩,
  ⟨1, 0x913, 1, .u32, .ro, 0x0, 0, 4294967295, false, (some (0x0D, 0x3F800000))⟩,
  ⟨1, 0x914, 1, .u32, .ro, 0x0, 0, 4294967295, false, (some (0x0D, 0x3F800000))⟩,
  ⟨1, 0x915, 1, .u8, .ro, 0x0, 0, 255, false, (some (0x0C, 0x3F800000))⟩,
  ⟨1, 0x916, 1, .u16, .rw, 0x3C, 5, 600, true, (some (0x05, 0x3F800000))⟩,
  ⟨1, 0x917, 1, .u32, .ro, 0x0, 0, 4294967295, false, (some (0x05, 0x358637BD))⟩,
  ⟨1, 0x918, 1, .u32, .ro, 0x0, 0, 4294967295, false, (some (0x00, 0x3F800000))⟩,
  ⟨1, 0x919, 1, .u8, .rw, 0x1, 0, 1, true, (some (0x0C, 0x3F800000))⟩,
  ⟨1, 0x900, 1, .u16, .ro, 0x7416, 0, 65535, false, (some (0x00, 0x3F800000))⟩,
  ⟨1, 0x901, 1, .u8, .ro, 0x1, 0, 255, false, (some (0x00, 0x3F800000))⟩,
  ⟨1, 0x902, 1, .u8, .ro, 0x0, 0, 255, false, (some (0x00, 0x3F800000))⟩,
  ⟨1, 0x903, 1, .u8, .ro, 0x0, 0, 255, false, (some (0x00, 0x3F800000))⟩,
  ⟨1, 0x904, 1, .u32, .ro, 0x0, 0, 4294967295, false, (some (0x00, 0x3F800000))⟩,
  ⟨1, 0x905, 1, .u32, .ro, 0x0, 0, 4294967295, false, (some (0x00, 0x3F800000))⟩,
  ⟨1, 0x906, 1, .u32, .ro, 0x0, 0, 4294967295, false, (some (0x0D, 0x3F800000))⟩,
  ⟨1, 0x907, 1, .u32, .ro, 0x0, 0, 4294967295, false, (some (0x0D, 0x3F800000))⟩]

/-- Signal tables of the spec, part 1. -/
def sigRows1 : List SigRow := [
  ⟨1, 0x920, 1, .u32, .ro, 0x0, 0, 4294967295, false, (some (0x05, 0x358637BD))⟩,
  ⟨1, 0x921, 4, .u8, .rw, 0x0, 0, 255, false, (some (0x0D, 0x3F800000))⟩,
  ⟨1, 0x925, 1, .u32, .rw, 0xF4240, 1000, 60000000, false, (some (0x05, 0x358637BD))⟩,
  ⟨1, 0x926, 1, .u8, .ro, 0x0, 0, 255, false, (some (0x00, 0x3F800000))⟩,
  ⟨1, 0x927, 1, .u16, .rw, 0x1388, 100, 60000, false, (some (0x05, 0x358637BD))⟩,
  ⟨1, 0x928, 1, .u8, .ro, 0x0, 0, 255, false, (some (0x00, 0x3F800000))⟩,
  ⟨1, 0x929, 1, .u32, .ro, 0x0, 0, 4294967295, false, (some (0x00, 0x3F800000))⟩,
  ⟨1, 0x92A, 1, .u8, .ro, 0x0, 0, 255, false, (some (0x00, 0x3F800000))⟩,
  ⟨1, 0x92B, 1, .u32, .ro, 0x0, 0, 4294967295, false, (some (0x00, 0x3F800000))⟩,
  ⟨1, 0x92C, 1, .u32, .ro, 0x0, 0, 4294967295, false, (some (0x00, 0x3F800000))⟩,
  ⟨1, 0x92D, 1, .bits32, .ro, 0x0, 0, 4294967295, false, (some (0x0D, 0x3F800000))⟩,
  ⟨0, 0x000, 1, .u16, .rwl, 0x1388, 2000, 50000, false, (some (0x05, 0x312BCC77))⟩,
  ⟨0, 0x001, 1, .u8, .rwl, 0x0, 0, 2, false, (some (0x0C, 0x3F800000))⟩,
  ⟨0, 0x002, 1, .u32, .rwl, 0x0, 0, 4294967295, false, (some (0x05, 0x312BCC77))⟩,
  ⟨0, 0x003, 1, .u8, .rwl, 0x0, 0, 1, false, (some (0x0C, 0x3F800000))⟩,
  ⟨0, 0x004, 1, .u8, .rwl, 0x0, 0, 2, false, (some (0x0C, 0x3F800000))⟩,
  ⟨0, 0x008, 1, .u32, .rw, 0x0, 0, 1048575, false, (some (0x05, 0x2F2BCC77))⟩,
  ⟨0, 0x009, 1, .u32, .rw, 0x0, 0, 1048575, false, (some (0x05, 0x2F2BCC77))⟩,
  ⟨0, 0x00A, 1, .u32, .rw, 0x0, 0, 1048575, false, (some (0x05, 0x2F2BCC77))⟩,
  ⟨0, 0x010, 1, .u16, .rwl, 0x28, 0, 1023, false, (some (0x05, 0x312BCC77))⟩,
  ⟨0, 0x011, 1, .u16, .rwl, 0x50, 0, 4095, false, (some (0x05, 0x312BCC77))⟩,
  ⟨0, 0x012, 1, .bits32, .rwl, 0x15, 0, 63, false, (some (0x0D, 0x3F800000))⟩,
  ⟨0, 0x014, 1, .u8, .rwl, 0x10, 0, 255, false, (some (0x00, 0x3F800000))⟩,
  ⟨0, 0x015, 1, .u16, .rwl, 0x50, 40, 1022, false, (some (0x05, 0x312BCC77))⟩,
  ⟨0, 0x018, 1, .u16, .rw, 0x0, 0, 65535, false, (some (0x05, 0x312BCC77))⟩,
  ⟨0, 0x019, 1, .u8, .rw, 0x1, 0, 3, false, (some (0x0C, 0x3F800000))⟩,
  ⟨0, 0x01A, 1, .u16, .rw, 0x0, 0, 65535, false, (some (0x05, 0x312BCC77))⟩,
  ⟨0, 0x01B, 1, .u8, .rw, 0x0, 0, 3, false, (some (0x0C, 0x3F800000))⟩,
  ⟨0, 0x020, 1, .bits32, .w1c, 0x0, 0, 4088, false, (some (0x0D, 0x3F800000))⟩,
  ⟨0, 0x040, 1, .u8, .rwl, 0xF, 0, 255, false, (some (0x0C, 0x3F800000))⟩,
  ⟨0, 0x041, 1, .bits32, .rwl, 0x0, 0, 16191, false, (some (0x0D, 0x3F800000))⟩,
  ⟨0, 0x042, 1, .u16, .rwl, 0x0, 0, 1023, false, (some (0x05, 0x312BCC77))⟩,
  ⟨0, 0x043, 1, .u16, .rwl, 0x0, 0, 1023, false, (some (0x05, 0x312BCC77))⟩,
  ⟨0, 0x800, 1, .bits32, .ro, 0x0, 0, 4294967295, false, (some (0x0D, 0x3F800000))⟩,
  ⟨0, 0x801, 1, .u32, .ro, 0x0, 0, 4294967295, false, (some (0x05, 0x2F2BCC77))⟩,
  ⟨0, 0x802, 1, .u32, .ro, 0x0, 0, 4294967295, false, (some (0x05, 0x2F2BCC77))⟩,
  ⟨0, 0x803, 1, .u32, .ro, 0x0, 0, 4294967295, false, (some (0x05, 0x2F2BCC77))⟩,
  ⟨0, 0x804, 1, .u16, .ro, 0x0, 0, 65535, false, (some (0x05, 0x312BCC77))⟩,
  ⟨0, 0x805, 1, .u16, .ro, 0x0, 0, 65535, false, (some (0x05, 0x312BCC77))⟩,
  ⟨0, 0x806, 1, .u16, .ro, 0x0, 0, 65535, false, (some (0x05, 0x312BCC77))⟩]

/-- Signal tables of the spec, part 2. -/
def sigRows2 : List SigRow := [
  ⟨0, 0x807, 1, .u32, .ro, 0x0, 0, 4294967295, false, (some (0x00, 0x3F800000))⟩,
  ⟨0, 0x808, 1, .u32, .ro, 0x0, 0, 4294967295, false, (some (0x00, 0x3F800000))⟩,
  ⟨0, 0x809, 1, .u32, .ro, 0x0, 0, 4294967295, false, (some (0x00, 0x3F800000))⟩,
  ⟨0, 0x80A, 1, .u32, .ro, 0x0, 0, 4294967295, false, (some (0x00, 0x3F800000))⟩,
  ⟨0, 0x100, 1, .u8, .rwl, 0x0, 0, 1, false, (some (0x0C, 0x3F800000))⟩,
  ⟨0, 0x101, 1, .u8, .rwl, 0x64, 10, 255, false, (some (0x02, 0x37A7C5AC))⟩,
  ⟨0, 0x102, 1, .u8, .rwl, 0x64, 10, 255, false, (some (0x02, 0x37A7C5AC))⟩,
  ⟨0, 0x103, 1, .u8, .rwl, 0x64, 10, 255, false, (some (0x01, 0x3B83126F))⟩,
  ⟨0, 0x104, 1, .u8, .rwl, 0x64, 10, 255, false, (some (0x01, 0x3B83126F))⟩,
  ⟨0, 0x105, 1, .u8, .rwl, 0x14, 0, 40, false, (some (0x05, 0x32D6BF95))⟩,
  ⟨0, 0x106, 1, .u8, .rwl, 0x4, 0, 6, false, (some (0x05, 0x32D6BF95))⟩,
  ⟨0, 0x108, 1, .u8, .rwl, 0x0, 0, 1, false, (some (0x0C, 0x3F800000))⟩,
  ⟨0, 0x109, 1, .u8, .rwl, 0x8, 1, 16, false, (some (0x00, 0x3F800000))⟩,
  ⟨0, 0x10A, 1, .u16, .rwl, 0x19, 5, 100, false, (some (0x05, 0x358637BD))⟩,
  ⟨0, 0x10B, 1, .u16, .rwl, 0x4B, 10, 200, false, (some (0x05, 0x358637BD))⟩,
  ⟨0, 0x110, 1, .u8, .rw, 0x0, 0, 1, false, (some (0x0C, 0x3F800000))⟩,
  ⟨0, 0x111, 1, .u8, .rw, 0x0, 0, 1, true, (some (0x0C, 0x3F800000))⟩,
  ⟨0, 0x118, 1, .u8, .rwl, 0x0, 0, 3, false, (some (0x0C, 0x3F800000))⟩,
  ⟨0, 0x119, 1, .u8, .rwl, 0x1, 0, 3, false, (some (0x0C, 0x3F800000))⟩,
  ⟨0, 0x120, 1, .bits32, .w1c, 0x0, 0, 3238002687, false, (some (0x0D, 0x3F800000))⟩,
  ⟨0, 0x121, 1, .bits32, .ro, 0x0, 0, 4294967295, false, (some (0x0D, 0x3F800000))⟩,
  ⟨0, 0x122, 1, .bits32, .ro, 0x0, 0, 4294967295, false, (some (0x0D, 0x3F800000))⟩,
  ⟨0, 0x810, 1, .u32, .ro, 0x0, 0, 4294967295, false, (some (0x00, 0x3F800000))⟩,
  ⟨0, 0x811, 1, .u32, .ro, 0x0, 0, 4294967295, false, (some (0x00, 0x3F800000))⟩,
  ⟨0, 0x812, 1, .u32, .ro, 0x0, 0, 4294967295, false, (some (0x00, 0x3F800000))⟩,
  ⟨0, 0x813, 1, .u32, .ro, 0x0, 0, 4294967295, false, (some (0x00, 0x3F800000))⟩,
  ⟨0, 0x814, 1, .u16, .ro, 0x0, 0, 65535, false, (some (0x05, 0x312BCC77))⟩,
  ⟨0, 0x815, 1, .u16, .ro, 0x0, 0, 65535, false, (some (0x03, 0x3A83126F))⟩,
  ⟨1, 0x100, 1, .bits32, .w1c, 0x0, 0, 258831, false, (some (0x0D, 0x3F800000))⟩,
  ⟨1, 0x101, 1, .bits32, .ro, 0x0, 0, 4294967295, false, (some (0x0D, 0x3F800000))⟩,
  ⟨1, 0x104, 4, .u32, .ro, 0x0, 0, 4294967295, false, (some (0x00, 0x3F800000))⟩,
  ⟨1, 0x108, 2, .u32, .ro, 0x0, 0, 4294967295, false, (some (0x00, 0x3F800000))⟩,
  ⟨1, 0x10A, 2, .u8, .ro, 0x0, 0, 255, false, (some (0x00, 0x3F800000))⟩,
  ⟨1, 0x110, 8, .u8, .rwl, 0x1, 0, 3, false, (some (0x0C, 0x3F800000))⟩,
  ⟨1, 0x118, 8, .u8, .rwl, 0x0, 0, 8, false, (some (0x00, 0x3F800000))⟩,
  ⟨1, 0x120, 8, .u8, .rwl, 0x3C, 0, 160, false, (some (0x05, 0x312BCC77))⟩,
  ⟨1, 0x128, 8, .u32, .rwl, 0x3E8, 100, 100000, false, (some (0x08, 0x358637BD))⟩,
  ⟨1, 0x130, 16, .s16, .ro, 0x0, -32768, 32767, false, (some (0x00, 0x3F800000))⟩,
  ⟨1, 0x140, 8, .u16, .rwl, 0x3E8, 1, 65535, false, none⟩,
  ⟨1, 0x150, 32, .u16, .ro, 0x0, 0, 65535, false, (some (0x00, 0x3F800000))⟩]

/-- Signal tables of the spec, part 3. -/
def sigRows3 : List SigRow := [
  ⟨0, 0x200, 1, .u8, .ro, 0x0, 0, 255, false, (some (0x0C, 0x3F800000))⟩,
  ⟨0, 0x201, 1, .u8, .ro, 0x0, 0, 255, false, (some (0x0C, 0x3F800000))⟩,
  ⟨0, 0x202, 1, .u8, .rwl, 0x0, 0, 2, false, (some (0x0C, 0x3F800000))⟩,
  ⟨0, 0x203, 1, .u8, .rwl, 0x1, 1, 16, false, (some (0x00, 0x3F800000))⟩,
  ⟨0, 0x204, 1, .u8, .rwl, 0x4, 1, 16, false, (some (0x00, 0x3F800000))⟩,
  ⟨0, 0x205, 1, .u8, .rwl, 0x0, 0, 2, false, (some (0x0C, 0x3F800000))⟩,
  ⟨0, 0x206, 1, .u8, .rwl, 0x0, 0, 1, false, (some (0x0C, 0x3F800000))⟩,
  ⟨0, 0x207, 1, .u8, .rwl, 0x4, 1, 32, false, (some (0x0F, 0x3F800000))⟩,
  ⟨0, 0x208, 1, .u16, .rwl, 0x0, 0, 65535, false, (some (0x09, 0x37800000))⟩,
  ⟨0, 0x209, 1, .u16, .rw, 0x0, 0, 65535, false, (some (0x05, 0x322BCC77))⟩,
  ⟨0, 0x210, 1, .s32, .rw, 0x0, -2147483648, 2147483647, false, (some (0x08, 0x37800000))⟩,
  ⟨0, 0x211, 1, .s32, .rw, 0x0, -2147483648, 2147483647, false, none⟩,
  ⟨0, 0x212, 1, .s32, .rw, 0x0, -2147483648, 2147483647, false, (some (0x08, 0x37800000))⟩,
  ⟨0, 0x213, 1, .s32, .rw, 0x0, -2147483648, 2147483647, false, none⟩,
  ⟨0, 0x214, 1, .s32, .rw, 0x0, -2147483648, 2147483647, false, none⟩,
  ⟨0, 0x215, 1, .s32, .rw, 0x0, -2147483648, 2147483647, false, none⟩,
  ⟨0, 0x216, 1, .s32, .rw, 0x0, -2147483648, 2147483647, false, none⟩,
  ⟨0, 0x217, 1, .s32, .rw, 0x0, -2147483648, 2147483647, false, none⟩,
  ⟨0, 0x218, 1, .u8, .rw, 0x0, 0, 1, false, (some (0x0C, 0x3F800000))⟩,
  ⟨0, 0x219, 1, .u32, .rwl, 0x0, 0, 4294967295, false, none⟩,
  ⟨0, 0x21A, 1, .u32, .rwl, 0x0, 0, 4294967295, false, none⟩,
  ⟨0, 0x21B, 1, .u32, .rwl, 0x0, 0, 4294967295, false, none⟩,
  ⟨0, 0x220, 1, .u32, .rw, 0x2710, 0, 2000000, false, (some (0x02, 0x3A83126F))⟩,
  ⟨0, 0x221, 1, .s32, .rw, 0x0, -2147483648, 2147483647, false, (some (0x02, 0x3A83126F))⟩,
  ⟨0, 0x222, 1, .s32, .rw, 0x0, -2147483648, 2147483647, false, (some (0x02, 0x3A83126F))⟩,
  ⟨0, 0x223, 1, .u32, .rw, 0x3E8, 0, 4294967295, false, none⟩,
  ⟨0, 0x224, 1, .s32, .rw, 0x0, -2147483648, 2147483647, false, (some (0x0A, 0x37800000))⟩,
  ⟨0, 0x225, 1, .u32, .rw, 0x640000, 0, 4294967295, false, none⟩,
  ⟨0, 0x226, 1, .u32, .rw, 0x640000, 0, 4294967295, false, (some (0x0A, 0x37800000))⟩,
  ⟨0, 0x227, 1, .s32, .rw, 0x0, -2147483648, 2147483647, false, (some (0x01, 0x3A83126F))⟩,
  ⟨0, 0x228, 1, .s32, .rw, 0x0, -2147483648, 2147483647, false, (some (0x01, 0x3A83126F))⟩,
  ⟨0, 0x229, 1, .u8, .rw, 0x0, 0, 1, false, (some (0x0C, 0x3F800000))⟩,
  ⟨0, 0x22A, 1, .s32, .rw, 0x0, -2147483648, 2147483647, false, (some (0x0A, 0x37800000))⟩,
  ⟨0, 0x22B, 1, .u8, .rw, 0x32, 10, 100, false, (some (0x0E, 0x3F800000))⟩,
  ⟨0, 0x230, 1, .u16, .rw, 0xF5C3, 32768, 65535, false, (some (0x0F, 0x37800000))⟩,
  ⟨0, 0x231, 1, .u16, .rw, 0x0, 0, 65535, false, (some (0x0F, 0x37800000))⟩,
  ⟨0, 0x232, 1, .u16, .rw, 0xFFFF, 0, 65535, false, (some (0x0F, 0x37800000))⟩,
  ⟨0, 0x233, 1, .u16, .rw, 0x1770, 0, 65535, false, (some (0x01, 0x3A83126F))⟩,
  ⟨0, 0x234, 1, .u16, .rw, 0x8000, 0, 65535, false, (some (0x0F, 0x38000000))⟩,
  ⟨0, 0x235, 1, .u16, .rw, 0x0, 0, 65535, false, (some (0x0F, 0x38000000))⟩]

/-- Signal tables of the spec, part 4. -/
def sigRows4 : List SigRow := [
  ⟨0, 0x236, 1, .u32, .rwl, 0x0, 0, 4294967295, false, none⟩,
  ⟨0, 0x237, 1, .u32, .rwl, 0xF4240, 1, 4294967295, false, none⟩,
  ⟨0, 0x238, 1, .u32, .rw, 0x20000, 0, 4294967295, false, (some (0x09, 0x37800000))⟩,
  ⟨0, 0x240, 1, .bits32, .w1c, 0x0, 0, 4094, false, (some (0x0D, 0x3F800000))⟩,
  ⟨0, 0x820, 1, .s32, .ro, 0x0, -2147483648, 2147483647, false, (some (0x02, 0x3A83126F))⟩,
  ⟨0, 0x821, 1, .s32, .ro, 0x0, -2147483648, 2147483647, false, (some (0x02, 0x3A83126F))⟩,
  ⟨0, 0x822, 1, .s32, .ro, 0x0, -2147483648, 2147483647, false, (some (0x01, 0x3A83126F))⟩,
  ⟨0, 0x823, 1, .s32, .ro, 0x0, -2147483648, 2147483647, false, (some (0x01, 0x3A83126F))⟩,
  ⟨0, 0x824, 1, .s32, .ro, 0x0, -2147483648, 2147483647, false, (some (0x0A, 0x37800000))⟩,
  ⟨0, 0x825, 1, .s32, .ro, 0x0, -2147483648, 2147483647, false, (some (0x09, 0x37800000))⟩,
  ⟨0, 0x826, 1, .s32, .ro, 0x0, -2147483648, 2147483647, false, (some (0x09, 0x37800000))⟩,
  ⟨0, 0x827, 1, .u32, .ro, 0x0, 0, 4294967295, false, (some (0x02, 0x3A83126F))⟩,
  ⟨0, 0x828, 1, .u32, .ro, 0x0, 0, 4294967295, false, (some (0x06, 0x3F800000))⟩,
  ⟨0, 0x829, 1, .u8, .ro, 0x2, 0, 255, false, (some (0x00, 0x3F800000))⟩,
  ⟨0, 0x82A, 1, .u8, .ro, 0x0, 0, 255, false, (some (0x0E, 0x3F800000))⟩,
  ⟨0, 0x82B, 1, .u32, .ro, 0x0, 0, 4294967295, false, (some (0x00, 0x3F800000))⟩,
  ⟨0, 0x82C, 1, .u32, .ro, 0x0, 0, 4294967295, false, (some (0x00, 0x3F800000))⟩,
  ⟨0, 0x300, 1, .s32, .ro, 0x0, -2147483648, 2147483647, false, (some (0x09, 0x37800000))⟩,
  ⟨0, 0x301, 1, .s32, .ro, 0x0, -2147483648, 2147483647, false, (some (0x0A, 0x37800000))⟩,
  ⟨0, 0x302, 1, .u8, .ro, 0x0, 0, 255, false, (some (0x0C, 0x3F800000))⟩,
  ⟨0, 0x308, 1, .u32, .rw, 0x320000, 1, 2147483647, false, (some (0x0A, 0x37800000))⟩,
  ⟨0, 0x309, 1, .u32, .rw, 0x640000, 1, 4294967295, false, none⟩,
  ⟨0, 0x30A, 1, .u32, .rw, 0x640000, 1, 4294967295, false, none⟩,
  ⟨0, 0x30B, 1, .u32, .rw, 0x0, 0, 4294967295, false, none⟩,
  ⟨0, 0x30C, 1, .u32, .rw, 0x0, 0, 4294967295, false, (some (0x0A, 0x37800000))⟩,
  ⟨0, 0x30D, 1, .u32, .rw, 0x0, 0, 4294967295, false, (some (0x0A, 0x37800000))⟩,
  ⟨0, 0x310, 1, .u8, .rwl, 0xF, 0, 255, false, (some (0x0C, 0x3F800000))⟩,
  ⟨0, 0x311, 1, .u8, .rwl, 0x0, 0, 16, false, (some (0x00, 0x3F800000))⟩,
  ⟨0, 0x312, 1, .u16, .rwl, 0x14, 5, 1000, false, (some (0x05, 0x322BCC77))⟩,
  ⟨0, 0x313, 1, .u16, .rwl, 0x14, 2, 1000, false, (some (0x05, 0x322BCC77))⟩,
  ⟨0, 0x320, 4, .s32, .rw, 0x0, -2147483648, 2147483647, false, (some (0x09, 0x37800000))⟩,
  ⟨0, 0x324, 4, .bits32, .rw, 0x0, 0, 15, false, (some (0x0D, 0x3F800000))⟩,
  ⟨0, 0x328, 1, .bits32, .w1c, 0x0, 0, 4095, false, (some (0x0D, 0x3F800000))⟩,
  ⟨0, 0x330, 1, .bits32, .w1c, 0x0, 0, 31, false, (some (0x0D, 0x3F800000))⟩,
  ⟨0, 0x830, 1, .s32, .ro, 0x0, -2147483648, 2147483647, false, (some (0x09, 0x37800000))⟩,
  ⟨0, 0x831, 1, .s32, .ro, 0x0, -2147483648, 2147483647, false, (some (0x0A, 0x37800000))⟩,
  ⟨0, 0x832, 1, .s32, .ro, 0x0, -2147483648, 2147483647, false, none⟩,
  ⟨0, 0x833, 1, .u32, .ro, 0x0, 0, 4294967295, false, (some (0x05, 0x358637BD))⟩,
  ⟨0, 0x834, 1, .u32, .ro, 0x0, 0, 4294967295, false, none⟩,
  ⟨0, 0x835, 1, .u32, .ro, 0x0, 0, 4294967295, false, (some (0x0A, 0x37800000))⟩]

/-- Signal tables of the spec, part 5. -/
def sigRows5 : List SigRow := [
  ⟨0, 0x836, 1, .u32, .ro, 0x0, 0, 4294967295, false, none⟩,
  ⟨0, 0x837, 1, .u32, .ro, 0x0, 0, 4294967295, false, (some (0x00, 0x3F800000))⟩,
  ⟨0, 0x838, 4, .u32, .ro, 0x0, 0, 4294967295, false, (some (0x05, 0x358637BD))⟩,
  ⟨0, 0x83C, 1, .s32, .ro, 0x0, -2147483648, 2147483647, false, (some (0x00, 0x3F800000))⟩,
  ⟨0, 0x83D, 1, .s16, .ro, 0x0, -32768, 32767, false, (some (0x00, 0x3F800000))⟩,
  ⟨0, 0x400, 1, .u8, .rw, 0x1, 0, 1, true, (some (0x0C, 0x3F800000))⟩,
  ⟨0, 0x401, 1, .u8, .rwl, 0x0, 0, 1, true, (some (0x0C, 0x3F800000))⟩,
  ⟨0, 0x402, 1, .u8, .rwl, 0x1, 0, 2, true, (some (0x0C, 0x3F800000))⟩,
  ⟨0, 0x403, 1, .u16, .rwl, 0x3E8, 100, 2000, true, (some (0x06, 0x3F800000))⟩,
  ⟨0, 0x404, 1, .u8, .rw, 0x2, 1, 8, false, (some (0x00, 0x3F800000))⟩,
  ⟨0, 0x405, 1, .s16, .rwl, 0x0, -32768, 32767, false, (some (0x09, 0x3F800000))⟩,
  ⟨0, 0x408, 1, .u16, .rwl, 0x2710, 2000, 20000, true, (some (0x06, 0x3F800000))⟩,
  ⟨0, 0x409, 1, .u16, .rwl, 0x1F4, 200, 700, true, (some (0x01, 0x3C23D70A))⟩,
  ⟨0, 0x40A, 1, .u16, .rw, 0x0, 0, 65535, true, (some (0x00, 0x3F800000))⟩,
  ⟨0, 0x40B, 1, .u8, .rw, 0x3C, 10, 99, false, (some (0x0E, 0x3F800000))⟩,
  ⟨0, 0x40C, 1, .u8, .rw, 0x8C, 101, 200, false, (some (0x0E, 0x3F800000))⟩,
  ⟨0, 0x40D, 1, .u16, .rw, 0x64, 10, 1000, false, (some (0x00, 0x3F800000))⟩,
  ⟨0, 0x40E, 1, .u16, .rw, 0x71C, 0, 65535, false, (some (0x09, 0x37800000))⟩,
  ⟨0, 0x40F, 1, .u16, .rw, 0xE39, 0, 65535, false, (some (0x09, 0x37800000))⟩,
  ⟨0, 0x410, 1, .u16, .rw, 0xA, 0, 1000, false, (some (0x05, 0x3A83126F))⟩,
  ⟨0, 0x418, 1, .u8, .wo, 0x0, 1, 4, false, (some (0x0C, 0x3F800000))⟩,
  ⟨0, 0x419, 1, .u8, .rw, 0x1, 0, 1, false, (some (0x0C, 0x3F800000))⟩,
  ⟨0, 0x41A, 1, .u32, .rw, 0x10000, 0, 4294967295, false, (some (0x0A, 0x37800000))⟩,
  ⟨0, 0x41B, 1, .u32, .rw, 0x80000, 0, 4294967295, false, (some (0x0A, 0x37800000))⟩,
  ⟨0, 0x41C, 1, .u8, .rw, 0x10, 4, 64, false, (some (0x00, 0x3F800000))⟩,
  ⟨0, 0x41D, 1, .u16, .rw, 0x0, 0, 2047, false, (some (0x00, 0x3F800000))⟩,
  ⟨0, 0x41E, 1, .s16, .rwl, 0x0, -32768, 32767, false, (some (0x09, 0x35800000))⟩,
  ⟨0, 0x420, 1, .u8, .rwl, 0xF, 0, 255, false, (some (0x0C, 0x3F800000))⟩,
  ⟨0, 0x421, 1, .u16, .rwl, 0x400, 256, 16384, false, (some (0x00, 0x3F800000))⟩,
  ⟨0, 0x422, 1, .u16, .rwl, 0x0, 0, 65535, false, (some (0x09, 0x37800000))⟩,
  ⟨0, 0x423, 1, .bits32, .rwl, 0x1, 0, 7, false, (some (0x0D, 0x3F800000))⟩,
  ⟨0, 0x428, 1, .bits32, .w1c, 0x0, 0, 32767, false, (some (0x0D, 0x3F800000))⟩,
  ⟨0, 0x840, 1, .u16, .ro, 0x0, 0, 65535, false, (some (0x09, 0x37800000))⟩,
  ⟨0, 0x841, 1, .s32, .ro, 0x0, -2147483648, 2147483647, false, (some (0x09, 0x37800000))⟩,
  ⟨0, 0x842, 1, .s32, .ro, 0x0, -2147483648, 2147483647, false, (some (0x0A, 0x37800000))⟩,
  ⟨0, 0x843, 1, .u16, .ro, 0x0, 0, 65535, false, (some (0x00, 0x3F800000))⟩,
  ⟨0, 0x844, 1, .u16, .ro, 0x0, 0, 65535, false, (some (0x00, 0x3F800000))⟩,
  ⟨0, 0x845, 1, .s16, .ro, 0x0, -32768, 32767, false, (some (0x00, 0x3F800000))⟩,
  ⟨0, 0x846, 1, .s16, .ro, 0x0, -32768, 32767, false, (some (0x00, 0x3F800000))⟩,
  ⟨0, 0x847, 1, .s16, .ro, 0x0, -32768, 32767, false, (some (0x09, 0x37800000))⟩]

/-- Signal tables of the spec, part 6. -/
def sigRows6 : List SigRow := [
  ⟨0, 0x848, 1, .s16, .ro, 0x0, -32768, 32767, false, (some (0x09, 0x37800000))⟩,
  ⟨0, 0x849, 1, .s16, .ro, 0x0, -32768, 32767, false, (some (0x09, 0x37800000))⟩,
  ⟨0, 0x84A, 1, .bits32, .ro, 0x0, 0, 4294967295, false, (some (0x0D, 0x3F800000))⟩,
  ⟨0, 0x84B, 1, .u16, .ro, 0x0, 0, 65535, false, (some (0x02, 0x3A83126F))⟩,
  ⟨0, 0x84C, 1, .u8, .ro, 0x0, 0, 255, false, (some (0x0E, 0x3F800000))⟩,
  ⟨0, 0x84D, 1, .u16, .ro, 0x0, 0, 65535, false, (some (0x09, 0x35800000))⟩,
  ⟨0, 0x84E, 1, .u32, .ro, 0x0, 0, 4294967295, false, (some (0x0B, 0x3F800000))⟩,
  ⟨0, 0x84F, 1, .u32, .ro, 0x0, 0, 4294967295, false, (some (0x00, 0x3F800000))⟩,
  ⟨0, 0x600, 1, .u8, .rwl, 0x1, 0, 1, false, (some (0x0C, 0x3F800000))⟩,
  ⟨0, 0x601, 1, .u32, .rwl, 0x0, 0, 4294967295, false, (some (0x08, 0x358637BD))⟩,
  ⟨0, 0x602, 1, .u32, .rwl, 0x320000, 0, 4294967295, false, (some (0x0A, 0x37800000))⟩,
  ⟨0, 0x603, 1, .u8, .rw, 0x5, 2, 20, false, (some (0x0E, 0x3F800000))⟩,
  ⟨0, 0x604, 1, .u16, .rwl, 0xC8, 20, 1000, false, (some (0x06, 0x3F800000))⟩,
  ⟨0, 0x605, 1, .u16, .rw, 0x1555, 0, 65535, false, (some (0x09, 0x37800000))⟩,
  ⟨0, 0x606, 1, .u16, .rw, 0x32, 10, 500, false, (some (0x05, 0x38D1B717))⟩,
  ⟨0, 0x607, 1, .u8, .rw, 0x1, 0, 1, false, (some (0x0C, 0x3F800000))⟩,
  ⟨0, 0x608, 1, .u8, .rw, 0x32, 10, 100, false, (some (0x0E, 0x3F800000))⟩,
  ⟨0, 0x609, 1, .u8, .rwl, 0x1, 0, 1, false, (some (0x0C, 0x3F800000))⟩,
  ⟨0, 0x60A, 1, .u16, .rwl, 0x7D0, 200, 10000, false, (some (0x01, 0x3A83126F))⟩,
  ⟨0, 0x60B, 1, .u16, .rwl, 0x32, 10, 100, false, (some (0x06, 0x3F800000))⟩,
  ⟨0, 0x610, 1, .bits32, .w1c, 0x0, 0, 31, false, (some (0x0D, 0x3F800000))⟩,
  ⟨0, 0x850, 1, .u16, .ro, 0x0, 0, 65535, false, (some (0x09, 0x37800000))⟩,
  ⟨0, 0x851, 1, .s32, .ro, 0x0, -2147483648, 2147483647, false, (some (0x0A, 0x37800000))⟩,
  ⟨0, 0x852, 1, .s16, .ro, 0x0, -32768, 32767, false, (some (0x09, 0x37800000))⟩,
  ⟨0, 0x853, 1, .u32, .ro, 0x0, 0, 4294967295, false, (some (0x01, 0x3A83126F))⟩,
  ⟨0, 0x854, 1, .bits32, .ro, 0x0, 0, 4294967295, false, (some (0x0D, 0x3F800000))⟩,
  ⟨0, 0x855, 1, .s16, .ro, 0x0, -32768, 32767, false, (some (0x09, 0x37800000))⟩,
  ⟨0, 0x856, 1, .u32, .ro, 0x0, 0, 4294967295, false, (some (0x00, 0x3F800000))⟩,
  ⟨0, 0x857, 1, .u32, .ro, 0x0, 0, 4294967295, false, (some (0x05, 0x3A83126F))⟩,
  ⟨0, 0x500, 1, .u8, .rwl, 0x0, 0, 5, false, (some (0x0C, 0x3F800000))⟩,
  ⟨0, 0x501, 1, .u16, .rwl, 0x400, 1, 65535, false, (some (0x00, 0x3F800000))⟩,
  ⟨0, 0x502, 1, .u8, .rwl, 0x0, 0, 1, false, (some (0x0C, 0x3F800000))⟩,
  ⟨0, 0x503, 1, .u8, .rwl, 0x0, 0, 7, false, (some (0x00, 0x3F800000))⟩,
  ⟨0, 0x504, 1, .u8, .rwl, 0xA, 1, 255, false, (some (0x00, 0x3F800000))⟩,
  ⟨0, 0x505, 1, .u16, .rw, 0x64, 1, 2000, false, (some (0x05, 0x3A83126F))⟩,
  ⟨0, 0x506, 1, .u16, .rw, 0x64, 10, 10000, false, (some (0x05, 0x358637BD))⟩,
  ⟨0, 0x507, 1, .u8, .rwl, 0x0, 0, 1, false, (some (0x0C, 0x3F800000))⟩,
  ⟨0, 0x508, 1, .u8, .rw, 0x2, 0, 255, false, (some (0x0B, 0x3F800000))⟩,
  ⟨0, 0x509, 1, .u8, .rwl, 0x0, 0, 2, false, (some (0x0C, 0x3F800000))⟩,
  ⟨0, 0x50A, 1, .s32, .rw, 0x0, -2147483648, 2147483647, false, (some (0x0B, 0x3F800000))⟩]

/-- Signal tables of the spec, part 7. -/
def sigRows7 : List SigRow := [
  ⟨0, 0x50B, 1, .u8, .wo, 0x0, 0, 1, false, (some (0x00, 0x3F800000))⟩,
  ⟨0, 0x50C, 1, .u8, .rw, 0x0, 0, 1, false, (some (0x0C, 0x3F800000))⟩,
  ⟨0, 0x50D, 1, .u8, .rwl, 0x0, 0, 255, false, (some (0x00, 0x3F800000))⟩,
  ⟨0, 0x510, 1, .bits32, .w1c, 0x0, 0, 2047, false, (some (0x0D, 0x3F800000))⟩,
  ⟨0, 0x511, 1, .u16, .ro, 0x0, 0, 65535, false, (some (0x02, 0x3727C5AC))⟩,
  ⟨0, 0x858, 1, .s32, .ro, 0x0, -2147483648, 2147483647, false, (some (0x0B, 0x3F800000))⟩,
  ⟨0, 0x859, 1, .s32, .ro, 0x0, -2147483648, 2147483647, false, (some (0x09, 0x37800000))⟩,
  ⟨0, 0x85A, 1, .s32, .ro, 0x0, -2147483648, 2147483647, false, (some (0x0A, 0x37800000))⟩,
  ⟨0, 0x85B, 1, .u32, .ro, 0x0, 0, 4294967295, false, (some (0x05, 0x322BCC77))⟩,
  ⟨0, 0x85C, 1, .s32, .ro, 0x0, -2147483648, 2147483647, false, (some (0x0B, 0x3F800000))⟩,
  ⟨0, 0x85D, 1, .s32, .ro, 0x0, -2147483648, 2147483647, false, (some (0x0B, 0x3F800000))⟩,
  ⟨0, 0x85E, 1, .bits32, .ro, 0x0, 0, 4294967295, false, (some (0x0D, 0x3F800000))⟩,
  ⟨0, 0x85F, 1, .u32, .ro, 0x0, 0, 4294967295, false, (some (0x00, 0x3F800000))⟩,
  ⟨1, 0x200, 1, .bits32, .rw, 0x1, 0, 7, false, (some (0x0D, 0x3F800000))⟩,
  ⟨1, 0x201, 1, .u8, .rw, 0x0, 0, 7, false, (some (0x0C, 0x3F800000))⟩,
  ⟨1, 0x202, 1, .u8, .wo, 0x0, 1, 1, false, (some (0x00, 0x3F800000))⟩,
  ⟨1, 0x203, 1, .bits32, .w1c, 0x0, 0, 2096959, false, (some (0x0D, 0x3F800000))⟩,
  ⟨1, 0x204, 1, .bits32, .ro, 0x0, 0, 4294967295, false, (some (0x0D, 0x3F800000))⟩,
  ⟨1, 0x205, 1, .u32, .ro, 0x0, 0, 4294967295, false, (some (0x00, 0x3F800000))⟩,
  ⟨1, 0x210, 6, .u8, .rw, 0x0, 0, 4, false, (some (0x0C, 0x3F800000))⟩,
  ⟨1, 0x218, 6, .u16, .rw, 0xFFFF, 0, 65535, false, (some (0x00, 0x3F800000))⟩,
  ⟨1, 0x220, 6, .u16, .rw, 0xFFFF, 0, 65535, false, (some (0x00, 0x3F800000))⟩,
  ⟨1, 0x228, 6, .u16, .rw, 0x0, 0, 16383, false, (some (0x00, 0x3F800000))⟩,
  ⟨1, 0x230, 6, .u16, .rw, 0x1, 1, 1000, false, (some (0x05, 0x358637BD))⟩,
  ⟨1, 0x238, 6, .u16, .ro, 0x0, 0, 65535, false, (some (0x00, 0x3F800000))⟩,
  ⟨1, 0x300, 1, .bits32, .w1c, 0x0, 0, 511, false, (some (0x0D, 0x3F800000))⟩,
  ⟨1, 0x301, 1, .bits32, .ro, 0x0, 0, 4294967295, false, (some (0x0D, 0x3F800000))⟩,
  ⟨1, 0x302, 1, .u16, .rw, 0x125C, 1000, 47000, false, none⟩,
  ⟨1, 0x303, 1, .u32, .rw, 0xB798, 10000, 1000000, false, (some (0x04, 0x358637BD))⟩,
  ⟨1, 0x304, 1, .u32, .rw, 0x1770, 0, 4294967295, false, (some (0x03, 0x3A83126F))⟩,
  ⟨1, 0x305, 1, .u8, .rw, 0x32, 10, 100, false, (some (0x0E, 0x3F800000))⟩,
  ⟨1, 0x306, 1, .u16, .rw, 0x7D0, 500, 50000, false, (some (0x02, 0x3A83126F))⟩,
  ⟨1, 0x307, 1, .u16, .rw, 0x64, 1, 2000, false, (some (0x08, 0x3A83126F))⟩,
  ⟨1, 0x308, 1, .u8, .rw, 0x19, 1, 100, false, (some (0x0E, 0x3F800000))⟩,
  ⟨1, 0x309, 1, .u32, .ro, 0x0, 0, 4294967295, false, (some (0x00, 0x3F800000))⟩,
  ⟨1, 0x30A, 1, .u32, .ro, 0x0, 0, 4294967295, false, (some (0x04, 0x358637BD))⟩,
  ⟨1, 0x30B, 1, .u32, .ro, 0x0, 0, 4294967295, false, (some (0x03, 0x3A83126F))⟩,
  ⟨1, 0x30C, 1, .u32, .ro, 0xFFFFFFFF, 0, 4294967295, false, (some (0x05, 0x3F800000))⟩,
  ⟨1, 0x310, 4, .u16, .rw, 0x4650, 6000, 58000, false, (some (0x01, 0x3A83126F))⟩,
  ⟨1, 0x314, 4, .u32, .rw, 0x9C40, 1000, 500000, false, (some (0x02, 0x3A83126F))⟩]

/-- Signal tables of the spec, part 8. -/
def sigRows8 : List SigRow := [
  ⟨1, 0x318, 4, .u32, .rw, 0x3E8, 0, 100000, false, none⟩,
  ⟨1, 0x31C, 4, .u32, .rw, 0x2710, 0, 1000000, false, (some (0x03, 0x3A83126F))⟩,
  ⟨1, 0x320, 4, .u8, .rw, 0x0, 0, 15, false, (some (0x00, 0x3F800000))⟩,
  ⟨1, 0x324, 4, .u8, .rw, 0x0, 0, 3, false, (some (0x0C, 0x3F800000))⟩,
  ⟨1, 0x328, 4, .u16, .ro, 0xFFFF, 0, 65535, false, (some (0x08, 0x3A83126F))⟩,
  ⟨1, 0x32C, 4, .u16, .ro, 0x0, 0, 65535, false, (some (0x01, 0x3A83126F))⟩,
  ⟨1, 0x330, 4, .s32, .ro, 0x0, -2147483648, 2147483647, false, (some (0x02, 0x3A83126F))⟩,
  ⟨1, 0x334, 4, .s32, .ro, 0x0, -2147483648, 2147483647, false, (some (0x03, 0x3A83126F))⟩,
  ⟨1, 0x338, 4, .u32, .ro, 0x0, 0, 4294967295, false, (some (0x03, 0x3A83126F))⟩,
  ⟨0, 0x700, 1, .u8, .rw, 0x3, 0, 4, false, (some (0x0C, 0x3F800000))⟩,
  ⟨0, 0x701, 1, .u32, .rwl, 0x1388, 0, 4294967295, false, (some (0x08, 0x358637BD))⟩,
  ⟨0, 0x702, 1, .u16, .rwl, 0x14, 0, 65535, false, none⟩,
  ⟨0, 0x703, 1, .u16, .rwl, 0x96, 0, 65535, false, none⟩,
  ⟨0, 0x704, 1, .u16, .rwl, 0x1F4, 10, 60000, false, (some (0x05, 0x3A83126F))⟩,
  ⟨0, 0x705, 1, .u8, .rw, 0x96, 100, 175, false, (some (0x07, 0x3F800000))⟩,
  ⟨0, 0x706, 1, .u16, .rwl, 0x64, 0, 65535, false, none⟩,
  ⟨0, 0x707, 1, .u8, .rwl, 0x1, 0, 1, false, (some (0x0C, 0x3F800000))⟩,
  ⟨0, 0x708, 1, .u16, .rwl, 0x3E8, 0, 65535, false, (some (0x01, 0x3A83126F))⟩,
  ⟨0, 0x709, 1, .s16, .rwl, 0x2710, -32768, 32767, false, none⟩,
  ⟨0, 0x860, 1, .u32, .ro, 0x0, 0, 4294967295, false, (some (0x02, 0x3A83126F))⟩,
  ⟨0, 0x861, 1, .u32, .ro, 0xFFFFFFFF, 0, 4294967295, false, (some (0x0A, 0x37800000))⟩,
  ⟨0, 0x862, 1, .u32, .ro, 0xFFFFFFFF, 0, 4294967295, false, none⟩,
  ⟨0, 0x863, 1, .u32, .ro, 0xFFFFFFFF, 0, 4294967295, false, none⟩,
  ⟨0, 0x864, 1, .u16, .ro, 0x8000, 0, 65535, false, (some (0x0F, 0x38000000))⟩,
  ⟨0, 0x865, 1, .u16, .ro, 0x8000, 0, 65535, false, (some (0x0F, 0x38000000))⟩,
  ⟨0, 0x866, 1, .s16, .ro, 0x0, -32768, 32767, false, (some (0x07, 0x3DCCCCCD))⟩,
  ⟨0, 0x867, 1, .s16, .ro, 0x0, -32768, 32767, false, (some (0x07, 0x3DCCCCCD))⟩,
  ⟨0, 0x868, 1, .u32, .ro, 0x0, 0, 4294967295, false, (some (0x03, 0x3A83126F))⟩,
  ⟨0, 0x869, 1, .u32, .ro, 0x0, 0, 4294967295, false, (some (0x03, 0x3A83126F))⟩,
  ⟨0, 0x86A, 1, .u32, .ro, 0x0, 0, 4294967295, false, (some (0x02, 0x3A83126F))⟩,
  ⟨0, 0x86B, 1, .u32, .ro, 0x0, 0, 4294967295, false, (some (0x04, 0x3F800000))⟩,
  ⟨0, 0x86C, 1, .bits32, .ro, 0x0, 0, 4294967295, false, (some (0x0D, 0x3F800000))⟩,
  ⟨1, 0x500, 1, .bits32, .w1c, 0x0, 0, 1023, false, (some (0x0D, 0x3F800000))⟩,
  ⟨1, 0x501, 1, .bits32, .ro, 0x0, 0, 4294967295, false, (some (0x0D, 0x3F800000))⟩,
  ⟨1, 0x502, 1, .u16, .rw, 0x3E8, 0, 65535, false, (some (0x05, 0x3A83126F))⟩,
  ⟨1, 0x503, 1, .u32, .ro, 0x0, 0, 4294967295, false, (some (0x00, 0x3F800000))⟩,
  ⟨1, 0x504, 1, .u32, .ro, 0x0, 0, 4294967295, false, (some (0x00, 0x3F800000))⟩,
  ⟨1, 0x505, 1, .u32, .ro, 0x0, 0, 4294967295, false, (some (0x00, 0x3F800000))⟩,
  ⟨1, 0x506, 1, .bits32, .ro, 0x0, 0, 4294967295, false, (some (0x0D, 0x3F800000))⟩,
  ⟨1, 0x510, 8, .u32, .ro, 0x0, 0, 4294967295, false, (some (0x00, 0x3F800000))⟩]

/-- Signal tables of the spec, part 9. -/
def sigRows9 : List SigRow := [
  ⟨1, 0x518, 8, .u32, .ro, 0x0, 0, 4294967295, false, (some (0x00, 0x3F800000))⟩,
  ⟨1, 0x520, 8, .u32, .ro, 0x0, 0, 4294967295, false, (some (0x00, 0x3F800000))⟩,
  ⟨1, 0x400, 1, .bits32, .w1c, 0x0, 0, 31, false, (some (0x0D, 0x3F800000))⟩,
  ⟨1, 0x401, 1, .bits32, .ro, 0x0, 0, 4294967295, false, (some (0x0D, 0x3F800000))⟩,
  ⟨1, 0x402, 1, .u16, .ro, 0xFFFF, 0, 65535, false, (some (0x0D, 0x3F800000))⟩,
  ⟨1, 0x403, 1, .u16, .rw, 0x0, 0, 65535, false, (some (0x00, 0x3F800000))⟩,
  ⟨1, 0x404, 1, .bits32, .rw, 0x0, 0, 4294967295, false, (some (0x0D, 0x3F800000))⟩,
  ⟨1, 0x405, 1, .u32, .ro, 0x0, 0, 4294967295, false, (some (0x00, 0x3F800000))⟩,
  ⟨1, 0x406, 1, .u8, .ro, 0x0, 0, 255, false, (some (0x00, 0x3F800000))⟩,
  ⟨1, 0x407, 1, .u32, .ro, 0x0, 0, 4294967295, false, (some (0x05, 0x358637BD))⟩,
  ⟨1, 0x410, 8, .u8, .rwl, 0x3, 0, 3, true, (some (0x0C, 0x3F800000))⟩,
  ⟨1, 0x418, 8, .u8, .rw, 0x32, 10, 90, true, (some (0x0E, 0x3F800000))⟩,
  ⟨1, 0x420, 8, .bits32, .w1c, 0x0, 0, 67108863, false, (some (0x0D, 0x3F800000))⟩,
  ⟨1, 0x428, 1, .bits32, .w1c, 0x0, 0, 65535, false, (some (0x0D, 0x3F800000))⟩,
  ⟨1, 0x430, 8, .u8, .ro, 0xFF, 0, 255, false, (some (0x0C, 0x3F800000))⟩,
  ⟨1, 0x600, 1, .bits32, .w1c, 0x0, 0, 2047, false, (some (0x0D, 0x3F800000))⟩,
  ⟨1, 0x601, 1, .bits32, .ro, 0x0, 0, 4294967295, false, (some (0x0D, 0x3F800000))⟩,
  ⟨1, 0x602, 1, .u8, .ro, 0x0, 0, 255, false, (some (0x0C, 0x3F800000))⟩,
  ⟨1, 0x603, 1, .u8, .ro, 0x0, 0, 255, false, (some (0x00, 0x3F800000))⟩,
  ⟨1, 0x604, 1, .u8, .ro, 0x1, 0, 255, false, (some (0x00, 0x3F800000))⟩,
  ⟨1, 0x605, 1, .u8, .ro, 0xFF, 0, 255, false, (some (0x00, 0x3F800000))⟩,
  ⟨1, 0x606, 1, .u32, .ro, 0x0, 0, 4294967295, false, (some (0x00, 0x3F800000))⟩,
  ⟨1, 0x607, 1, .u32, .ro, 0x0, 0, 4294967295, false, (some (0x00, 0x3F800000))⟩,
  ⟨1, 0x608, 1, .bits32, .ro, 0x1, 0, 4294967295, false, (some (0x0D, 0x3F800000))⟩,
  ⟨1, 0x609, 1, .bits32, .ro, 0x0, 0, 4294967295, false, (some (0x0D, 0x3F800000))⟩,
  ⟨1, 0x60A, 1, .u16, .rw, 0xFFFF, 0, 65535, false, (some (0x05, 0x2EDBE6FF))⟩,
  ⟨1, 0x60B, 1, .u16, .ro, 0x0, 0, 65535, false, (some (0x05, 0x2EDBE6FF))⟩,
  ⟨1, 0x60C, 1, .s16, .ro, 0x0, -32768, 32767, false, (some (0x05, 0x2EDBE6FF))⟩,
  ⟨1, 0x60D, 1, .s16, .ro, 0x0, -32768, 32767, false, (some (0x0F, 0x322BCC77))⟩,
  ⟨1, 0x610, 4, .u8, .rw, 0xFF, 0, 255, false, (some (0x00, 0x3F800000))⟩,
  ⟨1, 0x618, 1, .u32, .ro, 0x0, 0, 4294967295, false, (some (0x00, 0x3F800000))⟩,
  ⟨1, 0x619, 1, .u32, .ro, 0x0, 0, 4294967295, false, (some (0x00, 0x3F800000))⟩,
  ⟨1, 0x61A, 1, .u32, .ro, 0x0, 0, 4294967295, false, (some (0x00, 0x3F800000))⟩,
  ⟨1, 0x61B, 1, .u32, .ro, 0x0, 0, 4294967295, false, (some (0x00, 0x3F800000))⟩,
  ⟨1, 0x61C, 1, .u8, .rw, 0x1, 0, 1, true, (some (0x0C, 0x3F800000))⟩,
  ⟨1, 0x700, 1, .bits32, .w1c, 0x0, 0, 62, false, (some (0x0D, 0x3F800000))⟩,
  ⟨1, 0x701, 1, .bits32, .ro, 0x0, 0, 4294967295, false, (some (0x0D, 0x3F800000))⟩,
  ⟨1, 0x702, 1, .u32, .ro, 0x0, 0, 4294967295, false, (some (0x00, 0x3F800000))⟩,
  ⟨1, 0x703, 1, .u32, .ro, 0x0, 0, 4294967295, false, (some (0x00, 0x3F800000))⟩,
  ⟨1, 0x704, 1, .u32, .ro, 0x0, 0, 4294967295, false, (some (0x00, 0x3F800000))⟩]

/-- Signal tables of the spec, part 10. -/
def sigRows10 : List SigRow := [
  ⟨1, 0x705, 1, .u32, .ro, 0x0, 0, 4294967295, false, (some (0x00, 0x3F800000))⟩,
  ⟨1, 0x706, 1, .u32, .wo, 0x0, 0, 4294967295, false, (some (0x00, 0x3F800000))⟩,
  ⟨1, 0x707, 1, .u32, .wo, 0x0, 0, 4294967295, false, (some (0x00, 0x3F800000))⟩,
  ⟨1, 0x708, 1, .u32, .rw, 0xE10, 0, 4294967295, true, (some (0x05, 0x3F800000))⟩,
  ⟨1, 0x709, 1, .u8, .rw, 0x80, 0, 255, true, (some (0x00, 0x3F800000))⟩,
  ⟨1, 0x70A, 1, .u8, .rw, 0x40, 0, 255, true, (some (0x00, 0x3F800000))⟩,
  ⟨1, 0x70B, 1, .u32, .ro, 0x0, 0, 4294967295, false, (some (0x00, 0x3F800000))⟩,
  ⟨1, 0x70C, 1, .u32, .ro, 0x0, 0, 4294967295, false, (some (0x00, 0x3F800000))⟩,
  ⟨1, 0x70D, 1, .u16, .ro, 0x0, 0, 65535, false, (some (0x00, 0x3F800000))⟩,
  ⟨1, 0x70E, 1, .u32, .ro, 0x0, 0, 4294967295, false, (some (0x00, 0x3F800000))⟩,
  ⟨1, 0x70F, 1, .u16, .rw, 0x258, 10, 3600, true, (some (0x05, 0x3F800000))⟩,
  ⟨1, 0x800, 1, .u8, .ro, 0x0, 0, 255, false, (some (0x0C, 0x3F800000))⟩,
  ⟨1, 0x801, 1, .bits32, .ro, 0x0, 0, 4294967295, false, (some (0x0D, 0x3F800000))⟩,
  ⟨1, 0x802, 1, .bits32, .ro, 0x0, 0, 4294967295, false, (some (0x0D, 0x3F800000))⟩,
  ⟨1, 0x803, 1, .bits32, .ro, 0x0, 0, 4294967295, false, (some (0x0D, 0x3F800000))⟩,
  ⟨1, 0x804, 1, .bits32, .ro, 0x0, 0, 4294967295, false, (some (0x0D, 0x3F800000))⟩,
  ⟨1, 0x805, 1, .bits32, .ro, 0x0, 0, 4294967295, false, (some (0x0D, 0x3F800000))⟩,
  ⟨1, 0x806, 1, .bits32, .ro, 0x0, 0, 4294967295, false, (some (0x0D, 0x3F800000))⟩,
  ⟨1, 0x807, 1, .bits32, .ro, 0x0, 0, 4294967295, false, (some (0x0D, 0x3F800000))⟩,
  ⟨1, 0x808, 2, .bits32, .ro, 0x0, 0, 4294967295, false, (some (0x0D, 0x3F800000))⟩,
  ⟨1, 0x80A, 2, .bits32, .ro, 0x0, 0, 4294967295, false, (some (0x0D, 0x3F800000))⟩,
  ⟨1, 0x80C, 2, .bits32, .ro, 0x0, 0, 4294967295, false, (some (0x0D, 0x3F800000))⟩,
  ⟨1, 0x80E, 2, .bits32, .ro, 0x0, 0, 4294967295, false, (some (0x0D, 0x3F800000))⟩,
  ⟨1, 0x810, 8, .u32, .ro, 0x0, 0, 4294967295, false, (some (0x00, 0x3F800000))⟩,
  ⟨1, 0x818, 16, .u32, .ro, 0x0, 0, 4294967295, false, (some (0x00, 0x3F800000))⟩,
  ⟨1, 0x828, 192, .u32, .ro, 0x0, 0, 4294967295, false, (some (0x00, 0x3F800000))⟩,
  ⟨1, 0x8E8, 20, .u32, .ro, 0x0, 0, 4294967295, false, (some (0x00, 0x3F800000))⟩,
  ⟨1, 0x8FC, 2, .bits32, .ro, 0x0, 0, 4294967295, false, (some (0x0D, 0x3F800000))⟩,
  ⟨1, 0x940, 1, .bits32, .w1c, 0x0, 0, 31, false, (some (0x0D, 0x3F800000))⟩,
  ⟨1, 0x941, 1, .bits32, .ro, 0x0, 0, 4294967295, false, (some (0x0D, 0x3F800000))⟩,
  ⟨1, 0x942, 1, .u16, .rw, 0x3E8, 10, 60000, false, (some (0x05, 0x3A83126F))⟩,
  ⟨1, 0x943, 1, .u8, .rw, 0x0, 0, 1, false, (some (0x0C, 0x3F800000))⟩,
  ⟨1, 0x944, 1, .u32, .ro, 0x0, 0, 4294967295, false, (some (0x00, 0x3F800000))⟩,
  ⟨1, 0x945, 1, .u32, .ro, 0x0, 0, 4294967295, false, (some (0x00, 0x3F800000))⟩]

/-- Every signal of the spec (R83, R110, R175, R213, R246, R270, R308, R339, R386, R406, R428, R445, R472, R473, R501,
R537, R570, R593, R619, R640). -/
def sigRows : List SigRow :=
  sigRows0 ++ sigRows1 ++ sigRows2 ++ sigRows3 ++ sigRows4 ++ sigRows5 ++ sigRows6 ++ sigRows7 ++ sigRows8 ++ sigRows9 ++ sigRows10

/-- Whether a row defines the item of a class (R142, R143). -/
def SigRow.covers (r : SigRow) (isDev item : Nat) : Bool :=
  r.dev == isDev && decide (r.item ≤ item) && decide (item < r.item + r.count)

/-- The row of a key, where some chapter defines it (R143, R144). -/
def sigFind (key : Nat) : Option SigRow :=
  if key / 0x1000 < 8 then sigRows.find? (fun r => r.covers 0 (key % 0x1000))
  else if key / 0x1000 = 8 then sigRows.find? (fun r => r.covers 1 (key % 0x1000))
  else none

/-- The reset value of a key (0 where nothing is defined). -/
def sigReset (key : Nat) : Nat :=
  match sigFind key with
  | some r => r.reset
  | none => 0

end Sys2Proof.Machine
end

