-- ==== Sys2Proof/Config.lean ====
section
/-! DEFINITION. What the spec leaves open or does not compute: constants with no body. Nothing in Lean can evaluate
them, so a statement about the model holds whatever they are. -/

namespace Sys2Proof.Config

/-- A value that nothing constrains, one for each draw from the state's counter of free values (log entry 3). -/
opaque freeValue : Nat → BitVec 32

/-- A choice that nothing constrains, one for each draw (log entry 3). -/
opaque freeBool : Nat → Bool

/-- Whether a RESET_N pulse between 100 ns and 1 µs resets the device: R46 does not define the outcome. -/
opaque midPulseResets : Nat → Bool

/-- The sine of an angle in turns. The spec uses it and fixes no number format (log entry 4). -/
opaque sinTurn : Rat → Rat

/-- The cosine of an angle in turns. -/
opaque cosTurn : Rat → Rat

/-- The angle of the point (x, y) in turns, arguments in the order y, x, as the spec writes atan2(S, C). -/
opaque atan2Turn : Rat → Rat → Rat

/-- The non-negative square root. -/
opaque sqrtRat : Rat → Rat

/-- The exponential function. -/
opaque expRat : Rat → Rat

/-- π. -/
opaque pi : Rat

/-- Whether a block narrows an exact value that is no whole number of LSBs upwards; the first argument is the signal's key. The spec gives
the formula of each value and no rounding (log entry 4). -/
opaque roundsUp : Nat → Rat → Bool

/-- Whether TRIPn_N of an axis is asserted at an instant (µs, part of one) of which no command tells (R247; log entry 3). -/
opaque tripPin : Nat → Nat → Nat → Bool

/-- The code of a sample word of a slot that time passed without a command: the draw of the RUN, the converter, the word's number (log
entry 47). -/
opaque sampleCode : Nat → Nat → Nat → BitVec 12

/-- The 1 ms mean in sixteenths of an LSB of a slot of ADC3 some of whose samples no command told: the draw of the RUN, the interval, the
slot (log entry 47). -/
opaque sampleMean : Nat → Nat → Nat → BitVec 16

/-- The 14-bit code of the excitation synthesiser for a phase accumulator and an amplitude in 10 mV rms: the spec gives no scale of the codes
(R343; log entry 3). -/
opaque sineCode : Nat → Rat → BitVec 14

/-- The WIRE byte of a SYNC for a line delay that the byte cannot hold (R555 gives none; log entry 3). -/
opaque wireByte : Int → BitVec 8

/-- The greatest angle that FBn reports below the boundary (count + 1) / CPT: R419 limits the angle to a half-open range, and the
spec fixes no number format; the arguments are the count and CPT (log entry 4). -/
opaque fbTop : Int → Nat → Rat

/-- The output of the notch filter of R405 for an input, one for each draw: the spec gives no structure of the filter (log entry 16). -/
opaque notch : Nat → Rat → Rat

/-- SHA-256 (FIPS 180-4). -/
opaque sha256 : List Byte → List Byte

/-- ECDSA verification on P-256 (FIPS 186-4): public key, digest, signature. -/
opaque ecdsaVerify : List Byte → List Byte → List Byte → Bool

/-- HMAC-SHA-256 (FIPS 198-1): key, message. -/
opaque hmacSha256 : List Byte → List Byte → List Byte

/-- The random bytes of the challenge of a given draw (R630). -/
opaque nonce : Nat → List Byte

/-- The VERSION of the image that every part is delivered with (R2 names no value). -/
opaque deliveredVersion : BitVec 32

/-- The value of DEV:ROM_VER (R175 gives none). -/
opaque romVersion : BitVec 32

/-- The identity words and the Llynron key hash that Llynron programs before delivery (words 0 to 15). -/
opaque factoryFuse : Nat → BitVec 32

/-- Whether an address lies in the ROM of the MP (the spec gives the ROM's size and no address; log entry 22). -/
opaque romHolds : Nat → Bool

/-- A word of the ROM as it is masked, by its address (the spec prints no ROM; log entry 22). -/
opaque romWord : Nat → BitVec 32

/-- The Llynron patch key in ROM (R610): 64 bytes, X then Y. -/
opaque patchKey : List (BitVec 8)

/-- UNIT and SCALE of the descriptor of a signal whose table unit has no code in R146 (log entry 5). -/
opaque descUnit : Nat → Nat

/-- The SCALE word of the descriptor of a signal whose table unit has no code in R146 (log entry 5). -/
opaque descScale : Nat → BitVec 32

/-- The word a debug read of a core or of the system bus returns (the spec lays out no memory map for them):
target, address, draw (log entry 22). -/
opaque dbgMemory : Nat → Nat → Nat → BitVec 32

/-- Whether a word of a core's memory is mapped: port and address (the spec gives the sizes of the memories and no address; log entry 22). -/
opaque coreMapped : Nat → Nat → Bool

/-- What stands at a word address of the system bus, as a kind and a number: 0 nothing, 1 the block register of the signal of that key, 2 a
word of a trace ring, 3 the fuse word of that number, else a word of memory (log entry 22). -/
opaque sysPlace : Nat → Nat × Nat

/-- The halt-cause word of a Finyr STATUS for what halted the targets last (R626 names the word and gives no layout; log entry 3). -/
opaque haltCause : Nat → BitVec 32

end Sys2Proof.Config
end

