-- ==== Sys2Proof/Machine/State.lean ====
section
/-! DEFINITION. The state of the block as plain data: the command queue, the signal registers, the host link and its
rings, the runtime, the power and supervision state, the per-axis blocks, the shared converters, drivers and engines, the
record, the images, the fuses, the ring and the debug port; and the state right after reset. -/

namespace Sys2Proof.Machine

/-- Why the block stops. No command of the table stops it, so the type has one constructor that no meaning raises. -/
inductive Fault where
  /-- Raised by no command: every effect of the spec, a device fault included, is a next state. Safe: never raised. -/
  | stopped
  deriving DecidableEq, Repr

/-- Why the model gives no meaning. -/
inductive Refusal where
  /-- Raised by the arm of a command that has no meaning yet. Safe: nothing is claimed of such a command. -/
  | notModelled (mnemonic : String)
  deriving DecidableEq, Repr

/-- Values of registers by key, in rising order of key, none equal to what an unlisted key holds. -/
abbrev RegFile := List (Nat × Word)

/-- Bytes by address, in rising order of address, none equal to what an unlisted address reads as. -/
abbrev Memory := List Host.Cell

/-- What an unlisted address reads as, in every memory of the model (log entry 6). -/
def unlistedByte : Byte := 0

/-- The power states of R67. -/
inductive PwrState where
  | off | sleep | standby | run
  deriving DecidableEq, Repr

/-- The axis states, with the codes of R153 in order. -/
inductive AxState where
  | disabled | precharge | opn | torque | speed | position | hold | fault | safeShort
  deriving DecidableEq, Repr

/-- The life-cycle states of R615. -/
inductive LifeCycle where
  | blank | factory | develop | field | retired
  deriving DecidableEq, Repr

/-! ### Clocks and power (chapter 3) -/

/-- The counters of time: timebase ticks of the present RUN (R658), DEV:US_TIME in full (R659) with the part of a microsecond counted so
far, LFCLK periods and the parts of one, the tick at which the carrier epoch E lies (R179), from which ring cycles, budget ticks and the
tick count that a stamp shows are counted (R556, R658), and, for each event with a clock of its own, the first tick or microsecond at
which it can occur again (the model's own field, log entry 2). -/
structure Clock where
  tb : Nat
  us : Nat
  usPart : Nat
  lf : Nat
  lfPart : Nat
  epoch : Int
  marks : List (Nat × Nat)
  deriving DecidableEq, Repr

/-- Power, reset and start-up state (chapters 3 and 4); `armed` holds the wake enables as the present SLEEP entry armed them (R71, R75),
`pstLater` what a self-test that a lock-out postponed finds, while its lock-out has ended in SLEEP (R90). -/
structure Pwr where
  st : PwrState
  ready : Bool
  booted : Bool
  rescue : Bool
  toRun : Bool
  toSleep : Bool
  vioLow : Bool
  vcoreLow : Bool
  vanaLow : Bool
  stopping : Bool
  stopUs : Nat
  idleUs : Nat
  straps : Nat
  clkBlocked : Bool
  trialUs : Nat
  pwLevels : Nat
  pwFirst : Bool
  pwCounts : List (List Nat)
  pwTotals : List Nat
  armed : Nat
  pstLater : Option (List (Axis × Nat))
  deriving DecidableEq, Repr

/-! ### Supervision (chapter 18) -/

/-- A heartbeat word on the supervision link (R524). -/
structure HbWord where
  seq : Nat
  req : Nat
  safe : Bool
  echo : Nat
  boot : Bool
  deriving DecidableEq, Repr

/-- A DS status word on the supervision link (R524), with the requests that the DS had received when it sent the word (the model's own
field: what a word withholds, log entry 40). -/
structure StWord where
  seq : Nat
  req : Nat
  grant : Nat
  vdrvLock : Bool
  hbLoss : Bool
  ddHot : Bool
  ddFault : Bool
  notLocked : Bool
  disagree : Bool
  disTimeout : Bool
  deriving DecidableEq, Repr

/-- The drive supervisor on the DD (R525 to R532): its latched faults, the locked safe patterns, the last heartbeat word,
the count of consecutive bad words, a disagreement with its instant, whether a valid word came since and whether one still requested
enable, and what it last sent. -/
structure Ds where
  locked : Bool
  pats : Nat
  last : HbWord
  hbMissed : Nat
  hbLost : Bool
  hbReport : Bool
  dsFail : Bool
  hot : Bool
  vdrvLock : Bool
  disagree : Bool
  disUs : Nat
  disSeen : Bool
  disBad : Bool
  disTimeout : Bool
  seq : Nat
  sent : StWord
  withheldSeq : List (Option Nat)
  deriving DecidableEq, Repr

/-- The CD side of the supervision link (R524, R527): the next SEQ, the requests, SAFE, the last word sent and received,
and the REASON bits whose episode is running. -/
structure Sup where
  seq : Nat
  req : Nat
  safe : Bool
  boot : Bool
  sent : HbWord
  got : StWord
  epVdrv : Bool
  epHb : Bool
  epHot : Bool
  epFault : Bool
  deriving DecidableEq, Repr

/-- One fault source and its window counter (R503, R504), times in units of 100 ns; `since` counts the events since its
last event slice (R505). -/
structure FltSrc where
  n : Nat
  react : Nat
  t : Nat
  events : Nat
  last : Option Nat
  lastUs : Nat
  hist : List Nat
  lasting : Bool
  applied : Nat
  since : Nat
  sliceUs : Option Nat
  deriving DecidableEq, Repr

/-- A fault snapshot that collects (R585). -/
structure Snap where
  code : Nat
  react : Nat
  prior : Nat
  us : Nat
  pre : List (List Byte)
  post : List (List Byte)
  head : List Byte
  deriving DecidableEq, Repr

/-- The fault manager: its sources by FLT_IDX code in rising order (a source not listed stands at its role default with
no event), DEVICE_SAFE, and the snapshots that collect. -/
structure Flt where
  srcs : List (Nat × FltSrc)
  safeMode : Bool
  snaps : List Snap
  devRecs : List (List Byte)
  deriving DecidableEq, Repr

/-! ### Host link and runtime (chapters 5 and 6) -/

/-- A host-visible ring (R121, R122). -/
structure Ring where
  head : Nat
  tail : Nat
  size : Nat
  prio : Bool
  drop : Nat
  deriving DecidableEq, Repr

/-- The host link: the 64 hardware rings of R123, of which the sample rings 32 to 35, the forward queues 44 to 51 and the staging rings 52 to
55 have homes of their own (`adc`, `emq.queues`, `rcd.staged`) and the trace rings 56 to 59 and the runtime's rings 60 to 63 are filled by
nothing that the spec describes; the bytes of the link buffer keyed by
ring and offset, the sticky events, the event masks, PE_CODE, PROTO_ERR, RESYNC, the request rings that wait (R130), the
ring served last (R131), and (the model's own output field) the bytes the device drove in the data phase of the last ring data read. -/
structure Link where
  rings : List Ring
  buf : Memory
  events : Nat
  masks : Nat
  peCode : Nat
  protoErr : Bool
  resync : Bool
  stalled : List Nat
  lastServed : Nat
  out : List Byte
  deriving DecidableEq, Repr

/-- A frame the device took and remembers (R165): ring, TAG, opcode, whether it was answered and its completion
instant. -/
structure Taken where
  ring : Nat
  tag : Nat
  opcode : Nat
  done : Option Nat
  deriving DecidableEq, Repr

/-- A response whose command waits (AXIS_STATE with WAIT, MOVE or STOP with WAIT_DONE, REC_NOTE, IMG_COMMIT, MODE_SET,
PROBE_COUPLING, PWR_REQ, SELFTEST): the request, its opcode, the axis it waits on, and the value its answer carries. -/
structure Wait where
  req : Req
  opcode : Nat
  axis : Option Axis
  goal : Nat
  value : Nat
  deriving DecidableEq, Repr

/-- An entry of the deferral queue (R163, R467, R468): the command, the axes it selects, for a MOVE its fields per axis as taken (R317),
and when it was queued. -/
structure Deferred where
  req : Req
  cmd : Option MoveArgs
  axes : List Axis
  lims : List MoveArgs
  note : List Byte
  since : Nat
  deriving DecidableEq, Repr

/-- A subscription (R167 to R169): its values are next due at the instant `due`; `lastVals` are those sent last. -/
structure Sub where
  ring : Nat
  mode : Nat
  period : Nat
  deadband : Nat
  sids : List Word
  lastVals : List Word
  due : Nat
  seq : Nat
  entry : Nat
  fwd : Bool
  deriving DecidableEq, Repr

/-- A limit slot (R170 to R172): the ticks counted towards the next leave or return, whether the value is outside its band, the reports
sent, and where they go. -/
structure Lim where
  ring : Nat
  sid : Word
  low : Word
  high : Word
  hyst : Word
  qual : Nat
  count : Nat
  outside : Bool
  seq : Nat
  entry : Nat
  fwd : Bool
  deriving DecidableEq, Repr

/-- A target's result in an aggregated command (R159): target number, status, DETAIL. -/
structure TRes where
  t : Nat
  status : Nat
  detail : Nat
  deriving DecidableEq, Repr

/-- An aggregated command whose targets are being collected (R160); `late` for the response that a device posts of its own when axes that
it deferred end. -/
structure Agg where
  req : Req
  opcode : Nat
  targets : List Nat
  got : List TRes
  late : Bool
  deriving DecidableEq, Repr

/-- A frame sent to one remote device (R161): the request, the device it names, whether the ring layer confirmed its
delivery, and the stream ring that a SIG_SUBSCRIBE or SIG_LIMIT names (R169). -/
structure Delivery where
  req : Req
  opcode : Nat
  dev : Nat
  sent : Bool
  stream : Nat
  deriving DecidableEq, Repr

/-- The runtime: the command handed over by the link and not yet carried out (R661), the frames it remembers (R165),
the responses that wait, the deferral queue, subscriptions, limits, aggregated commands, deliveries, the rings of the stream
frames that remote devices send here (device, opcode, tag, ring), and the responses that wait for room in their ring. -/
structure Rt where
  handed : Option Instr
  taken : List Taken
  waits : List Wait
  defq : List Deferred
  subs : List (Option Sub)
  lims : List (Option Lim)
  aggs : List Agg
  delivs : List Delivery
  remote : List (Nat × Nat × Nat × Nat)
  blocked : List (Nat × List Byte)
  deriving DecidableEq, Repr

/-! ### PWM and gate drive (chapters 7 and 8) -/

/-- One phase channel of a PWM module (R184): the active compare, the ideal H*, the filtered H* with the tick at which
its present level began, whether its start was suppressed (R199), a stretch that runs (its end tick), the bootstrap
counters of R204, a refresh armed or running, and stage 5: the gate commands, pending turn-ons, the tick of each last
turn-off, the awaited gate-sense reports, the gates reported below VGS_OFF with the tick from which the synchroniser shows it, and the tick
at which each gate line last turned on (R225, R231). -/
structure Chan where
  act : Nat
  ideal : Bool
  filt : Bool
  since : Nat
  suppressed : Bool
  stretch : Option Nat
  wholeOn : Bool
  offSince : Option Nat
  bsCount : Nat
  bsArmed : Bool
  bsOn : Bool
  stage4 : Bool
  cmdH : Bool
  cmdL : Bool
  pendH : Bool
  pendL : Bool
  offH : Nat
  offL : Nat
  awaitH : Bool
  awaitL : Bool
  belowH : Bool
  belowL : Bool
  seenH : Nat
  seenL : Nat
  onH : Nat
  onL : Nat
  deriving DecidableEq, Repr

/-- A PWM module and its ATC (R176 to R212): counter, slope, running or waiting to start, whether a compare written since the start governs
(R180), dither counter, the active tag
compares with slopes, the channels, the last 16 gate edges with
their ticks (R264), and the blanking window. -/
structure PwmAx where
  cnt : Nat
  down : Bool
  running : Bool
  startPend : Bool
  live : Bool
  j : Nat
  trgA : Nat
  slopeA : Nat
  trgB : Nat
  slopeB : Nat
  chU : Chan
  chV : Chan
  chW : Chan
  edges : List Nat
  atcOpen : Bool
  atcOpenAt : Option Nat
  atcCloseAt : Option Nat
  deriving DecidableEq, Repr

/-- Gate-drive state of an axis that is not a signal: whether TRIPn_N was asserted at the instant at which a command last told it (R233) with
that instant in µs and parts of one, the precharge pulses done, whether one runs and the tick of the next edge of the sequence (R241), and
what is out of service until the axis next leaves DISABLED (R238): bits 0 to 2 the half-bridges of U, V
and W, bit 3 all gates by a trip of action 2, bit 4 the low sides on by a trip of action 3, bit 5 all gates by a lock-out or a hard
shutdown (R60, R531). -/
structure GdAx where
  tripNow : Bool
  tripAt : Option (Nat × Nat)
  precharge : Nat
  pulse : Bool
  nextAt : Nat
  out : Nat
  deriving DecidableEq, Repr

/-! ### Loop engine and Biscotti (chapters 10 and 17) -/

/-- The persistent loop variables of an axis, held twice (R476): integrators, references in force, the position reference with the
acceleration that was read with it (R288, R289), the forced angle, the voltages applied last. -/
structure Bank where
  iD : Rat
  iQ : Rat
  iW : Rat
  iP : Rat
  idRef : Rat
  iqRef : Option Rat
  wRef : Option Rat
  pRef : Int
  aCar : Rat
  forced : Rat
  vd : Rat
  vq : Rat
  deriving DecidableEq, Repr

/-- A tag of a FIFO: its 32-bit word (R262), and (the model's own fields) the tick that TSTAMP is the low half of and the axis that SLOT and
the engine give. -/
structure Tag where
  word : Word
  ts : Nat
  axis : Axis
  deriving DecidableEq, Repr

/-- A set of phase currents in sixteenths of an LSB (R266), with the tick of its tag. -/
structure CurSet where
  u : Int
  v : Int
  ts : Nat
  deriving DecidableEq, Repr

/-- What a task measures (R279 to R282): id, iq, ω in turn/s, position, θe in turns, vm, Ts. -/
structure Meas where
  id : Rat
  iq : Rat
  w : Rat
  pos : Int
  th : Rat
  vm : Rat
  ts : Rat
  deriving DecidableEq, Repr

/-- The set-points that a task reads at its start (R293), in the units of their signals. -/
structure SetPts where
  idRef : Int
  iqRef : Int
  iqSlew : Nat
  vd : Int
  vq : Int
  olForced : Bool
  olSpeed : Int
  holdPct : Nat
  deriving DecidableEq, Repr

/-- A current task with its input snapshot (R477): axis, tag, Ts, the reconstructed set with its plausibility and whether a search found no
clean word, the currents in the stator frame, what it measures, VM_FLOOR, the limits in force with whether the grant governs, and the
set-points. -/
structure Task where
  axis : Axis
  tag : Nat
  ts : Rat
  set : Option CurSet
  ok : Bool
  miss : Bool
  ia : Rat
  ib : Rat
  meas : Meas
  floor : Bool
  lim : Rat
  grant : Bool
  pts : SetPts
  deriving DecidableEq, Repr

/-- An outer step that is due (R287): the tag of its task, the feedback and ILIM of that task, and the sum of the sample intervals. -/
structure Due where
  tag : Nat
  speed : Rat
  pos : Int
  ilim : Rat
  ts : Rat
  deriving DecidableEq, Repr

/-- The loop of an axis: both copies of its variables, in the true bank and, complemented, in the complement bank (R475, R476); the last
task-starting tag, the tasks since the divisors began, the sums of
sample intervals, the outer steps that are due and which are owed from a held task (R278), the last plausible set, the last carrier
period with an implausible set that no pair has consumed and the last period consumed (R269), a transition that waits for the first
task whose tag falls after a tick (R296), the pass count and its pending change (R494), the loops to preload and whether the current
loop closes from PRECHARGE (R303), the rate of a STOP in SPEED in turn/s² (R300), the first task after closing (R281), whether the open-loop
angle in force is the forced one (R297, R663), the quantities
of the last task: currents, the voltages of the task before (va, vb), θe and speeds in turns, position, vm, ILIM and Ts, the tasks in
the running 10 ms (R308), and the records for snapshots (R585). -/
structure LoopAx where
  bankA : Bank
  bankB : Bank
  lastTag : Option Nat
  taskN : Nat
  tsSpd : Rat
  tsPos : Rat
  owedSpd : Bool
  owedPos : Bool
  dueSpd : Option Due
  duePos : Option Due
  dueObs : Option (Nat × Rat)
  lastSet : Option CurSet
  implLast : Option Nat
  implDone : Option Nat
  pend : Option (AxState × Nat)
  passes : Nat
  passPend : Option (Nat × Nat)
  preEmf : Bool
  stopRate : Option Rat
  preCur : Bool
  preSpd : Bool
  prePos : Bool
  firstTask : Bool
  olForced : Bool
  id : Rat
  iq : Rat
  ia : Rat
  ib : Rat
  va : Rat
  vb : Rat
  thE : Rat
  speed : Rat
  pos : Int
  vm : Rat
  ilim : Rat
  ts : Rat
  winTasks : Nat
  snapRecs : List (List Byte)
  deriving DecidableEq, Repr

/-- Axis state (R294 to R300): the state, the held state, the state a precharge leads to, whether the HOLD was entered as a
reaction (R298) and not yet released, a DERATE in force (R511), and whether in FAULT the module still serves the half-bridges
that no latch isolates (reaction ISOLATE, R181). -/
structure AxBase where
  st : AxState
  held : AxState
  goal : AxState
  holdByFault : Bool
  derate : Bool
  serve : Bool
  deriving DecidableEq, Repr

/-! ### Shared converters (chapter 9) -/

/-- One converter and its sample ring (R248, R258 to R261): running, the word that its consumer's read pointer has reached at least, counted
from the entry into RUN (R260), the 32-bit words of the ring that a command has told, newest first, with that count, and (the model's own
field) the draw under which the others stand (log entry 47). -/
structure Adc where
  running : Bool
  read : Nat
  words : List (Nat × Word)
  run : Nat
  deriving DecidableEq, Repr

/-- The housekeeping of ADC3: sum and count of the samples told per 1 ms interval and slot, at 32 × interval + slot (R254), the bad
reference readings in a row (R253), and the spans of ticks in which a VANA brown-out made words invalid, with the start of one that lasts
(R261). -/
structure Hk where
  sums : List (Nat × Nat × Nat)
  refBad : Nat
  bad : List (Nat × Nat)
  badFrom : Nat
  deriving DecidableEq, Repr

/-- An offset learn of an axis (R256): whether it runs, whether it must be discarded, whether offsets are at their
default, and sum and count of the samples told of U and V. -/
structure OfsAx where
  learning : Bool
  spoiled : Bool
  dflt : Bool
  sumU : Nat × Nat
  sumV : Nat × Nat
  deriving DecidableEq, Repr

/-- A loop engine: its tag FIFO, oldest first (R263), whether Finyr halts it (R633), its busy time in µs in the running 10 ms
(R276), the tick at which its last current task ended (R16), and a task that a halt or a step holds inside pass A (R500). -/
structure Engine where
  fifo : List Tag
  halted : Bool
  busy : Rat
  freeAt : Nat
  stopped : Option Task
  deriving DecidableEq, Repr

/-! ### Caramel (chapter 11) -/

/-- A piece of a plan with constant jerk (R315): how long it lasts in seconds, the velocity and acceleration it starts
with in counts/s and counts/s², and its jerk in counts/s³. -/
structure Seg where
  dur : Rat
  v : Rat
  a : Rat
  j : Rat
  deriving DecidableEq, Repr

/-- What Caramel is told to do (R317, R325): kind 1 position, 2 velocity, 3 stop; the absolute target in counts, not
wrapped; the target velocity; the limits V, A, D, J, VSTART, VSTOP as taken; whether the move starts from standstill; whether
a stop is quick; the class of the MOVE, its start scale and the budget boundaries it has passed (R467); whether it is a MOVE. -/
structure CarCmd where
  kind : Nat
  target : Int
  vTarget : Rat
  vMax : Rat
  acc : Rat
  dec : Rat
  jerk : Rat
  vStart : Rat
  vStop : Rat
  quick : Bool
  cls : Nat
  scale : Rat
  ticks : Nat
  isMove : Bool
  deriving DecidableEq, Repr

/-- A record of the profile history (R311). -/
structure HistRec where
  ts : Nat
  pos : Int
  v : Rat
  a : Rat
  deriving DecidableEq, Repr

/-- A position-compare slot (R335 to R338): a frame that writes it makes it wait for arming; armed; the position at the
last check. -/
structure CmpSlot where
  arming : Bool
  armed : Bool
  prev : Option Int
  deriving DecidableEq, Repr

/-- Caramel n (R310 to R334): Φ in 2⁻¹⁶ count (unwrapped), the rounding residue, velocity and acceleration in counts/s and counts/s²,
the command in force, its plan and the time spent in the plan's first piece, the direction of the final leg, the newest command not
yet taken, the command and the caps that a running replan works with, whether that command is new, its switch clock, a trigger held until
then (R321), a target
reached and not yet reported (R326), whether the target in force has been reached, the history, newest first, the slots, and the step output. -/
structure CarAx where
  phi : Int
  res : Rat
  v : Rat
  a : Rat
  cmd : Option CarCmd
  segs : List Seg
  spent : Rat
  dir : Int
  next : Option CarCmd
  taking : Option CarCmd
  fresh : Bool
  caps : Nat × Nat × Nat
  replan : Option Nat
  held : Bool
  arrived : Bool
  done : Bool
  hist : List HistRec
  slots : List CmpSlot
  stpHigh : Bool
  stpAt : Nat
  dirPos : Bool
  dirAt : Nat
  deriving DecidableEq, Repr

/-! ### Resolver (chapter 12) -/

/-- Per-bin sums of a learning run (R374). -/
structure BinSum where
  bin : Nat
  sum : Rat
  sq : Rat
  n : Nat
  deriving DecidableEq, Repr

/-- A learning run (R372 to R376): armed, accepted revolutions, the bins, the periods of the running revolution as (centre, μ), its
start and direction, the length of the revolution before, whether the running one still qualifies, and the newest μ. -/
structure Learn where
  armed : Bool
  revs : Nat
  bins : List BinSum
  cur : List (Rat × Rat)
  start : Option Rat
  dir : Int
  prevLen : Option Rat
  good : Bool
  lastMu : Option Rat
  deriving DecidableEq, Repr

/-- A channel's compensation table in a memory: the entries that are not 0, by index (R370). -/
abbrev Table := List (Nat × Int)

/-- Resolver channel n: enabled at the last excitation start; φ_n in turns, A_nom in LSB, whether both are adopted, faulted; θ̂, ω̂ and
ω_x in turns and turns/s with the centre t_k of the newest period in ticks; consecutive unused periods, usable periods while lost and
used periods after a reacquisition; lost, ANGLE_VALID, MT_SUSPECT; the learn of R348 with its sums (Σ y sin ψ_exc and Σ y cos ψ_exc of
SIN and COS) and the sum and count of the amplitudes of periods 30 to 49; the tick at which the last demodulation period ended; o_S and o_C; a
probe period; an excitation period that failed a check; δφ, ε, A; the table in CD memory, whether it is good, both ND copies with
which is newer, a table write with its content and one that waits; the learning run; the emulation count and its frozen target; the
demodulation periods since the excitation started. -/
structure RsvAx where
  en : Bool
  phase : Rat
  aNom : Rat
  adopted : Bool
  faulted : Bool
  theta : Rat
  omega : Rat
  omx : Rat
  tk : Rat
  coast : Nat
  good : Nat
  validCnt : Nat
  lost : Bool
  valid : Bool
  mt : Bool
  learnPhase : Bool
  sumS : Rat × Rat
  sumC : Rat × Rat
  ampSum : Rat
  ampN : Nat
  since : Nat
  ofsS : Rat
  ofsC : Rat
  probe : Bool
  excBad : Bool
  table : Table
  tableOk : Bool
  ndA : Table
  ndB : Table
  ndNewB : Bool
  storing : Option Table
  storeNext : Bool
  learn : Learn
  emOut : Int
  emFreeze : Int
  periods : Nat
  deriving DecidableEq, Repr

/-- An excitation driver (R343 to R348): running, the tick it started, whether a first start has been made since the reset or the
restart, the excitation periods run, and its ramp to zero (R347): the µs at which it began, and the part of the amplitude it began from. -/
structure Exc where
  on : Bool
  start : Nat
  started : Bool
  periods : Nat
  ramp : Option (Nat × Rat)
  deriving DecidableEq, Repr

/-! ### Observer (chapter 13) -/

/-- Observer n (R388 to R405): θ̂o and ω̂e of the back-EMF observer in electrical turns with the tick of its last step, the currents
of that step in its frame, whether it has made none since the enable; converged, the instants since which its conditions hold;
sensorless continuation with its estimator (1 back-EMF, 2 HFI) and its pending entry (estimator, tick of the loss); the angle and rate
of the HFI loop with the tick of its last update, and the sums of the running injection period; the filtered currents; the
dead-reckoned position in turns with the angle of the task before; ticks of continuation below a millisecond. -/
structure ObsAx where
  th : Rat
  we : Rat
  tk : Nat
  idP : Rat
  iqP : Rat
  fresh : Bool
  conv : Bool
  below : Option Nat
  overSince : Option Nat
  sens : Bool
  est : Nat
  enter : Option (Nat × Nat)
  hth : Rat
  hw : Rat
  htk : Nat
  hSumQ : Rat
  hSumD : Rat
  hN : Nat
  dead : Rat
  thPrev : Rat
  msPart : Nat
  deriving DecidableEq, Repr

/-! ### Feedback inputs (chapter 14) -/

/-- Feedback input n (R408 to R427): the 48-bit count (unwrapped), the last 64 steps newest first as (tick, forward),
the newest boundary in counts, the count at the last index capture, the reference of R423, armed for homing, RUN left with the mode
set, no Hall code yet since the mode was written or RUN entered, the filtered levels, STILL, HOMED, the sensor supply off after a short, the C_out received last
and the ring cycles without a valid frame. -/
structure FbAx where
  count : Int
  steps : List (Nat × Bool)
  edge : Int
  zRef : Option Int
  zAbs : Option Int
  armed : Bool
  gap : Bool
  fresh : Bool
  a : Bool
  b : Bool
  z : Bool
  still : Bool
  homed : Bool
  wssOff : Bool
  cOut : Option Int
  missing : Nat
  deriving DecidableEq, Repr

/-! ### Analogue outputs (chapter 15) -/

/-- Analogue output k: the span in force, the code at the DAC, the target code, the switch, waiting for the first strobe
after configuration, a span change with the span it leads to, whether the switch stands open in that change, and the instant (µs) of
its last limiter step. -/
structure AoCh where
  span : Nat
  out : Nat
  target : Nat
  closed : Bool
  waiting : Bool
  changing : Option Nat
  openAt : Bool
  tickUs : Nat
  deriving DecidableEq, Repr

/-! ### Honeycomb (chapter 16) -/

/-- Honeycomb's state of an axis: ΔT, the last ten ticks of |iq| and |a_car|, √k of the grant in force, the scale for which the caps
were set last (R465), the shadow registers of the next boundary (grant, caps, k), a current grant that waits one more boundary (R466),
the ticks since the last renewal, the class of a running MOVE, the part of a joule counted, the sums of the running tick (id, iq, vm
over its tasks, a_car over its profile clocks), the ticks at standstill (R452), and ī_load of the last computation (R467). -/
structure HcAx where
  dT : Rat
  iq10 : List Rat
  a10 : List Rat
  sIn : Rat
  sCaps : Option Rat
  shI : Nat
  shV : Nat
  shA : Nat
  shD : Nat
  shK : Rat
  lateI : Option Nat
  age : Nat
  moveCls : Option Nat
  eFrac : Rat
  sumD : Rat
  sumQ : Rat
  sumVm : Rat
  sumN : Nat
  sumA : Rat
  sumAn : Nat
  still : Nat
  iLoad : Rat
  deriving DecidableEq, Repr

/-- Honeycomb's state of a rail: rail voltage and current of the last 64 ticks, oldest first (R456), the estimate of the source
resistance in Ω, and the open-circuit voltage in V. -/
structure HcRail where
  vocs : List (Rat × Rat)
  rsrc : Option Rat
  voc : Rat
  deriving DecidableEq, Repr

/-- A coupling probe that runs (R453, R454): the rail measured now with its probe axis, its start and i_p, the rails still to do, the
rails that failed once, whether these are done now, the results per rail, whether a rail failed, the request of a PROBE_COUPLING, the
instant of an abort; of the rail measured now the voltages and currents of the budget ticks in its two windows, and the current of the
other axis at every tick. -/
structure Probe where
  rail : Fin 4
  axis : Axis
  start : Nat
  ip : Rat
  todo : List (Fin 4)
  again : List (Fin 4)
  retry : Bool
  results : List Nat
  failed : Bool
  req : Option Req
  stopped : Option Nat
  win1 : List (Rat × Rat)
  win2 : List (Rat × Rat)
  other : List Rat
  deriving DecidableEq, Repr

/-- Honeycomb of the device: whether this tick's shadows are written, the spare power per rail and class, the demand that starts have
taken since per rail and class (R467), whether a coupling probe is scheduled, a running probe, the LF second of the last adopted result, the lead's allotments for the two ring
groups with the ticks since they were received, the reports that the lead holds per device, the derating step of each DD sensor, the
group entries of the last computation and of the one before the last boundary (R558, R559), the blocks of 100 budget ticks (R308), and whether the deferral queue is to be
scanned. -/
structure Hc where
  written : Bool
  spare : List (List Rat)
  taken : List (List Rat)
  scheduled : Bool
  probe : Option Probe
  probeAt : Option Nat
  allot : List Rat
  allotAge : Nat
  reports : List (Nat × List Byte)
  therm : List Nat
  mine : List (Nat × List Rat)
  mineLast : List (Nat × List Rat)
  win : Nat
  scanDue : Bool
  deriving DecidableEq, Repr

/-! ### Biscotti (chapter 17) -/

/-- Biscotti of the device: the drive mode (0 DOUBLE, 1 SPLIT, 2 LEAN), SPLIT_MASK, the debug writes that wait for pass B
on LE0, LE1 and the MP (65 where the log of 64 has overflowed), and whether the comparator proof runs. -/
structure Bisc where
  mode : Nat
  mask : Nat
  logs : List Nat
  proof : Bool
  deriving DecidableEq, Repr

/-! ### Emquin ring (chapter 19) -/

/-- What a census position last showed (R544, R547): its ring ID, SEQ, the STATE flags of its byte 1, and the cycles since its SEQ
changed. -/
structure Member where
  id : Nat
  seq : Nat
  flags : Nat
  age : Nat
  deriving DecidableEq, Repr

/-- A frame in a forward queue (R561, R562): queue, destination, whether it is a response, its bytes, the instant its DEADLINE runs out,
its FRAME_ID, the next segment to place once it is being sent, whether that segment waits for its return, a NAK on the last segment, and
the request of whose delivery it is. -/
structure FwdFrame where
  queue : Nat
  dst : Nat
  resp : Bool
  bytes : List Byte
  due : Option Nat
  id : Nat
  seg : Nat
  sending : Bool
  away : Bool
  nak : Bool
  key : Option (Nat × Nat)
  deriving DecidableEq, Repr

/-- A frame being received in segments: the writer's position, the frame ID, the next index, the bytes so far, and whether a segment had
a bad CRC. -/
structure Incoming where
  writer : Nat
  id : Nat
  next : Nat
  bytes : List Byte
  bad : Bool
  deriving DecidableEq, Repr

/-- The ring link of the device: RING_MODE and the census position; what the positions show and the census in effect as (ring ID, STATE
flags), what the heartbeats showed at the last cycle and for how many it has stood (R547), the cycles since the census in effect changed
(R552), those for which it names a better master (R550); the cycles for which the census has held only the device; the master's ring ID, whether this device is the master and whether it
stops at its next boundary, the cycles it waits after a tie (R549); whether the ring has a lead (R551); NO_LEAD; whether the epoch is not
yet the ring's, the master's boundary (in 0.1 ns of the tick count from the start of the RUN) and CYCLE of the last stamped SYNC; SYNC_LOCKED
with the cycles within and outside its bounds, the trim in 0.01 ppm; line head and tail, symbols on RIN, BREAK_POS, WIRE, the cycles
since a stamp, a HEAL that is due with the boundaries left; the heartbeat SEQ; forward queues, next FRAME_ID, frames being received, the
FRAME_IDs received last as (writer, ID), frames received whole and not yet handled; the stream frames received in the running cycle, the
sets that stopped for a conflict, EXCESS seen, the cycles since the present segment was sent (R564); and the slots as they leave the device: SYNC, heartbeat, Honeycomb, streams by slot,
transport. -/
structure Emq where
  mode : Nat
  pos : Nat
  members : List (Option Member)
  census : List (Option (Nat × Nat))
  shown : List (Option (Nat × Nat))
  steady : Nat
  censusAge : Nat
  usurped : Nat
  aloneFor : Nat
  master : Option Nat
  isMaster : Bool
  stopAt : Bool
  wait : Nat
  lead : Bool
  noLead : Bool
  epochOwn : Bool
  bound : Option (Int × Nat)
  locked : Bool
  inRow : Nat
  outRow : Nat
  trim : Int
  head : Bool
  tail : Bool
  rinOk : Bool
  breakPos : Nat
  wire : Int
  sinceStamp : Nat
  heal : Nat
  seq : Nat
  queues : List FwdFrame
  frameId : Nat
  incoming : List Incoming
  seen : List (Nat × Nat)
  inbox : List (Nat × List Byte)
  streams : List (List Byte)
  conflict : List Bool
  excess : Bool
  awayFor : Nat
  txSync : List Byte
  txHb : List Byte
  txHc : List Byte
  txStrm : List (Nat × List Byte)
  slot : List Byte
  deriving DecidableEq, Repr

/-! ### Record (chapter 20) -/

/-- A slice of the record (R574): kind, flags, SEQ, TIME, SUB, BOOT, payload, the block and offset where it stands, and the 16 bytes of its
commit marker, none before it is written (R575). -/
structure Slice where
  kind : Nat
  autoPin : Bool
  relocated : Bool
  seq : Nat
  time : Nat
  sub : Nat
  boot : Nat
  payload : List Byte
  block : Nat
  off : Nat
  mark : List Byte
  deriving DecidableEq, Repr

/-- A slice that waits in staging (R579): its kind, payload, AUTO_PIN, the request of a host note, and the instant of its staging (µs and
the part of one). -/
structure Staged where
  kind : Nat
  payload : List Byte
  autoPin : Bool
  req : Option Req
  at_ : Nat × Nat
  deriving DecidableEq, Repr

/-- The Fruitcake record: the present slices in the order of their places, the slices that stand there without a valid marker, the skip
markers by block and offset (R575), the head block and offset, the oldest block that is not erased, staging in order, the notes that wait for staging, host pins and released automatic pins, the highest SEQ committed, the
open coupling (its instant and note, R588), the note for the next coupling, and the accumulators of the next summary (R586): its
start, MOVE completions, HC_ENERGY at the start, budget ticks not DISABLED, sources that became lasting, the highest junction
temperature, both histograms, and the extremes of VBAT. -/
structure Rec where
  slices : List Slice
  absent : List Slice
  skips : List (Nat × Nat × List Byte)
  headBlock : Nat
  headOff : Nat
  oldestBlock : Nat
  staged : List Staged
  noteWaits : List (Req × List Byte)
  hostPins : List Nat
  freedPins : List Nat
  maxSeq : Nat
  coupling : Option (Nat × List Byte)
  nextNote : List Byte
  sumSince : Nat
  sumApplies : List Nat
  sumEnergy : List Nat
  sumRun : List Nat
  sumLasting : List Nat
  sumTjMax : List Int
  sumTjHist : List (List Nat)
  sumDdHist : List (List Nat)
  sumVmin : Nat
  sumVmax : Nat
  deriving DecidableEq, Repr

/-! ### Images and parameters (chapter 4) -/

/-- An image bank (R97): the image that Llynron delivered (R2) or bytes written by IMG_WRITE; whether it verified; its
VERSION. -/
structure ImgBank where
  delivered : Bool
  bytes : Memory
  valid : Bool
  version : Nat
  deriving DecidableEq, Repr

/-- A slot of the bank-select record (R100). -/
structure BankRec where
  seq : Nat
  bank : Nat
  trial : Bool
  prev : Nat
  ok : Bool
  deriving DecidableEq, Repr

/-- The non-volatile die apart from the record: both image banks, both bank-select slots, the parameter area (kept signal
values, kept source configurations, and whether its CRC-32 holds), whether the last trial was
reverted (R106), and the counters that live as long as the device. -/
structure Nd where
  bankA : ImgBank
  bankB : ImgBank
  recA : BankRec
  recB : BankRec
  params : RegFile
  fltCfgs : List (Nat × Nat)
  paramsOk : Bool
  reverted : Bool
  coupleCount : Nat
  bootCount : Nat
  reclaimCount : Nat
  sessions : Nat
  deriving DecidableEq, Repr

/-- The image update in progress (R102): the request of a running IMG_COMMIT and its RESTART option. -/
structure Upd where
  commit : Option Req
  restart : Bool
  aborted : Bool
  deriving DecidableEq, Repr

/-! ### Fuses (chapter 21) -/

/-- The fuse array: blown bits of copy A and copy B per word (entries not listed are the delivered words or 0), the commit bits of each
copy, the value at the margin reference of each word that reads differently there and the words whose commit bit does (as last sensed), what
the shadow register of a word holds whose pulses were cut off before it was sensed (R607, R608), the
life cycle decoded at boot and as programmed since (R616), the key hash slots valid at boot (R611), the patch entries applied and skipped at
boot, whether both CD sensors were within 0 °C to 85 °C when last read (R620), and whether a word failed verification. -/
structure Fuse where
  copyA : List (Nat × Word)
  copyB : List (Nat × Word)
  commitA : List Nat
  commitB : List Nat
  margin : List (Nat × Word)
  marginCommit : List Nat
  unsensed : List (Nat × Word)
  lc : LifeCycle
  lcNow : LifeCycle
  keys : List Nat
  applied : List Nat
  skipped : List Nat
  tempOk : Bool
  verifyFail : Bool
  deriving DecidableEq, Repr

/-! ### Finyr (chapter 22) -/

/-- A breakpoint, watchpoint or signal-condition slot (R637): port, slot, the four words, and the last value of an any-change
condition. -/
structure Bp where
  port : Nat
  slot : Nat
  words : List Word
  last : Option Word
  deriving DecidableEq, Repr

/-- The Finyr port: session, authentication, the SEQ of the request last answered OK or DENIED with its stored response (R628), the nonce
with its issue time, the nonces drawn so far, failures in a row, the lockout and its end, whether the MP is halted (an engine's halt
stands in its own block), what halted the targets last (bit 0 HALT, bit 1 a breakpoint, bit 2 STEP, bit 3 a signal condition), the
slots that are enabled, the time of the last valid request, a RETIRE under way by SEQ with whether it blew its group, the response sent
last, and (the model's own fields, log entry 22) the words written to the memory of the MP, LE0, LE1 and the system bus, keyed by port and
address, with the draw under which the others stand. -/
structure Dbg where
  session : Bool
  auth : Bool
  lastSeq : Option Nat
  lastAns : List Byte
  nonce : Option (List Byte × Nat)
  draws : Nat
  fails : Nat
  lockUntil : Option Nat
  lockForever : Bool
  haltMp : Bool
  cause : Nat
  slots : List Bp
  lastUs : Nat
  retiring : Option (Nat × Bool)
  answer : List Byte
  mem : List (Nat × Word)
  epochs : List Nat
  deriving DecidableEq, Repr

/-! ### The whole -/

/-- The block. `regs` is the register file of the signals, read through their reset values (R145); every other field is the
named block's own state. `free` counts the values that nothing constrains (the model's own field). -/
structure State where
  pending : List Instr
  regs : RegFile
  clk : Clock
  pwr : Pwr
  ds : Ds
  sup : Sup
  flt : Flt
  link : Link
  rt : Rt
  ax : Vector AxBase 8
  pwm : Vector PwmAx 8
  gd : Vector GdAx 8
  loop : Vector LoopAx 8
  ofs : Vector OfsAx 8
  adc : Vector Adc 4
  hk : Hk
  eng : Vector Engine 2
  car : Vector CarAx 8
  rsv : Vector RsvAx 8
  exc : Vector Exc 2
  obs : Vector ObsAx 8
  fb : Vector FbAx 8
  ao : Vector AoCh 6
  aoClear : Bool
  hcAx : Vector HcAx 8
  hcRail : Vector HcRail 4
  hc : Hc
  bisc : Bisc
  emq : Emq
  rcd : Rec
  nd : Nd
  upd : Upd
  fuse : Fuse
  dbg : Dbg
  free : Nat
  deriving DecidableEq, Repr

/-! ### Reset -/

def Clock.init : Clock := ⟨0, 0, 0, 0, 0, 0, []⟩

def Pwr.init : Pwr where
  st := .standby
  ready := false
  booted := false
  rescue := false
  toRun := false
  toSleep := false
  vioLow := false
  vcoreLow := false
  vanaLow := false
  stopping := false
  stopUs := 0
  idleUs := 0
  straps := 0
  clkBlocked := false
  trialUs := 0
  pwLevels := 0
  pwFirst := true
  pwCounts := []
  pwTotals := [0, 0, 0, 0, 0, 0, 0, 0]
  armed := 0
  pstLater := none

def HbWord.init : HbWord := ⟨0, 0, false, 0, true⟩

def StWord.init : StWord := ⟨0, 0, 0, false, false, false, false, true, false, false⟩

def Ds.init : Ds where
  locked := false
  pats := 0
  last := HbWord.init
  hbMissed := 0
  hbLost := false
  hbReport := false
  dsFail := false
  hot := false
  vdrvLock := false
  disagree := false
  disUs := 0
  disSeen := false
  disBad := false
  disTimeout := false
  seq := 0
  sent := StWord.init
  withheldSeq := [none, none, none, none, none, none, none, none]

def Sup.init : Sup := ⟨0, 0, false, true, HbWord.init, StWord.init, false, false, false, false⟩

def Flt.init : Flt := ⟨[], false, [], []⟩

def Ring.init : Ring := ⟨0, 0, 0, false, 0⟩

def Link.init : Link := ⟨List.replicate 64 Ring.init, [], 0, 0, 0, false, false, [], 15, []⟩

def Rt.init : Rt where
  handed := none
  taken := []
  waits := []
  defq := []
  subs := List.replicate 32 none
  lims := List.replicate 64 none
  aggs := []
  delivs := []
  remote := []
  blocked := []

def Chan.init : Chan where
  act := 0
  ideal := false
  filt := false
  since := 0
  suppressed := false
  stretch := none
  wholeOn := false
  offSince := none
  bsCount := 0
  bsArmed := false
  bsOn := false
  stage4 := false
  cmdH := false
  cmdL := false
  pendH := false
  pendL := false
  offH := 0
  offL := 0
  awaitH := false
  awaitL := false
  belowH := true
  belowL := true
  seenH := 0
  seenL := 0
  onH := 0
  onL := 0

def PwmAx.init : PwmAx where
  cnt := 0
  down := false
  running := false
  startPend := false
  live := false
  j := 0
  trgA := 0
  slopeA := 1
  trgB := 0
  slopeB := 0
  chU := Chan.init
  chV := Chan.init
  chW := Chan.init
  edges := []
  atcOpen := false
  atcOpenAt := none
  atcCloseAt := none

def GdAx.init : GdAx := ⟨false, some (0, 0), 0, false, 0, 0⟩

def Bank.init : Bank := ⟨0, 0, 0, 0, 0, none, none, 0, 0, 0, 0, 0⟩

/-- The bitwise complement of a number in the arithmetic of pass B, ~x = −x − 1 (R475), of an exact value (log entry 4). -/
def complRat (x : Rat) : Rat := -x - 1

/-- The complement of every value of a bank (R475, R476). -/
def Bank.compl (b : Bank) : Bank where
  iD := complRat b.iD
  iQ := complRat b.iQ
  iW := complRat b.iW
  iP := complRat b.iP
  idRef := complRat b.idRef
  iqRef := b.iqRef.map complRat
  wRef := b.wRef.map complRat
  pRef := -b.pRef - 1
  aCar := complRat b.aCar
  forced := complRat b.forced
  vd := complRat b.vd
  vq := complRat b.vq

def LoopAx.init : LoopAx where
  bankA := Bank.init
  bankB := Bank.init.compl
  lastTag := none
  taskN := 0
  tsSpd := 0
  tsPos := 0
  owedSpd := false
  owedPos := false
  dueSpd := none
  duePos := none
  dueObs := none
  lastSet := none
  implLast := none
  implDone := none
  pend := none
  passes := 2
  passPend := none
  preEmf := false
  stopRate := none
  preCur := false
  preSpd := false
  prePos := false
  firstTask := true
  olForced := false
  id := 0
  iq := 0
  ia := 0
  ib := 0
  va := 0
  vb := 0
  thE := 0
  speed := 0
  pos := 0
  vm := 0
  ilim := 0
  ts := 0
  winTasks := 0
  snapRecs := []

def AxBase.init : AxBase := ⟨.disabled, .disabled, .disabled, false, false, false⟩

def Adc.init : Adc := ⟨false, 0, [], 0⟩

def Hk.init : Hk := ⟨[], 0, [], 0⟩

def OfsAx.init : OfsAx := ⟨false, false, false, (0, 0), (0, 0)⟩

def Engine.init : Engine := ⟨[], false, 0, 0, none⟩

def CmpSlot.init : CmpSlot := ⟨false, false, none⟩

def CarAx.init : CarAx where
  phi := 0
  res := 0
  v := 0
  a := 0
  cmd := none
  segs := []
  spent := 0
  dir := 1
  next := none
  taking := none
  fresh := false
  caps := (0xFFFFFFFF, 0xFFFFFFFF, 0xFFFFFFFF)
  replan := none
  held := false
  arrived := false
  done := false
  hist := []
  slots := [CmpSlot.init, CmpSlot.init, CmpSlot.init, CmpSlot.init]
  stpHigh := false
  stpAt := 0
  dirPos := false
  dirAt := 0

def Learn.init : Learn := ⟨false, 0, [], [], none, 0, none, true, none⟩

def RsvAx.init : RsvAx where
  en := true
  phase := 0
  aNom := 0
  adopted := false
  faulted := false
  theta := 0
  omega := 0
  omx := 0
  tk := 0
  coast := 0
  good := 0
  validCnt := 0
  lost := false
  valid := false
  mt := false
  learnPhase := false
  sumS := (0, 0)
  sumC := (0, 0)
  ampSum := 0
  ampN := 0
  since := 0
  ofsS := 0
  ofsC := 0
  probe := false
  excBad := false
  table := []
  tableOk := true
  ndA := []
  ndB := []
  ndNewB := false
  storing := none
  storeNext := false
  learn := Learn.init
  emOut := 0
  emFreeze := 0
  periods := 0

def Exc.init : Exc := ⟨false, 0, false, 0, none⟩

def ObsAx.init : ObsAx where
  th := 0
  we := 0
  tk := 0
  idP := 0
  iqP := 0
  fresh := true
  conv := false
  below := none
  overSince := none
  sens := false
  est := 0
  enter := none
  hth := 0
  hw := 0
  htk := 0
  hSumQ := 0
  hSumD := 0
  hN := 0
  dead := 0
  thPrev := 0
  msPart := 0

def FbAx.init : FbAx where
  count := 0
  steps := []
  edge := 0
  zRef := none
  zAbs := none
  armed := false
  gap := false
  fresh := true
  a := false
  b := false
  z := false
  still := false
  homed := false
  wssOff := false
  cOut := none
  missing := 0

def AoCh.init : AoCh := ⟨0, 0, 0, false, false, none, false, 0⟩

def HcAx.init : HcAx where
  dT := 0
  iq10 := []
  a10 := []
  sIn := 1
  sCaps := none
  shI := 0
  shV := 0xFFFFFFFF
  shA := 0xFFFFFFFF
  shD := 0xFFFFFFFF
  shK := 1
  lateI := none
  age := 0
  moveCls := none
  eFrac := 0
  sumD := 0
  sumQ := 0
  sumVm := 0
  sumN := 0
  sumA := 0
  sumAn := 0
  still := 0
  iLoad := 0

def HcRail.init : HcRail := ⟨[], none, 0⟩

def Hc.init : Hc where
  written := false
  spare := List.replicate 4 [0, 0, 0, 0, 0]
  taken := List.replicate 4 [0, 0, 0, 0, 0]
  scheduled := false
  probe := none
  probeAt := none
  allot := []
  allotAge := 2
  reports := []
  therm := [0, 0, 0, 0]
  mine := []
  mineLast := []
  win := 0
  scanDue := false

def Bisc.init : Bisc := ⟨0, 0, [0, 0, 0], false⟩

def Emq.init : Emq where
  mode := 0
  pos := 0
  members := List.replicate 16 none
  census := List.replicate 16 none
  shown := List.replicate 16 none
  steady := 0
  censusAge := 0
  usurped := 0
  aloneFor := 0
  master := none
  isMaster := false
  stopAt := false
  wait := 0
  lead := false
  noLead := false
  epochOwn := true
  bound := none
  locked := false
  inRow := 0
  outRow := 0
  trim := 0
  head := false
  tail := false
  rinOk := false
  breakPos := 0xFF
  wire := 0
  sinceStamp := 0
  heal := 0
  seq := 0
  queues := []
  frameId := 0
  incoming := []
  seen := []
  inbox := []
  streams := []
  conflict := [false, false, false, false]
  excess := false
  awayFor := 0
  txSync := []
  txHb := []
  txHc := []
  txStrm := []
  slot := []

def Rec.init : Rec where
  slices := []
  absent := []
  skips := []
  headBlock := 0
  headOff := 0
  oldestBlock := 0
  staged := []
  noteWaits := []
  hostPins := []
  freedPins := []
  maxSeq := 0
  coupling := none
  nextNote := []
  sumSince := 0
  sumApplies := [0, 0, 0, 0, 0, 0, 0, 0]
  sumEnergy := [0, 0, 0, 0, 0, 0, 0, 0]
  sumRun := [0, 0, 0, 0, 0, 0, 0, 0]
  sumLasting := [0, 0, 0, 0, 0, 0, 0, 0]
  sumTjMax := [0, 0, 0, 0, 0, 0, 0, 0]
  sumTjHist := List.replicate 8 (List.replicate 8 0)
  sumDdHist := List.replicate 4 (List.replicate 8 0)
  sumVmin := 0xFFFF
  sumVmax := 0

/-- Bank A as delivered: the signed image of R2. -/
def ImgBank.shipped : ImgBank := ⟨true, [], true, Config.deliveredVersion.toNat⟩

/-- Bank B as delivered: empty (R2). -/
def ImgBank.blank : ImgBank := ⟨false, [], false, 0⟩

/-- The non-volatile die on delivery. That neither bank-select slot holds a record is the model's choice (log entry 46); the boot then takes
bank A (R100). -/
def Nd.init : Nd where
  bankA := ImgBank.shipped
  bankB := ImgBank.blank
  recA := ⟨0, 0, false, 0, false⟩
  recB := ⟨0, 0, false, 0, false⟩
  params := []
  fltCfgs := []
  paramsOk := true
  reverted := false
  coupleCount := 0
  bootCount := 0
  reclaimCount := 0
  sessions := 0

/-- The words that Llynron programs before delivery (R2, R596, R615): ID and the Llynron key hash from Config, FACTORY and
DEVELOP blown. R2 says it of the customer's words only; that no patch entry and no lock word is blown either is the model's choice
(log entry 46). -/
def shippedWord (w : Nat) : Word :=
  if w < 16 then Config.factoryFuse w
  else if w < 20 then 0xFFFFFFFF
  else if w < 24 then 0
  else if w < 32 then Config.factoryFuse w
  else 0

/-- The words that are committed on delivery: ID and key hash slot 0 (R596). -/
def shippedCommits : List Nat := List.range 16 ++ (List.range 8).map (· + 24)

def Fuse.init : Fuse where
  copyA := []
  copyB := []
  commitA := shippedCommits
  commitB := shippedCommits
  margin := []
  marginCommit := []
  unsensed := []
  lc := .develop
  lcNow := .develop
  keys := [0]
  applied := []
  skipped := []
  tempOk := false
  verifyFail := false

def Dbg.init : Dbg where
  session := false
  auth := false
  lastSeq := none
  lastAns := []
  nonce := none
  draws := 0
  fails := 0
  lockUntil := none
  lockForever := false
  haltMp := false
  cause := 0
  slots := []
  lastUs := 0
  retiring := none
  answer := []
  mem := []
  epochs := [0, 0, 0, 0]

/-- The block right after the power-on reset of its registers, before the boot of R85 has run: every signal at its reset
value, RESET_CAUSE with bit 0 (R96), READY low, every axis DISABLED, the ND and the fuses as delivered (R2). -/
def State.reset : State where
  pending := []
  regs := [(0x8910, 1)]
  clk := Clock.init
  pwr := Pwr.init
  ds := Ds.init
  sup := Sup.init
  flt := Flt.init
  link := Link.init
  rt := Rt.init
  ax := Vector.replicate 8 AxBase.init
  pwm := Vector.replicate 8 PwmAx.init
  gd := Vector.replicate 8 GdAx.init
  loop := Vector.replicate 8 LoopAx.init
  ofs := Vector.replicate 8 OfsAx.init
  adc := Vector.replicate 4 Adc.init
  hk := Hk.init
  eng := Vector.replicate 2 Engine.init
  car := Vector.replicate 8 CarAx.init
  rsv := Vector.replicate 8 RsvAx.init
  exc := Vector.replicate 2 Exc.init
  obs := Vector.replicate 8 ObsAx.init
  fb := Vector.replicate 8 FbAx.init
  ao := Vector.replicate 6 AoCh.init
  aoClear := false
  hcAx := Vector.replicate 8 HcAx.init
  hcRail := Vector.replicate 4 HcRail.init
  hc := Hc.init
  bisc := Bisc.init
  emq := Emq.init
  rcd := Rec.init
  nd := Nd.init
  upd := ⟨none, false, false⟩
  fuse := Fuse.init
  dbg := Dbg.init
  free := 0

end Sys2Proof.Machine
end

