-- ==== Sys2Proof/Machine/Ops.lean ====
section
/-! DEFINITION. The named operations over the register file, the byte memories, the vectors of per-axis blocks, the
free values and time, which every meaning uses. -/

namespace Sys2Proof.Machine

/-! ### Sparse lists of cells, in rising order of key -/

/-- The value listed at key `k`. -/
def cellGet {β : Type} : List (Nat × β) → Nat → Option β
  | [], _ => none
  | (k', v) :: xs, k => if k' = k then some v else cellGet xs k

/-- The value listed at key `k` in a list kept in any order. -/
def cellFind {β : Type} (xs : List (Nat × β)) (k : Nat) : Option β := (xs.find? (fun x => x.1 == k)).map Prod.snd

/-- The list with key `k` holding `v`, in rising order. -/
def cellPut {β : Type} : List (Nat × β) → Nat → β → List (Nat × β)
  | [], k, v => [(k, v)]
  | (k', v') :: xs, k, v =>
    if k < k' then (k, v) :: (k', v') :: xs
    else if k = k' then (k, v) :: xs
    else (k', v') :: cellPut xs k v

/-- The list without key `k`. -/
def cellDel {β : Type} : List (Nat × β) → Nat → List (Nat × β)
  | [], _ => []
  | (k', v') :: xs, k => if k' = k then cellDel xs k else (k', v') :: cellDel xs k

/-- Whether every key of the list is above `lo` and the keys rise strictly. -/
def cellsAbove {β : Type} : Nat → List (Nat × β) → Bool
  | _, [] => true
  | lo, (k, _) :: xs => decide (lo < k) && cellsAbove k xs

/-- Whether the keys of the list rise strictly. -/
def cellsRise {β : Type} : List (Nat × β) → Bool
  | [] => true
  | (k, _) :: xs => cellsAbove k xs

/-! ### Byte memories -/

/-- The byte at an address (log entry 6 for an unlisted one). -/
def memRead (m : Memory) (a : Nat) : Byte := (cellGet m a).getD unlistedByte

/-- Store a byte, keeping the canonical form. -/
def memWrite (m : Memory) (a : Nat) (b : Byte) : Memory :=
  if b = unlistedByte then cellDel m a else cellPut m a b

/-- The canonical form: addresses strictly rising, no entry equal to what an unlisted address reads as. -/
def Memory.wf (m : Memory) : Bool := cellsRise m && m.all (fun c => decide (c.2 ≠ unlistedByte))

/-- The `n` bytes from an address. -/
def memBytes (m : Memory) (a : Nat) : Nat → List Byte
  | 0 => []
  | n + 1 => memRead m a :: memBytes m (a + 1) n

/-- Store bytes from an address upwards. -/
def memStore (m : Memory) (a : Nat) : List Byte → Memory
  | [] => m
  | b :: bs => memStore (memWrite m a b) (a + 1) bs

/-- Store bytes in a ring of `size` bytes that starts at `base`, from offset `off`, wrapping (R119). -/
def memStoreRing (m : Memory) (base size off : Nat) : List Byte → Memory
  | [] => m
  | b :: bs => memStoreRing (memWrite m (base + off % size) b) base size (off + 1) bs

/-- The `n` bytes of a ring from offset `off`, wrapping (R119). -/
def memBytesRing (m : Memory) (base size off : Nat) : Nat → List Byte
  | 0 => []
  | n + 1 => memRead m (base + off % size) :: memBytesRing m base size (off + 1) n

/-! ### The register file -/

/-- The value an unlisted key holds: the reset value of its signal table (R213, R246 and their like). -/
def regDefault (k : Nat) : Word := BitVec.ofNat 32 (sigReset k)

/-- The value of a key. -/
def regRead (f : RegFile) (k : Nat) : Word := (cellGet f k).getD (regDefault k)

/-- The register file with a key written, in its canonical form. -/
def regWrite (f : RegFile) (k : Nat) (v : Word) : RegFile :=
  if v = regDefault k then cellDel f k else cellPut f k v

/-- The canonical form of a register file. -/
def RegFile.wf (f : RegFile) : Bool := cellsRise f && f.all (fun c => decide (c.2 ≠ regDefault c.1))

/-- The value slot of a signal. -/
def rg (s : State) (k : Nat) : Word := regRead s.regs k

/-- A signal as a count. -/
def rgN (s : State) (k : Nat) : Nat := (rg s k).toNat

/-- A signal as a signed number: S16 and Q15 slots hold the sign in all 32 bits (R145). -/
def rgI (s : State) (k : Nat) : Int := (rg s k).toInt

/-- Whether bit `i` of a signal is 1. -/
def rgB (s : State) (k i : Nat) : Bool := (rg s k).getLsbD i

/-- Bits [lo + w − 1 : lo] of a signal. -/
def rgF (s : State) (k lo w : Nat) : Nat := rgN s k / 2 ^ lo % 2 ^ w

/-- The state with a signal written. -/
def setR (s : State) (k : Nat) (v : Word) : State := { s with regs := regWrite s.regs k v }

/-- The state with a signal written as a count. -/
def setN (s : State) (k v : Nat) : State := setR s k (BitVec.ofNat 32 v)

/-- The state with a signal written as a signed number. -/
def setI (s : State) (k : Nat) (v : Int) : State := setR s k (BitVec.ofInt 32 v)

/-- The state with bit `i` of a signal set or cleared. -/
def setB (s : State) (k i : Nat) (b : Bool) : State :=
  let m : Word := BitVec.ofNat 32 (2 ^ i)
  setR s k (if b then rg s k ||| m else rg s k &&& ~~~m)

/-- The state with the bits of a mask set in a signal. -/
def orR (s : State) (k mask : Nat) : State := setR s k (rg s k ||| BitVec.ofNat 32 mask)

/-- The state with the bits of a mask cleared in a signal. -/
def clearR (s : State) (k mask : Nat) : State := setR s k (rg s k &&& ~~~(BitVec.ofNat 32 mask))

/-- The state with a field of a signal written. -/
def setF (s : State) (k lo w v : Nat) : State :=
  let m := (2 ^ w - 1) * 2 ^ lo
  setR s k ((rg s k &&& ~~~(BitVec.ofNat 32 m)) ||| BitVec.ofNat 32 (v % 2 ^ w * 2 ^ lo))

/-- A counting signal one higher, wrapping at 2³². -/
def incR (s : State) (k : Nat) : State := setR s k (rg s k + 1)

/-- A counting signal one higher, up to a largest value. -/
def incSat (s : State) (k top : Nat) : State := if rgN s k < top then incR s k else s

/-- An exact value as a whole number of LSBs: itself where it is one, else one of its two neighbours, which of them nothing says (log
entry 4); `k` is the key of the signal. -/
def narrow (k : Nat) (x : Rat) : Int :=
  if x = (x.floor : Rat) then x.floor else if Config.roundsUp k x then x.floor + 1 else x.floor

/-- A telemetry value narrowed to its signal's LSBs and kept within the signal's type (log entry 4). -/
def setTel (s : State) (k : Nat) (x : Rat) : State :=
  match sigFind k with
  | some r => setI s k (clampInt (narrow k x) r.lo r.hi)
  | none => s

/-! ### Blocks of the axes -/

/-- A vector with entry `i` changed. -/
def modV {α : Type} {n : Nat} (v : Vector α n) (i : Fin n) (f : α → α) : Vector α n :=
  v.set i.val (f v[i]) i.isLt

def modAx (s : State) (n : Axis) (f : AxBase → AxBase) : State := { s with ax := modV s.ax n f }
def modPwm (s : State) (n : Axis) (f : PwmAx → PwmAx) : State := { s with pwm := modV s.pwm n f }
def modGd (s : State) (n : Axis) (f : GdAx → GdAx) : State := { s with gd := modV s.gd n f }
def modLoop (s : State) (n : Axis) (f : LoopAx → LoopAx) : State := { s with loop := modV s.loop n f }
def modOfs (s : State) (n : Axis) (f : OfsAx → OfsAx) : State := { s with ofs := modV s.ofs n f }
def modAdc (s : State) (c : Fin 4) (f : Adc → Adc) : State := { s with adc := modV s.adc c f }
def modEng (s : State) (e : Fin 2) (f : Engine → Engine) : State := { s with eng := modV s.eng e f }
def modCar (s : State) (n : Axis) (f : CarAx → CarAx) : State := { s with car := modV s.car n f }
def modRsv (s : State) (n : Axis) (f : RsvAx → RsvAx) : State := { s with rsv := modV s.rsv n f }
def modExc (s : State) (e : Fin 2) (f : Exc → Exc) : State := { s with exc := modV s.exc e f }
def modObs (s : State) (n : Axis) (f : ObsAx → ObsAx) : State := { s with obs := modV s.obs n f }
def modFb (s : State) (n : Axis) (f : FbAx → FbAx) : State := { s with fb := modV s.fb n f }
def modAo (s : State) (k : Fin 6) (f : AoCh → AoCh) : State := { s with ao := modV s.ao k f }
def modHcAx (s : State) (n : Axis) (f : HcAx → HcAx) : State := { s with hcAx := modV s.hcAx n f }
def modHcRail (s : State) (r : Fin 4) (f : HcRail → HcRail) : State := { s with hcRail := modV s.hcRail r f }

/-- The channel of a phase (R184). -/
def PwmAx.ch (p : PwmAx) (ph : Fin 3) : Chan :=
  match ph with
  | 0 => p.chU
  | 1 => p.chV
  | 2 => p.chW

/-- A module with the channel of a phase changed. -/
def PwmAx.modCh (p : PwmAx) (ph : Fin 3) (f : Chan → Chan) : PwmAx :=
  match ph with
  | 0 => { p with chU := f p.chU }
  | 1 => { p with chV := f p.chV }
  | 2 => { p with chW := f p.chW }

/-- A module with every channel changed. -/
def PwmAx.mapCh (p : PwmAx) (f : Chan → Chan) : PwmAx :=
  { p with chU := f p.chU, chV := f p.chV, chW := f p.chW }

/-- Apply an operation for each of a list of things, in order. -/
def forEach {α : Type} (xs : List α) (s : State) (f : State → α → State) : State := xs.foldl f s

/-- The loop engine that serves an axis (R10). -/
def engOf (n : Axis) : Fin 2 := if n.val < 4 then 0 else 1

/-- The rail pair of an axis (R10). -/
def railOf (n : Axis) : Fin 4 := ⟨n.val / 2, by omega⟩

/-- The slot index of an axis in its engine group (R10). -/
def slotOf (n : Axis) : Nat := n.val % 4

/-- The excitation driver of an axis (R10). -/
def drvOf (n : Axis) : Fin 2 := if n.val < 4 then 0 else 1

/-- The axes of a bit mask, in ascending order. -/
def axesOf (mask : Nat) : List Axis := allAxes.filter (fun n => bitOf mask n.val)

/-! ### Free values -/

/-- A value that nothing constrains, and the state with the draw counted (log entry 3). -/
def drawWord (s : State) : Word × State := (Config.freeValue s.free, { s with free := s.free + 1 })

/-- A choice that nothing constrains, and the state with the draw counted (log entry 3). -/
def drawBool (s : State) : Bool × State := (Config.freeBool s.free, { s with free := s.free + 1 })

/-! ### Time -/

/-- DEV:US_TIME: the count of R659 as the signal shows it. -/
def usTime (s : State) : Nat := s.clk.us % 2 ^ 32

/-- DEV:US_TIME at a tick that has passed in this RUN. -/
def usAt (s : State) (t : Nat) : Nat := ((s.clk.us + 2 ^ 32) * 400 + s.clk.usPart - (s.clk.tb - t)) / 400 % 2 ^ 32

/-- The present stamp in units of 100 ns (R503): ten a microsecond, with the part of the microsecond that the clock in use
has counted. -/
def stamp100 (s : State) : Nat :=
  s.clk.us * 10 + (match s.pwr.st with
    | .run => s.clk.usPart / 40
    | .standby => s.clk.usPart / 10
    | _ => 0)

/-- Whether the wrapping instant `a` lies at `b` or up to 2³¹ µs before it (R165). -/
def usAtOrBefore (a b : Nat) : Bool := decide ((b + 2 ^ 32 - a % 2 ^ 32) % 2 ^ 32 ≤ 2 ^ 31)

/-- Whether the timebase branch exists: only in RUN (R658). -/
def inRun (s : State) : Bool := decide (s.pwr.st = .run)

/-- One carrier counter moved on by `d` ticks (R176): `(value, down-slope)`. -/
def countOn (per cnt : Nat) (down : Bool) (d : Nat) : Nat × Bool :=
  if per = 0 then (cnt, down)
  else
    let p := ((if down then 2 * per - cnt else cnt) + d) % (2 * per)
    if p < per then (p, false) else (2 * per - p, true)

/-- A module's counter moved on by `d` ticks where it runs (R176, R180). -/
def PwmAx.tick (p : PwmAx) (per d : Nat) : PwmAx :=
  if p.running then
    let c := countOn per p.cnt p.down d
    { p with cnt := c.1, down := c.2 }
  else p

/-- The timebase brought forward to a tick: every counter on it, US_TIME (R659) and LFCLK move on by the same time. Nothing
happens where the tick is not ahead, or outside RUN (R658). -/
def toTick (s : State) (t : Nat) : State :=
  if inRun s && decide (s.clk.tb < t) then
    let d := t - s.clk.tb
    let u := s.clk.usPart + d
    let l := s.clk.lfPart + 32 * d
    { s with
      clk := { s.clk with tb := t, us := s.clk.us + u / 400, usPart := u % 400, lf := s.clk.lf + l / 390625,
                          lfPart := l % 390625 }
      pwm := Vector.ofFn (fun n => (s.pwm[n]).tick (rgN s (Sig.PWM_PER n.val)) d) }
  else s

/-- Time brought forward to an instant of DEV:US_TIME, in the clock of the power state (R659). -/
def toUs (s : State) (t : Nat) : State :=
  if s.clk.us < t then
    if inRun s then toTick s (s.clk.tb + ((t - s.clk.us) * 400 - s.clk.usPart))
    else
      let l := s.clk.lfPart + ((t - s.clk.us) * 100 - s.clk.usPart) * 128
      { s with clk := { s.clk with us := t, usPart := 0, lf := s.clk.lf + l / 390625, lfPart := l % 390625 } }
  else s

/-- LFCLK periods of sleep (R659): 15 625/512 µs each. -/
def sleepFor (s : State) (n : Nat) : State :=
  let u := s.clk.usPart + n * 15625
  { s with clk := { s.clk with us := s.clk.us + u / 512, usPart := u % 512, lf := s.clk.lf + n } }

/-- Time brought forward to the LFCLK period `n` in the clock of the power state (R659). -/
def toLf (s : State) (n : Nat) : State :=
  if s.clk.lf < n then
    let parts := (n - s.clk.lf) * 390625 - s.clk.lfPart
    match s.pwr.st with
    | .run => toTick s (s.clk.tb + (parts + 31) / 32)
    | .standby => toUs s (s.clk.us + (parts + 12799) / 12800)
    | .sleep => sleepFor s (n - s.clk.lf)
    | .off => s
  else s

/-- The idle time of DEV:IDLE_SLEEP begins again (R67, R68). -/
def idleAgain (s : State) : State := { s with pwr := { s.pwr with idleUs := s.clk.us } }

/-- The earliest instant at which the event of a key can occur again. -/
def markOf (s : State) (key : Nat) : Nat := (cellGet s.clk.marks key).getD 0

/-- Remember that the event of a key cannot occur again before `t`. -/
def setMark (s : State) (key t : Nat) : State :=
  { s with clk := { s.clk with marks := cellPut s.clk.marks key t } }

/-- The first tick at or after `from_` that lies `phase` past a multiple of `period`. -/
def nextTick (from_ period phase : Nat) : Nat :=
  if period = 0 then from_
  else from_ + ((period - from_ % period) + phase) % period

/-- An event that occurs on a grid of the timebase: time is brought forward to its next instant (log entry 2). -/
def atGrid (s : State) (key period phase : Nat) : State :=
  if inRun s then
    let t := nextTick (max s.clk.tb (markOf s key)) period phase
    setMark (toTick s t) key (t + 1)
  else s

/-- One tick of the clock in use, which is what an empty queue lets pass (log entry 1): a timebase tick in RUN, an HFRC cycle in
STANDBY, an LFCLK period in SLEEP (R659); nothing in OFF. A period in SLEEP adds 30 265/512 µs to US_TIME, kept in `usPart` in
512ths until the wake. -/
def idleTick (s : State) : State :=
  match s.pwr.st with
  | .run => toTick s (s.clk.tb + 1)
  | .standby =>
    let u := s.clk.usPart + 1
    let l := s.clk.lfPart + 128
    { s with clk := { s.clk with us := s.clk.us + u / 100, usPart := u % 100, lf := s.clk.lf + l / 390625, lfPart := l % 390625 } }
  | .sleep =>
    let u := s.clk.usPart + 265
    { s with clk := { s.clk with us := s.clk.us + 30 + u / 512, usPart := u % 512, lf := s.clk.lf + 1 } }
  | .off => s

/-- The ring ID of the device: the straps as the boot latched them (R47). -/
def ringId (s : State) : Nat := s.pwr.straps % 16

/-- The role code of an axis (R517). -/
def roleOf (s : State) (n : Axis) : Nat := rgN s (Sig.FLT_ROLE_AX n.val)

end Sys2Proof.Machine
end

