-- ==== Sys2Proof/Machine/Operands.lean ====
section
/-! DEFINITION. The forms in which values travel: little-endian fields, the three cyclic checks (R138, R543, R544), the
frame header (R135, R136) and the value slot (R145). -/

namespace Sys2Proof.Machine

/-! ### Little-endian fields (R114, R135) -/

/-- The `n` low bytes of a number, least significant first. -/
def leBytes : Nat → Nat → List Byte
  | 0, _ => []
  | n + 1, x => BitVec.ofNat 8 x :: leBytes n (x / 256)

/-- The number that bytes hold, least significant first. -/
def ofLe : List Byte → Nat
  | [] => 0
  | b :: bs => b.toNat + 256 * ofLe bs

/-- The field of `n` bytes at an offset; bytes beyond the end read 0. -/
def fieldAt (bs : List Byte) (off n : Nat) : Nat := ofLe ((bs.drop off).take n)

/-- The word at an offset. -/
def wordAt (bs : List Byte) (off : Nat) : Word := BitVec.ofNat 32 (fieldAt bs off 4)

/-- The bytes of a word. -/
def wordBytes (w : Word) : List Byte := leBytes 4 w.toNat

/-- The bytes of a list of words. -/
def wordsBytes (ws : List Word) : List Byte := ws.flatMap wordBytes

/-- The words that bytes hold, up to `n` of them. -/
def wordsOf : Nat → List Byte → List Word
  | 0, _ => []
  | n + 1, bs => wordAt bs 0 :: wordsOf n (bs.drop 4)

/-- `n` zero bytes. -/
def zeros (n : Nat) : List Byte := List.replicate n 0

/-- Bytes with zero fill up to the next multiple of 4 (R135, R574). -/
def pad4 (bs : List Byte) : List Byte := bs ++ zeros ((4 - bs.length % 4) % 4)

/-- Bytes cut or filled with zeros to a length. -/
def fitTo (n : Nat) (bs : List Byte) : List Byte := bs.take n ++ zeros (n - bs.length)

/-- A signed field of `n` bytes in two's complement. -/
def leInt (n : Nat) (x : Int) : List Byte := leBytes n (x % (256 ^ n : Int)).toNat

/-! ### Cyclic checks -/

/-- One bit of the reflected CRC-32 of R138. -/
def crc32Bit (c : Word) : Word := if c.getLsbD 0 then (c >>> 1) ^^^ 0xEDB88320 else c >>> 1

/-- One byte of the CRC-32 of R138. -/
def crc32Byte (c : Word) (b : Byte) : Word :=
  let x := c ^^^ b.setWidth 32
  crc32Bit (crc32Bit (crc32Bit (crc32Bit (crc32Bit (crc32Bit (crc32Bit (crc32Bit x)))))))

/-- The CRC-32 of R138. -/
def crc32 (bs : List Byte) : Word := bs.foldl crc32Byte 0xFFFFFFFF ^^^ 0xFFFFFFFF

/-- One bit of the CRC-16 of R543. -/
def crc16Bit (c : BitVec 16) : BitVec 16 := if c.getLsbD 15 then (c <<< 1) ^^^ 0x1021 else c <<< 1

/-- One byte of the CRC-16 of R543. -/
def crc16Byte (c : BitVec 16) (b : Byte) : BitVec 16 :=
  let x := c ^^^ (b.setWidth 16 <<< 8)
  crc16Bit (crc16Bit (crc16Bit (crc16Bit (crc16Bit (crc16Bit (crc16Bit (crc16Bit x)))))))

/-- The CRC-16 of R543. -/
def crc16 (bs : List Byte) : BitVec 16 := bs.foldl crc16Byte 0xFFFF

/-- One bit of the CRC-8 of R544. -/
def crc8Bit (c : Byte) : Byte := if c.getLsbD 7 then (c <<< 1) ^^^ 0x07 else c <<< 1

/-- One byte of the CRC-8 of R544. -/
def crc8Byte (c b : Byte) : Byte :=
  let x := c ^^^ b
  crc8Bit (crc8Bit (crc8Bit (crc8Bit (crc8Bit (crc8Bit (crc8Bit (crc8Bit x)))))))

/-- The CRC-8 of R544. -/
def crc8 (bs : List Byte) : Byte := bs.foldl crc8Byte 0

/-! ### Frames (R135, R136) -/

/-- The fields of a frame's header. `b12` is RESP_RING or STATUS, `b13` the byte beside it, `b14` the last two bytes. -/
structure Hdr where
  tag : Nat
  opcode : Nat
  flags : Nat
  devSel : Nat
  axisSel : Nat
  length : Nat
  deadline : Nat
  b12 : Nat
  b13 : Nat
  b14 : Nat
  deriving DecidableEq, Repr

/-- The header at the start of some bytes. -/
def parseHdr (bs : List Byte) : Hdr where
  tag := fieldAt bs 0 2
  opcode := fieldAt bs 2 1
  flags := fieldAt bs 3 1
  devSel := fieldAt bs 4 1
  axisSel := fieldAt bs 5 1
  length := fieldAt bs 6 2
  deadline := fieldAt bs 8 4
  b12 := fieldAt bs 12 1
  b13 := fieldAt bs 13 1
  b14 := fieldAt bs 14 2

/-- The 16 bytes of a header. -/
def hdrBytes (h : Hdr) : List Byte :=
  leBytes 2 h.tag ++ leBytes 1 h.opcode ++ leBytes 1 h.flags ++ leBytes 1 h.devSel ++ leBytes 1 h.axisSel ++
    leBytes 2 h.length ++ leBytes 4 h.deadline ++ leBytes 1 h.b12 ++ leBytes 1 h.b13 ++ leBytes 2 h.b14

/-- A whole frame: header, payload, zero fill and CRC-32 (R135, R138). -/
def frameBytes (h : Hdr) (payload : List Byte) : List Byte :=
  let body := hdrBytes { h with length := payload.length } ++ pad4 payload
  body ++ wordBytes (crc32 body)

/-- Bytes that a frame with this payload length occupies (R135). -/
def frameLen (len : Nat) : Nat := 16 + (len + 3) / 4 * 4 + 4

/-! ### Value slots (R145) -/

/-- Whether a type is compared and ranged as signed (R145, R170). -/
def SigType.signed : SigType → Bool
  | .s16 | .s32 | .q15 | .q31 => true
  | _ => false

/-- The TYPE code of R145. -/
def SigType.code : SigType → Nat
  | .u8 => 0
  | .u16 => 1
  | .s16 => 2
  | .u32 => 3
  | .s32 => 4
  | .q15 => 5
  | .q31 => 6
  | .bits32 => 7

/-- The ACCESS code of R146. -/
def SigAccess.code : SigAccess → Nat
  | .rw => 0
  | .ro => 1
  | .wo => 2
  | .w1c => 3
  | .rwl => 4

/-- A slot as a number of its type. -/
def slotVal (ty : SigType) (w : Word) : Int := if ty.signed then w.toInt else (w.toNat : Int)

/-- Whether a slot is coded as R145 requires of its type. -/
def slotCoded (ty : SigType) (w : Word) : Bool :=
  match ty with
  | .u8 => decide (w.toNat < 2 ^ 8)
  | .u16 => decide (w.toNat < 2 ^ 16)
  | .s16 | .q15 => decide (-(2 ^ 15 : Int) ≤ w.toInt) && decide (w.toInt < 2 ^ 15)
  | .u32 | .s32 | .q31 | .bits32 => true

/-- Whether a slot lies in the range its signal table gives: bounds, or the bits that are not reserved (R145, R147). -/
def slotInRange (r : SigRow) (w : Word) : Bool :=
  match r.ty with
  | .bits32 => decide (w &&& ~~~(BitVec.ofInt 32 r.hi) = 0)
  | _ => decide (r.lo ≤ slotVal r.ty w) && decide (slotVal r.ty w ≤ r.hi)

/-- Whether a written slot is accepted by coding and range (R145, R147). -/
def slotOk (r : SigRow) (w : Word) : Bool := slotCoded r.ty w && slotInRange r w

/-- The 8 bytes of a signal's descriptor (R146). A unit that R146 does not list reads the values of Config (log entry 5). -/
def descriptorBytes (key : Nat) (r : SigRow) : List Byte :=
  let us : Nat × Word := match r.unit with
    | some (u, sc) => (u, BitVec.ofNat 32 sc)
    | none => (Config.descUnit key % 256, Config.descScale key)
  leBytes 1 r.ty.code ++ leBytes 1 r.acc.code ++ leBytes 1 us.1 ++ [0] ++ wordBytes us.2

/-! ### Opcodes (R151) -/

abbrev opSigRead : Nat := 0x01
abbrev opSigWrite : Nat := 0x02
abbrev opSigSubscribe : Nat := 0x03
abbrev opSigLimit : Nat := 0x04
abbrev opAxisState : Nat := 0x10
abbrev opMove : Nat := 0x11
abbrev opStop : Nat := 0x12
abbrev opSetGains : Nat := 0x13
abbrev opGroupSet : Nat := 0x14
abbrev opModeSet : Nat := 0x15
abbrev opAbort : Nat := 0x18
abbrev opRecRead : Nat := 0x20
abbrev opRecNote : Nat := 0x21
abbrev opImgWrite : Nat := 0x30
abbrev opImgCommit : Nat := 0x31
abbrev opImgConfirm : Nat := 0x32
abbrev opFuseProgram : Nat := 0x38
abbrev opSelftest : Nat := 0x40
abbrev opProbe : Nat := 0x41

/-! ### Status codes (R174) and selections (R135, R151) -/

abbrev stOk : Nat := 0x00
abbrev stDoneBeforeAbort : Nat := 0x01
abbrev stAborted : Nat := 0x02
abbrev stBusyDeferred : Nat := 0x03
abbrev stExpired : Nat := 0x04
abbrev stLoopClosed : Nat := 0x05
abbrev stNotInState : Nat := 0x06
abbrev stBadSid : Nat := 0x07
abbrev stRange : Nat := 0x08
abbrev stLocked : Nat := 0x09
abbrev stDeniedLifecycle : Nat := 0x0A
abbrev stCrcErr : Nat := 0x0B
abbrev stPartial : Nat := 0x0C
abbrev stNoLead : Nat := 0x0D
abbrev stRefusedSafety : Nat := 0x0E

/-- Whether an opcode is a command that acts on axes (R151). -/
def axisOpcode (op : Nat) : Bool :=
  op == 0x10 || op == 0x11 || op == 0x12 || op == 0x13 || op == 0x40

/-- Whether AXIS_SEL is one that R135 lists. -/
def axisSelOk (a : Nat) : Bool := decide (a ≤ 7) || (decide (0x10 ≤ a) && decide (a ≤ 0x13)) || a == 0xFF

/-- Whether DEV_SEL is one that R135 lists. -/
def devSelOk (d : Nat) : Bool := decide (d ≤ 0x0F) || d == 0x1F

/-- The axes that AXIS_SEL selects, as a mask: one axis, a group's mask, or all (R135, R156). -/
def selMask (s : State) (a : Nat) : Nat :=
  if a ≤ 7 then 2 ^ a
  else if 0x10 ≤ a ∧ a ≤ 0x13 then rgN s (Sig.GROUP (a - 0x10)) % 256
  else 0xFF

/-- Whether a request is aggregated (chapter 6, Selection): all devices, or an axis command with several axes. -/
def aggregated (r : Req) (op : Nat) : Bool :=
  r.devSel == 0x1F || (axisOpcode op && decide (7 < r.axisSel))

end Sys2Proof.Machine
end

