-- ==== Sys2Proof/Machine/Flags.lean ====
section
/-! DEFINITION. Event bits, level events, IRQ_N and the status words that are computed from other state when they are read
(chapter 5 and the layouts of chapters 18 and 19). -/

namespace Sys2Proof.Machine

/-! ### Rings as the link shows them -/

/-- Ring `r` of the link. -/
def ringAt (s : State) (r : Nat) : Ring := s.link.rings.getD r Ring.init

/-- The bytes of a ring: SIZE of R122. -/
def Ring.bytes (r : Ring) : Nat := 4096 * 2 ^ r.size

/-- The bytes in use (R126). -/
def Ring.used (r : Ring) : Nat := (r.head + r.bytes - r.tail) % r.bytes

/-- Whether the ring is empty (R126). -/
def Ring.empty (r : Ring) : Bool := decide (r.head = r.tail)

/-- Whether the producer may add `n` bytes (R127). -/
def Ring.room (r : Ring) (n : Nat) : Bool := decide (r.used + n ≤ r.bytes - 4)

/-- Whether a ring is host-visible (R123). -/
def hostVisible (r : Nat) : Bool := decide (r ≤ 31) || (decide (36 ≤ r) && decide (r ≤ 43))

/-- The state with ring `r` changed. -/
def modRing (s : State) (r : Nat) (f : Ring → Ring) : State :=
  { s with link := { s.link with rings := setAt s.link.rings r (f (ringAt s r)) } }

/-! ### Events (R139) -/

/-- Set a sticky event. -/
def evt (s : State) (i : Nat) : State :=
  { s with link := { s.link with events := s.link.events ||| 2 ^ i } }

/-- The condition of a level event, by number (R139). -/
def levelEvent (s : State) (i : Nat) : Bool :=
  if i < 16 then !(ringAt s (16 + i)).empty
  else if i < 24 then !(ringAt s (36 + (i - 16))).empty
  else if i = 86 then rgN s Sig.UPD_STATE == 4
  else if i = 94 then !s.link.stalled.isEmpty
  else if i = 95 then rgN s Sig.RESET_CAUSE != 0
  else false

/-- Whether an event is a level event (R139). -/
def isLevel (i : Nat) : Bool := decide (i < 24) || i == 86 || i == 94 || i == 95

/-- An event bit as EVTk reads it. -/
def evtBit (s : State) (i : Nat) : Bool := if isLevel i then levelEvent s i else bitOf s.link.events i

/-- The value of EVTk. -/
def evtWord (s : State) (k : Nat) : Nat :=
  (List.range 32).foldl (fun acc j => acc + bitIf (evtBit s (32 * k + j)) j) 0

/-- The value of EVTMASKk. -/
def evtMask (s : State) (k : Nat) : Nat := s.link.masks / 2 ^ (32 * k) % 2 ^ 32

/-- Whether an unmasked event bit is set (R122, R141). -/
def evtPending (s : State) : Bool :=
  (List.range 96).any (fun i => bitOf s.link.masks i && evtBit s i)

/-- Whether the device pulls IRQ_N low: a pending event while READY is high (R141). -/
def irqLow (s : State) : Bool := s.pwr.ready && evtPending s

/-- LINK_ID (R121, R122). -/
def linkId (s : State) : Nat := 0x74161000 + ringId s

/-- LINK_STAT (R122). -/
def linkStat (s : State) : Nat :=
  bitIf s.pwr.ready 0 + bitIf s.pwr.rescue 1 + bitIf (evtPending s) 2 + bitIf s.link.protoErr 3 +
    bitIf s.link.resync 4 + bitIf (!s.link.stalled.isEmpty) 5 + s.link.peCode % 256 * 256

/-- RING_CFG of a ring (R122): DROP_COUNT, PRIO, SIZE. -/
def ringCfg (s : State) (r : Nat) : Nat :=
  let g := ringAt s r
  g.drop * 2 ^ 24 + bitIf g.prio 7 + g.size * 16

/-! ### Axis states (R153) -/

/-- The code of an axis state (R153). -/
def AxState.code : AxState → Nat
  | .disabled => 0
  | .precharge => 1
  | .opn => 2
  | .torque => 3
  | .speed => 4
  | .position => 5
  | .hold => 6
  | .fault => 7
  | .safeShort => 8

/-- The state that a code of R153 names, where there is one. -/
def AxState.ofCode : Nat → Option AxState
  | 0 => some .disabled
  | 1 => some .precharge
  | 2 => some .opn
  | 3 => some .torque
  | 4 => some .speed
  | 5 => some .position
  | 6 => some .hold
  | 7 => some .fault
  | 8 => some .safeShort
  | _ => none

/-- The state of an axis. -/
def axSt (s : State) (n : Axis) : AxState := (s.ax[n]).st

/-- Whether every axis is DISABLED. -/
def allDisabled (s : State) : Bool := allAxes.all (fun n => decide (axSt s n = .disabled))

/-- The code of a life-cycle state, in the order of R615. -/
def LifeCycle.code : LifeCycle → Nat
  | .blank => 0
  | .factory => 1
  | .develop => 2
  | .field => 3
  | .retired => 4

/-- The life-cycle state in force: the one decoded at the boot (R611, R616). -/
def lifeCycle (s : State) : LifeCycle := s.fuse.lc

/-- The life-cycle state as programmed since the boot: FUSE_PROGRAM obeys it at once, everything else from the next reset (R606, R611,
R616). -/
def fuseCycle (s : State) : LifeCycle := s.fuse.lcNow

end Sys2Proof.Machine
end

