-- ==== Sys2Proof/Machine/Posting.lean ====
section
/-! DEFINITION. Posting frames: bytes into a ring, stream frames, responses, the forward queues, the completion instants
(R165) and the collection of aggregated results (R159, R160). -/

namespace Sys2Proof.Machine

/-! ### Bytes into rings -/

/-- Where the bytes of ring `r` lie in the link buffer's memory. -/
def ringBase (r : Nat) : Nat := r * 65536

/-- The bytes written at RING_HEAD of ring `r`, and RING_HEAD past them (R133). -/
def ringPut (s : State) (r : Nat) (bs : List Byte) : State :=
  let g := ringAt s r
  let s := { s with link := { s.link with buf := memStoreRing s.link.buf (ringBase r) g.bytes g.head bs } }
  modRing s r (fun g => { g with head := (g.head + bs.length) % g.bytes })

/-- A response frame into its ring; where the ring lacks room the frame waits for it (log entry 8), and a halted MP posts none (R633). -/
def postBytes (s : State) (r : Nat) (bs : List Byte) : State :=
  if !s.dbg.haltMp && (ringAt s r).room bs.length && !(s.rt.blocked.any (fun b => b.1 == r)) then ringPut s r bs
  else { s with rt := { s.rt with blocked := s.rt.blocked ++ [(r, bs)] } }

/-- Waiting response frames into their rings, in order, as far as there is room. -/
def postBlocked (s : State) : State :=
  let bl := s.rt.blocked
  forEach bl { s with rt := { s.rt with blocked := [] } } (fun s b => postBytes s b.1 b.2)

/-- A stream frame into its subscription ring; where the ring lacks room the frame is lost, counted in DROP_COUNT and the
ring's drop event set (R133). -/
def streamBytes (s : State) (r : Nat) (bs : List Byte) : State :=
  if (ringAt s r).room bs.length then ringPut s r bs
  else evt (modRing s r (fun g => { g with drop := min 255 (g.drop + 1) })) (24 + (r - 36))

/-! ### Forward queues (R561) -/

/-- A frame placed in the forward queues: queue 44 for responses and frames of PRIO rings, 48 for the rest. `due` is the instant at which
its DEADLINE runs out, `key` the ring and TAG of the request whose delivery it is. -/
def forwardBytes (s : State) (high resp : Bool) (dst : Nat) (due : Option Nat) (key : Option (Nat × Nat)) (bs : List Byte) : State :=
  let f : FwdFrame :=
    { queue := if high || resp then 44 else 48, dst := dst, resp := resp, bytes := bs, due := due, id := s.emq.frameId % 256, seg := 0,
      sending := false, away := false, nak := false, key := key }
  { s with emq := { s.emq with queues := s.emq.queues ++ [f], frameId := s.emq.frameId + 1 } }

/-- The ring IDs of the devices in the present census, this device's included (R547). -/
def censusIds (s : State) : List Nat :=
  let l := s.emq.census.filterMap (fun m => m.map Prod.fst)
  if l.contains (ringId s) then l else ringId s :: l

/-! ### Responses -/

/-- Whether a status lets a response carry a payload besides SIG_READ and SIG_WRITE (R154). -/
def statusPayload (status : Nat) : Bool :=
  status == stOk || status == stBusyDeferred || status == stDoneBeforeAbort || status == stPartial || status == stExpired

/-- The bytes of a response (R135, R136, R154). -/
def respFrame (s : State) (r : Req) (op status : Nat) (payload : List Byte) : List Byte :=
  let pl := if statusPayload status || op == 0x01 || op == 0x02 then payload else []
  frameBytes
    { tag := r.tag, opcode := op, flags := 0x80 + bitIf r.fwd 4, devSel := r.devSel, axisSel := r.axisSel,
      length := 0, deadline := 0, b12 := status, b13 := ringId s, b14 := 0 } pl

/-- A response sent: into its ring, or over the Emquin ring to the entry device (R161, R564). -/
def sendResp (s : State) (r : Req) (op status : Nat) (payload : List Byte) : State :=
  let bs := respFrame s r op status payload
  if r.fwd then forwardBytes s false true r.entry none none bs else postBytes s r.resp bs

/-- The counters of a final response (R175): CMD_FAIL_COUNT and LAST_FAIL for a status other than OK and
DONE_BEFORE_ABORT. -/
def countFail (s : State) (r : Req) (op status : Nat) : State :=
  if status == stOk || status == stDoneBeforeAbort || status == stBusyDeferred then s
  else setN (incR s Sig.CMD_FAIL_COUNT) Sig.LAST_FAIL (r.tag * 65536 + op * 256 + status)

/-- The ring under which a request is remembered: its request ring; a frame that came over the Emquin ring under its entry device. -/
def ringKey (r : Req) (ring : Nat) : Nat := if r.fwd then 64 + r.entry else ring

/-- Whether an ABORT that names a request has been taken and the request completes only now, later than that: the ABORT wins (R165). -/
def abortWins (s : State) (r : Req) : Bool :=
  match s.rt.handed with
  | some (.abort q tag ring) => ringKey q ring == r.ring && tag == r.tag && !usAtOrBefore s.clk.us q.taken
  | _ => false

/-- The status and payload of a completion, which an ABORT taken before it turns into ABORTED (R165). -/
def finalOf (s : State) (r : Req) (status : Nat) (payload : List Byte) : Nat × List Byte :=
  if abortWins s r && status != stBusyDeferred then (stAborted, []) else (status, payload)

/-- A response, unless NO_REPLY suppresses a final OK (R164); one that crosses the Emquin ring goes to the entry device, which suppresses it
(R161, log entry 8). -/
def answer (s : State) (r : Req) (op status : Nat) (payload : List Byte) : State :=
  let s := countFail s r op status
  if status == stOk && r.noReply && !r.fwd then s else sendResp s r op status payload

/-- The payload of a response with status EXPIRED (R154). -/
def expiredPayload (op cause : Nat) : List Byte :=
  (if op == 0x01 || op == 0x02 then leBytes 2 0 ++ leBytes 2 0xFFFF else []) ++ leBytes 4 cause

/-! ### Completion instants (R165) -/

/-- Mark the newest remembered frame of this ring and TAG that has not completed. -/
def latchIn (us ring tag : Nat) : List Taken → List Taken
  | [] => []
  | t :: ts =>
    if t.ring = ring ∧ t.tag = tag ∧ t.done = none then { t with done := some us } :: ts
    else t :: latchIn us ring tag ts

/-- Latch the completion instant of a request on DEV:US_TIME. -/
def latch (s : State) (r : Req) : State :=
  { s with rt := { s.rt with taken := latchIn s.clk.us r.ring r.tag s.rt.taken } }

/-! ### Results -/

/-- What a command answers for one target: status, the payload of R154, DETAIL of R159, or that it answers later. -/
structure Ans where
  status : Nat
  payload : List Byte
  detail : Nat
  later : Bool
  deriving DecidableEq, Repr

/-- A result with a status and an empty payload. -/
def ansSt (status : Nat) : Ans := ⟨status, [], 0, false⟩

/-- OK with a payload. -/
def ansOk (payload : List Byte) : Ans := ⟨stOk, payload, 0, false⟩

/-- A result that another event answers. -/
def ansLater : Ans := ⟨stOk, [], 0, true⟩

/-- NOT_IN_STATE of an axis: DETAIL holds its state (R159). -/
def ansNotInState (s : State) (n : Axis) : Ans := ⟨stNotInState, [], (axSt s n).code, false⟩

/-- The 16 bytes of a target map (R159). -/
def targetMap (ts : List Nat) : List Byte := leBytes 16 (ts.foldl (fun m t => m ||| 2 ^ t) 0)

/-- Results in ascending target number. -/
def insertRes (x : TRes) : List TRes → List TRes
  | [] => [x]
  | y :: ys => if x.t < y.t then x :: y :: ys else y :: insertRes x ys

/-- Results sorted by target number. -/
def sortRes (xs : List TRes) : List TRes := xs.foldl (fun acc x => insertRes x acc) []

/-- The aggregated payload of R159. -/
def aggPayload (got : List TRes) : List Byte :=
  let xs := sortRes got
  let bad := xs.filter (fun x => x.status != stOk)
  leBytes 1 xs.length ++ leBytes 1 bad.length ++ leBytes 2 0 ++ targetMap (xs.map TRes.t) ++
    targetMap ((xs.filter (fun x => x.status == stOk)).map TRes.t) ++
    bad.flatMap (fun x => leBytes 1 x.t ++ leBytes 1 x.status ++ leBytes 2 x.detail)

/-- The overall status of R160: the common status, otherwise PARTIAL. -/
def aggStatus (got : List TRes) : Nat :=
  match got with
  | [] => stOk
  | x :: xs => if xs.all (fun y => y.status == x.status) then x.status else stPartial

/-- The aggregated response. It always carries its payload (R159); FWD is set where it crosses the ring or is a device's own late one
(R160). NO_REPLY suppresses it at the entry device only: each target reports (R160, R164). -/
def answerAgg (s : State) (r : Req) (op : Nat) (got : List TRes) (late : Bool) : State :=
  let st := aggStatus got
  let s := countFail s r op st
  if st == stOk && r.noReply && !r.fwd then s
  else
    let bs := frameBytes
      { tag := r.tag, opcode := op, flags := 0x80 + bitIf (r.fwd || late) 4, devSel := r.devSel, axisSel := r.axisSel,
        length := 0, deadline := 0, b12 := st, b13 := ringId s, b14 := 0 } (aggPayload got)
    if r.fwd then forwardBytes s false true r.entry none none bs else postBytes s r.resp bs

/-- The targets that a device has in a command (R159). -/
def deviceTargets (op mask dev : Nat) : List Nat :=
  if axisOpcode op then (axesOf mask).map (fun n => 8 * dev + n.val) else [8 * dev]

/-- The targets of an aggregated command: this device's, and for DEV_SEL 0x1F at the entry device those of every other
device of the census (R160). -/
def allTargets (s : State) (r : Req) (op : Nat) : List Nat :=
  let own := deviceTargets op r.mask (ringId s)
  if r.devSel == 0x1F && !r.fwd then
    own ++ ((censusIds s).filter (fun d => d != ringId s)).flatMap (deviceTargets op r.mask)
  else own

/-- Whether an aggregated command is the one of a request. -/
def aggIs (r : Req) (a : Agg) : Bool :=
  a.req.ring == r.ring && a.req.tag == r.tag && a.req.fwd == r.fwd && a.req.taken == r.taken

/-- Begin the collection for a request, unless it has begun. -/
def aggOpen (s : State) (r : Req) (op : Nat) : State :=
  if s.rt.aggs.any (aggIs r) then s
  else { s with rt := { s.rt with aggs := s.rt.aggs ++ [⟨r, op, allTargets s r op, [], false⟩] } }

/-- Whether every target has reported. -/
def aggDone (a : Agg) : Bool := a.targets.all (fun t => a.got.any (fun g => g.t == t))

/-- Add results to the collection of a request, and post the response once every target has reported (R160). -/
def aggAdd (s : State) (r : Req) (got : List TRes) : State :=
  let aggs := s.rt.aggs.map (fun a => if aggIs r a then { a with got := a.got ++ got } else a)
  let ready := aggs.filter (fun a => aggIs r a && aggDone a)
  let s := { s with rt := { s.rt with aggs := aggs.filter (fun a => !(aggIs r a && aggDone a)) } }
  forEach ready s (fun s a => answerAgg s a.req a.opcode a.got a.late)

/-! ### Running a command for its targets -/

/-- The completion latched by a final answer; a command answered BUSY_DEFERRED or ABORTED has not completed (R163, R165, R166). -/
def latchAns (s : State) (r : Req) (a : Ans) : State := if a.status = stBusyDeferred ∨ a.status = stAborted then s else latch s r

/-- A device command: its result answered to the request, or added to its collection. -/
def runDev (s : State) (r : Req) (op : Nat) (f : State → State × Ans) : State :=
  if aggregated r op then
    let (s, a) := f (aggOpen s r op)
    if a.later then s else aggAdd (latchAns s r a) r [⟨8 * ringId s, a.status, a.detail⟩]
  else
    let (s, a) := f s
    if a.later then s else answer (latchAns s r a) r op a.status a.payload

/-- Each selected axis in ascending order, with its results. -/
def runAxes (f : State → Axis → State × Ans) : State → List Axis → State × List TRes
  | s, [] => (s, [])
  | s, n :: ns =>
    let (s, a) := f s n
    let t : TRes := ⟨8 * ringId s + n.val, a.status, a.detail⟩
    let (s, ts) := runAxes f s ns
    (s, if a.later then ts else t :: ts)

/-- An axis command: the one axis of AXIS_SEL, or every axis of the resolved selection; its completion is latched where every axis has
answered (R166). -/
def runAx (s : State) (r : Req) (op : Nat) (f : State → Axis → State × Ans) : State :=
  if aggregated r op then
    let (s, ts) := runAxes f (aggOpen s r op) (axesOf r.mask)
    aggAdd (if ts.length = (axesOf r.mask).length then latch s r else s) r ts
  else if h : r.axisSel < 8 then
    let (s, a) := f s ⟨r.axisSel, h⟩
    if a.later then s else answer (latchAns s r a) r op a.status a.payload
  else
    -- A single selection that names no axis does not occur in a taken frame (R137, R151); answered RANGE.
    answer (latch s r) r op stRange []

/-- The final answer of a device command that waited. -/
def finishDev (s : State) (r : Req) (op status : Nat) (payload : List Byte) : State :=
  let x := finalOf s r status payload
  if aggregated r op then aggAdd (latch s r) r [⟨8 * ringId s, x.1, 0⟩]
  else answer (latch s r) r op x.1 x.2

/-! ### Answers that wait -/

/-- A response that waits, added. -/
def addWait (s : State) (w : Wait) : State := { s with rt := { s.rt with waits := s.rt.waits ++ [w] } }

/-- The answer of a wait: of its axis where it names one, else of the device. -/
def finishWait (s : State) (w : Wait) (status : Nat) (payload : List Byte) : State :=
  match w.axis with
  | some n =>
    let x := finalOf s w.req status payload
    if aggregated w.req w.opcode then
      let d := if x.1 = stNotInState then (axSt s n).code else 0
      let more := s.rt.waits.any (fun y => decide (y.req = w.req))
      aggAdd (if more then s else latch s w.req) w.req [⟨8 * ringId s + n.val, x.1, d⟩]
    else answer (latch s w.req) w.req w.opcode x.1 x.2
  | none => finishDev s w.req w.opcode status payload

/-- Answer and remove the waits that a test picks, each with a status and payload. -/
def endWaits (s : State) (p : Wait → Bool) (f : State → Wait → Nat × List Byte) : State :=
  let ws := s.rt.waits.filter p
  let s := { s with rt := { s.rt with waits := s.rt.waits.filter (fun w => !p w) } }
  forEach ws s (fun s w => let (st, pl) := f s w; finishWait s w st pl)

end Sys2Proof.Machine
end

