-- ==== Sys2Proof/Machine/Staging.lean ====
section
/-! DEFINITION. The staging of record slices (R579): admission, event slices (R584, R587) and the bytes staged. -/

namespace Sys2Proof.Machine

/-- TOTAL of a slice with a payload length (R573). -/
def sliceTotal (len : Nat) : Nat := 16 + (len + 3) / 4 * 4 + 4

/-- The footprint of a slice with a payload length (R573). -/
def sliceFootprint (len : Nat) : Nat := (sliceTotal len + 15) / 16 * 16 + 16

/-- A marker of the record (R575): MAGIC, eight bytes, and a CRC-32 over the twelve. -/
def markerBytes (magic : Nat) (body : List Byte) : List Byte :=
  let bs := leBytes 4 magic ++ body
  bs ++ wordBytes (crc32 bs)

/-- A skip marker (R575). -/
def skipMarker : List Byte := markerBytes 0x4643534B (zeros 8)

/-- The bytes staged: the slices' TOTAL lengths (log entry 9). -/
def stagedBytes (s : State) : Nat := sumNat (s.rcd.staged.map (fun x => sliceTotal x.payload.length))

/-- The code of an event slice (R583). -/
abbrev kindBoot : Nat := 0x01
abbrev kindEvent : Nat := 0x02
abbrev kindSnapshot : Nat := 0x03
abbrev kindSummary : Nat := 0x04
abbrev kindCoupling : Nat := 0x05
abbrev kindParking : Nat := 0x06
abbrev kindNote : Nat := 0x07

/-- Count a dropped event slice (R579). -/
def dropEvent (s : State) : State := setB (incR s Sig.FC_EVT_DROP) Sig.FC_STAT 2 true

/-- The list without its last event slice, the first entry kept where its commit has begun (log entry 9); none where it holds no
other event slice. -/
def dropLastEvent (keepFirst : Bool) : List Staged → Option (List Staged)
  | [] => none
  | x :: xs =>
    match dropLastEvent false xs with
    | some ys => some (x :: ys)
    | none => if x.kind = kindEvent && !keepFirst then some xs else none

/-- Drop the newest staged event slices until `need` bytes fit in 64 KiB (R579). -/
def makeRoom (need : Nat) : Nat → State → State
  | 0, s => s
  | fuel + 1, s =>
    if stagedBytes s + need ≤ 65536 then s
    else
      match dropLastEvent true s.rcd.staged with
      | some ys => makeRoom need fuel (dropEvent { s with rcd := { s.rcd with staged := ys } })
      | none => s

/-- The present instant, in the units of the clock in use. -/
def instantNow (s : State) : Nat × Nat := (s.clk.us, s.clk.usPart)

/-- Append to staging. -/
def pushStaged (s : State) (x : Staged) : State :=
  { s with rcd := { s.rcd with staged := s.rcd.staged ++ [{ x with at_ := instantNow s }] } }

/-- Stage a slice of a kind that is always admitted (R579). -/
def stageSlice (s : State) (kind : Nat) (payload : List Byte) (autoPin : Bool) : State :=
  pushStaged (makeRoom (sliceTotal payload.length) s.rcd.staged.length s) ⟨kind, payload, autoPin, none, (0, 0)⟩

/-- The payload of an event slice (R584). -/
def eventPayload (s : State) (code idx count : Nat) (data : List Byte) : List Byte :=
  leBytes 2 code ++ leBytes 2 idx ++ leBytes 4 count ++ leBytes 4 (usTime s) ++ fitTo 52 data

/-- Stage an event slice: admitted only while staging holds less than 48 KiB (R579). -/
def stageEvent (s : State) (code idx count : Nat) (data : List Byte) : State :=
  if stagedBytes s < 49152 then pushStaged s ⟨kindEvent, eventPayload s code idx count data, false, none, (0, 0)⟩
  else dropEvent s

end Sys2Proof.Machine
end

