-- ==== Sys2Proof/Machine/Bridge.lean ====
section
/-! DEFINITION. The bridge of an axis: the protection latches, the DS grant (R525), the gate lines after the combination of
R8 and the interlock (R223), the commands of stage 5 with their awaited gate-sense reports (R191 to R193), the edge log (R264)
and the restart of the blanking windows (R210, R211). -/

namespace Sys2Proof.Machine

/-- The three phases. -/
def phases : List (Fin 3) := [0, 1, 2]

/-- The bit of a gate in the six-gate masks: GHU, GLU, GHV, GLV, GHW, GLW from bit 0 (R214). -/
def gateBit (g : Gate) : Nat := 2 * g.ph.val + (if g.hi then 0 else 1)

/-- The six gates in the order of their bits. -/
def allGates : List Gate := phases.flatMap (fun ph => [⟨ph, true⟩, ⟨ph, false⟩])

/-! ### Latches (R235, R247) -/

/-- The latch byte of a phase: PH_x of GD_LATCH. -/
def latchByte (s : State) (n : Axis) (ph : Fin 3) : Nat := rgF s (Sig.GD_LATCH n.val) (8 * ph.val) 8

/-- Whether the half-bridge is isolated: a latch SC, WEAK, XCMD or HS_TO stands (R235), or it was cleared and the axis has not
left DISABLED since (R238). -/
def isolated (s : State) (n : Axis) (ph : Fin 3) : Bool :=
  latchByte s n ph % 64 != 0 || bitOf (s.gd[n]).out ph.val

/-- Whether TRIP is latched. -/
def tripped (s : State) (n : Axis) : Bool := rgB s (Sig.GD_LATCH n.val) 30

/-- Set a latch bit of a phase. -/
def setLatch (s : State) (n : Axis) (ph : Fin 3) (bit : Nat) : State :=
  setB s (Sig.GD_LATCH n.val) (8 * ph.val + bit) true

/-- Something of an axis out of service until it next leaves DISABLED (R238). -/
def outOfService (s : State) (n : Axis) (bit : Nat) : State := modGd s n (fun g => { g with out := g.out ||| 2 ^ bit })

/-! ### The DS demand (R525, R526) -/

/-- The conditions of R525 for a grant, but for the enable request. -/
def dsReady (s : State) : Bool :=
  !s.ds.vdrvLock && !s.ds.hbLost && !s.ds.hbReport && !s.ds.hot && !s.ds.dsFail && !s.ds.disTimeout && s.ds.locked

/-- Whether the DS grants gate enable to an axis (R525). -/
def dsGrants (s : State) (n : Axis) : Bool := dsReady s && bitOf s.ds.last.req n.val

/-- The locked safe pattern of an axis: SHORT where true, OFF where false (R240). -/
def patShort (s : State) (n : Axis) : Bool := bitOf s.ds.pats n.val

/-- The demand on a half-bridge, in rising restrictiveness (R8). -/
inductive Demand where
  | switching | short | off
  deriving DecidableEq, Repr

/-- The more restrictive of two demands (R8). -/
def Demand.worse (a b : Demand) : Demand :=
  match a, b with
  | .off, _ => .off
  | _, .off => .off
  | .short, _ => .short
  | _, .short => .short
  | _, _ => .switching

/-- Whether the module's commands reach the gate lines in the present state (R181). -/
def moduleDrives (s : State) (n : Axis) : Bool :=
  match axSt s n with
  | .opn | .torque | .speed | .position | .hold => true
  | .fault => (s.ax[n]).serve
  | _ => false

/-- What the CD asks of the half-bridges of an axis (R181). -/
def cdDemand (s : State) (n : Axis) : Demand :=
  match axSt s n with
  | .disabled => .off
  | .safeShort => .short
  | .fault => if (s.ax[n]).serve then .switching else .off
  | _ => .switching

/-- What the DS and the trip input ask of the half-bridges of an axis: the locked pattern where the grant is withheld from
an axis that is not DISABLED (R526, log entry 12), the action of a trip until the axis next leaves DISABLED (R234, R238), every gate off until then after a lock-out or a hard shutdown
(R60, R531). -/
def ddDemand (s : State) (n : Axis) : Demand :=
  let ds : Demand :=
    if axSt s n = .disabled || dsGrants s n then .switching else if patShort s n then .short else .off
  let trip : Demand :=
    if bitOf (s.gd[n]).out 3 || bitOf (s.gd[n]).out 5 then .off else if bitOf (s.gd[n]).out 4 then .short else .switching
  ds.worse trip

/-- The CD command of a gate, as it leaves stage 5. -/
def cmdOf (s : State) (n : Axis) (g : Gate) : Bool :=
  let c := (s.pwm[n]).ch g.ph
  if g.hi then c.cmdH else c.cmdL

/-- Whether a gate is driven on: the lock-out and the hard shutdown (R60, R531), isolation (R235), the interlock (R223) and
the combination of R8. -/
def gateOn (s : State) (n : Axis) (g : Gate) : Bool :=
  if s.ds.vdrvLock || s.ds.hot || isolated s n g.ph then false
  else
    let mine := cmdOf s n g
    let other := cmdOf s n { g with hi := !g.hi }
    if other then false
    else
      match (cdDemand s n).worse (ddDemand s n) with
      | .off => false
      | .short => if ddDemand s n = .short then !g.hi else mine && !g.hi
      | .switching => mine

/-- The six CD commands as a mask. -/
def cmdMask (s : State) (n : Axis) : Nat := allGates.foldl (fun m g => m + bitIf (cmdOf s n g) (gateBit g)) 0

/-- The six gate lines as a mask. -/
def lineMask (s : State) (n : Axis) : Nat := allGates.foldl (fun m g => m + bitIf (gateOn s n g) (gateBit g)) 0

/-! ### Stage 5 -/

/-- A channel asked for its two gates at tick `t`: a turn-off leaves at once and its gate-sense report is awaited; a turn-on
is pending until the opposite gate is confirmed off; a request withdrawn is cancelled (R191 to R193). -/
def Chan.want (c : Chan) (t : Nat) (h l : Bool) : Chan :=
  { c with
    cmdH := c.cmdH && h
    awaitH := c.awaitH || (c.cmdH && !h)
    offH := if c.cmdH && !h then t else c.offH
    pendH := h && !c.cmdH
    cmdL := c.cmdL && l
    awaitL := c.awaitL || (c.cmdL && !l)
    offL := if c.cmdL && !l then t else c.offL
    pendL := l && !c.cmdL }

/-- The module's request of stage 4: high side where `x`, low side otherwise (R184). -/
def Chan.wantModule (c : Chan) (t : Nat) : Chan := c.want t c.stage4 (!c.stage4)

/-- The restart of ATC m's delay and width by an enabled edge (R211). -/
def atcRestart (s : State) (m : Axis) : State :=
  let t := s.clk.tb + rgN s (Sig.ATC_DELAY m.val)
  modPwm s m (fun p =>
    { p with
      atcOpenAt := if p.atcOpen then none else some t
      atcCloseAt := some (t + rgN s (Sig.ATC_WIDTH m.val)) })

/-- A write that disables an ATC ends its window and its delay: the input is never blanked (R211). -/
def atcOff (s : State) (m : Axis) (off : Bool) : State :=
  if off then modPwm s m (fun p => { p with atcOpen := false, atcOpenAt := none, atcCloseAt := none }) else s

/-- Whether ATC m watches module n and one of the command edges is enabled (R210, R214). -/
def atcHit (s : State) (m n : Axis) (before after : Nat) : Bool :=
  rgN s (Sig.ATC_SRC m.val) == n.val && rgN s (Sig.ATC_WIDTH m.val) != 0 &&
    (List.range 6).any (fun i =>
      (!bitOf before i && bitOf after i && rgB s (Sig.ATC_EDGES m.val) i) ||
      (bitOf before i && !bitOf after i && rgB s (Sig.ATC_EDGES m.val) (8 + i)))

/-- How many gates differ between two masks. -/
def maskDiff (a b : Nat) : Nat := ((List.range 6).filter (fun i => bitOf a i != bitOf b i)).length

/-- The ticks of the turn-ons of a phase where its two gate lines go from `l0` to `l1`. -/
def Chan.turnOns (c : Chan) (ph : Fin 3) (l0 l1 t : Nat) : Chan :=
  { c with
    onH := if !bitOf l0 (2 * ph.val) && bitOf l1 (2 * ph.val) then t else c.onH
    onL := if !bitOf l0 (2 * ph.val + 1) && bitOf l1 (2 * ph.val + 1) then t else c.onL }

/-- A module whose six gate lines go from `l0` to `l1` at tick `t`: the log of the last 16 edges (R264) and the ticks of the turn-ons. -/
def PwmAx.lines (p : PwmAx) (l0 l1 t : Nat) : PwmAx :=
  { p with
    edges := (List.replicate (maskDiff l0 l1) t ++ p.edges).take 16
    chU := p.chU.turnOns 0 l0 l1 t
    chV := p.chV.turnOns 1 l0 l1 t
    chW := p.chW.turnOns 2 l0 l1 t }

/-- A change to axis n's bridge with the edges that it makes on the gate lines. -/
def withLines (s : State) (n : Axis) (f : State → State) : State :=
  let l0 := lineMask s n
  let s := f s
  let l1 := lineMask s n
  if l0 = l1 then s else modPwm s n (fun p => p.lines l0 l1 s.clk.tb)

/-- A change to axis n's bridge with its consequences: the edges on the gate lines, and the restarts of the blanking windows that watch the
module (R210, R211). -/
def withEdges (s : State) (n : Axis) (f : State → State) : State :=
  let c0 := cmdMask s n
  let s := withLines s n f
  let c1 := cmdMask s n
  if c0 = c1 then s else forEach (allAxes.filter (fun m => atcHit s m n c0 c1)) s atcRestart

/-- Every gate command of an axis off (R181). -/
def gatesOff (s : State) (n : Axis) : State :=
  withEdges s n (fun s => modPwm s n (fun p => p.mapCh (fun c => c.want s.clk.tb false false)))

/-- The low sides requested on, the high sides off (R181, R510). -/
def gatesShort (s : State) (n : Axis) : State :=
  withEdges s n (fun s => modPwm s n (fun p => p.mapCh (fun c => c.want s.clk.tb false true)))

/-- The module in control of the gates (R181). -/
def gatesModule (s : State) (n : Axis) : State :=
  withEdges s n (fun s => modPwm s n (fun p => p.mapCh (fun c => c.wantModule s.clk.tb)))

/-- The gates as a FAULT reaction leaves them, under the module where it still serves (R181); the edges of the reaction restart no blanking
window (R212). -/
def gatesFault (s : State) (n : Axis) (serve : Bool) : State :=
  withLines s n (fun s => modPwm s n (fun p => p.mapCh (fun c =>
    if serve then c.wantModule s.clk.tb else c.want s.clk.tb false false)))

/-- The compare that a state of FAULT puts on every channel: PER / 2, in sixteenths of a tick (R294). -/
def halfCompare (s : State) (n : Axis) : Nat := 16 * rgN s (Sig.PWM_PER n.val) / 2

/-! ### Gate-drive state as read -/

/-- Whether the trickle charge pump of an axis runs (R221). -/
def cptOn (s : State) (n : Axis) : Bool :=
  rgN s (Sig.GD_CPT_EN n.val) == 1 && decide (axSt s n ≠ .disabled) && !s.ds.vdrvLock

/-- TRIP_LEVEL: whether TRIPn_N is asserted now (R233, R247): as a command told it at this very instant, else the level of a pin of which no
command tells; never while the blanking window is open, when the input is ignored. -/
def tripLevel (s : State) (n : Axis) : Bool :=
  !(s.pwm[n]).atcOpen &&
    (if (s.gd[n]).tripAt = some (s.clk.us, s.clk.usPart) then (s.gd[n]).tripNow else Config.tripPin n.val s.clk.us s.clk.usPart)

/-- GD_STAT (R247). The DS grant is the one in force on the DD. -/
def gdStat (s : State) (n : Axis) : Nat :=
  bitIf (dsGrants s n) 11 + bitIf s.ds.vdrvLock 10 + bitIf (tripLevel s n) 9 + bitIf (s.pwm[n]).atcOpen 8 +
    bitIf (cptOn s n) 7 + bitIf (decide (axSt s n ≠ .disabled) && !dsGrants s n) 6 +
    bitIf (isolated s n 0) 3 + bitIf (isolated s n 1) 4 + bitIf (isolated s n 2) 5

end Sys2Proof.Machine
end

