-- ==== Sys2Proof/Machine/Axis.lean ====
section
/-! DEFINITION. Changes of axis state (R153, R181, R294 to R299, R328): the one operation that enters a state, and the ways into
DISABLED, FAULT, SAFE_SHORT and HOLD that the fault manager, the DS report and the runtime share. -/

namespace Sys2Proof.Machine

/-! ### Motion that ends -/

/-- Caramel without a plan: idle, v and a 0, Φ as it stands (R312, R328). -/
def CarAx.idle (c : CarAx) : CarAx :=
  { c with v := 0, a := 0, cmd := none, segs := [], spent := 0, next := none, taking := none, fresh := false, replan := none,
           held := false, arrived := false }

/-- The plan of an axis discarded (R328, R514). -/
def discardPlan (s : State) (n : Axis) : State :=
  modHcAx (modCar s n CarAx.idle) n (fun h => { h with moveCls := none })

/-- The result of one axis in a deferred command that ends without starting. -/
def deferredRes (s : State) (status : Nat) (n : Axis) : TRes :=
  ⟨8 * ringId s + n.val, status, if status = stNotInState then (axSt s n).code else 0⟩

/-- A deferred entry answered with a final status (R163). -/
def answerDeferred (s : State) (d : Deferred) (status : Nat) (payload : List Byte) : State :=
  let op := if d.cmd.isSome then 0x11 else 0x41
  if aggregated d.req op then
    answerAgg (latch s d.req) d.req op
      (if d.cmd.isSome then d.axes.map (deferredRes s status) else [⟨8 * ringId s, status, 0⟩]) true
  else answer (latch s d.req) d.req op status payload

/-- The entries of the deferral queue that a test picks, removed and answered (R468). -/
def dropDeferred (s : State) (p : Deferred → Bool) (status : Nat) : State :=
  let ds := s.rt.defq.filter p
  let s := { s with rt := { s.rt with defq := s.rt.defq.filter (fun d => !p d) } }
  forEach ds s (fun s d => answerDeferred s d status [])

/-- The deferral queue emptied, each entry answered NOT_IN_STATE (R514, R515). -/
def emptyDeferred (s : State) : State := dropDeferred s (fun _ => true) stNotInState

/-- The pending MOVE and STOP of an axis answered with a status (R156, R328). -/
def endMotionWaits (s : State) (n : Axis) (status : Nat) : State :=
  endWaits s (fun w => (w.opcode == 0x11 || w.opcode == 0x12) && decide (w.axis = some n)) (fun _ _ => (status, []))

/-- What leaving POSITION, or a HOLD held from it, does to Caramel and the motion commands (R328). -/
def leavePosition (s : State) (n : Axis) : State :=
  let s := discardPlan s n
  let s := endMotionWaits s n stNotInState
  dropDeferred s (fun d => d.cmd.isSome && d.axes.contains n) stNotInState

/-! ### Entering a state -/

/-- Whether a state and held state run the position loop. -/
def inPosition (b : AxBase) : Bool := decide (b.st = .position) || (decide (b.st = .hold) && decide (b.held = .position))

/-- The axis in a new state: the state and held state, EV40 + n (R296), the end of Caramel's plan where the position loop is
left (R328), and the answers of the AXIS_STATE requests that wait for the state (R152). -/
def axisTo (s : State) (n : Axis) (st : AxState) : State :=
  let b := s.ax[n]
  if b.st = st then s
  else
    let b' : AxBase :=
      { b with st := st, held := if st = .hold then b.st else .disabled, holdByFault := false, serve := false }
    let s := evt (modAx s n (fun _ => b')) (40 + n.val)
    let s := if inPosition b && !inPosition b' then leavePosition s n else s
    endWaits s (fun w => w.opcode == 0x10 && decide (w.axis = some n) && w.goal == st.code)
      (fun _ _ => (stOk, leBytes 4 st.code))

/-- Every loop of an axis open: integrators discarded (R304), no reference in force, no transition pending. -/
def openLoops (s : State) (n : Axis) : State :=
  modLoop s n (fun l =>
    { l with bankA := Bank.init, bankB := Bank.init.compl, pend := none, preCur := false, preSpd := false, prePos := false,
             preEmf := false, dueSpd := none, duePos := none, dueObs := none, owedSpd := false, owedPos := false,
             stopRate := none })

/-- The enable request of an axis in the CD heartbeat (R524). -/
def setReq (s : State) (n : Axis) (on : Bool) : State :=
  let r := s.sup.req
  let r := if on then r ||| 2 ^ n.val else if bitOf r n.val then r - 2 ^ n.val else r
  { s with sup := { s.sup with req := r } }

/-- The key of an axis's learn schedule. -/
def keyLearn (n : Axis) : Nat := 0x38 + n.val

/-- An offset learn of a DISABLED axis begins; the next one is due 100 ms after it (R256). -/
def beginLearn (s : State) (n : Axis) : State :=
  setMark (modOfs s n (fun o => { o with learning := true, spoiled := false, sumU := (0, 0), sumV := (0, 0) })) (keyLearn n) (s.clk.tb + 40000000)

/-- The module of an axis stopped at 0, its pipeline empty (R181, R296); what stage 5 awaits stays awaited (R193). -/
def PwmAx.stop (p : PwmAx) : PwmAx :=
  let p := p.mapCh (fun c =>
    { c with ideal := false, filt := false, suppressed := false, stretch := none, wholeOn := false,
             offSince := none, bsCount := 0, bsArmed := false, bsOn := false, stage4 := false })
  { p with cnt := 0, down := false, running := false, startPend := false, live := false, j := 0 }

/-- No precharge sequence under way (R241). -/
def GdAx.noPulses (g : GdAx) : GdAx := { g with precharge := 0, pulse := false, nextAt := 0 }

/-! ### Pass counts (R307, R494, R495) -/

/-- The payload of a MODE_SET response (R154). -/
def modePayload (s : State) : List Byte := leBytes 1 s.bisc.mode ++ leBytes 1 s.bisc.mask ++ leBytes 2 0

/-- The pass count of an axis in effect; a rejoin writes the complement bank from the true bank (R495). -/
def setPasses (s : State) (n : Axis) (p : Nat) : State :=
  let s := modLoop s n (fun l => { l with passes := p, passPend := none, bankB := if p = 2 then l.bankA.compl else l.bankB })
  setN s (Sig.LP_PASSES n.val) p

/-- The MODE_SET that waits is answered once every axis has changed (R307). -/
def modeDone (s : State) : State :=
  if allAxes.all (fun n => (s.loop[n]).passPend.isNone) then
    endWaits s (fun w => w.opcode == opModeSet) (fun s _ => (stOk, modePayload s))
  else s

/-- A pending change of an axis that runs no further task takes effect now. -/
def passSettle (s : State) (n : Axis) : State :=
  match (s.loop[n]).passPend with
  | some x => modeDone (setPasses s n x.1)
  | none => s

/-- The axis in DISABLED (R295, R296): gates off, no further task, the counter stopped at 0, precharge ended, the enable request
withdrawn, sensorless continuation ended (R403), the idle time counted anew (R68), and in RUN an offset learn begun (R256). -/
def toDisabled (s : State) (n : Axis) : State :=
  if axSt s n = .disabled then s
  else
    let s := gatesOff s n
    let s := modPwm s n PwmAx.stop
    let s := passSettle (openLoops s n) n
    let s := modGd s n GdAx.noPulses
    let s := setReq s n false
    let s := modObs s n (fun o => { o with sens := false, est := 0, enter := none })
    let s := axisTo s n .disabled
    let s := idleAgain s
    if inRun s then beginLearn s n else s

/-- The axis in FAULT (R299, R510): with `serve` the half-bridges that no latch isolates switch at PER / 2, otherwise every gate is
off. An axis in DISABLED stays as it is (R512). -/
def toFault (s : State) (n : Axis) (serve : Bool) : State :=
  if axSt s n = .disabled then s
  else
    let s := modGd (openLoops s n) n GdAx.noPulses
    let s := modPwm s n (fun p => { p.mapCh (fun c => { c with act := halfCompare s n }) with live := true })
    let s := withLines s n (fun s => modAx (axisTo s n .fault) n (fun b => { b with serve := serve }))
    gatesFault s n serve

/-- The axis held off by a lock-out until it next leaves DISABLED, in FAULT (R60). -/
def toLockedOut (s : State) (n : Axis) : State :=
  if axSt s n = .disabled then s else toFault (outOfService s n 5) n false

/-- The axis in SAFE_SHORT (R299, R510): low sides on. An axis in DISABLED stays as it is (R512). -/
def toShort (s : State) (n : Axis) : State :=
  if axSt s n = .disabled then s
  else
    let s := modGd (openLoops s n) n GdAx.noPulses
    let s := withEdges s n (fun s => axisTo s n .safeShort)
    gatesShort s n

/-- The axis at its locked safe pattern (R299, R514, R515). -/
def toPattern (s : State) (n : Axis) : State := if patShort s n then toShort s n else toFault s n false

/-- The axis in HOLD (R297): the held state is the one left; from POSITION Caramel stops advancing with its plan kept (R327); the ramp of a
STOP in SPEED freezes with the speed reference. A HOLD that is a reaction ends a transition that waits, since it is left only as R298 says. -/
def toHold (s : State) (n : Axis) (byFault : Bool) : State :=
  match axSt s n with
  | .opn | .torque | .speed | .position =>
    let s := modCar s n (fun c =>
      { c with v := 0, a := 0, next := c.next.or (if c.fresh then c.taking else none), taking := none, fresh := false })
    let s := modLoop s n (fun l => { l with stopRate := none, pend := if byFault then none else l.pend })
    modAx (axisTo s n .hold) n (fun b => { b with holdByFault := byFault })
  | .hold =>
    let s := modLoop s n (fun l => { l with pend := if byFault then none else l.pend })
    modAx s n (fun b => { b with holdByFault := b.holdByFault || byFault })
  | .precharge => if byFault then toDisabled s n else s
  | _ => s

end Sys2Proof.Machine
end

