-- ==== Sys2Proof/Machine/Faults.lean ====
section
/-! DEFINITION. The fault manager (chapter 18): the sources with their defaults (R518, R521), the window counter (R504), the
reactions and how they combine (R510 to R512), DEVICE_SAFE (R515), the snapshots (R585) and the releases (R507, R508, R662). -/

namespace Sys2Proof.Machine

/-! ### Sources -/

/-- The FLT_IDX code of an axis source (R538). -/
def axSrc (n : Axis) (src : Nat) : Nat := n.val * 256 + src

/-- The FLT_IDX code of a device-wide source (R538). -/
def devSrc (src : Nat) : Nat := 0xFF00 + src

/-- The axis that a code names, where it names one. -/
def codeAxis (code : Nat) : Option Axis :=
  if h : code / 256 < 8 then some ⟨code / 256, h⟩ else none

/-- The source number of a code. -/
def codeSrc (code : Nat) : Nat := code % 256

/-- Whether a FLT_IDX code names a source: 0 to 25 with an axis, 32 to 47 with 0xFF (R538). -/
def codeOk (code : Nat) : Bool :=
  (decide (code / 256 < 8) && decide (code % 256 ≤ 25)) ||
    (decide (code / 256 = 0xFF) && decide (32 ≤ code % 256) && decide (code % 256 ≤ 47))

/-- Reaction codes (R510). -/
abbrev reLog : Nat := 0
abbrev reAdvise : Nat := 1
abbrev reDerate : Nat := 2
abbrev reHold : Nat := 3
abbrev reIsolate : Nat := 4
abbrev reOff : Nat := 5
abbrev reShort : Nat := 6
abbrev reSafe : Nat := 7

/-- N and T, in units of 100 µs, of an axis source (R518). -/
def axisWindow (src : Nat) : Nat × Nat :=
  match src with
  | 7 => (8, 100)
  | 9 => (4, 100)
  | 11 => (4, 100)
  | 12 => (4, 1000)
  | 14 => (4, 100)
  | 15 => (4, 100)
  | 16 => (4, 100)
  | 17 => (8, 1000)
  | 21 => (4, 100)
  | 22 => (2, 100)
  | 23 => (3, 10000)
  | 25 => (2, 100)
  | _ => (1, 10000)

/-- The default reaction of an axis source for a role: 0 EMB, 1 STEER, 2 LEVEL, 3 AUX (R518). -/
def axisReact (src role : Nat) : Nat :=
  match src with
  | 0 | 2 | 3 | 4 | 5 => reOff
  | 6 | 9 | 18 | 19 | 20 | 21 | 22 => if role = 1 then reShort else reOff
  | 7 | 8 | 10 => if role = 0 then reAdvise else reHold
  | 15 | 16 | 23 | 25 => if role = 1 then reHold else reAdvise
  | _ => reAdvise

/-- Whether a device-wide source has no window (R521, R662). -/
def noWindow (code : Nat) : Bool :=
  code / 256 == 0xFF && [32, 33, 38, 39, 40, 41, 42, 43, 46].contains (code % 256)

/-- N and T of a device-wide source (R521); a source without a window reads T as 0 (R662). -/
def devWindow (src : Nat) : Nat × Nat :=
  match src with
  | 37 => (3, 1000)
  | 45 => (16, 10000)
  | 32 | 33 | 38 | 39 | 40 | 41 | 42 | 43 | 46 => (1, 0)
  | _ => (1, 10000)

/-- The default reaction of a device-wide source (R521). -/
def devReact (src : Nat) : Nat :=
  match src with
  | 32 | 41 => reOff
  | 33 | 35 | 37 | 38 | 39 | 40 | 46 => reSafe
  | _ => reAdvise

/-- Whether a device-wide source is configurable (R521). -/
def devConfigurable (src : Nat) : Bool := [34, 35, 36, 37, 44, 45, 47].contains src

/-- N, reaction and T of a source by default: by the role of its axis, or by R521. -/
def cfgDefault (s : State) (code : Nat) : Nat × Nat × Nat :=
  match codeAxis code with
  | some n => let w := axisWindow (codeSrc code); (w.1, axisReact (codeSrc code) (roleOf s n), w.2)
  | none => let w := devWindow (codeSrc code); (w.1, devReact (codeSrc code), w.2)

/-- A source that has seen no event, at its defaults. -/
def srcDefault (s : State) (code : Nat) : FltSrc :=
  let d := cfgDefault s code
  { n := d.1, react := d.2.1, t := d.2.2, events := 0, last := none, lastUs := 0, hist := [], lasting := false, applied := 0,
    since := 0, sliceUs := none }

/-- A source of the fault manager. -/
def srcOf (s : State) (code : Nat) : FltSrc := (cellGet s.flt.srcs code).getD (srcDefault s code)

/-- The state with a source written. -/
def setSrc (s : State) (code : Nat) (f : FltSrc) : State :=
  { s with flt := { s.flt with srcs := cellPut s.flt.srcs code f } }

/-- The FLT_CFG word of a source (R538). -/
def cfgWord (n react t : Nat) : Nat := n * 2 ^ 24 + react * 2 ^ 21 + t

/-- FLT_CFG as it reads for a source. -/
def srcCfg (s : State) (code : Nat) : Nat :=
  let f := srcOf s code
  cfgWord f.n f.react f.t

/-! ### What is in force -/

/-- The lasting sources that act on an axis: its own, and the device-wide ones with a reaction that acts on every axis
(R522). -/
def actsOn (n : Axis) (x : Nat × FltSrc) : Bool :=
  x.2.lasting && (decide (codeAxis x.1 = some n) || (decide (codeAxis x.1 = none) && decide (reDerate ≤ x.2.applied)))

/-- The highest reaction code in force on an axis; 0xFF none (R537). -/
def reactInForce (s : State) (n : Axis) : Nat :=
  let xs := (s.flt.srcs.filter (actsOn n)).map (fun x => x.2.applied)
  match xs with
  | [] => 0xFF
  | x :: ys => ys.foldl max x

/-- Whether an axis holds an unreleased lasting fault of ISOLATE or stronger (R508). -/
def blocked (s : State) (n : Axis) : Bool :=
  s.flt.srcs.any (fun x => actsOn n x && decide (reIsolate ≤ x.2.applied))

/-- FLT_LASTING of an axis, or of the device where none is given (R537). -/
def lastingMask (s : State) (n : Option Axis) : Nat :=
  s.flt.srcs.foldl (fun m x =>
    if x.2.lasting && decide (codeAxis x.1 = n) then m ||| 2 ^ (if n.isSome then codeSrc x.1 else codeSrc x.1 - 32)
    else m) 0

/-- FLT_LIVE (R538). -/
def fltLive (s : State) : Nat :=
  (s.sup.got.grant % 256) * 2 ^ 16 + maskOf allAxes (blocked s) * 2 ^ 8 + bitIf s.ds.hot 4 + bitIf s.ds.disTimeout 3 +
    bitIf s.pwr.stopping 2 +
    bitIf (allAxes.any (fun n => bitOf s.sup.sent.req n.val && !bitOf s.sup.got.grant n.val)) 1 + bitIf s.flt.safeMode 0

/-! ### Snapshots (R585) -/

/-- The payload of a snapshot (R584). -/
def snapPayload (s : State) (x : Snap) : List Byte :=
  let interval : Nat :=
    match codeAxis x.code with
    | some n => (narrow 0x585 ((s.loop[n]).ts * 10000000)).toNat % 65536
    | none => 1000
  leBytes 2 x.code ++ leBytes 1 x.react ++ leBytes 1 x.prior ++ leBytes 4 x.us ++ leBytes 1 x.pre.length ++
    leBytes 1 x.post.length ++ leBytes 2 interval ++ fitTo 20 x.head ++ zeros 32 ++ (x.pre ++ x.post).flatten

/-- Stage the snapshots that a test picks, their collection ended (R585). -/
def stageSnaps (s : State) (p : Snap → Bool) : State :=
  let xs := s.flt.snaps.filter p
  let s := { s with flt := { s.flt with snaps := s.flt.snaps.filter (fun x => !p x) } }
  forEach xs s (fun s x => stageSlice s kindSnapshot (snapPayload s x) true)

/-- Add a record to the snapshots that a test picks, and stage those that are full (R585). -/
def addSnapRec (s : State) (p : Snap → Bool) (r : List Byte) : State :=
  let snaps := s.flt.snaps.map (fun x => if p x then { x with post := x.post ++ [r] } else x)
  stageSnaps { s with flt := { s.flt with snaps := snaps } }
    (fun x => p x && decide (rgN s Sig.FC_SNAP_POST ≤ x.post.length))

/-- The newest `k` of a list kept oldest first. -/
def newest {α : Type} (k : Nat) (xs : List α) : List α := xs.drop (xs.length - k)

/-- A snapshot for a source that became lasting: it joins an open snapshot of its axis, or for a device-wide source any open
one (R585), or begins its own. -/
def openSnap (s : State) (code react prior : Nat) : State :=
  let joins (x : Snap) : Bool :=
    match codeAxis code with
    | some n => decide (codeAxis x.code = some n)
    | none => true
  match s.flt.snaps.find? joins with
  | some x => stageEvent s 0x0003 code 1 (leBytes 4 x.us)
  | none =>
    let pre := newest (rgN s Sig.FC_SNAP_PRE)
      (match codeAxis code with
        | some n => (s.loop[n]).snapRecs
        | none => s.flt.devRecs)
    let head : List Byte :=
      match codeAxis code with
      | some n =>
        leBytes 4 (rgN s (Sig.GD_LATCH n.val)) ++ leBytes 4 (fltLive s) ++ leBytes 4 (rgN s (Sig.LP_STAT n.val)) ++
          leBytes 4 (rgN s (Sig.RSV_STAT n.val)) ++ leBytes 4 (rgN s (Sig.HC_AX_LIVE n.val))
      | none => zeros 20
    let x : Snap := ⟨code, react, prior, usTime s, pre, [], head⟩
    stageSnaps { s with flt := { s.flt with snaps := s.flt.snaps ++ [x] } }
      (fun y => decide (y = x) && decide (rgN s Sig.FC_SNAP_POST = 0))

/-! ### Reactions -/

/-- DEVICE_SAFE entered for a source (R515): the first cause is recorded, every axis goes to its locked safe pattern, the next
heartbeat word carries SAFE and no request, plans are discarded and the queue is emptied. -/
def enterSafe (s : State) (code : Nat) : State :=
  if s.flt.safeMode then s
  else
    let s := { s with flt := { s.flt with safeMode := true } }
    let s := setN s Sig.FLT_SAFE_CAUSE code
    let s := forEach allAxes s toPattern
    let s := forEach allAxes s discardPlan
    let s := { s with sup := { s.sup with req := 0, safe := true } }
    let s := evt (setB s Sig.FLT_STAT 4 true) 73
    emptyDeferred s

/-- A lasting reaction on one axis (R510), where no stronger one of ISOLATE or above is in force (R511). -/
def reactAxis (s : State) (n : Axis) (r : Nat) : State :=
  let top := reactInForce s n
  let governs := top = 0xFF || decide (top ≤ r)
  match r with
  | 2 => modAx s n (fun b => { b with derate := true })
  | 3 => toHold s n true
  | 4 => if governs && decide (axSt s n ≠ .fault) && decide (axSt s n ≠ .safeShort) then toFault s n true else s
  | 5 => if governs then toFault s n false else s
  | 6 => if governs then toShort s n else s
  | _ => s

/-- The reaction of a source that became lasting (R506, R522). -/
def applyReact (s : State) (code r : Nat) : State :=
  if r = reSafe then enterSafe s code
  else
    match codeAxis code with
    | some n => reactAxis s n r
    | none => forEach allAxes s (fun s n => reactAxis s n r)

/-- Whether the matrix reaction binds now (R519): OBS_FAIL in sensorless continuation, the feedback sources while FBn serves
the axis. RSV_LOST is decided by its caller (R398). -/
def reactBinds (s : State) (code : Nat) : Bool :=
  match codeAxis code with
  | some n =>
    match codeSrc code with
    | 20 => (s.obs[n]).sens
    | 21 | 22 | 23 | 25 => rgN s (Sig.LP_ANG_SRC n.val) == 1 || rgN s (Sig.LP_FB_SRC n.val) == 1
    | _ => true
  | none => true

/-- Whether the event that carries the stamps completes the window of R504. -/
def windowFull (f : FltSrc) (hist : List Nat) (t : Nat) : Bool :=
  f.t == 0 || (decide (f.n ≤ hist.length) && decide (t - (newest f.n hist).headD t < f.t * 1000))

/-- The event slice of a transient event: at most one per source per second (R505). -/
def transientSlice (s : State) (code : Nat) : State :=
  let f := srcOf s code
  let due := match f.sliceUs with
    | none => true
    | some u => decide (u + 1000000 ≤ s.clk.us)
  if due then
    stageEvent (setSrc s code { f with since := 0, sliceUs := some s.clk.us }) 0x0001 code f.since []
  else s

/-- Count a source that became lasting in the summary of its axis (R586). -/
def countLasting (s : State) (code : Nat) : State :=
  match codeAxis code with
  | some n =>
    { s with rcd := { s.rcd with sumLasting := setAt s.rcd.sumLasting n.val (s.rcd.sumLasting.getD n.val 0 + 1) } }
  | none => s

/-- An event of a source (R504, R506); `bind` says whether its matrix reaction binds (R519), otherwise it is treated as
ADVISE. -/
def faultEvtB (s : State) (code : Nat) (bind : Bool) : State :=
  let f := srcOf s code
  let t := stamp100 s
  let hist := newest 255 (f.hist ++ [t])
  let f := { f with events := f.events + 1, since := f.since + 1, last := some t, lastUs := usTime s, hist := hist }
  if f.lasting then setSrc s code f
  else if windowFull f hist t then
    let r := if bind || f.react ≤ reAdvise then f.react else reAdvise
    let prior := match codeAxis code with
      | some n => (axSt s n).code
      | none => 0xFF
    let s := setSrc s code { f with lasting := true, applied := r }
    let s := countLasting s code
    let s := match codeAxis code with
      | some n => evt s (32 + n.val)
      | none => evt s 72
    let s := openSnap s code r prior
    applyReact s code r
  else transientSlice (setSrc s code f) code

/-- An event of a source with the binding of R519. -/
def faultEvt (s : State) (code : Nat) : State := faultEvtB s code (reactBinds s code)

/-- An event of an axis source. -/
def axFault (s : State) (n : Axis) (src : Nat) : State := faultEvt s (axSrc n src)

/-- An event of a device-wide source. -/
def devFault (s : State) (src : Nat) : State := faultEvt s (devSrc src)

/-! ### Biscotti of the MP (R489, R490) -/

/-- Pass B of the next task of a core (0 LE0, 1 LE1, 2 MP) applies the debug writes of its log; after an overflow the complement bank of
the engine is rewritten instead (R498, R499). -/
def replayLog (s : State) (k : Nat) : State :=
  let c := s.bisc.logs.getD k 0
  if c = 0 then s
  else
    let s := { s with bisc := { s.bisc with logs := setAt s.bisc.logs k 0 } }
    if c ≤ 64 then setN s Sig.BISC_REPLAY_COUNT (rgN s Sig.BISC_REPLAY_COUNT + c)
    else
      forEach (allAxes.filter (fun n => (engOf n).val == k)) s (fun s n => modLoop s n (fun l => { l with bankB := l.bankA.compl }))

/-- BISC_LAST of a mismatch (R502): source, slot, kind, held, time. -/
def biscLast (s : State) (src slot kind : Nat) (held : Bool) : State :=
  setN s Sig.BISC_LAST (src * 2 ^ 30 + slot * 2 ^ 28 + kind % 8 * 2 ^ 25 + bitIf held 24 + usTime s % 2 ^ 24)

/-- A safety task of the MP: its results where its checkpoint, or that of its one retry, passes, otherwise the held output of R489. The
retry runs where it can end before the next period of the task (R490). -/
def mpTask (s : State) (chk : Check) (f held : State → State) : State :=
  let s := replayLog s 2
  match chk.mismatch with
  | none => f s
  | some k =>
    let retry := !chk.pending && chk.retryOk
    let s := incR (orR s Sig.BISC_STAT (64 + k % 8)) Sig.BISC_MP_COUNT
    let s := devFault (evt (biscLast s 2 0 k (!retry)) 92) 37
    if retry then f (setB s Sig.BISC_STAT 3 true) else held s

/-! ### Releases (R507, R508, R662) -/

/-- The axes that a code's reaction acted on. -/
def codeAxes (code : Nat) : List Axis :=
  match codeAxis code with
  | some n => [n]
  | none => allAxes

/-- Whether a reaction is still in force on an axis. -/
def stillActs (s : State) (n : Axis) (r : Nat) : Bool := s.flt.srcs.any (fun x => actsOn n x && x.2.applied == r)

/-- A lasting source released: its effect by R508, RELEASED, and an event slice with the reaction code (R587). -/
def releaseSrc (s : State) (code : Nat) : State :=
  let f := srcOf s code
  if f.lasting then
    let s := setSrc s code { f with lasting := false }
    let s := setB s Sig.FLT_STAT 1 true
    let s := forEach (codeAxes code) s (fun s n =>
      if f.applied = reDerate && !stillActs s n reDerate then modAx s n (fun b => { b with derate := false })
      else if f.applied = reHold && !stillActs s n reHold then modAx s n (fun b => { b with holdByFault := false })
      else s)
    stageEvent s 0x0002 code 1 (leBytes 1 f.applied)
  else s

/-- Whether the host's write releases a lasting source now (R507, R662). -/
def hostReleases (s : State) (code : Nat) : Bool :=
  let f := srcOf s code
  if noWindow code then (codeSrc code == 42 || codeSrc code == 43) && !s.pwr.stopping
  else
    decide (reDerate ≤ f.applied) && decide (f.applied ≤ reShort) &&
      (match f.last with
        | some t => decide (f.t * 1000 ≤ stamp100 s - t)
        | none => true)

/-- Whether a lasting LOG or ADVISE source with a window is released by itself (R507). -/
def selfReleases (s : State) (code : Nat) : Bool :=
  let f := srcOf s code
  f.lasting && !noWindow code && decide (f.applied ≤ reAdvise)

/-- A write of 1 to bits of FLT_LASTING_AXn or FLT_LASTING_DEV (R507): each lasting source is released or its release refused. -/
def releaseWrite (s : State) (n : Option Axis) (value : Nat) : State :=
  let codes := (List.range 32).filterMap (fun i =>
    if bitOf value i then some (match n with | some a => axSrc a i | none => devSrc (i + 32)) else none)
  forEach (codes.filter (fun c => (srcOf s c).lasting)) s (fun s c =>
    if hostReleases s c then releaseSrc s c else setB s Sig.FLT_STAT 0 true)

/-! ### Configuration (R509, R517, R523) -/

/-- A configuration kept on the ND, for a source (R523, R660). -/
def keepCfg (s : State) (code : Nat) (w : Option Nat) : State :=
  let l := match w with
    | some w => cellPut s.nd.fltCfgs code w
    | none => cellDel s.nd.fltCfgs code
  { s with nd := { s.nd with fltCfgs := l } }

/-- A write of FLT_CFG for a source: the configuration, and its history cleared (R509). -/
def writeCfg (s : State) (code w : Nat) : State :=
  if noWindow code then s
  else
    let f := srcOf s code
    let s := setSrc s code { f with n := w / 2 ^ 24, react := w / 2 ^ 21 % 8, t := w % 2 ^ 20, hist := [] }
    keepCfg s code (some w)

/-- The status of a write of FLT_CFG for the selected source, OK where it is accepted (R520, R522, R523, R662). -/
def cfgStatus (s : State) (code w : Nat) : Nat :=
  let n := w / 2 ^ 24
  let r := w / 2 ^ 21 % 8
  let t := w % 2 ^ 20
  let src := codeSrc code
  let d := cfgDefault s code
  if noWindow code then (if w = srcCfg s code then stOk else stRange)
  else if w / 2 ^ 20 % 2 ≠ 0 ∨ n = 0 ∨ t = 0 ∨ 100000 < t then stRange
  else
    match codeAxis code with
    | some a =>
      if (src = 1 ∧ r ≠ reAdvise) ∨ (r = reIsolate ∧ src ≠ 0 ∧ src ≠ 2 ∧ src ≠ 3 ∧ src ≠ 4) then stRange
      else if lifeCycle s = .field ∧ roleOf s a ≤ 1 ∧ (r < d.2.1 ∨ d.1 < n ∨ t < d.2.2) then stRefusedSafety
      else stOk
    | none =>
      if r = reIsolate ∨ r = reShort ∨ (devConfigurable src = false ∧ w ≠ cfgWord d.1 d.2.1 d.2.2) then stRange
      else if lifeCycle s = .field ∧ (r < d.2.1 ∨ d.1 < n ∨ t < d.2.2) then stRefusedSafety
      else stOk

/-- The sources of an axis back at the defaults of its role, in the step that writes the role (R517). -/
def roleDefaults (s : State) (n : Axis) : State :=
  forEach (List.range 26) s (fun s i =>
    let code := axSrc n i
    let d := cfgDefault s code
    let s := match cellGet s.flt.srcs code with
      | some f => setSrc s code { f with n := d.1, react := d.2.1, t := d.2.2 }
      | none => s
    keepCfg s code none)

/-! ### The orderly stop (R514) -/

/-- The orderly stop begins: every axis that is not DISABLED at its locked safe pattern, plans discarded, the queue emptied,
open snapshots staged (R585), STOP_DONE cleared (R84). -/
def beginStop (s : State) : State :=
  if s.pwr.stopping then s
  else
    let s := forEach allAxes s toPattern
    let s := forEach allAxes s discardPlan
    let s := emptyDeferred s
    let s := stageSnaps s (fun _ => true)
    let s := setB s Sig.SUP_STAT 3 false
    { s with pwr := { s.pwr with stopping := true, stopUs := s.clk.us } }

end Sys2Proof.Machine
end

