-- ==== Sys2Proof/Machine/Analogue.lean ====
section
/-! DEFINITION. The analogue outputs (chapter 15): codes and spans, the load strobe, the slew limiter, the clear input, span
changes and the short-circuit limit, with the meanings of their events. -/

namespace Sys2Proof.Machine

/-- The six channels. -/
def aoChannels : List (Fin 6) := [0, 1, 2, 3, 4, 5]

/-- The 0 V code of a span (R430). -/
def aoZero (span : Nat) : Nat := if span ≤ 2 then 0 else 8192

/-- A code as it stands when it is used: 0xFFFF is the 0 V code of the span in force (R431). -/
def aoResolve (span v : Nat) : Nat := if v = 0xFFFF then aoZero span else v

/-- The clear code of a channel under a span. -/
def aoClrCode (s : State) (k : Fin 6) (span : Nat) : Nat := aoResolve span (rgN s (Sig.AO_CLRCODE k.val))

/-- A channel at a code, with no slew left. -/
def AoCh.at_ (c : AoCh) (code : Nat) : AoCh := { c with out := code, target := code }

/-- One channel at a load strobe (R433, R441, R443). -/
def aoStrobeCh (s : State) (k : Fin 6) : State :=
  let c := s.ao[k]
  if c.span = 0 || c.changing.isSome then s
  else if c.waiting then modAo s k (fun c => { c.at_ (aoClrCode s k c.span) with waiting := false, closed := true })
  else modAo s k (fun c => { c with target := aoResolve c.span (rgN s (Sig.AO_CODE k.val)) })

/-- A load strobe: every configured channel takes its pending code; ignored while AOCLR_N is asserted (R434, R438). -/
def aoStrobe (s : State) : State := if s.aoClear then s else forEach aoChannels s aoStrobeCh

/-- The output code one limiter step nearer to the target (R437). -/
def aoStep (out target step : Nat) : Nat :=
  if step = 0 then target
  else if out < target then min target (out + step)
  else max target (out - step)

/-- The instant of the next limiter step of a channel: the next whole microsecond, AO_SLEW_INT after the step before at the earliest (R436,
R437). -/
def aoDue (s : State) (k : Fin 6) : Nat :=
  let now := if s.clk.usPart = 0 then s.clk.us else s.clk.us + 1
  max now ((s.ao[k]).tickUs + rgN s (Sig.AO_SLEW_INT k.val))

/-- The limiter steps of a channel that has somewhere to go (R437); one that changes its span opens its switch once it stands at 0 V
(R442). -/
def aoTick (s : State) (k : Fin 6) : State :=
  let c := s.ao[k]
  if c.span = 0 || c.waiting || c.openAt || (c.out == c.target && c.changing.isNone) then s
  else
    let s := toUs s (aoDue s k)
    let out := aoStep c.out c.target (rgN s (Sig.AO_SLEW_STEP k.val))
    if c.changing.isSome && out == c.target then
      modAo s k (fun c => { c with out := out, closed := false, openAt := true, tickUs := s.clk.us })
    else modAo s k (fun c => { c with out := out, tickUs := s.clk.us })

/-- The clear asserted on one channel: a configured channel outside a span change takes its clear code at once (R438). -/
def aoClearCh (s : State) (k : Fin 6) : State :=
  let c := s.ao[k]
  if c.span = 0 || c.changing.isSome then s else modAo s k (fun c => c.at_ (aoClrCode s k c.span))

/-- A write of AO_CLRCODE while the clear is asserted takes effect at once (R438). -/
def aoClrWritten (s : State) (k : Fin 6) : State := if s.aoClear then aoClearCh s k else s

/-- A write of AO_SPAN (R441 to R443). -/
def aoSpanSet (s : State) (k : Fin 6) (v : Nat) : State :=
  let s := setN s (Sig.AO_SPAN k.val) v
  let c := s.ao[k]
  if c.changing.isSome then modAo s k (fun c => { c with changing := some v })
  else if c.span = 0 then
    if v = 0 then s
    else if s.aoClear then
      modAo s k (fun c => { c.at_ (aoClrCode s k v) with span := v, closed := true, waiting := false })
    else modAo s k (fun c => { c with span := v, waiting := true, closed := false })
  else if v = c.span then s
  else modAo s k (fun c => { c with changing := some v, target := aoZero c.span, waiting := false })

/-- AO_LIVE (R446). -/
def aoLive (s : State) : Nat :=
  aoChannels.foldl (fun m k =>
    let c := s.ao[k]
    m + bitIf c.closed k.val + bitIf (decide (c.out ≠ c.target)) (6 + k.val) + bitIf c.changing.isSome (12 + k.val))
    (bitIf s.aoClear 18)

/-- CLEAR_SEEN while AOCLR_N is asserted (R438). -/
def aoClearSeen (s : State) : State := if s.aoClear then setB s Sig.AO_STAT 20 true else s

/-- Every channel unconfigured and every signal of the chapter at its reset value (R432). -/
def aoReset (s : State) : State :=
  { s with ao := Vector.replicate 6 AoCh.init, regs := s.regs.filter (fun c => !(decide (0x8200 ≤ c.1) && decide (c.1 < 0x8300))) }

/-- AOLD_STROBE: 100 ns of low level on AOLD_N strobe where AO_LOAD_SRC enables the pin (R434). -/
def execAoldStrobe (s : State) : Host.Outcome State Fault Refusal :=
  .next (if rgB s Sig.AO_LOAD_SRC 0 then aoStrobe s else s)

/-- AO_LIMITER_TICK (R436, R437). -/
def execAoLimiterTick (k : Fin 6) (s : State) : Host.Outcome State Fault Refusal := .next (aoTick s k)

/-- AOCLR_ASSERT: AOCLR_N low for 200 ns (R438); in SLEEP nothing follows until the wake (R432). -/
def execAoclrAssert (s : State) : Host.Outcome State Fault Refusal :=
  let s := { s with aoClear := true }
  .next (if inRun s || decide (s.pwr.st = .standby) then forEach aoChannels (aoClearSeen s) aoClearCh else s)

/-- AOCLR_RELEASE (R439): the clear codes stand as targets until the next strobe. -/
def execAoclrRelease (s : State) : Host.Outcome State Fault Refusal := .next { s with aoClear := false }

/-- SPAN_CHANGE_DONE, 20 µs after the switch opened (R442, R443): the new span in force, the switch closed at its 0 V code, or the channel
unconfigured. -/
def execSpanChangeDone (k : Fin 6) (s : State) : Host.Outcome State Fault Refusal :=
  let c := s.ao[k]
  match c.changing with
  | none => .next s
  | some v =>
    if c.openAt then
      let s := setB (toUs s (c.tickUs + 20)) Sig.AO_STAT k.val true
      if v = 0 then .next (modAo s k (fun _ => AoCh.init))
      else
        let code := if s.aoClear then aoClrCode s k v else aoZero v
        .next (modAo s k (fun c =>
          { c.at_ code with span := v, closed := true, waiting := false, changing := none, openAt := false }))
    else .next s

/-- AO_SHORT: the current limit of a channel whose switch is closed has acted for 10 µs, or for 10 ms more (R444). -/
def execAoShort (k : Fin 6) (s : State) : Host.Outcome State Fault Refusal :=
  if (s.ao[k]).closed then
    let s := setB s Sig.AO_STAT (8 + k.val) true
    .next (devFault (incR s Sig.AO_SHORT_COUNT) 36)
  else .next s

end Sys2Proof.Machine
end

