-- ==== Sys2Proof/Machine/Pwm.lean ====
section
/-! DEFINITION. The PWM modules and auxiliary timers (chapter 7): the grid of valleys, dither, compares with the catch-up rule,
reloads, the minimum-pulse filter, bootstrap refresh, dead time with the handshake, tag compares and blanking windows, with the
meanings of their events. -/

namespace Sys2Proof.Machine

/-! ### Counter and compares -/

/-- PER of a module. -/
def perOf (s : State) (n : Axis) : Nat := rgN s (Sig.PWM_PER n.val)

/-- OFFSET of R179 in ticks. -/
def pwmOffset (s : State) (n : Axis) : Nat :=
  match rgN s (Sig.PWM_ALIGN n.val) with
  | 0 => slotOf n * perOf s n / 2
  | 1 => 0
  | _ => rgN s (Sig.PWM_OFFSET n.val)

/-- The position of a counter in its period: 0 at the valley, PER at the peak (R176, R177). -/
def PwmAx.pos (p : PwmAx) (per : Nat) : Nat := if p.down then 2 * per - p.cnt else p.cnt

/-- The order of the four bits of j reversed (R189). -/
def bitrev4 (j : Nat) : Nat := bitIf (bitOf j 0) 3 + bitIf (bitOf j 1) 2 + bitIf (bitOf j 2) 1 + bitIf (bitOf j 3) 0

/-- The effective compare of a compare word in period j (R185, R189). -/
def effCompare (w j : Nat) : Nat := w / 16 + if bitrev4 (j % 16) < w % 16 then 1 else 0

/-- The compare shadow of a phase. -/
def cmpShadow (s : State) (n : Axis) (ph : Fin 3) : Nat := rgN s (Sig.PWM_CMPU n.val + ph.val)

/-- Whether the compares of a module come from the shadows at a reload point (R190); in FAULT they stay at PER / 2 (R294, R510). -/
def hostCompares (s : State) (n : Axis) : Bool := rgN s (Sig.PWM_SRC n.val) == 1 && decide (axSt s n ≠ .fault)

/-- Whether the valley (`false`) or the peak (`true`) is a reload point (R196). -/
def reloadsAt (s : State) (n : Axis) (peak : Bool) : Bool :=
  let r := rgN s (Sig.PWM_RELOAD n.val)
  r == 2 || r == (if peak then 1 else 0)

/-- The ticks from a counter value of a slope to the first one at which H* has not the level `x`, under an effective compare (R186). -/
def slopeEnd (x down : Bool) (from_ c per : Nat) : Option Nat :=
  match x, down with
  | true, false => if max from_ c < per then some (max from_ c - from_) else none
  | false, false => if from_ < c then some 0 else none
  | true, true => if c < from_ then some 0 else none
  | false, true => if 1 ≤ min from_ c then some (from_ - min from_ c) else none

/-- The width of a pulse of level `x` over the next slopes, at most `fuel` of them: `act` is the compare word in force on this slope, j its
period, and `shadow` the word that a reload brings at the valleys or the peaks (R196, R199). -/
def walkWidth (x : Bool) (per : Nat) (shadow : Nat) (valley peak : Bool) : Nat → Bool → Nat → Nat → Nat → Nat
  | 0, _, _, _, _ => 0
  | fuel + 1, down, from_, act, j =>
    match slopeEnd x down from_ (effCompare act j) per with
    | some d => d
    | none =>
      if down then from_ + walkWidth x per shadow valley peak fuel false 0 (if valley then shadow else act) (j + 1)
      else (per - from_) + walkWidth x per shadow valley peak fuel true per (if peak then shadow else act) j

/-- The width in ticks that a pulse of level `x` starting now is predicted to have (R199): four slopes, of at least 2 000 ticks each but for
the first, are wider than any MINPW. -/
def predictWidth (s : State) (n : Axis) (ph : Fin 3) (x : Bool) : Nat :=
  let p := s.pwm[n]
  let host := hostCompares s n
  walkWidth x (perOf s n) (cmpShadow s n ph) (host && reloadsAt s n false) (host && reloadsAt s n true) 4 p.down p.cnt (p.ch ph).act p.j

/-! ### Stages 3 to 5 -/

/-- The filter mode of a phase: 0 off, 1 DROP, 2 STRETCH (R214). -/
def minpwMode (s : State) (n : Axis) (ph : Fin 3) : Nat := rgF s (Sig.PWM_MINPW_MODE n.val) (2 * ph.val) 2

/-- The filtered H* at a new level from tick `t`, with the off-intervals that the bootstrap count judges (R204). -/
def Chan.level (c : Chan) (x : Bool) (t bsref : Nat) : Chan :=
  let c := { c with filt := x, since := t, suppressed := false }
  let c :=
    if x then
      { c with
        offSince := none
        bsCount := match c.offSince with
          | some o => if bsref ≤ t - o then 0 else c.bsCount
          | none => c.bsCount }
    else { c with wholeOn := false, offSince := some t }
  { c with stage4 := c.filt && !c.bsOn }

/-- What the filter did with an edge (R199, R200); `held` an edge that a stretch delays. -/
inductive FilterAct where
  | pass | held | stretched | dropped
  deriving DecidableEq, Repr

/-- An edge of H* to level `x` at the minimum-pulse filter (R199 to R202). -/
def Chan.edge (c : Chan) (x : Bool) (t mode minpw predicted bsref : Nat) : Chan × FilterAct :=
  if c.ideal = x then (c, .pass)
  else
    let c := { c with ideal := x }
    if c.stretch.isSome then (c, .pass)
    else if c.filt = x then ({ c with suppressed := false }, .pass)
    else if mode ≠ 0 ∧ t - c.since < minpw then ({ c with stretch := some (c.since + minpw) }, .held)
    else if mode = 1 ∧ predicted < minpw then ({ c with suppressed := true }, .dropped)
    else (c.level x t bsref, .pass)

/-- The sticky flag and count of a filter action (R213, R214): a stretch counts at the stretched end. -/
def filterFlag (s : State) (n : Axis) : FilterAct → State
  | .pass | .held => s
  | .stretched => incR (setB s (Sig.PWM_STAT n.val) 7 true) (Sig.PWM_FILTER_COUNT n.val)
  | .dropped => incR (setB s (Sig.PWM_STAT n.val) 6 true) (Sig.PWM_FILTER_COUNT n.val)

/-- A channel changed by `f`, and stage 5 asked again where the module drives the gates (R181, R184). -/
def chanStep (s : State) (n : Axis) (ph : Fin 3) (f : Chan → Chan) : State :=
  withEdges s n (fun s =>
    modPwm s n (fun p => p.modCh ph (fun c =>
      let c := f c
      if moduleDrives s n then c.wantModule s.clk.tb else c)))

/-- H* of a phase at a new ideal level (stage 2), through the filter and the later stages. -/
def setIdeal (s : State) (n : Axis) (ph : Fin 3) (x : Bool) : State :=
  let mode := minpwMode s n ph
  let minpw := rgN s (Sig.PWM_MINPW n.val)
  let bsref := rgN s (Sig.PWM_BSREF n.val)
  let predicted := predictWidth s n ph x
  let act := (((s.pwm[n]).ch ph).edge x s.clk.tb mode minpw predicted bsref).2
  filterFlag (chanStep s n ph (fun c => (c.edge x s.clk.tb mode minpw predicted bsref).1)) n act

/-- H* of every phase as the counter and the effective compares of the present tick ask (R186), where a compare governs (R180). -/
def judgeCompares (s : State) (n : Axis) : State :=
  if (s.pwm[n]).live then
    forEach phases s (fun s ph =>
      let p := s.pwm[n]
      let c := effCompare (p.ch ph).act p.j
      setIdeal s n ph (if p.down then decide (p.cnt ≤ c) else decide (p.cnt < c)))
  else s

/-! ### Reloads -/

/-- Whether a tag compare with slope setting `sl` can never fire (R208). -/
def trgNever (v sl per : Nat) : Bool :=
  sl != 0 && (decide (per < v) || (v == 0 && sl == 2) || (v == per && sl == 1))

/-- A reload: every shadow of the module to its active register, the compares with PWM_SRC 1 only, and TRG_NEVER judged (R190,
R196, R207, R208). -/
def reload (s : State) (n : Axis) : State :=
  let a := rgN s (Sig.PWM_TRGA n.val)
  let sa := rgN s (Sig.PWM_TRGA_SLOPE n.val)
  let b := rgN s (Sig.PWM_TRGB n.val)
  let sb := rgN s (Sig.PWM_TRGB_SLOPE n.val)
  let s := modPwm s n (fun p =>
    let p := { p with trgA := a, slopeA := sa, trgB := b, slopeB := sb }
    if hostCompares s n then
      { p with
        live := true
        chU := { p.chU with act := cmpShadow s n 0 }
        chV := { p.chV with act := cmpShadow s n 1 }
        chW := { p.chW with act := cmpShadow s n 2 } }
    else p)
  if trgNever a sa (perOf s n) || trgNever b sb (perOf s n) then setB s (Sig.PWM_STAT n.val) 3 true else s

/-! ### Time of the module -/

/-- Time brought forward to the next tick at which the module's counter stands at a position of its period that `ps` lists, not
before the instant remembered for the event's key. -/
def toPos (s : State) (n : Axis) (key : Nat) (ps : List Nat) : State :=
  let per := perOf s n
  let t0 := max s.clk.tb (markOf s key)
  let p0 := ((s.pwm[n]).pos per + (t0 - s.clk.tb)) % (2 * per)
  let ds := ps.map (fun q => (q + 2 * per - p0) % (2 * per))
  match ds with
  | [] => s
  | d :: rest =>
    let t := t0 + rest.foldl min d
    setMark (toTick s t) key (t + 1)

/-- The keys of the instants that module events remember. -/
def keyValley (n : Axis) : Nat := 0x1000 + n.val
def keyPeak (n : Axis) : Nat := 0x1010 + n.val
def keyTag (n : Axis) : Nat := 0x1020 + n.val
def keyCompare (n : Axis) (ph : Fin 3) : Nat := 0x1040 + 4 * n.val + ph.val

/-- The valley from which the next period is judged whole: H* as it stands after the edges of the valley (R204). -/
def beginPeriod (s : State) (n : Axis) : State := modPwm s n (fun p => p.mapCh (fun c => { c with wholeOn := c.filt }))

/-- Whether the counter of a module runs, in RUN. -/
def counting (s : State) (n : Axis) : Bool := inRun s && (s.pwm[n]).running

/-! ### The direct path (R195) -/

/-- One direct-path compare write, judged at the edge after it. -/
def directWrite (s : State) (n : Axis) (ph : Fin 3) (w : Nat) : State :=
  let s := modPwm s n (fun p => { p.modCh ph (fun c => { c with act := w }) with live := true })
  let p := s.pwm[n]
  let c := effCompare w p.j
  let ideal := (p.ch ph).ideal
  if !p.running then s
  else if !p.down && decide (c ≤ p.cnt) && ideal then
    setIdeal (incR (setB s (Sig.PWM_STAT n.val) 5 true) (Sig.PWM_CATCHUP_COUNT n.val)) n ph false
  else if p.down && decide (p.cnt ≤ c) && !ideal then
    setIdeal (incR (setB s (Sig.PWM_STAT n.val) 5 true) (Sig.PWM_CATCHUP_COUNT n.val)) n ph true
  else s

/-- The three compares of an axis written by the direct path: the write lands on an edge and governs from the next (R195). -/
def directWrites (s : State) (n : Axis) (u v w : Nat) : State :=
  let s := toTick s (s.clk.tb + 1)
  directWrite (directWrite (directWrite s n 0 u) n 1 v) n 2 w

/-! ### Tags -/

/-- A tag of an axis lost (R263, R277). -/
def tagLost (s : State) (n : Axis) : State :=
  let e := engOf n
  let s := incR (setB s Sig.SMP_STAT (8 + e.val) true) (Sig.SMP_TAG_LOST e.val)
  let s := incR (setB s (Sig.LP_STAT n.val) 8 true) (Sig.LP_SKIP_COUNT n.val)
  axFault s n 7

/-- A tag word (R262): the low half of the tick, the ring index of the next phase-current word, slope, source and slot. -/
def tagWord (t ridx : Nat) (down src : Bool) (slot : Nat) : Word :=
  BitVec.ofNat 32 (t % 65536 * 65536 + ridx % 4096 * 16 + bitIf down 3 + bitIf src 2 + slot % 4)

/-- Whether TRGB wrote a tag (R262). -/
def Tag.src (t : Tag) : Bool := t.word.getLsbD 2

/-- A tag written to the FIFO of the axis's engine, or discarded where it is full (R262, R263). -/
def pushTag (s : State) (n : Axis) (src : Bool) : State :=
  let e := engOf n
  let f := (s.eng[e]).fifo
  if 16 ≤ f.length then tagLost s n
  else
    let t : Tag := ⟨tagWord s.clk.tb (s.clk.tb / 40) (s.pwm[n]).down src (slotOf n), s.clk.tb, n⟩
    let s := modEng s e (fun g => { g with fifo := g.fifo ++ [t] })
    setN s (Sig.SMP_FIFO_MAX e.val) (max (rgN s (Sig.SMP_FIFO_MAX e.val)) (f.length + 1))

/-- The positions of the period at which a tag compare fires (R207, R208). -/
def trgPos (v sl per : Nat) : List Nat :=
  (if (sl = 1 ∨ sl = 3) ∧ v < per then [v] else []) ++
    (if (sl = 2 ∨ sl = 3) ∧ 0 < v ∧ v ≤ per then [2 * per - v] else [])

/-! ### Meanings -/

/-- COUNTER_START: at the first valley of R179 after the request the counter starts at 0, every shadow is loaded and the dither
counter is 0; with PWM_SRC 0 no compare governs until the engine writes one (R180, R188). -/
def execCounterStart (n : Axis) (s : State) : Host.Outcome State Fault Refusal :=
  if inRun s && (s.pwm[n]).startPend then
    let per := perOf s n
    let t := nextTick (s.clk.tb + 1) (2 * per) ((s.clk.epoch + (pwmOffset s n : Int)) % (2 * per : Int)).toNat
    let s := setMark (toTick s t) (keyValley n) (t + 1)
    let s := reload s n
    let s := modPwm s n (fun p => { p with cnt := 0, down := false, running := true, startPend := false, j := 0 })
    .next (beginPeriod (judgeCompares s n) n)
  else .next s

/-- The bootstrap count of a channel at a valley, for the period just ended (R204, R206). -/
def Chan.bootstrap (c : Chan) (bsn : Nat) (pump : Bool) : Chan :=
  let k := if c.wholeOn then c.bsCount + 1 else c.bsCount
  if bsn ≠ 0 ∧ pump = false ∧ bsn ≤ k then { c with bsCount := 0, bsArmed := true } else { c with bsCount := k }

/-- CARRIER_VALLEY: dither, bootstrap counts, the reload where selected, the compares judged, and the valley event as a load
strobe (R188, R189, R196, R204, R434). -/
def execCarrierValley (n : Axis) (s : State) : Host.Outcome State Fault Refusal :=
  if counting s n then
    let s := toPos s n (keyValley n) [0]
    let bsn := rgN s (Sig.PWM_BSN n.val)
    let pump := rgN s (Sig.GD_CPT_EN n.val) == 1
    let s := modPwm s n (fun p =>
      let p := p.mapCh (fun c => c.bootstrap bsn pump)
      { p with j := (p.j + 1) % 16 })
    let s := if reloadsAt s n false then reload s n else s
    let s := beginPeriod (judgeCompares s n) n
    .next (if rgB s Sig.AO_LOAD_SRC 2 && rgN s Sig.AO_LOAD_PWM == n.val then aoStrobe s else s)
  else .next s

/-- CARRIER_PEAK: the reload where selected, and the compares judged (R196). -/
def execCarrierPeak (n : Axis) (s : State) : Host.Outcome State Fault Refusal :=
  if counting s n then
    let s := toPos s n (keyPeak n) [perOf s n]
    let s := if reloadsAt s n true then reload s n else s
    .next (judgeCompares s n)
  else .next s

/-- COMPARE_MATCH: the counter reaches the effective compare of a phase; H* falls on the up-slope and rises on the down-slope
(R186). A compare of 0, or of PER or more, has no match (R187), nor has one that does not govern (R180). -/
def execCompareMatch (n : Axis) (ph : Fin 3) (s : State) : Host.Outcome State Fault Refusal :=
  let per := perOf s n
  let p := s.pwm[n]
  let c := effCompare (p.ch ph).act p.j
  if counting s n && p.live && decide (0 < c) && decide (c < per) then
    let s := toPos s n (keyCompare n ph) [c, 2 * per - c]
    .next (setIdeal s n ph (s.pwm[n]).down)
  else .next s

/-- MINPW_STRETCH_END: the stretched pulse has lasted MINPW ticks, STRETCHED is set, and its delayed end is issued, which starts a pulse that
DROP judges; an edge that fell due meanwhile cancels with it and starts a new pulse at this tick, which DROP may suppress (R199 to R202). -/
def execMinpwStretchEnd (n : Axis) (ph : Fin 3) (s : State) : Host.Outcome State Fault Refusal :=
  match ((s.pwm[n]).ch ph).stretch with
  | none => .next s
  | some e =>
    let s := filterFlag (toTick s e) n .stretched
    let c := (s.pwm[n]).ch ph
    let bsref := rgN s (Sig.PWM_BSREF n.val)
    let drops (x : Bool) : Bool := decide (minpwMode s n ph = 1 ∧ predictWidth s n ph x < rgN s (Sig.PWM_MINPW n.val))
    if c.ideal = c.filt then
      if drops c.filt then
        .next (filterFlag
          (chanStep s n ph (fun c => { (c.level (!c.filt) e bsref) with stretch := none, suppressed := true })) n .dropped)
      else .next (chanStep s n ph (fun c => { c with stretch := none, since := e }))
    else if drops (!c.filt) then
      .next (filterFlag (chanStep s n ph (fun c => { c with stretch := none, suppressed := true })) n .dropped)
    else .next (chanStep s n ph (fun c => { (c.level (!c.filt) e bsref) with stretch := none }))

/-- BOOTSTRAP_REFRESH: a refresh that is due begins its forced off-interval, centred on the next peak; at its next occurrence
the interval that runs ends (R204, R205, log entry 13). -/
def execBootstrapRefresh (n : Axis) (ph : Fin 3) (s : State) : Host.Outcome State Fault Refusal :=
  let c := (s.pwm[n]).ch ph
  let half := rgN s (Sig.PWM_BSREF n.val) / 2
  if counting s n && c.bsOn then
    let s := toPos s n (0x1080 + 4 * n.val + ph.val) [perOf s n + half]
    .next (chanStep s n ph (fun c => { c with bsOn := false, stage4 := c.filt }))
  else if counting s n && c.bsArmed then
    let s := toPos s n (0x1080 + 4 * n.val + ph.val) [perOf s n - half]
    let s := incR (setB s (Sig.PWM_STAT n.val) 8 true) (Sig.PWM_BSREF_COUNT n.val)
    .next (chanStep s n ph (fun c => { c with bsArmed := false, bsOn := true, stage4 := false, bsCount := 0 }))
  else .next s

/-- TAG_COMPARE: the counter meets TRGA or TRGB on an enabled slope; both on one edge write the TRGA tag first (R207 to R209). -/
def execTagCompare (n : Axis) (s : State) : Host.Outcome State Fault Refusal :=
  let per := perOf s n
  let p := s.pwm[n]
  let pa := trgPos p.trgA p.slopeA per
  let pb := trgPos p.trgB p.slopeB per
  if counting s n && !(pa ++ pb).isEmpty then
    let s := toPos s n (keyTag n) (pa ++ pb)
    let now := (s.pwm[n]).pos per
    let s := if pa.contains now then pushTag s n false else s
    .next (if pb.contains now then pushTag s n true else s)
  else .next s

/-- The time of a gate to VGS_ON after its turn-on, measured by the part and conveyed by no command: a free value of at most 1.9 µs,
after which WEAK latches (R231); GD_RISE_MAX keeps the longest (log entry 3). -/
def riseMax (s : State) (n : Axis) : State :=
  let (w, s) := drawWord s
  setN s (Sig.GD_RISE_MAX n.val) (max (rgN s (Sig.GD_RISE_MAX n.val)) (w.toNat % 761))

/-- DEADTIME_TURN_ON: a pending turn-on leaves stage 5, the opposite gate being off, confirmed below VGS_OFF through the synchroniser, and
off for DTMIN ticks (R191, R192). -/
def execDeadtimeTurnOn (n : Axis) (g : Gate) (s : State) : Host.Outcome State Fault Refusal :=
  let c := (s.pwm[n]).ch g.ph
  let dt := rgN s (Sig.PWM_DTMIN n.val)
  if g.hi then
    if c.pendH && !c.cmdL && !c.awaitL && c.belowL then
      .next (riseMax (withEdges (toTick s (max (c.offL + dt) c.seenL)) n (fun s =>
        modPwm s n (fun p => p.modCh g.ph (fun c => { c with cmdH := true, pendH := false, belowH := false })))) n)
    else .next s
  else
    if c.pendL && !c.cmdH && !c.awaitH && c.belowH then
      .next (riseMax (withEdges (toTick s (max (c.offH + dt) c.seenH)) n (fun s =>
        modPwm s n (fun p => p.modCh g.ph (fun c => { c with cmdL := true, pendL := false, belowL := false })))) n)
    else .next s

/-- GATE_SENSE_REPORT: the awaited report of a gate below VGS_OFF ends its handshake; the two ticks of the synchroniser stand in the handshake
time and before a turn-on that the report releases (R191 to R193). -/
def execGateSenseReport (n : Axis) (g : Gate) (s : State) : Host.Outcome State Fault Refusal :=
  let c := (s.pwm[n]).ch g.ph
  let waits := if g.hi then c.awaitH else c.awaitL
  let off := if g.hi then c.offH else c.offL
  let s := modPwm s n (fun p => p.modCh g.ph (fun c =>
    if g.hi then (if c.cmdH then c else { c with awaitH := false, belowH := true, seenH := if c.awaitH then s.clk.tb + 2 else c.seenH })
    else (if c.cmdL then c else { c with awaitL := false, belowL := true, seenL := if c.awaitL then s.clk.tb + 2 else c.seenL })))
  .next (if waits then setN s (Sig.PWM_DT_HS_U n.val + g.ph.val) (min 65535 (s.clk.tb - off + 2)) else s)

/-- The instant remembered of a gate's last handshake timeout. -/
def keyTimeout (n : Axis) (g : Gate) : Nat := 0x1100 + 8 * n.val + gateBit g

/-- HS_TIMEOUT: no gate-sense report 0.90 µs (360 ticks) after a turn-off: HS_TO isolates the half-bridge and the source is counted, once
for the turn-off; the report stays awaited (R193, R235, R237). -/
def execHsTimeout (n : Axis) (g : Gate) (s : State) : Host.Outcome State Fault Refusal :=
  let c := (s.pwm[n]).ch g.ph
  let t := (if g.hi then c.offH else c.offL) + 360
  if (if g.hi then c.awaitH else c.awaitL) && markOf s (keyTimeout n g) != t + 1 then
    let s := setMark (toTick s t) (keyTimeout n g) (t + 1)
    let s := withEdges s n (fun s =>
      outOfService (setLatch (setB s (Sig.PWM_STAT n.val) (9 + g.ph.val) true) n g.ph 5) n g.ph.val)
    .next (axFault s n 4)
  else .next s

/-- ATC_WINDOW_OPEN: ATC_DELAY after the last enabled edge the blanking window opens (R210, R211). -/
def execAtcWindowOpen (n : Axis) (s : State) : Host.Outcome State Fault Refusal :=
  match (s.pwm[n]).atcOpenAt with
  | some t => .next (modPwm (toTick s t) n (fun p => { p with atcOpen := true, atcOpenAt := none }))
  | none => .next s

/-- ATC_WINDOW_CLOSE: the window closes ATC_DELAY + ATC_WIDTH after the last enabled edge (R211). -/
def execAtcWindowClose (n : Axis) (s : State) : Host.Outcome State Fault Refusal :=
  match (s.pwm[n]).atcCloseAt with
  | some t =>
    if (s.pwm[n]).atcOpen then
      .next (modPwm (toTick s t) n (fun p => { p with atcOpen := false, atcCloseAt := none }))
    else .next s
  | none => .next s

end Sys2Proof.Machine
end

