-- ==== Sys2Proof/Machine/Gate.lean ====
section
/-! DEFINITION. Gate drive and bridge protection (chapter 8): the trips and their latches, the clearing of a latch, the precharge
pulses and the protection self-test, with the meanings of their events. -/

namespace Sys2Proof.Machine

/-- A latch of a phase that isolates its half-bridge (R235): the bit, the half-bridge out of service, one count of `count` and one
event of the source (R239). -/
def isolateLatch (s : State) (n : Axis) (ph : Fin 3) (bit : Nat) (count : Option Nat) (src : Nat) : State :=
  let s := withEdges s n (fun s => outOfService (setLatch s n ph bit) n ph.val)
  let s := match count with
    | some k => incR s k
    | none => s
  axFault s n src

/-- The tick at which a gate line last turned on: its command left the interlock (R225, R231). -/
def turnedOn (s : State) (n : Axis) (g : Gate) : Nat :=
  let c := (s.pwm[n]).ch g.ph
  if g.hi then c.onH else c.onL

/-- The tick at which the comparator of a gate is armed: its leading-edge blank has passed (R225, R227). -/
def armedAt (s : State) (n : Axis) (g : Gate) : Nat := turnedOn s n g + 10 * rgN s (Sig.GD_SC_BLANK n.val)

/-- SC_TRIP: in native mode, on a gate that is on, SC_H or SC_L isolates the half-bridge; a crossing inside the blank is judged from its end,
and the current lasts through the filter (R225 to R227). -/
def execScTrip (n : Axis) (g : Gate) (s : State) : Host.Outcome State Fault Refusal :=
  if rgN s (Sig.GD_SC_MODE n.val) == 0 && gateOn s n g then
    .next (isolateLatch (toTick s (armedAt s n g + 10 * rgN s (Sig.GD_SC_FILT n.val))) n g.ph (if g.hi then 1 else 0) (some (Sig.GD_SC_COUNT n.val)) 0)
  else .next s

/-- DIDT_TRIP: in compatibility mode, on a gate that is on, DIDT_H or DIDT_L is latched for report only, not before the blank ends (R227 to
R229). -/
def execDidtTrip (n : Axis) (g : Gate) (s : State) : Host.Outcome State Fault Refusal :=
  let bit := if g.hi then 7 else 6
  if rgN s (Sig.GD_SC_MODE n.val) == 1 && gateOn s n g && !bitOf (latchByte s n g.ph) bit then
    .next (axFault (incR (setLatch (toTick s (armedAt s n g)) n g.ph bit) (Sig.GD_DIDT_COUNT n.val)) n 1)
  else .next s

/-- WEAK_H or WEAK_L of a gate that is commanded on, `after` ticks after its turn-on or later (R231, R232). -/
def weakLatch (s : State) (n : Axis) (g : Gate) (after : Nat) : State :=
  if gateOn s n g then isolateLatch (toTick s (turnedOn s n g + after)) n g.ph (if g.hi then 3 else 2) (some (Sig.GD_WEAK_COUNT n.val)) 2 else s

/-- GATE_WEAK: a gate commanded on for 1.9 µs without reaching VGS_ON (R231). -/
def execGateWeak (n : Axis) (g : Gate) (s : State) : Host.Outcome State Fault Refusal := .next (weakLatch s n g 760)

/-- GATE_WEAK_SAG: a gate below VGS_ON for 250 ns while its command is on (R232). -/
def execGateWeakSag (n : Axis) (g : Gate) (s : State) : Host.Outcome State Fault Refusal := .next (weakLatch s n g 100)

/-- XCMD: both CD commands of a phase on together for 5 ns as they arrive over the crossing (R224). -/
def execXcmd (n : Axis) (ph : Fin 3) (s : State) : Host.Outcome State Fault Refusal :=
  if bitOf (latchByte s n ph) 4 then .next s else .next (isolateLatch s n ph 4 none 3)

/-- The level of TRIPn_N told by a command, with the instant (R233, R247). -/
def tripSeen (s : State) (n : Axis) (x : Bool) : State := modGd s n (fun g => { g with tripNow := x, tripAt := some (s.clk.us, s.clk.usPart) })

/-- TRIP_IN: TRIPn_N asserted through its filter, outside the blanking window: TRIP is latched and acts as GD_TRIP_ACT selects
(R233, R234). -/
def execTripIn (n : Axis) (s : State) : Host.Outcome State Fault Refusal :=
  let act := rgN s (Sig.GD_TRIP_ACT n.val)
  if (s.pwm[n]).atcOpen then .next s
  else
    let s := tripSeen s n true
    if act = 0 ∨ tripped s n = true then .next s
    else
      let s := withEdges s n (fun s =>
        let s := setB s (Sig.GD_LATCH n.val) 30 true
        if act = 2 then outOfService s n 3 else if act = 3 then outOfService s n 4 else s)
      .next (axFault (incR s (Sig.GD_TRIP_COUNT n.val)) n 5)

/-- Whether the condition behind a latch bit of GD_LATCH is active (R237): SC, DIDT and TRIP from the inputs, XCMD from the two
commands as they arrive over the crossing, HS_TO from the awaited reports, WEAK never. -/
def latchActive (s : State) (n : Axis) (active bit : Nat) : Bool :=
  if bit = 30 then bitOf active 30
  else if h : bit / 8 < 3 then
    let c := (s.pwm[n]).ch ⟨bit / 8, h⟩
    match bit % 8 with
    | 0 | 1 | 6 | 7 => bitOf active bit
    | 4 => bitOf active bit || (c.cmdH && c.cmdL)
    | 5 => c.awaitH || c.awaitL
    | _ => false
  else false

/-- A write of GD_LATCH (R237): latches whose condition is inactive are cleared, the others stay and set CLEAR_REFUSED; bit 31
clears CLEAR_REFUSED. Nothing returns to service (R238). -/
def latchClear (s : State) (n : Axis) (value active : Nat) : State :=
  let key := Sig.GD_LATCH n.val
  let s := tripSeen s n (bitOf active 30)
  let s := if bitOf value 31 then setB s key 31 false else s
  let bits := (List.range 31).filter (fun i => bitOf value i && rgB s key i)
  forEach bits s (fun s i => if latchActive s n active i then setB s key 31 true else setB s key i false)

/-! ### Precharge (R241) -/

/-- Pending low-side turn-ons leave where the opposite gate is confirmed off (R191). -/
def lowSidesOn (s : State) (n : Axis) : State :=
  withEdges s n (fun s => modPwm s n (fun p => p.mapCh (fun c =>
    if c.pendL && !c.cmdH && !c.awaitH && c.belowH then { c with cmdL := true, pendL := false, belowL := false } else c)))

/-- A precharge pulse begins at its tick: the low sides on for GD_PRECHG_ON µs. -/
def pulseOn (s : State) (n : Axis) : State :=
  let s := toTick s (s.gd[n]).nextAt
  let s := riseMax (lowSidesOn (gatesShort s n) n) n
  modGd s n (fun g => { g with pulse := true, nextAt := g.nextAt + 400 * rgN s (Sig.GD_PRECHG_ON n.val) })

/-- A precharge pulse ends at its tick, and its gap of GD_PRECHG_OFF µs begins. -/
def pulseOff (s : State) (n : Axis) : State :=
  let s := gatesOff (toTick s (s.gd[n]).nextAt) n
  modGd s n (fun g =>
    { g with pulse := false, precharge := g.precharge + 1, nextAt := g.nextAt + 400 * rgN s (Sig.GD_PRECHG_OFF n.val) })

/-- PRECHARGE_PULSE: the next pulse of the sequence begins; at its next occurrence the pulse that runs ends and the gap after it begins
(R241, log entry 13). -/
def execPrechargePulse (n : Axis) (s : State) : Host.Outcome State Fault Refusal :=
  if axSt s n ≠ .precharge then .next s
  else if (s.gd[n]).pulse then .next (pulseOff s n)
  else if (s.gd[n]).precharge < rgN s (Sig.GD_PRECHG_N n.val) then .next (pulseOn s n)
  else .next s

/-! ### Protection self-test (R244, R245) -/

/-- The result of a test of an axis, one bit per comparator that failed (R247); a failure sets PST_FAIL (R91, R157). -/
def storeTest (s : State) (n : Axis) (fail : Nat) : State :=
  let s := setN s (Sig.GD_PST_RESULT n.val) (2 ^ 31 + fail % 64)
  if fail % 64 = 0 then s else setB s Sig.BOOT_STAT 5 true

/-- The failed comparators that the surroundings give for an axis. -/
def testFails (l : List (Axis × Nat)) (n : Axis) : Nat :=
  match l.find? (fun p => p.1 == n) with
  | some p => p.2
  | none => 0

/-- PROT_FAIL: GD_PST_RESULT of each axis (R154, R247). -/
def protFail (s : State) : List Byte := allAxes.flatMap (fun n => leBytes 1 (rgN s (Sig.GD_PST_RESULT n.val) % 64))

/-- Whether the protection self-test bars an axis: postponed, or its last test failed (R90, R91). -/
def testBars (s : State) (n : Axis) : Bool :=
  rgB s Sig.BOOT_STAT 6 || rgN s (Sig.GD_PST_RESULT n.val) % 64 != 0

/-- Whether any latch that isolates, or TRIP, is set on an axis (R238). -/
def latchBars (s : State) (n : Axis) : Bool := phases.any (fun ph => latchByte s n ph % 64 != 0) || tripped s n

end Sys2Proof.Machine
end

