-- ==== Sys2Proof/Machine/Sampling.lean ====
section
/-! DEFINITION. Continuous sampling (chapter 9): the sample rings, the reference check, the 1 ms means with the millivolt signals
and the die temperature steps, the learned offsets, the rail voltage, and the reconstruction of the phase currents at a tag
with its plausibility, with the meanings of the sampling events. -/

namespace Sys2Proof.Machine

/-! ### Sample rings -/

/-- The slots of a converter's list (R250 to R252). -/
def adcSlots (c : Fin 4) : Nat :=
  match c with
  | 0 | 1 => 8
  | 2 => 16
  | 3 => 32

/-- Whether the results of the converters are valid now (R261). -/
def adcValid (s : State) : Bool := !s.pwr.vanaLow

/-- The hold instant of a converter's word, counted from the entry into RUN: 80 ns before the slot ends (R248, R249). -/
def holdOf (k : Nat) : Nat := 40 * k + 8

/-- Whether a word held at a tick is valid: not held during a VANA brown-out, or in the 10 µs after it (R261). -/
def holdValid (s : State) (t : Nat) : Bool :=
  !(s.hk.bad.any (fun x => decide (x.1 ≤ t) && decide (t < x.2))) && !(s.pwr.vanaLow && decide (s.hk.badFrom ≤ t))

/-- The key of a converter's slot grid. -/
def keyAdc (c : Fin 4) : Nat := 0x30 + c.val

/-- The words that a converter has written since the entry into RUN: one in every slot (R259). The word of a slot that ends at this very
tick is written once a command has told it or the tick has passed. -/
def adcWritten (s : State) (c : Fin 4) : Nat :=
  if !(s.adc[c]).running then 0
  else if s.clk.tb % 40 = 0 ∧ markOf s (keyAdc c) ≤ s.clk.tb then s.clk.tb / 40 - 1
  else s.clk.tb / 40

/-- A sample word (R258): the low half of the hold tick, the slot number mod 16, the result. -/
def sampleWord (c : Fin 4) (k code : Nat) : Word :=
  BitVec.ofNat 32 (holdOf k % 65536 * 65536 + k % adcSlots c % 16 * 4096 + code % 4096)

/-- The RESULT of a sample word (R258). -/
def sampleResult (w : Word) : Nat := w.toNat % 4096

/-- The word of a ring by its number: as a command told it, else one whose code nothing tells (log entry 47). -/
def ringWord (s : State) (c : Fin 4) (k : Nat) : Word :=
  (cellFind (s.adc[c]).words k).getD (sampleWord c k (Config.sampleCode (s.adc[c]).run c.val k).toNat)

/-- Whether a ring of 4 096 words holds a word by its number (R259). -/
def inRing (s : State) (c : Fin 4) (k : Nat) : Bool := decide (k < adcWritten s c) && decide (adcWritten s c ≤ k + 4096)

/-- The ring index of a word (R259). -/
def ringIndex (k : Nat) : Nat := k % 4096

/-- The first word that the reconstruction at a tag can need (R265, R266). -/
def firstNeeded (s : State) (n : Axis) (tag : Nat) : Nat := (tag - 320 * (rgN s (Sig.SMP_AVG_W_AX n.val) + 4)) / 40

/-- The converter of an engine's phase currents (R250). -/
def adcOf (e : Fin 2) : Fin 4 := if e = 0 then 0 else 1

/-- The read pointer of an engine on its ring (R260): past every word that no tag in its FIFO needs; a halted engine leaves it. -/
def readPtr (s : State) (e : Fin 2) : Nat :=
  let a := s.adc[adcOf e]
  if (s.eng[e]).halted then a.read
  else max a.read (((s.eng[e]).fifo.map (fun t => firstNeeded s t.axis t.ts)).foldl min (adcWritten s (adcOf e)))

/-- The words that the converter of an engine has written over at or beyond its read pointer (R260). -/
def wordsLost (s : State) (e : Fin 2) : Nat := adcWritten s (adcOf e) - 4096 - readPtr s e

/-- The loss of words counted, with the pointer moved past them (R260). -/
def adcSettle (s : State) (e : Fin 2) : State :=
  let k := wordsLost s e
  let s := modAdc s (adcOf e) (fun a => { a with read := max a.read (readPtr s e + k) })
  if k = 0 then s
  else setN (setB s Sig.SMP_STAT (adcOf e).val true) (Sig.SMP_OVR_COUNT (adcOf e).val) (rgN s (Sig.SMP_OVR_COUNT (adcOf e).val) + k)

/-- A word told by a command in its place of the ring (R259). The model keeps what commands told for as long as the longest accumulation of a
demodulator, an excitation period of 5 000 words, can need it (R344, R353); the ring itself holds the newest 4 096. -/
def adcPush (s : State) (c : Fin 4) (k code : Nat) : State :=
  modAdc s c (fun a =>
    { a with words := (k, sampleWord c k code) :: a.words.filter (fun x => decide (x.1 < k) && decide (k < x.1 + 8192)) })

/-- A reading of slot 21 (R253). -/
def refCheck (s : State) (code : Nat) : State :=
  if code < 2024 ∨ 2072 < code then
    if s.hk.refBad + 1 = 16 then
      devFault (setB { s with hk := { s.hk with refBad := 0 } } Sig.SMP_STAT 16 true) 35
    else { s with hk := { s.hk with refBad := s.hk.refBad + 1 } }
  else { s with hk := { s.hk with refBad := 0 } }

/-- A sample added to the mean of its ADC3 slot, in the 1 ms interval of its hold instant (R254). -/
def hkAdd (s : State) (slot ts code : Nat) : State :=
  let key := 32 * (ts / 400000) + slot
  let x := (cellGet s.hk.sums key).getD (0, 0)
  { s with hk := { s.hk with sums := cellPut s.hk.sums key (x.1 + code, x.2 + 1) } }

/-- The tick at which the running offset learn of an axis began. -/
def learnFrom (s : State) (n : Axis) : Nat := markOf s (keyLearn n) - 40000000

/-- The 4 096 samples of an offset learn, in ticks (R256). -/
abbrev learnTicks : Nat := 1310720

/-- A phase sample in the offset learn of its axis (R256). -/
def learnAdd (s : State) (n : Axis) (v : Bool) (ts code : Nat) : State :=
  if (s.ofs[n]).learning && decide (learnFrom s n ≤ ts) && decide (ts < learnFrom s n + learnTicks) then
    modOfs s n (fun o =>
      if v then { o with sumV := (o.sumV.1 + code, o.sumV.2 + 1) } else { o with sumU := (o.sumU.1 + code, o.sumU.2 + 1) })
  else s

/-- The consumer of a word (R260): the offset learns and the accumulators of ADC3. What the demodulators form of the words of a period is
formed when the period ends (`samplesIn`). -/
def adcConsume (s : State) (c : Fin 4) (slot ts code : Nat) : State :=
  match c with
  | 0 => learnAdd s ⟨slot / 2 % 4, by omega⟩ (slot % 2 == 1) ts code
  | 1 => learnAdd s ⟨4 + slot / 2 % 4, by omega⟩ (slot % 2 == 1) ts code
  | 2 => s
  | 3 =>
    let s := hkAdd s slot ts code
    if slot = 21 then refCheck s code else s

/-- How many words of a slot of a converter's list are held before a tick (R249 to R252). -/
def heldBefore (c : Fin 4) (slot t : Nat) : Nat := ((t + 31) / 40 + (adcSlots c - 1) - slot) / adcSlots c

/-- The words of a slot held from one tick and before another: hold tick and result of each. -/
def samplesIn (s : State) (c : Fin 4) (slot lo hi : Nat) : List (Nat × Nat) :=
  (List.range (heldBefore c slot hi - heldBefore c slot lo)).map (fun i =>
    let k := adcSlots c * (heldBefore c slot lo + i) + slot
    (holdOf k, sampleResult (ringWord s c k)))

/-- The key of the 1 ms intervals. -/
def keyHk : Nat := 0x34

/-- ADC_CONVERSION: at the next 100 ns boundary the slot ends and its word is written, held 80 ns before (R248, R249, R258, R259). -/
def execAdcConversion (c : Fin 4) (code : Fin 4096) (s : State) : Host.Outcome State Fault Refusal :=
  if inRun s && (s.adc[c]).running then
    let s := adcSettle (adcSettle (atGrid s (keyAdc c) 40 0) 0) 1
    let k := s.clk.tb / 40 - 1
    let s := if holdValid s (holdOf k) then s else setB s Sig.SMP_STAT (12 + c.val) true
    .next (adcConsume (adcPush s c k code.val) c (k % adcSlots c) (holdOf k) code.val)
  else .next s

/-! ### The 1 ms means (R83, R254, R459) -/


/-- The mean code of an ADC3 slot in an interval: of its samples where every one was told, else a value that nothing tells (log entry
47). -/
def hkMean (s : State) (i slot : Nat) : Rat :=
  let x := (cellGet s.hk.sums (32 * i + slot)).getD (0, 0)
  if x.2 = heldBefore 3 slot (400000 * (i + 1)) - heldBefore 3 slot (400000 * i) then (x.1 : Rat) / (x.2 : Rat)
  else ((Config.sampleMean (s.adc[(3 : Fin 4)]).run i slot).toNat % 65521 : Nat) / 16

/-- A millivolt signal from the mean of a slot. -/
def hkMv (s : State) (i key slot scale : Nat) : State := setTel s key (hkMean s i slot * scale)

/-- The mean of the two slots of a rail. -/
def hkRail (s : State) (i m : Nat) : State := setTel s (Sig.VM_MV m) ((hkMean s i m + hkMean s i (16 + m)) / 2 * 16)

/-- The ADC3 slot of a DD temperature sensor (R252). -/
def ddSlot (k : Nat) : Nat := match k with | 0 => 12 | 1 => 13 | 2 => 28 | _ => 29

/-- The step of the table of R459 after a reading: taken at 140 + 5k °C, released below 135 + 5k °C. -/
def thermStep (old : Nat) (t : Rat) : Nat :=
  let up := if 155 ≤ t then 4 else if 150 ≤ t then 3 else if 145 ≤ t then 2 else if 140 ≤ t then 1 else 0
  let keep := if t < 135 then 0 else if t < 140 then 1 else if t < 145 then 2 else if t < 150 then 3 else 4
  max up (min old keep)

/-- The thermal factor of an axis (R459). -/
def setThermal (s : State) (n : Axis) (step : Nat) : State :=
  setB (setN s (Sig.HC_THERM_FACTOR n.val) (32768 - 4096 * step)) (Sig.HC_AX_LIVE n.val) 0 (decide (0 < step))

/-- The bin of a temperature in the histograms of a summary (R586). -/
def tempBin (t : Rat) : Nat := if t < 40 then 0 else min 7 (((t - 40) / 20).floor.toNat + 1)

/-- One more count in a bin of one of several histograms. -/
def histAdd (h : List (List Nat)) (k b : Nat) : List (List Nat) :=
  let row := h.getD k []
  setAt h k (setAt row b (row.getD b 0 + 1))

/-- The reading of a DD sensor: its step (R459), and its share of the histogram (R584). -/
def thermSensor (s : State) (i : Nat) (k : Fin 4) : State :=
  let t := (hkMean s i (ddSlot k.val) - 1100) / 4
  let old := s.hc.therm.getD k.val 0
  let new := thermStep old t
  let s := { s with rcd := { s.rcd with sumDdHist := histAdd s.rcd.sumDdHist k.val (tempBin t) } }
  if new = old then s
  else
    let s := { s with hc := { s.hc with therm := setAt s.hc.therm k.val new } }
    let s := setThermal (setThermal s ⟨2 * k.val, by omega⟩ new) ⟨2 * k.val + 1, by omega⟩ new
    evt (setB s Sig.HC_STAT 1 true) 79

/-- The lowest and highest VBAT of the summary period, in 16 mV (R584). -/
def vbatRange (s : State) (i : Nat) : State :=
  let v := (hkMean s i 4).floor.toNat
  { s with rcd := { s.rcd with sumVmin := min s.rcd.sumVmin v, sumVmax := max s.rcd.sumVmax v } }

/-- FB_WSS_MA: the 1 ms mean of the sensor current of an input in wheel-speed mode, which no converter slot carries (R252): a free
value (R428, log entry 3). -/
def wssMean (s : State) (n : Axis) : State :=
  if rgN s (Sig.FB_MODE n.val) = 4 then
    let (w, s) := drawWord s
    setN s (Sig.FB_WSS_MA n.val) (w.toNat % 65536)
  else s

/-- The means of an interval published (R254), with the millivolt signals and the die temperature steps that follow from them (R83, R459). -/
def hkPublish (s : State) (i : Nat) : State :=
  let s := forEach (List.range 32) s (fun s k => setTel s (Sig.SMP_HK k) (hkMean s i k * 16))
  let s := hkMv s i Sig.VBAT_MV 4 16
  let s := hkMv s i Sig.VTRC_MV 5 16
  let s := hkMv s i Sig.VDRV_MV 6 4
  let s := hkMv s i Sig.VEXC_MV 7 4
  let s := hkMv s i Sig.VHOLD_MV 20 16
  let s := forEach [0, 1, 2, 3] s (fun s m => hkRail s i m)
  let s := vbatRange s i
  let s := forEach [0, 1, 2, 3] s (fun s k => thermSensor s i k)
  let s := forEach allAxes s wssMean
  { s with hk := { s.hk with sums := s.hk.sums.filter (fun x => decide (32 * (i + 1) ≤ x.1)) } }

/-- The end of the next 1 ms interval whose means are to be published: the newest that has passed unpublished, else the next (R254). -/
def hkEnd (s : State) : Nat :=
  let last := s.clk.tb / 400000 * 400000
  if max 1 (markOf s keyHk) ≤ last then last else last + 400000

/-- HK_INTERVAL_END: the means of the interval are published and the next interval begins (R254). -/
def execHkIntervalEnd (s : State) : Host.Outcome State Fault Refusal :=
  if inRun s then
    let t := hkEnd s
    .next (hkPublish (setMark (toTick s t) keyHk (t + 1)) (t / 400000 - 1))
  else .next s

/-! ### Offsets (R256, R257) -/

/-- The effect of a write of SMP_GAIN_AXn (R257). -/
def gainWritten (s : State) (n : Axis) (v : Nat) : State :=
  let s := setN s (Sig.SMP_GAIN_AX n.val) v
  let s := setN (setN s (Sig.SMP_OFS (2 * n.val)) 0) (Sig.SMP_OFS (2 * n.val + 1)) 0
  let s := modOfs s n (fun o => { o with dflt := true, learning := false })
  if inRun s && decide (axSt s n = .disabled) then beginLearn s n else s

/-- OFFSET_LEARN_START: the next learn of the schedule of a DISABLED axis, 100 ms after the start of the one before (R256). -/
def execOffsetLearnStart (n : Axis) (s : State) : Host.Outcome State Fault Refusal :=
  if inRun s && decide (axSt s n = .disabled) then .next (beginLearn (toTick s (markOf s (keyLearn n))) n) else .next s

/-- One learned result in sixteenths of an LSB: adopted within ±64 LSB, otherwise one event of CUR_PLAUS (R256). -/
def learnResult (s : State) (n : Axis) (v : Bool) (x : Int) : State :=
  if -1024 ≤ x ∧ x ≤ 1024 then
    modOfs (setI s (Sig.SMP_OFS (2 * n.val + if v then 1 else 0)) x) n (fun o => { o with dflt := false })
  else axFault s n 6

/-- Whether a word of one phase of an axis held from tick `lo` and before `hi` is invalid (R256, R261). -/
def heldBad (s : State) (n : Axis) (v : Bool) (lo hi : Nat) : Bool :=
  let hits (a b : Nat) : Bool :=
    decide (nextTick (max a lo) 320 ((40 * (2 * (n.val % 4) + if v then 1 else 0) + 8) % 320) < min b hi)
  s.hk.bad.any (fun x => hits x.1 x.2) || (s.pwr.vanaLow && hits s.hk.badFrom hi)

/-- The learned offset of a phase in sixteenths of an LSB: the mean of its 4 096 samples where every one was told, else as the surroundings
give it (R256, log entry 47). -/
def learnMean (key : Nat) (x : Nat × Nat) (told : Int) : Int :=
  if x.2 = 4096 then narrow key (((x.1 : Rat) / 4096 - 2048) * 16) else told

/-- OFFSET_LEARN_END: 4 096 samples, 3.2768 ms after its start, a learn ends; one that was spoiled, or had an invalid word, adopts nothing
(R256). -/
def execOffsetLearnEnd (n : Axis) (meanU meanV : Int) (s : State) : Host.Outcome State Fault Refusal :=
  if inRun s && (s.ofs[n]).learning then
    let t0 := learnFrom s n
    let s := toTick s (t0 + learnTicks)
    let o := s.ofs[n]
    let bad := o.spoiled || heldBad s n false t0 (t0 + learnTicks) || heldBad s n true t0 (t0 + learnTicks)
    let s := modOfs s n (fun o => { o with learning := false, spoiled := false })
    if bad || decide (axSt s n ≠ .disabled) then .next s
    else
      .next (learnResult (learnResult s n false (learnMean (Sig.SMP_OFS (2 * n.val)) o.sumU meanU)) n true
        (learnMean (Sig.SMP_OFS (2 * n.val + 1)) o.sumV meanV))
  else .next s

/-! ### VANA (R261) -/

/-- INVALID of the converters that run (R261). -/
def invalidMask (s : State) : Nat := 4096 * sumNat ([(0 : Fin 4), 1, 2, 3].map (fun c => bitIf (s.adc[c]).running c.val))

/-- VANA_LOW: the converters' words are invalid from now, and the source VANA_LOW counts (R61, R261). -/
def execVanaLow (s : State) : Host.Outcome State Fault Refusal :=
  if s.pwr.vanaLow then .next s
  else
    let s := orR s Sig.SMP_STAT (invalidMask s)
    .next (devFault (setB { s with pwr := { s.pwr with vanaLow := true }, hk := { s.hk with badFrom := s.clk.tb } } Sig.SUP_STAT 6 true) 34)

/-- VANA_RECOVER: 10 µs after the release the words are valid again (R261); the span is remembered while a ring or a learn can hold a word of
it. -/
def execVanaRecover (s : State) : Host.Outcome State Fault Refusal :=
  let hk := if s.pwr.vanaLow && inRun s then
      { s.hk with bad := (s.hk.badFrom, s.clk.tb) :: s.hk.bad.filter (fun x => decide (s.clk.tb ≤ x.2 + 2000000)) }
    else s.hk
  .next (setB { s with pwr := { s.pwr with vanaLow := false }, hk := hk } Sig.SUP_STAT 6 false)

/-! ### Rail voltage (R282) -/

/-- The mean of the four newest words of a rail in V, of fewer where fewer were written, 0 where none was (R282). -/
def railVolts (s : State) (m : Fin 4) : Rat :=
  let k := adcWritten s 3
  let ks := ((List.range 4).map (fun i => 16 * i)).filter (fun d => decide (d + m.val < k))
  let last := k - 1 - (k - 1 + 16 - m.val) % 16
  if ks.isEmpty then 0
  else (sumNat (ks.map (fun d => sampleResult (ringWord s 3 (last - d)))) : Rat) / (ks.length : Rat) * (16 / 1000)

/-- The rail voltage that a task of an axis works with, and whether the floor took its place (R282). -/
def taskVm (s : State) (n : Axis) : Rat × Bool :=
  let v := railVolts s (railOf n)
  let f : Rat := (rgN s (Sig.LP_VM_FLOOR n.val) : Rat) / 1000
  if v < f then (f, true) else (v, false)

/-! ### Reconstruction at the tag (R264 to R266, R269) -/

/-- Whether a word held at `hold` is clean: no gate edge within the settling time before it (R264). -/
def cleanWord (edges : List Nat) (settle hold : Nat) : Bool :=
  !(edges.any (fun e => decide (e ≤ hold) && decide (hold - e < settle)))

/-- The words of one side of a query instant that the search visits, nearest first: up to four revisits of the input (R265). -/
def wordsBefore (s : State) (c : Fin 4) (slot tq : Nat) : List Nat :=
  if tq < holdOf slot then []
  else
    let k := slot + 8 * ((tq - holdOf slot) / 320)
    ((List.range 4).filterMap (fun i => if slot + 8 * i ≤ k then some (k - 8 * i) else none)).filter (inRing s c)

/-- The words after a query instant that the search visits, whether written yet or not. -/
def wordsAfter (slot tq : Nat) : List Nat :=
  let k := if tq < holdOf slot then slot else slot + 8 * ((tq - holdOf slot) / 320) + 8
  (List.range 4).map (fun i => k + 8 * i)

/-- The first clean word of one side, or else the nearest, and whether none was clean (R265). -/
def nearestClean (edges : List Nat) (settle : Nat) (side : List Nat) : Option (Nat × Bool) :=
  match side with
  | [] => none
  | w :: _ =>
    match side.find? (fun k => cleanWord edges settle (holdOf k)) with
    | some k => some (k, false)
    | none => some (w, true)

/-- The last word that a query needs, where it has a word at or before its instant (R265, R267). -/
def lastNeeded (s : State) (c : Fin 4) (slot : Nat) (edges : List Nat) (settle tq : Nat) : Option Nat :=
  match nearestClean edges settle (wordsBefore s c slot tq) with
  | none => none
  | some (a, _) =>
    if holdOf a = tq then some a
    else
      match nearestClean edges settle (wordsAfter slot tq) with
      | some (b, false) => some b
      | _ => (wordsAfter slot tq).getLast?

/-- The value of an input at one query instant, what the words used say of plausibility, and whether a search missed (R265, R269). -/
def valueAt (s : State) (c : Fin 4) (slot : Nat) (edges : List Nat) (settle tq : Nat) : Option (Rat × Bool × Bool) :=
  let code (k : Nat) : Nat := sampleResult (ringWord s c k)
  let bad (k : Nat) : Bool := code k == 0 || code k == 4095 || !holdValid s (holdOf k)
  match nearestClean edges settle (wordsBefore s c slot tq) with
  | none => none
  | some (a, ma) =>
    if holdOf a = tq then some ((code a : Rat), bad a, ma)
    else
      match nearestClean edges settle (wordsAfter slot tq) with
      | none => none
      | some (b, mb) =>
        let x : Rat := (code a : Rat) +
          ((code b : Rat) - (code a : Rat)) * (((tq : Rat) - (holdOf a : Rat)) / ((holdOf b : Rat) - (holdOf a : Rat)))
        some (x, bad a || bad b, ma || mb)

/-- The query instants of R266: `2W + 1` of them, T_in apart. -/
def queryTimes (tag w : Nat) : List Nat := (List.range (2 * w + 1)).map (fun m => tag + 320 * m - 320 * w)

/-- The values of an input at every query instant, where each exists: their sum, plausibility and misses. -/
def valuesAt (s : State) (c : Fin 4) (slot : Nat) (edges : List Nat) (settle : Nat) : List Nat → Option (Rat × Bool × Bool)
  | [] => some (0, false, false)
  | t :: ts =>
    match valueAt s c slot edges settle t, valuesAt s c slot edges settle ts with
    | some (x, b, m), some (y, d, k) => some (x + y, b || d, m || k)
    | _, _ => none

/-- The slot of a phase current in its converter's list (R250). -/
def phaseSlot (n : Axis) (v : Bool) : Nat := 2 * (n.val % 4) + if v then 1 else 0

/-- A phase current of a set: q in sixteenths of an LSB after the rounding of R266, plausibility of its words, misses. -/
def phaseAt (s : State) (n : Axis) (v : Bool) (tag : Nat) : Option (Int × Bool × Bool) :=
  let w := rgN s (Sig.SMP_AVG_W_AX n.val)
  match valuesAt s (adcOf (engOf n)) (phaseSlot n v) (s.pwm[n]).edges (rgN s (Sig.SMP_SETTLE_AX n.val)) (queryTimes tag w) with
  | none => none
  | some (acc, b, m) =>
    let q : Rat := acc / ((2 * w + 1 : Nat) : Rat) - 2048 - (rgI s (Sig.SMP_OFS (2 * n.val + if v then 1 else 0)) : Rat) / 16
    some (roundHalfUp (q * 16), b, m)

/-- The tick at which the sample window of a tag closes: the last word that either phase needs has been written (R267). -/
def windowClose (s : State) (n : Axis) (tag : Nat) : Nat :=
  let need (v : Bool) : List Nat :=
    (queryTimes tag (rgN s (Sig.SMP_AVG_W_AX n.val))).filterMap
      (lastNeeded s (adcOf (engOf n)) (phaseSlot n v) (s.pwm[n]).edges (rgN s (Sig.SMP_SETTLE_AX n.val)))
  (need false ++ need true).foldl (fun t k => max t (40 * (k + 1))) tag

/-- LSB_A of an axis in A (R255). -/
def lsbA (s : State) (n : Axis) : Rat :=
  let g : Nat := 5 * 2 ^ rgN s (Sig.SMP_GAIN_AX n.val)
  1000 / ((g * rgN s (Sig.SMP_RSHUNT_AX n.val) : Nat) : Rat)

/-- Whether a set breaks the rate limit against the last plausible set of the axis (R269): q in sixteenths of an LSB. -/
def rateBroken (s : State) (n : Axis) (x p : CurSet) : Bool :=
  let k := lsbA s n / 16
  let dt : Rat := ((x.ts : Rat) - (p.ts : Rat)) / 400
  let lim := (rgN s (Sig.SMP_DIMAX_AX n.val) : Rat) / 10 * dt
  let far (a b : Int) : Bool := decide (lim < absRat ((a - b : Int) * k))
  far x.u p.u || far x.v p.v || far (-(x.u + x.v)) (-(p.u + p.v))

/-- The outcome of the reconstruction at a tag: the set, where one exists, whether it is plausible, and whether a search found no clean word
(R265, R269). -/
def reconstruct (s : State) (n : Axis) (tag : Nat) : Option CurSet × Bool × Bool :=
  match phaseAt s n false tag, phaseAt s n true tag with
  | some (u, bu, mu), some (v, bv, mv) =>
    let x : CurSet := ⟨u, v, tag⟩
    let rate := match (s.loop[n]).lastSet with
      | some p => rateBroken s n x p
      | none => false
    (some x, !(bu || bv || rate), mu || mv)
  | _, _ => (none, false, false)

/-- The number of the carrier period of an axis that holds a tick (R269), counted from the epoch's valleys. -/
def periodNo (s : State) (n : Axis) (t : Nat) : Nat :=
  let per := perOf s n
  if per = 0 then 0
  else (((t + 4 * per : Nat) : Int) - s.clk.epoch % ((2 * per : Nat) : Int) - (pwmOffset s n : Int)).toNat / (2 * per)

/-- An implausible set (R269): the second of two consecutive carrier periods with one counts an event of CUR_PLAUS and consumes the
pair. -/
def implausible (s : State) (n : Axis) (t : Nat) : State :=
  let k := periodNo s n t
  let l := s.loop[n]
  if l.implDone = some k ∨ l.implLast = some k then s
  else if l.implLast.isSome && l.implLast == some (k - 1) then
    axFault (modLoop s n (fun l => { l with implLast := none, implDone := some k })) n 6
  else modLoop s n (fun l => { l with implLast := some k })

end Sys2Proof.Machine
end

