-- ==== Sys2Proof/Machine/Record.lean ====
section
/-! DEFINITION. The Fruitcake record (chapter 20): slices and their bytes, commits, pins, reclaim, the summary, coupling, parking,
boot and note slices, and reading, with the meanings of the record's events. -/

namespace Sys2Proof.Machine

/-! ### Slices -/

/-- LF_SECONDS (R83). -/
def lfSeconds (s : State) : Nat := s.clk.lf / 32768 % 2 ^ 32

/-- TOTAL of a slice (R573). -/
def Slice.total (x : Slice) : Nat := sliceTotal x.payload.length

/-- The footprint of a slice (R573). -/
def Slice.foot (x : Slice) : Nat := sliceFootprint x.payload.length

/-- Header, payload and fill of a slice (R574). -/
def Slice.body (x : Slice) : List Byte :=
  leBytes 1 x.kind ++ leBytes 1 (bitIf x.autoPin 7 + bitIf x.relocated 6) ++ leBytes 2 x.payload.length ++
    leBytes 4 x.seq ++ leBytes 4 x.time ++ leBytes 2 x.sub ++ leBytes 2 x.boot ++ pad4 x.payload

/-- The CRC-32 of a slice (R574). -/
def Slice.crc (x : Slice) : Word := crc32 x.body

/-- The bytes of a slice: header, payload, fill and CRC-32 (R574). -/
def Slice.bytes (x : Slice) : List Byte := x.body ++ wordBytes x.crc

/-- The commit marker that a slice takes: MAGIC, its SEQ, a copy of its CRC-32, and MARK_CRC (R575). -/
def Slice.marker (x : Slice) : List Byte := markerBytes 0x46434D31 (leBytes 4 x.seq ++ wordBytes x.crc)

/-- Whether a slice is present: its marker exists and agrees with it (R577). -/
def Slice.present (x : Slice) : Bool := decide (x.mark = x.marker)

/-- The slice closed with its marker (R577). -/
def Slice.close (x : Slice) : Slice := { x with mark := x.marker }

/-- The blocks of the record space (R572). -/
abbrev recBlocks : Nat := 1792

/-- The erased blocks ahead of the head (R580, R589). -/
def erasedAhead (s : State) : Nat := (s.rcd.oldestBlock + recBlocks - 1 - s.rcd.headBlock) % recBlocks

/-- Whether a slice is pinned: by the host, or by itself until its release is recorded (R590). -/
def pinned (s : State) (x : Slice) : Bool :=
  s.rcd.hostPins.contains x.seq || (x.autoPin && !s.rcd.freedPins.contains x.seq)

/-- Slices in the order of their places, of two with one SEQ the newer location (R589). -/
def newerStands : List Slice → List Slice
  | [] => []
  | x :: xs => if xs.any (fun y => y.seq == x.seq) then newerStands xs else x :: newerStands xs

/-- The slices that stand: between the copies of a reclaim and the erase, the copies (R589). -/
def standing (s : State) : List Slice := newerStands s.rcd.slices

/-- The pinned slices. -/
def pinnedSlices (s : State) : List Slice := (standing s).filter (pinned s)

/-- The sum of footprints of slices. -/
def footSum (xs : List Slice) : Nat := sumNat (xs.map Slice.foot)

/-- The present slice of a number. -/
def sliceOf (s : State) (seq : Nat) : Option Slice := (standing s).find? (fun x => x.seq == seq)

/-- The newest present slice's number; 0 where there is none (R593). -/
def newestSeq (s : State) : Nat := s.rcd.slices.foldl (fun m x => max m x.seq) 0

/-- The oldest present slice's number; 0 where there is none (R593). -/
def oldestSeq (s : State) : Nat :=
  match s.rcd.slices with
  | [] => 0
  | x :: xs => xs.foldl (fun m y => min m y.seq) x.seq

/-- The head moved to the start of the next block, past a skip marker where the block has room for one (R572, R575, log entry 9). -/
def nextBlock (s : State) : State :=
  let r := s.rcd
  { s with rcd := { r with headBlock := (r.headBlock + 1) % recBlocks, headOff := 0,
                           skips := if r.headOff < 65536 then r.skips ++ [(r.headBlock, r.headOff, skipMarker)] else r.skips } }

/-- The head where a slice fits: in the next block where it does not fit in this one (R572). -/
def fitHead (s : State) (x : Slice) : State := if s.rcd.headOff + x.foot ≤ 65536 then s else nextBlock s

/-- A slice as it stands at the head. -/
def Slice.at (x : Slice) (r : Rec) : Slice := { x with block := r.headBlock, off := r.headOff }

/-- A slice written at the head and closed with its marker (R572, R577). -/
def placeSlice (s : State) (x : Slice) : State :=
  let s := fitHead s x
  { s with rcd := { s.rcd with slices := s.rcd.slices ++ [(x.at s.rcd).close], headOff := s.rcd.headOff + x.foot } }

/-- A slice written at the head that does not read back: it gets no marker and is absent (R577). -/
def placeAbsent (s : State) (x : Slice) : State :=
  let s := fitHead s x
  { s with rcd := { s.rcd with absent := s.rcd.absent ++ [x.at s.rcd], headOff := s.rcd.headOff + x.foot } }

/-- The record as a boot's scan finds it: a slice is present only where its marker agrees with it, and of two with one SEQ the newer location
stands (R577, R578, R589). -/
def scanRecord (s : State) : State :=
  { s with rcd := { s.rcd with slices := newerStands (s.rcd.slices.filter Slice.present),
                               absent := s.rcd.absent ++ s.rcd.slices.filter (fun x => !x.present) } }

/-! ### Pins (R590) -/

/-- A pin released, with its event slice (R587, R590). -/
def freePin (s : State) (x : Slice) : State :=
  let rcd := { s.rcd with
    hostPins := s.rcd.hostPins.filter (fun q => q != x.seq)
    freedPins := if x.autoPin then s.rcd.freedPins ++ [x.seq] else s.rcd.freedPins }
  stageEvent { s with rcd := rcd } 0x0040 0xFFFF 1 (leBytes 4 x.seq)

/-- Whether the pins keep to both limits. -/
def pinsFit (s : State) : Bool :=
  let ps := pinnedSlices s
  decide (ps.length ≤ 1024) && decide (footSum ps ≤ 4194304)

/-- The slice with the lowest number of a list. -/
def lowestSeq : List Slice → Option Slice
  | [] => none
  | x :: xs =>
    match lowestSeq xs with
    | some y => if x.seq ≤ y.seq then some x else some y
    | none => some x

/-- The oldest pins, by their numbers, but that of `keep` released until the limits hold, PIN_FULL set. -/
def shrinkPins (keep : Nat) : Nat → State → State
  | 0, s => s
  | fuel + 1, s =>
    if pinsFit s then s
    else
      match lowestSeq ((pinnedSlices s).filter (fun x => x.seq != keep)) with
      | none => s
      | some x => shrinkPins keep fuel (setB (freePin s x) Sig.FC_STAT 4 true)

/-- A write of FC_PIN, with its status; EV84 tells of the pin (R139, R590). -/
def pinWrite (s : State) (seq : Nat) : State × Nat :=
  match sliceOf s seq with
  | none => (s, stRange)
  | some x =>
    if pinned s x then (s, stOk)
    else
      let s' := { s with rcd := { s.rcd with hostPins := s.rcd.hostPins ++ [seq] } }
      if pinsFit s' then (evt s' 84, stOk) else (setB s Sig.FC_STAT 5 true, stRange)

/-- A write of FC_UNPIN, with its status (R590). -/
def unpinWrite (s : State) (seq : Nat) : State × Nat :=
  match sliceOf s seq with
  | none => (s, stRange)
  | some x =>
    if s.rcd.hostPins.contains seq && !(x.autoPin && !s.rcd.freedPins.contains seq) then (freePin s x, stOk)
    else if pinned s x then
      if lifeCycle s = .field then (s, stDeniedLifecycle) else (freePin s x, stOk)
    else (s, stOk)

/-! ### Commit (R574 to R577) -/

/-- The answer of a note whose marker is written (R158). -/
def answerNote (s : State) (x : Staged) (seq : Nat) : State :=
  match x.req with
  | some r => finishDev s r opRecNote stOk (leBytes 4 seq)
  | none => s

/-- Waiting notes admitted while staging holds less than 60 KiB (R579). -/
def admitNotes : Nat → State → State
  | 0, s => s
  | fuel + 1, s =>
    match s.rcd.noteWaits with
    | [] => s
    | (r, note) :: rest =>
      if stagedBytes s < 61440 then
        admitNotes fuel (pushStaged { s with rcd := { s.rcd with noteWaits := rest } } ⟨kindNote, note, false, some r, (0, 0)⟩)
      else s

/-- A staged slice as its commit begins: the next number, the time (R574, R576). -/
def newSlice (s : State) (x : Staged) : Slice where
  kind := x.kind
  autoPin := x.autoPin
  relocated := false
  seq := s.rcd.maxSeq + 1
  time := lfSeconds s
  sub := s.clk.lf % 32768
  boot := s.nd.bootCount % 65536
  payload := x.payload
  block := 0
  off := 0
  mark := []

/-- The first staged slice committed: written at the head with the next number, closed with its marker; an automatic pin holds
from then (R576, R577, R590). -/
def commitSlice (s : State) (x : Staged) (rest : List Staged) : State :=
  let seq := s.rcd.maxSeq + 1
  let y := newSlice s x
  let s := placeSlice { s with rcd := { s.rcd with staged := rest, maxSeq := seq } } y
  let s := incR s Sig.FC_SLICE_COUNT
  let s := if x.autoPin then shrinkPins seq 1025 (evt s 84) else s
  answerNote s x seq

/-- SLICE_COMMIT: the first staged slice is written, read back and closed with its marker. A slice that does not read back stays
staged and absent, the rest of its block is closed, and ND_CRC counts (R534, R577, log entry 9). -/
def execSliceCommit (readBackOk : Bool) (s : State) : Host.Outcome State Fault Refusal :=
  match s.rcd.staged with
  | [] => .next s
  | x :: rest =>
    if s.pwr.st ≠ .run ∧ s.pwr.st ≠ .standby then .next s
    else if readBackOk then
      let s := commitSlice s x rest
      .next (idleAgain (admitNotes s.rcd.noteWaits.length s))
    else .next (devFault (nextBlock (placeAbsent s (newSlice s x))) 47)

/-- The pinned slices of a block copied to the head (R589). -/
def relocate (s : State) (xs : List Slice) : State :=
  let s := forEach xs s (fun s x => placeSlice s { x with relocated := true })
  setB s Sig.FC_STAT 3 true

/-- The oldest block erased (R589). -/
def eraseOldest (s : State) : State :=
  let b := s.rcd.oldestBlock
  { s with rcd := { s.rcd with slices := s.rcd.slices.filter (fun x => x.block != b),
                               absent := s.rcd.absent.filter (fun x => x.block != b),
                               skips := s.rcd.skips.filter (fun x => x.1 != b), oldestBlock := (b + 1) % recBlocks },
           nd := { s.nd with reclaimCount := s.nd.reclaimCount + 1 } }

/-- The pinned slices that stand in the oldest block. -/
def pinnedOldest (s : State) : List Slice := (pinnedSlices s).filter (fun x => x.block == s.rcd.oldestBlock)

/-- One step of a reclaim: the pinned slices of the oldest block copied to the head; where none is left there, the block erased (R589). -/
def reclaim (s : State) : State := if (pinnedOldest s).isEmpty then eraseOldest s else relocate s (pinnedOldest s)

/-! ### Summary (R584, R586) -/

/-- A count of the summary as 2 bytes, saturating. -/
def sat16 (n : Nat) : List Byte := leBytes 2 (min n 65535)

/-- The block of an axis in a summary: budget ticks are shown in seconds. -/
def summaryAxis (s : State) (n : Axis) : List Byte :=
  let r := s.rcd
  leBytes 4 (r.sumApplies.getD n.val 0) ++ leBytes 4 ((rgN s (Sig.HC_ENERGY n.val) + 2 ^ 32 - r.sumEnergy.getD n.val 0) % 2 ^ 32) ++
    leBytes 4 (r.sumRun.getD n.val 0 / 10000) ++ sat16 (r.sumLasting.getD n.val 0) ++ leInt 2 (r.sumTjMax.getD n.val 0) ++
    (r.sumTjHist.getD n.val []).flatMap (fun c => sat16 (c / 10000))

/-- The payload of a summary slice (R584). -/
def summaryPayload (s : State) (cause : Nat) : List Byte :=
  let r := s.rcd
  leBytes 4 ((s.clk.us - r.sumSince) / 1000000) ++ leBytes 1 cause ++ zeros 3 ++ allAxes.flatMap (summaryAxis s) ++
    r.sumDdHist.flatMap (fun h => h.flatMap (fun c => sat16 (c / 1000))) ++ leBytes 2 r.sumVmin ++ leBytes 2 r.sumVmax ++
    leBytes 4 s.nd.coupleCount

/-- The accumulators of the next summary, from now (R586). -/
def summaryStart (s : State) : State :=
  { s with rcd := { s.rcd with
      sumSince := s.clk.us
      sumApplies := Rec.init.sumApplies
      sumEnergy := allAxes.map (fun n => rgN s (Sig.HC_ENERGY n.val))
      sumRun := Rec.init.sumRun
      sumLasting := Rec.init.sumLasting
      sumTjMax := allAxes.map (fun n => rgI s (Sig.HC_TJ n.val))
      sumTjHist := Rec.init.sumTjHist
      sumDdHist := Rec.init.sumDdHist
      sumVmin := Rec.init.sumVmin
      sumVmax := Rec.init.sumVmax } }

/-- A summary slice staged, and the next period begun (R583). -/
def stageSummary (s : State) (cause : Nat) : State := summaryStart (stageSlice s kindSummary (summaryPayload s cause) false)

/-- The staged slices whose commit has begun: the first, unless it was staged at this very instant (R580, R582, log entry 9). -/
def begun (s : State) : Nat :=
  match s.rcd.staged with
  | [] => 0
  | x :: _ => if x.at_ = instantNow s then 0 else 1

/-- The summary of a final commit, placed right after the slice whose commit has begun (R582). -/
def finalSummary (s : State) : State :=
  let p := summaryPayload s 2
  let s := makeRoom (sliceTotal p.length) s.rcd.staged.length s
  let k := begun s
  summaryStart { s with rcd := { s.rcd with
    staged := s.rcd.staged.take k ++ [⟨kindSummary, p, false, none, instantNow s⟩] ++ s.rcd.staged.drop k } }

/-- SUMMARY_PERIOD: FC_SUM_PER after the summary before, a periodic summary is staged (R583). -/
def execSummaryPeriod (s : State) : Host.Outcome State Fault Refusal :=
  let p := rgN s Sig.FC_SUM_PER
  if p ≠ 0 ∧ (s.pwr.st = .run ∨ s.pwr.st = .standby) then .next (stageSummary (toUs s (s.rcd.sumSince + p * 1000000)) 0)
  else .next s

/-! ### Coupling, parking and boot slices (R584, R588) -/

/-- The coupling slice of the open coupling staged: RESULT and SRC_MOHM per rail. -/
def closeCoupling (s : State) (result : Nat) (mohm : List Nat) : State :=
  match s.rcd.coupling with
  | none => s
  | some (_, note) =>
    let p := leBytes 4 s.nd.coupleCount ++ leBytes 1 result ++ leBytes 1 note.length ++ zeros 2 ++ mohm.flatMap (leBytes 2) ++
      [0, 1, 2, 3].flatMap (fun m => leBytes 2 (rgN s (Sig.HC_VOC m))) ++ note
    stageSlice { s with rcd := { s.rcd with coupling := none } } kindCoupling p false

/-- A tractor note: into the pending coupling slice, or kept for the next one; a later note replaces an earlier one (R588). -/
def coupleNote (s : State) (note : List Byte) : State :=
  match s.rcd.coupling with
  | some (t, _) => { s with rcd := { s.rcd with coupling := some (t, note) } }
  | none => { s with rcd := { s.rcd with nextNote := note } }

/-- SRC_MOHM where no rail was probed. -/
def noMohm : List Nat := [0xFFFF, 0xFFFF, 0xFFFF, 0xFFFF]

/-- COUPLE_WAIT_EXPIRY: FC_COUPLE_WAIT after the coupling without a probe, its slice is staged with RESULT 2 (R588). -/
def execCoupleWaitExpiry (s : State) : Host.Outcome State Fault Refusal :=
  match s.rcd.coupling with
  | some (t, _) =>
    if s.hc.probe.isNone then .next (closeCoupling (toUs s (t + rgN s Sig.FC_COUPLE_WAIT * 1000000)) 2 noMohm) else .next s
  | none => .next s

/-- The parking-watch slice (R78, R584). -/
def stageParking (s : State) (mask : Nat) (vtrcHigh : Bool) (edges : List Nat) : State :=
  stageSlice s kindParking
    (leBytes 1 mask ++ leBytes 1 (bitIf vtrcHigh 0) ++ zeros 2 ++ edges.flatMap (leBytes 1) ++ leBytes 4 (lfSeconds s)) false

/-- The boot slice (R584). -/
def stageBoot (s : State) (fwVer : Nat) : State :=
  stageSlice s kindBoot
    (leBytes 4 (rgN s Sig.RESET_CAUSE) ++ leBytes 4 (rgN s Sig.BOOT_STAT) ++ leBytes 4 s.nd.bootCount ++ leBytes 4 fwVer ++
      leBytes 4 (rgN s Sig.BOOT_TIME) ++ leBytes 1 (rgN s Sig.ACTIVE_BANK) ++ leBytes 1 s.fuse.lc.code ++ zeros 2 ++
      allAxes.flatMap (fun n => leBytes 1 (rgN s (Sig.GD_PST_RESULT n.val) % 64))) false

/-! ### Snapshots that end by time (R585) -/

/-- SNAPSHOT_STAGE: 15 ms after its trigger the collection of a source's snapshot ends and the snapshot is staged. -/
def execSnapshotStage (code : Nat) (s : State) : Host.Outcome State Fault Refusal :=
  match s.flt.snaps.find? (fun x => x.code == code) with
  | some x =>
    let left := (x.us + 2 ^ 32 + 15000 - usTime s) % 2 ^ 32
    let s := toUs s (s.clk.us + if left ≤ 15000 then left else 0)
    .next (stageSnaps s (fun y => y.code == code))
  | none => .next s

/-! ### Reading (R591, R592) -/

/-- Whether a kind is open to REC_READ in the life-cycle state (R592). -/
def kindOpen (s : State) (kind : Nat) : Bool := !(kind == kindSnapshot && decide (lifeCycle s = .field))

/-- The slice that a REC_READ names. -/
def readSlice (s : State) (seq : Nat) (next : Bool) : Option Slice :=
  if seq = 0xFFFFFFFF then sliceOf s (newestSeq s)
  else if next then
    ((standing s).filter (fun x => decide (seq ≤ x.seq) && kindOpen s x.kind)).foldl
      (fun m x => match m with
        | none => some x
        | some y => if x.seq < y.seq then some x else some y) none
  else sliceOf s seq

/-- REC_READ for its slice: `fails` counts the reads that fail their CRC-32 (R534, R591). -/
def recReadAns (s : State) (seq off maxLen : Nat) (next : Bool) (fails : Nat) : State × Ans :=
  if maxLen < 4 ∨ 1000 < maxLen ∨ maxLen % 4 ≠ 0 then (s, ansSt stRange)
  else
    match readSlice s seq next with
    | none => (s, ansSt stRange)
    | some x =>
      if !kindOpen s x.kind then (s, ansSt stDeniedLifecycle)
      else if x.total ≤ off then (s, ansSt stRange)
      else if 2 ≤ fails then (devFault s 47, ansSt stRange)
      else
        (s, ansOk (leBytes 4 x.seq ++ leBytes 2 x.total ++ leBytes 2 off ++ (x.bytes.drop off).take maxLen))

end Sys2Proof.Machine
end

