-- ==== Sys2Proof/Machine/Angle.lean ====
section
/-! DEFINITION. What the resolver, observer and loop chapters share: task rates (R272, R273), the agreement speed (R391), whether the
injection is usable (R404), and the loss of a resolver that serves an axis (R396 to R398). -/

namespace Sys2Proof.Machine

/-! ### Task rates (R272, R273, R306) -/

/-- The carrier frequency of an axis in Hz (R176). -/
def carrierHz (s : State) (n : Axis) : Rat := 200000000 / (perOf s n : Rat)

/-- The matches per period of a tag compare as it is set (R208, R272). -/
def trgMatches (s : State) (n : Axis) (b : Bool) : Nat :=
  if b then (trgPos (rgN s (Sig.PWM_TRGB n.val)) (rgN s (Sig.PWM_TRGB_SLOPE n.val)) (perOf s n)).length
  else (trgPos (rgN s (Sig.PWM_TRGA n.val)) (rgN s (Sig.PWM_TRGA_SLOPE n.val)) (perOf s n)).length

/-- The task rate of an axis in Hz (R272). -/
def taskRate (s : State) (n : Axis) : Rat :=
  let sel := rgN s (Sig.LP_TAG_SEL n.val)
  let m := (if sel ≠ 1 then trgMatches s n false else 0) + (if sel ≠ 0 then trgMatches s n true else 0)
  carrierHz s n * (m : Rat)

/-- The passes that a drive mode and mask give an axis (R306). -/
def modePasses (mode mask : Nat) (n : Axis) : Nat := if mode = 1 ∧ bitOf mask n.val then 1 else 2

/-- T_min in seconds for a number of passes in a drive mode (R273). -/
def tMinOf (mode passes : Nat) : Rat := if mode = 2 then 1 / 20000 else if passes = 1 then 1 / 80000 else 1 / 40000

/-- T_min of an axis in its present passes. -/
def tMin (s : State) (n : Axis) : Rat := tMinOf s.bisc.mode (s.loop[n]).passes

/-- Whether the task rate of an axis exceeds the limit of R273 for a mode and mask. -/
def rateTooHigh (s : State) (mode mask : Nat) (n : Axis) : Bool :=
  decide (1 / tMinOf mode (modePasses mode mask n) < taskRate s n)

/-! ### Loops closed (R294) -/

/-- The state whose loops run: the held state in HOLD. -/
def loopState (s : State) (n : Axis) : AxState := if axSt s n = .hold then (s.ax[n]).held else axSt s n

/-- Whether a state closes the current loop. -/
def AxState.closesCurrent : AxState → Bool
  | .torque | .speed | .position => true
  | _ => false

/-- Whether a state closes the speed loop. -/
def AxState.closesSpeed : AxState → Bool
  | .speed | .position => true
  | _ => false

/-- Whether current tasks run in a state: every enabled state once the engine is initialised at the end of PRECHARGE (R241, R294). -/
def AxState.runsTasks : AxState → Bool
  | .disabled | .precharge => false
  | _ => true

/-- Whether a state is one in which the angle serves the axis: OPEN, TORQUE, SPEED, POSITION, HOLD (R396). -/
def AxState.serving : AxState → Bool
  | .opn | .torque | .speed | .position | .hold => true
  | _ => false

/-! ### The observer's thresholds -/

/-- The agreement speed in turn/s (R391). -/
def agreeSpeed (s : State) (n : Axis) : Rat :=
  (rgN s (Sig.OBS_VMIN_PCT n.val) : Rat) / 100 * ((rgN s (Sig.OBS_RATED_SPEED n.val) : Rat) / 65536)

/-- The shaft speed of the estimator in use in turn/s (R389, R405): its rate is held in electrical turns per second. -/
def obsShaft (s : State) (n : Axis) : Rat :=
  let o := s.obs[n]
  (if o.sens && o.est == 2 then o.hw else o.we) / (rgN s (Sig.LP_EANG_MUL n.val) : Rat)

/-- Whether HFI is usable on an axis (R404). -/
def hfiUsable (s : State) (n : Axis) : Bool :=
  let ld := rgN s (Sig.LP_LD n.val)
  let lq := rgN s (Sig.LP_LQ n.val)
  rgN s (Sig.OBS_HFI_EN n.val) == 1 && (decide (11 * ld ≤ 10 * lq) || decide (11 * lq ≤ 10 * ld)) &&
    decide (12000 ≤ taskRate s n)

/-- Whether the resolver is named as angle or feedback source of an axis (R396). -/
def namesResolver (s : State) (n : Axis) : Bool :=
  rgN s (Sig.LP_ANG_SRC n.val) == 0 || rgN s (Sig.LP_FB_SRC n.val) == 0

/-- One event of OBS_FAIL with its flag (R392, R398, R402). -/
def obsFail (s : State) (n : Axis) : State := axFault (setB s (Sig.OBS_STAT n.val) 2 true) n 20

/-! ### The loss of the resolver (R396 to R398) -/

/-- ANGLE_VALID of the channel of an axis has cleared while the channel may serve it: in PRECHARGE the axis returns to DISABLED (R397);
in an enabled state RSV_LOST counts, bound to its reaction only where no continuation follows, and the estimator that is available
takes over at the first task after the loss (R398). -/
def resolverLoss (s : State) (n : Axis) : State :=
  if !namesResolver s n then s
  else if axSt s n = .precharge then
    let s := endWaits s (fun w => w.opcode == opAxisState && decide (w.axis = some n)) (fun _ _ => (stNotInState, []))
    toDisabled s n
  else if !(axSt s n).serving then s
  else
    let o := s.obs[n]
    let slow := decide (absRat (s.rsv[n]).omx < agreeSpeed s n)
    let usable := hfiUsable s n
    let est : Nat := if o.conv then 1 else if slow && usable then 2 else 0
    let s := if slow && !o.conv && !usable then setB s (Sig.OBS_STAT n.val) 3 true else s
    let cont := rgN s (Sig.OBS_CONT_EN n.val) == 1 && est != 0
    let s := modObs s n (fun o => { o with overSince := none })
    if o.sens then faultEvtB s (axSrc n 18) false
    else
      let s := faultEvtB s (axSrc n 18) (!cont)
      let s := if est = 0 then obsFail s n else s
      if cont then modObs s n (fun o => { o with enter := some (est, s.clk.tb) }) else s

end Sys2Proof.Machine
end

