-- ==== Sys2Proof/Machine/Resolver.lean ====
section
/-! DEFINITION. Resolver conversion (chapter 12): the excitation, the demodulation of a period, the checks, the tracking loop with
coasting, loss and reacquisition, the learned carrier phase and amplitude, the compensation table and its learning, and the encoder
emulation, with the meanings of their events. -/

namespace Sys2Proof.Machine

/-! ### Excitation (R343 to R349) -/

/-- The four axes of a driver (R10). -/
def drvAxes (d : Fin 2) : List Axis := if d = 0 then [0, 1, 2, 3] else [4, 5, 6, 7]

/-- The first axis of a driver, which holds the driver's frequency and amplitude. -/
def drvAxis (d : Fin 2) : Axis := if d = 0 then 0 else 4

/-- f_exc of a driver in Hz. -/
def excFreq (s : State) (d : Fin 2) : Nat := rgN s (Sig.RSV_EXC_FREQ (drvAxis d).val)

/-- INC of R343: the advance of the accumulator every 160 ticks. -/
def excInc (s : State) (d : Fin 2) : Nat := (roundHalfUp ((excFreq s d : Rat) * 4294967296 / 2500000)).toNat

/-- ψ_exc in turns at a tick (R343). -/
def psiExc (s : State) (d : Fin 2) (t : Nat) : Rat :=
  (((t - (s.exc[d]).start) / 160 * excInc s d : Nat) : Rat) / 4294967296

/-- The first tick at which ψ_exc has reached a number of turns. -/
def psiTick (s : State) (d : Fin 2) (turns : Rat) : Nat :=
  let inc : Rat := (excInc s d : Rat)
  (s.exc[d]).start + 160 * (turns * 4294967296 / inc).ceil.toNat

/-- The phase accumulator of a driver at a tick (R343). -/
def excPhase (s : State) (d : Fin 2) (t : Nat) : Nat := (t - (s.exc[d]).start) / 160 * excInc s d % 4294967296

/-- The part of RSV_EXC_AMP that a driver gives: it rises over 10 excitation periods at a start, and falls to zero over 10 on leaving RUN
(R347, R348). -/
def excLevel (s : State) (d : Fin 2) : Rat :=
  if (s.exc[d]).on then clampRat (psiExc s d s.clk.tb / 10) 0 1
  else
    match (s.exc[d]).ramp with
    | some (t, x) => x * clampRat (1 - ((s.clk.us - t : Nat) : Rat) * (excFreq s d : Rat) / 10000000) 0 1
    | none => 0

/-- The 14-bit sine code that a driver's synthesiser has sent to its EXDAC last, while it runs (R343). -/
def exdacCode (s : State) (d : Fin 2) : BitVec 14 :=
  Config.sineCode (excPhase s d s.clk.tb) (excLevel s d * (rgN s (Sig.RSV_EXC_AMP (drvAxis d).val) : Rat))

/-- T_d in seconds (R353). -/
def demodT (s : State) (n : Axis) : Rat := 1 / (2 * (excFreq s (drvOf n) : Rat))

/-- A channel at a start of its driver at a tick (R342, R347 to R349, R364, R664): a first start, or a channel without an adopted phase and
amplitude, learns; any other channel wakes lost and reacquires. A channel that is disabled at a first start adopts nothing, and learns at the
start that enables it. -/
def RsvAx.start (r : RsvAx) (en first : Bool) (t : Nat) : RsvAx :=
  let r := { r with en := en, valid := false, lost := false, learnPhase := false, coast := 0, good := 0, validCnt := 0, omega := 0,
                    omx := 0, sumS := (0, 0), sumC := (0, 0), ampSum := 0, ampN := 0, since := t, ofsS := 0, ofsC := 0,
                    probe := false, excBad := false, periods := 0, learn := Learn.init }
  if !en then { r with adopted := r.adopted && !first }
  else if first || !r.adopted then
    { r with learnPhase := true, adopted := false, faulted := false, phase := 0, aNom := 0, theta := 0 }
  else { r with lost := true }

/-- A driver's excitation started; a driver whose channels are all disabled stays at high impedance (R342, R347). -/
def startExc (s : State) (d : Fin 2) (first : Bool) : State :=
  let en (n : Axis) : Bool := rgN s (Sig.RSV_EN n.val) == 1
  let first := first || !(s.exc[d]).started
  let on := (drvAxes d).any en
  let s := modExc s d (fun e => { e with on := on, start := s.clk.tb, started := e.started || on, periods := 0, ramp := none })
  forEach (drvAxes d) s (fun s n => modRsv s n (fun r => r.start (en n) first s.clk.tb))

/-- A driver's excitation stopped on leaving RUN: it ramps to zero over 10 excitation periods, and every channel reports ANGLE_VALID 0 from
the start of the ramp, its angle frozen (R347); a learning run of the channel ends (R377). -/
def stopExc (s : State) (d : Fin 2) : State :=
  let x := excLevel s d
  let s := modExc s d (fun e => { e with on := false, ramp := if e.on then some (s.clk.us, x) else e.ramp })
  forEach (drvAxes d) s (fun s n =>
    modRsv s n (fun r => { r with valid := false, learnPhase := false, omega := 0, omx := 0, learn := Learn.init }))

/-! ### The learned phase and amplitude (R348, R357, R367) -/

/-- Whether A² lies outside the window around a nominal amplitude (R369). -/
def ampOut (s : State) (n : Axis) (a2 nom : Rat) : Bool :=
  decide (a2 < (rgN s (Sig.RSV_AMP_LO n.val) : Rat) / 100 * (nom * nom)) ||
    decide ((rgN s (Sig.RSV_AMP_HI n.val) : Rat) / 100 * (nom * nom) < a2)

/-- The outcome of a learn: carrier phase in turns and amplitude in LSB adopted or judged (R348, R366, R367). -/
def adoptLearn (s : State) (n : Axis) (phase amp : Rat) : State :=
  let nom : Rat := (rgN s (Sig.RSV_AMP_NOM n.val) : Rat) / 16
  let ok : Bool := if nom = 0 then decide (512 ≤ amp) && decide (amp ≤ 1946) else !ampOut s n (amp * amp) nom
  if ok then
    modRsv s n (fun r =>
      { r with phase := phase, aNom := if nom = 0 then amp else nom, adopted := true, faulted := false, valid := true, mt := true,
               learnPhase := false })
  else
    axFault (setB (modRsv s n (fun r => { r with adopted := false, faulted := true, valid := false, learnPhase := false }))
      (Sig.RSV_STAT n.val) 0 true) n 11

/-- The carrier phase of R357 from the four sums. -/
def RsvAx.learnedPhase (r : RsvAx) : Rat :=
  let i1 := r.sumS.1
  let q1 := r.sumS.2
  let i2 := r.sumC.1
  let q2 := r.sumC.2
  Config.atan2Turn (2 * i1 * q1 + 2 * i2 * q2) (i1 * i1 - q1 * q1 + (i2 * i2 - q2 * q2)) / 2

/-! ### Demodulation (R354, R355) -/

/-- What the demodulator forms of one period: S, C, the sums D and Q of both inputs, the raw angle μ in turns, A². -/
structure Demod where
  s : Rat
  c : Rat
  dS : Rat
  dC : Rat
  qS : Rat
  qC : Rat
  mu : Rat
  a2 : Rat
  deriving DecidableEq, Repr

/-- Envelope, quadrature and effective instant of one input: its samples as (y, ψ in turns, tick). -/
def envelope (xs : List (Rat × Rat × Rat)) : Rat × Rat × Rat :=
  let sn (p : Rat) := Config.sinTurn p
  let cs (p : Rat) := Config.cosTurn p
  let s2 := sumRat (xs.map (fun x => sn x.2.1 * sn x.2.1))
  let c2 := sumRat (xs.map (fun x => cs x.2.1 * cs x.2.1))
  (sumRat (xs.map (fun x => x.1 * sn x.2.1)) / s2, sumRat (xs.map (fun x => x.1 * cs x.2.1)) / c2,
    sumRat (xs.map (fun x => x.2.2 * (sn x.2.1 * sn x.2.1))) / s2)

/-- The slot of an input of a channel in the list of ADC2 (R251). -/
def rsvSlot (n : Axis) (cos : Bool) : Nat := 2 * n.val + if cos then 1 else 0

/-- The samples of one input of a channel held from one tick and before another, as (y, ψ in turns, tick) (R353, R354). -/
def refSamples (s : State) (n : Axis) (cos : Bool) (lo hi : Nat) : List (Rat × Rat × Rat) :=
  let r := s.rsv[n]
  let o := if cos then r.ofsC else r.ofsS
  (samplesIn s 2 (rsvSlot n cos) lo hi).map (fun x =>
    (((x.2 : Rat) - 2048 - o), psiExc s (drvOf n) x.1 - r.phase, (x.1 : Rat)))

/-- The demodulation of a period between two ticks, with its centre at tick `tk` (R354, R355). -/
def demodulate (s : State) (n : Axis) (lo hi : Nat) (tk : Rat) : Demod :=
  let eS := envelope (refSamples s n false lo hi)
  let eC := envelope (refSamples s n true lo hi)
  let w := (s.rsv[n]).omx
  let k : Rat := 2 * Config.pi * w / 400000000
  let S := eS.1 + k * (tk - eS.2.2) * eC.1
  let C := eC.1 - k * (tk - eC.2.2) * eS.1
  let S := if rgN s (Sig.RSV_DIR n.val) == 1 then -S else S
  { s := S, c := C, dS := eS.1, dC := eC.1, qS := eS.2.1, qC := eC.2.1, mu := Config.atan2Turn S C, a2 := S * S + C * C }

/-- The sums of R357 with the samples held from one tick and before another. -/
def phaseSums (s : State) (n : Axis) (lo hi : Nat) : RsvAx :=
  let r := s.rsv[n]
  let acc (cos : Bool) (z : Rat × Rat) : Rat × Rat :=
    let ys := refSamples s n cos lo hi
    (z.1 + sumRat (ys.map (fun y => y.1 * Config.sinTurn (y.2.1 + r.phase))),
      z.2 + sumRat (ys.map (fun y => y.1 * Config.cosTurn (y.2.1 + r.phase))))
  { r with sumS := acc false r.sumS, sumC := acc true r.sumC }

/-- A learning channel with the sums of all its 50 excitation periods (R357): those of the periods that have ended, and of the rest. -/
def learnDone (s : State) (n : Axis) : RsvAx :=
  phaseSums s n (psiTick s (drvOf n) ((s.exc[drvOf n]).periods : Rat)) (psiTick s (drvOf n) 50)

/-- PHASE_LEARN_END: 50 excitation periods after the start of a learn (R348, R664). -/
def execPhaseLearnEnd (n : Axis) (s : State) : Host.Outcome State Fault Refusal :=
  let d := drvOf n
  if inRun s && (s.exc[d]).on && (s.rsv[n]).learnPhase then
    let s := toTick s (psiTick s d 50)
    let r := learnDone s n
    .next (adoptLearn s n r.learnedPhase (r.ampSum / (r.ampN : Rat)))
  else .next s

/-! ### Compensation (R370, R371) -/

/-- An entry of a table. -/
def tableAt (t : Table) (b : Nat) : Int := (cellGet t (b % 2048)).getD 0

/-- A table with an entry written. -/
def tablePut (t : Table) (b : Nat) (v : Int) : Table := if v = 0 then cellDel t (b % 2048) else cellPut t (b % 2048) v

/-- θ̂ as the 32-bit count of R361. -/
def thetaCounts (theta : Rat) : Int := (theta * 65536).floor

/-- Whether the compensation applies: enabled, with a good table (R371, R387). -/
def cmpActive (s : State) (n : Axis) : Bool := rgN s (Sig.RSV_CMP_EN n.val) == 1 && (s.rsv[n]).tableOk

/-- c(θ) in turns (R370). -/
def compensation (s : State) (n : Axis) (theta : Rat) : Rat :=
  if cmpActive s n then
    let c := (thetaCounts theta % 65536).toNat
    let b := c / 32
    let f : Rat := (c % 32 : Nat) / 32
    ((tableAt (s.rsv[n]).table b : Rat) * (1 - f) + (tableAt (s.rsv[n]).table (b + 1) : Rat) * f) / 1048576
  else 0

/-- The largest magnitude of a table's entries (RSV_CMP_PEAK). -/
def tablePeak (t : Table) : Nat := t.foldl (fun m x => max m x.2.natAbs) 0

/-! ### Tracking (R359, R360, R363) -/

/-- K_I and K_P of a type-II loop of a bandwidth in Hz (R360). -/
def loopGains (bw : Nat) : Rat × Rat :=
  let wn := 2 * Config.pi * ((bw : Rat) / (2058 / 1000))
  (wn * wn, 2 * (707 / 1000) * wn)

/-- V_trk in turn/s (R363). -/
def vTrk (s : State) (n : Axis) : Rat := min 1000 ((excFreq s (drvOf n) : Rat) / 8)

/-- The update of the tracking loop by a period's S and C; it answers the channel and ε in turns (R359). -/
def track (s : State) (n : Axis) (x : Demod) : RsvAx × Rat :=
  let r := s.rsv[n]
  let td := demodT s n
  let g := loopGains (rgN s (Sig.RSV_BW n.val))
  let thp := r.theta + r.omega * td
  let ph := thp + compensation s n thp
  let cs := Config.cosTurn ph
  let sn := Config.sinTurn ph
  let e := Config.atan2Turn (x.s * cs - x.c * sn) (x.s * sn + x.c * cs)
  let w := r.omega + g.1 * td * e
  ({ r with theta := thp + g.2 * td * e, omega := w, omx := w + g.2 * e }, e)

/-- The angle nearest to a frozen position that has a given place within the turn (R365). -/
def nearTurn (frozen mu : Rat) : Rat :=
  let f := mu - mu.floor
  f + (roundHalfUp (frozen - f) : Rat)

/-- The difference of two angles brought into ±½ turn (R374). -/
def wrapTurn (x : Rat) : Rat := x - (roundHalfUp x : Rat)

/-! ### Learning (R372 to R377) -/

/-- The bin sums with one more error in a bin. -/
def binAdd (bins : List BinSum) (b : Nat) (e : Rat) : List BinSum :=
  if bins.any (fun x => x.bin == b) then
    bins.map (fun x => if x.bin == b then { x with sum := x.sum + e, sq := x.sq + e * e, n := x.n + 1 } else x)
  else ⟨b, e, e * e, 1⟩ :: bins

/-- An accepted revolution fed into the bins: its periods as (centre, μ), start, length and direction (R374). -/
def feedRev (bins : List BinSum) (ps : List (Rat × Rat)) (t0 len : Rat) (dir : Int) : List BinSum :=
  let tau (t : Rat) : Rat := (dir : Rat) * (t - t0) / len
  let th0 := sumRat (ps.map (fun p => wrapTurn (p.2 - tau p.1))) / (ps.length : Rat)
  ps.foldl (fun bs p =>
    let x := tau p.1 + th0
    binAdd bs ((x - x.floor) * 2048).floor.toNat (wrapTurn (p.2 - tau p.1 - th0))) bins

/-- The table of the bins: entries rounded, their mean removed (R374). -/
def binTable (bins : List BinSum) : Table :=
  let es := bins.map (fun x => (x.bin, roundHalfUp (1048576 * x.sum / (x.n : Rat))))
  let mean : Rat := (es.foldl (fun m e => m + e.2) 0 : Int) / 2048
  es.foldl (fun t e => tablePut t e.1 (roundHalfUp ((e.2 : Rat) - mean))) []

/-- Whether the result of the bins is accepted (R374): entries within 971, scatter of every bin within 49, in 2⁻²⁰ turn. -/
def binsAccepted (bins : List BinSum) (t : Table) : Bool :=
  decide (tablePeak t ≤ 971) &&
    bins.all (fun x =>
      let m := x.sum / (x.n : Rat)
      decide ((x.sq / (x.n : Rat) - m * m) * 1099511627776 ≤ 2401))

/-- A table written to the ND over its older copy; one that runs is followed by another (R109, R378). -/
def storeTable (s : State) (n : Axis) : State :=
  modRsv s n (fun r => if r.storing.isSome then { r with storeNext := true } else { r with storing := some r.table })

/-- A learning run ended without a result (R377). -/
def endLearn (s : State) (n : Axis) : State := modRsv s n (fun r => { r with learn := Learn.init })

/-- A learning run judged after a revolution has been accepted; adopting its table is a safety task of the MP (R374 to R376, R489). -/
def judgeLearn (s : State) (n : Axis) (chk : Check) : State :=
  let l := (s.rsv[n]).learn
  let revs := rgN s (Sig.RSV_LEARN_REVS n.val)
  let full := decide ((l.bins.filter (fun x => decide (4 ≤ x.n))).length = 2048)
  if revs ≤ l.revs && full then
    let t := binTable l.bins
    if binsAccepted l.bins t then
      mpTask s chk (fun s =>
        let s := modRsv s n (fun r => { r with table := t, tableOk := true, learn := Learn.init })
        let s := storeTable (setB s (Sig.RSV_STAT n.val) 10 true) n
        stageEvent s 0x0010 0xFFFF 1 (leBytes 1 n.val ++ leBytes 2 (tablePeak t))) id
    else endLearn (setB s (Sig.RSV_STAT n.val) 11 true) n
  else if 4 * revs ≤ l.revs then endLearn (setB s (Sig.RSV_STAT n.val) 11 true) n
  else s

/-- Whether a channel's learning run collects now (R372): P4 work is scheduled, that is, the group of its rail has power left for class P4
and the reserve is not low (R450, R463, log entry 14). -/
def collecting (s : State) (n : Axis) : Bool :=
  (s.rsv[n]).learn.armed && decide (0 < (s.hc.spare.getD (railOf n).val []).getD 4 0) && !rgB s Sig.HC_LIVE 2

/-- Whether μ has crossed 0 between two periods in a direction. -/
def crossed (prev mu : Rat) (dir : Int) : Bool :=
  if 0 < dir then decide (1 / 4 < prev - prev.floor) && decide (prev - prev.floor > mu - mu.floor)
  else decide (prev - prev.floor < mu - mu.floor) && decide (1 / 4 < mu - mu.floor)

/-- One period of a learning run (R373): `clean` holds where the period was used and failed no TRACK or OVERSPEED check. -/
def learnPeriod (s : State) (n : Axis) (mu : Rat) (clean : Bool) (chk : Check) : State :=
  let r := s.rsv[n]
  let l := r.learn
  if !l.armed then s
  else
    let w := absRat r.omx * 65536
    let dir : Int := if r.omx < 0 then -1 else 1
    let ok := clean && collecting s n && decide ((rgN s (Sig.RSV_LEARN_VMIN n.val) : Rat) ≤ w) &&
      decide (w ≤ (rgN s (Sig.RSV_LEARN_VMAX n.val) : Rat)) && decide (l.dir = dir)
    let cross := match l.lastMu with
      | some p => crossed p mu dir
      | none => false
    if cross then
      match l.start with
      | some t0 =>
        let len := r.tk - t0
        let fits := match l.prevLen with
          | some p => decide (absRat (len - p) ≤ p / 200)
          | none => false
        let good := l.good && ok
        let bins := if good && fits then feedRev l.bins l.cur t0 len dir else l.bins
        let s := modRsv s n (fun r =>
          { r with learn := { l with revs := if good && fits then l.revs + 1 else l.revs, bins := bins, cur := [(r.tk, mu)],
                                     start := some r.tk, dir := dir, prevLen := if good then some len else none, good := true,
                                     lastMu := some mu } })
        if good && fits then judgeLearn s n chk else s
      | none =>
        modRsv s n (fun r =>
          { r with learn := { l with cur := [(r.tk, mu)], start := some r.tk, dir := dir, good := true, lastMu := some mu } })
    else
      modRsv s n (fun r =>
        { r with learn := { l with cur := if l.start.isSome then l.cur ++ [(r.tk, mu)] else [], good := l.good && ok,
                                   lastMu := some mu } })

/-! ### A demodulation period (R359 to R366, R369, R666) -/

/-- The telemetry of a channel after a period (R386). -/
def rsvTelemetry (s : State) (n : Axis) (a2 e dphi : Rat) : State :=
  let r := s.rsv[n]
  let c := thetaCounts r.theta
  let s := setI (setN s (Sig.RSV_ANGLE n.val) (c % 65536).toNat) (Sig.RSV_POS n.val) c
  let s := setTel s (Sig.RSV_SPEED n.val) (r.omx * 65536)
  let s := setTel s (Sig.RSV_AMP n.val) (16 * Config.sqrtRat a2)
  let s := setTel s (Sig.RSV_AMP_REF n.val) (16 * r.aNom)
  let s := setTel s (Sig.RSV_PHASE n.val) (r.phase * 65536)
  let s := setTel s (Sig.RSV_QUAD n.val) (dphi * 65536)
  setTel s (Sig.RSV_TRK_ERR n.val) (e * 65536)

/-- A failed check: its sticky bit and one event of its source (R369). -/
def rsvCheck (s : State) (n : Axis) (bad : Bool) (bit src : Nat) : State :=
  if bad then axFault (setB s (Sig.RSV_STAT n.val) bit true) n src else s

/-- A demodulation period of a channel that learns its phase (R348): tracking once the provisional phase stands, with the amplitude of
every period that has ended by 50 T_exc. -/
def learnDemod (s : State) (n : Axis) (lo hi : Nat) (tk : Rat) : State :=
  let d := drvOf n
  let tracks := decide (60 ≤ (s.rsv[n]).periods) && decide (30 ≤ (s.exc[d]).periods)
  let s := modRsv s n (fun r => { r with tk := tk, periods := r.periods + 1 })
  if tracks then
    let x := demodulate s n lo hi tk
    let t := track s n x
    let timely := decide (hi ≤ psiTick s d 50)
    rsvTelemetry (modRsv s n (fun r =>
      { t.1 with ampSum := if timely then r.ampSum + Config.sqrtRat x.a2 else r.ampSum,
                 ampN := if timely then r.ampN + 1 else r.ampN })) n x.a2 t.2 0
  else s

/-- The excitation period of a learn that ends at a number of periods (R348, R357): its sums, and after 30 the provisional phase, with which
the tracking loop acquires on the last half period with turn count 0. -/
def learnExc (s : State) (n : Axis) (k : Nat) : State :=
  let d := drvOf n
  if 50 < k then s
  else
    let s := modRsv s n (fun _ => phaseSums s n (psiTick s d ((k - 1 : Nat) : Rat)) (psiTick s d (k : Rat)))
    if k ≠ 30 then s
    else
      let s := modRsv s n (fun r => { r with phase := r.learnedPhase })
      let tk : Rat := ((s.exc[d]).start : Rat) + 160 * (119 / 4 * 4294967296 / (excInc s d : Rat))
      let mu := (demodulate s n (psiTick s d (59 / 2)) (psiTick s d 30) tk).mu
      modRsv s n (fun r =>
        { r with theta := mu - mu.floor, omega := 0, omx := 0, tk := tk, periods := max 60 r.periods,
                 since := psiTick s d (30 + r.phase) })

/-- A used period: the tracking update, the drift of φ_n (R358), its checks, and the count toward ANGLE_VALID (R666). -/
def usedPeriod (s : State) (n : Axis) (x : Demod) (dphi : Rat) : State × Rat × Bool :=
  let t := track s n x
  let step := clampRat (dphi / 64) (-1 / 720) (1 / 720)
  let s := modRsv s n (fun _ => { t.1 with phase := t.1.phase + step, coast := 0,
                                           validCnt := if t.1.valid then t.1.validCnt else t.1.validCnt + 1,
                                           valid := t.1.valid || decide (t.1.validCnt + 1 = 16) })
  let badT := decide ((rgN s (Sig.RSV_TRK_ERR_MAX n.val) : Rat) < absRat t.2 * 65536)
  let badV := decide (vTrk s n < absRat t.1.omx)
  (rsvCheck (rsvCheck s n badT 4 15) n badV 5 16, t.2, !(badT || badV))

/-- A period that is not used (R363 to R366): θ̂ advances by ω̂ × T_d with ε at 0, and the channel coasts, or is lost after more than
RSV_COAST_MAX of them; the speed at the loss is the one before ω̂ becomes 0 (R398). -/
def unusedPeriod (s : State) (n : Axis) : State :=
  let was := s.rsv[n]
  let s := incR s (Sig.RSV_FAIL_COUNT n.val)
  let s := rsvCheck s n (decide (vTrk s n < absRat was.omega)) 5 16
  let s := modRsv s n (fun r => { r with theta := r.theta + r.omega * demodT s n, omx := r.omega, coast := r.coast + 1,
                                         validCnt := if r.valid then r.validCnt else 0 })
  if rgN s (Sig.RSV_COAST_MAX n.val) < was.coast + 1 then
    let s := setB s (Sig.RSV_STAT n.val) 8 true
    let s := modRsv s n (fun r => { r with lost := true, valid := false, coast := 0, good := 0, validCnt := 0, learn := Learn.init })
    let s := if was.valid then resolverLoss s n else s
    modRsv s n (fun r => { r with omega := 0, omx := 0 })
  else s

/-- A period of a lost channel (R365, R666): the eighth usable one in a row reacquires. -/
def lostPeriod (s : State) (n : Axis) (usable : Bool) (mu : Rat) : State :=
  let r := s.rsv[n]
  if !usable then incR (modRsv s n (fun r => { r with good := 0 })) (Sig.RSV_FAIL_COUNT n.val)
  else if r.good + 1 = 8 then
    setB (modRsv s n (fun r =>
      { r with lost := false, good := 0, coast := 0, validCnt := 0, theta := nearTurn r.theta mu, omega := 0, omx := 0, mt := true }))
      (Sig.RSV_STAT n.val) 9 true
  else modRsv s n (fun r => { r with good := r.good + 1 })

/-- A period of a channel whose checks are armed. -/
def armedPeriod (s : State) (n : Axis) (lo hi : Nat) (tk : Rat) (chk : Check) : State :=
  let r := s.rsv[n]
  let x := demodulate s n lo hi tk
  let badA := ampOut s n x.a2 r.aNom
  let s := rsvCheck s n badA 0 11
  let usable := !badA && !r.excBad
  let s := modRsv s n (fun r => { r with tk := tk, periods := r.periods + 1, excBad := false })
  let dphi := if usable then Config.atan2Turn (x.qS * x.dS + x.qC * x.dC) (x.dS * x.dS + x.dC * x.dC) else 0
  let s := rsvCheck s n (decide ((rgN s (Sig.RSV_QUAD_MAX n.val) : Rat) < absRat dphi * 65536)) 3 14
  if r.lost then rsvTelemetry (lostPeriod s n usable x.mu) n x.a2 0 dphi
  else if usable then
    let u := usedPeriod s n x dphi
    rsvTelemetry (learnPeriod u.1 n x.mu u.2.2 chk) n x.a2 u.2.1 dphi
  else rsvTelemetry (learnPeriod (unusedPeriod s n) n x.mu false chk) n x.a2 0 dphi

/-- DEMOD_PERIOD_END: the demodulation period of a channel ends (R353 to R369). A start that is not a first start judges nothing during
its ramp of 10 excitation periods (R348). -/
def execDemodPeriodEnd (n : Axis) (chk : Check) (s : State) : Host.Outcome State Fault Refusal :=
  let d := drvOf n
  if inRun s && (s.exc[d]).on && (s.rsv[n]).en then
    let r := s.rsv[n]
    let k : Rat := (r.periods : Rat)
    let t := psiTick s d ((k + 1) / 2 + r.phase)
    let tk : Rat := ((s.exc[d]).start : Rat) + 160 * (((2 * k + 1) / 4 + r.phase) * 4294967296 / (excInc s d : Rat))
    let s := modRsv (toTick s t) n (fun r => { r with since := t })
    if r.learnPhase then .next (learnDemod s n r.since t tk)
    else if r.faulted || (r.lost && decide (r.periods < 20)) then
      .next (modRsv s n (fun r => { r with periods := r.periods + 1, excBad := false }))
    else .next (armedPeriod s n r.since t tk chk)
  else .next s

/-! ### An excitation period (R345, R346, R352, R369, R667) -/

/-- The DC of an input of a channel over the samples held from one tick and before another, in LSB (R354). -/
def dcOf (s : State) (n : Axis) (cos : Bool) (lo hi : Nat) : Rat :=
  let ys := samplesIn s 2 (rsvSlot n cos) lo hi
  (sumNat (ys.map Prod.snd) : Rat) / (ys.length : Rat) - 2048

/-- Whether the amplifier has no headroom for an amplitude in 10 mV rms at a supply in mV: √2 × A_rms exceeds VEXC − 1.5 V (R345). -/
def noHeadroom (vexc amp : Nat) : Bool := decide (vexc < 1500) || decide ((vexc - 1500) ^ 2 < 2 * (10 * amp) ^ 2)

/-- The offset and open-wire results of a channel for the excitation period that ends (R352, R369). -/
def excChannel (s : State) (n : Axis) (lo hi : Nat) (ramp : Bool) : State :=
  let r := s.rsv[n]
  let s := modRsv s n (fun r => { r with probe := false })
  let oS := dcOf s n false lo hi
  let oC := dcOf s n true lo hi
  let max : Rat := (rgN s (Sig.RSV_OFS_MAX n.val) : Rat)
  let judged := !r.learnPhase && !r.faulted && !ramp
  if r.probe then
    let bad := judged && (decide (max < absRat (oS - r.ofsS)) || decide (max < absRat (oC - r.ofsC)))
    rsvCheck (if bad then modRsv s n (fun r => { r with excBad := true }) else s) n bad 2 13
  else
    let bad := judged && (decide (max < absRat oS) || decide (max < absRat oC))
    let s := modRsv s n (fun r => { r with ofsS := oS, ofsC := oC, excBad := r.excBad || bad })
    let s := setTel (setTel s (Sig.RSV_OFS_S n.val) (16 * oS)) (Sig.RSV_OFS_C n.val) (16 * oC)
    rsvCheck s n bad 1 12

/-- EXC_PERIOD_END: an excitation period of a driver ends; `limited` says that the current limit acted in it; a faulted
channel counts no event (R345, R346, R367, R369, R667). VEXC is judged once a 1 ms mean of it stands in this RUN (R345, R254). -/
def execExcPeriodEnd (drv : Fin 2) (limited : Bool) (s : State) : Host.Outcome State Fault Refusal :=
  let e := s.exc[drv]
  if inRun s && e.on then
    let lo := psiTick s drv (e.periods : Rat)
    let t := psiTick s drv ((e.periods : Rat) + 1)
    let s := toTick s t
    let peak := (samplesIn s 3 (if drv = 0 then 14 else 30) lo t).foldl (fun m x => max m ((x.2 : Int) - 2048).natAbs) 0
    let head := decide (1 < markOf s keyHk) && noHeadroom (rgN s Sig.VEXC_MV) (rgN s (Sig.RSV_EXC_AMP (drvAxis drv).val))
    let ramp := decide (e.periods < 10)
    let s := modExc s drv (fun e => { e with periods := e.periods + 1 })
    let s := forEach (drvAxes drv) s (fun s n => setTel s (Sig.RSV_EXC_IPK n.val) ((peak : Rat) / 4))
    .next (forEach ((drvAxes drv).filter (fun n => (s.rsv[n]).en)) s (fun s n =>
      let s := if head then setB s (Sig.RSV_STAT n.val) 7 true else s
      let s := if limited && (s.rsv[n]).faulted then setB s (Sig.RSV_STAT n.val) 6 true else rsvCheck s n limited 6 17
      let s := if (s.rsv[n]).learnPhase then learnExc s n (e.periods + 1) else s
      excChannel s n lo t ramp))
  else .next s

/-- The key of a channel's probe interval. -/
def keyProbe (n : Axis) : Nat := 0x50 + n.val

/-- OPEN_WIRE_PROBE: every RSV_PROBE_PER the bias of the channel moves for one excitation period (R352). -/
def execOpenWireProbe (n : Axis) (s : State) : Host.Outcome State Fault Refusal :=
  let per := rgN s (Sig.RSV_PROBE_PER n.val)
  if inRun s && (s.exc[drvOf n]).on && (s.rsv[n]).en && per != 0 then
    let s := toTick s (markOf s (keyProbe n))
    .next (modRsv (setMark s (keyProbe n) (s.clk.tb + 400000 * per)) n (fun r => { r with probe := true }))
  else .next s

/-! ### Position outputs (R362) -/

/-- θ(t) in turns at a tick (R362). -/
def rsvAt (s : State) (n : Axis) (t : Rat) : Rat :=
  let r := s.rsv[n]
  r.theta + r.omx * ((t - r.tk) / 400000000)

/-! ### Table accesses (R377, R378) -/

/-- The effect of a write of RSV_CMP_CTRL (R372, R377, R378). -/
def cmpCtrl (s : State) (n : Axis) (v : Nat) : State :=
  match v with
  | 1 => modRsv s n (fun r => { r with learn := { Learn.init with armed := true } })
  | 2 => endLearn s n
  | 3 => storeTable (modRsv s n (fun r => { r with table := [], tableOk := true, learn := Learn.init })) n
  | _ => storeTable s n

/-- TABLE_WRITE_END: the ND write of a channel's table completes over the older copy; a STORE that waited begins (R109, R378). -/
def execTableWriteEnd (n : Axis) (s : State) : Host.Outcome State Fault Refusal :=
  match (s.rsv[n]).storing with
  | none => .next s
  | some t =>
    .next (modRsv (idleAgain s) n (fun r =>
      let r := if r.ndNewB then { r with ndA := t, ndNewB := false } else { r with ndB := t, ndNewB := true }
      if r.storeNext then { r with storing := some r.table, storeNext := false } else { r with storing := none }))

/-- The next index after an access of RSV_CMP_VAL (R378). -/
def cmpAdvance (s : State) (n : Axis) : State :=
  setN s (Sig.RSV_CMP_IDX n.val) ((rgN s (Sig.RSV_CMP_IDX n.val) + 1) % 2048)

/-- A read of RSV_CMP_VAL: the entry, and the index advanced (R378). -/
def cmpValRead (s : State) (n : Axis) : State × Word :=
  (cmpAdvance s n, BitVec.ofInt 32 (tableAt (s.rsv[n]).table (rgN s (Sig.RSV_CMP_IDX n.val))))

/-- A write of RSV_CMP_VAL: the entry in CD memory, and the index advanced (R378). -/
def cmpValWrite (s : State) (n : Axis) (v : Word) : State :=
  cmpAdvance (modRsv s n (fun r => { r with table := tablePut r.table (rgN s (Sig.RSV_CMP_IDX n.val)) v.toInt })) n

/-- A write of RSV_TURNS: bits [31:16] of θ̂, and MT_SUSPECT clears (R366). -/
def turnsWrite (s : State) (n : Axis) (v : Word) : State :=
  let s := setR s (Sig.RSV_TURNS n.val) v
  let s := modRsv s n (fun r => { r with theta := (v.toInt : Rat) + (r.theta - r.theta.floor), mt := false })
  let c := thetaCounts (s.rsv[n]).theta
  setI s (Sig.RSV_POS n.val) c

/-! ### Encoder emulation (R380 to R384) -/

/-- Whether a channel has an emulation set (R380). -/
def emAssigned (s : State) (n : Axis) : Bool := rgN s (Sig.RSV_EM_SET n.val) != 0x0F

/-- C_tgt at a tick (R381). -/
def emTarget (s : State) (n : Axis) (t : Rat) : Int :=
  let c := (rsvAt s n t * (4 * rgN s (Sig.RSV_EM_LINES n.val) : Nat)).floor
  if rgB s (Sig.RSV_EM_CFG n.val) 2 then -c else c

/-- The output count set to its target without edges (R384). -/
def emResync (s : State) (n : Axis) : State :=
  if emAssigned s n then
    let c := emTarget s n s.clk.tb
    let s := modRsv s n (fun r => { r with emOut := c, emFreeze := c })
    setI (setB s (Sig.RSV_STAT n.val) 14 true) (Sig.RSV_EM_COUNT n.val) c
  else s

/-- The emulation at a profile clock (R381, R382, R384). -/
def emClock (s : State) (n : Axis) : State :=
  if emAssigned s n then
    let s := if (s.rsv[n]).valid then modRsv s n (fun r => { r with emFreeze := emTarget s n s.clk.tb }) else s
    let r := s.rsv[n]
    let d := r.emFreeze - r.emOut
    let s := if 4 < d.natAbs then setB s (Sig.RSV_STAT n.val) 12 true else s
    let fast := decide (10000000 < absRat r.omx * (4 * rgN s (Sig.RSV_EM_LINES n.val) : Nat))
    let s := if fast then setB s (Sig.RSV_STAT n.val) 13 true else s
    if r.valid && d != 0 then
      let c := if 0 < d then r.emOut + 1 else r.emOut - 1
      setI (modRsv s n (fun r => { r with emOut := c })) (Sig.RSV_EM_COUNT n.val) c
    else s
  else s

/-- The levels of the lines A, B and Z of a channel's emulation by its count (R381, R383). -/
def emLines (s : State) (n : Axis) : Bool × Bool × Bool :=
  let c := (s.rsv[n]).emOut
  let l := rgN s (Sig.RSV_EM_LINES n.val)
  let q := c % 4
  let z : Int := ((4 * (rgN s (Sig.RSV_EM_ZOFS n.val) * l / 65536) + 2 : Nat) : Int)
  (decide (q = 1 ∨ q = 2), decide (q = 2 ∨ q = 3), decide (c % ((4 * l : Nat) : Int) = z))

/-- The levels of the balls EMAk, EMBk and EMZk: those of the channel that the set is assigned to with PINS 1, in RUN; else low (R41, R380,
R384). -/
def emBalls (s : State) (k : Fin 4) : Bool × Bool × Bool :=
  match allAxes.find? (fun n => rgN s (Sig.RSV_EM_SET n.val) == k.val && rgB s (Sig.RSV_EM_CFG n.val) 0) with
  | some n => if inRun s then emLines s n else (false, false, false)
  | none => (false, false, false)

/-- RSV_LIVE (R387). -/
def rsvLive (s : State) (n : Axis) : Nat :=
  let r := s.rsv[n]
  bitIf r.learnPhase 7 + bitIf (collecting s n) 6 + bitIf r.learn.armed 5 + bitIf (cmpActive s n) 4 + bitIf r.mt 3 +
    bitIf (r.lost || decide (0 < r.coast)) 2 + bitIf r.valid 1 + bitIf (s.exc[drvOf n]).on 0

end Sys2Proof.Machine
end

