-- ==== Sys2Proof/Machine/Feedback.lean ====
section
/-! DEFINITION. The feedback inputs (chapter 14): the filter's acceptance (R413, R414), quadrature, Hall, step and wheel-speed counting
(R408 to R417), position, angle and speed (R418 to R420), the index (R422 to R425), ring streams (R426, R427) and the wheel-speed
front end (R411, R412). -/

namespace Sys2Proof.Machine

/-! ### Modes and units (R408) -/

/-- FB_MODE of an axis. -/
def fbMode (s : State) (n : Axis) : Nat := rgN s (Sig.FB_MODE n.val)

/-- CPT: counts per feedback turn (R408). -/
def fbCpt (s : State) (n : Axis) : Nat :=
  match fbMode s n with
  | 1 | 5 => 4 * rgN s (Sig.FB_LINES n.val)
  | 2 => 6 * rgN s (Sig.LP_EANG_MUL n.val)
  | _ => rgN s (Sig.FB_LINES n.val)

/-- Whether FB_INV negates the steps (R408). -/
def fbInv (s : State) (n : Axis) : Bool := rgN s (Sig.FB_INV n.val) == 1

/-- The filter clock of an axis in ticks (R413). -/
def fbClock (s : State) (n : Axis) : Nat := 4 * 2 ^ rgN s (Sig.FB_FILT_PRE n.val)

/-- t_filt of an axis in ticks (R413). -/
def fbFilt (s : State) (n : Axis) : Nat := rgN s (Sig.FB_FILT_N n.val) * fbClock s n

/-- An event of a feedback fault source, counted in FB_ERR_COUNT (R428). -/
def fbErr (s : State) (n : Axis) (src : Nat) : State := axFault (incR s (Sig.FB_ERR_COUNT n.val)) n src

/-! ### Count, position, speed and angle (R418 to R420) -/

/-- A count as the 48 bits of FBn hold it (R418). -/
def wrap48 (c : Int) : Int := (BitVec.ofInt 48 c).toInt

/-- The steps of an input that its filter accepts only after a tick (R414, R421). -/
def stepsAfter (s : State) (n : Axis) (t : Nat) : List (Nat × Bool) :=
  let lag := if fbMode s n = 5 then 0 else fbFilt s n
  (s.fb[n]).steps.takeWhile (fun x => decide (t < x.1 + lag))

/-- FBn as it stood at a tick: without the steps accepted after it; the count in its 48 bits, the newest boundary with it (R287, R418,
R419; log entry 32). -/
def fbAt (s : State) (n : Axis) (t : Nat) : FbAx :=
  let f := s.fb[n]
  let late := stepsAfter s n t
  let c := f.count - (late.map (fun x => if x.2 then (1 : Int) else -1)).sum
  let left := f.steps.drop late.length
  let b : Int :=
    if late.isEmpty then f.edge
    else match left with
      | e :: _ => if e.2 then c else c + 1
      | [] => c
  { f with count := wrap48 c, edge := wrap48 c + (b - c), steps := left }

/-- FB_POS at a tick, before it wraps (R287, R418). -/
def fbPosAt (s : State) (n : Axis) (t : Nat) : Int := ((fbAt s n t).count * 65536) / (fbCpt s n : Int)

/-- FB_POS before it wraps (R418). -/
def fbPos (s : State) (n : Axis) : Int := fbPosAt s n s.clk.tb

/-- A count step at a timestamp (R418, R420). -/
def FbAx.step (f : FbAx) (ts : Nat) (fwd : Bool) : FbAx :=
  let c := if fwd then f.count + 1 else f.count - 1
  { f with count := c, edge := max c f.count, steps := ((ts, fwd) :: f.steps).take 64, still := false }

/-- Several count steps at one timestamp (R421). -/
def fbSteps : Nat → FbAx → Nat → Bool → FbAx
  | 0, f, _, _ => f
  | k + 1, f, ts, fwd => fbSteps k (f.step ts fwd) ts fwd

/-- The count set to a value without a step (R417). -/
def FbAx.setCount (f : FbAx) (c : Int) : FbAx := { f with edge := if f.count ≤ c then c else c + 1, count := c }

/-- The count corrected by `k`, with everything that is measured from it (R424, R425). -/
def FbAx.shift (f : FbAx) (k : Int) : FbAx := { f with count := f.count + k, edge := f.edge + k }

/-- The steps of the newest direction, newest first (R420). -/
def sameDir : List (Nat × Bool) → List (Nat × Bool)
  | [] => []
  | x :: xs => x :: xs.takeWhile (fun y => y.2 == x.2)

/-- The speed at an instant in turn/s, and whether the standstill time has passed (R420). -/
def fbSpeed (s : State) (n : Axis) (t : Nat) : Rat × Bool :=
  let f := fbAt s n t
  match f.steps with
  | [] => (0, false)
  | e :: _ =>
    let dir : Rat := if e.2 then 1 else -1
    let cpt : Rat := (fbCpt s n : Rat)
    let age : Rat := ((t - e.1 : Nat) : Rat) / 400000000
    let slow : Rat := dir / (age * cpt)
    if 400000 * rgN s (Sig.FB_STILL_TIME n.val) ≤ t - e.1 then (0, true)
    else
      match sameDir f.steps with
      | e :: e1 :: es =>
        let win := es.takeWhile (fun x => decide (e.1 - x.1 ≤ 400 * rgN s (Sig.FB_SPD_WIN n.val)))
        let m : Nat := if e.1 - e1.1 ≤ 400 * rgN s (Sig.FB_SPD_WIN n.val) then win.length + 1 else 1
        let e0 := if m = 1 then e1 else win.getLastD e1
        let span : Rat := ((e.1 - e0.1 : Nat) : Rat) / 400000000
        if span / (m : Rat) < age then (slow, false) else (dir * (m : Rat) / (span * cpt), false)
      | _ => (slow, false)

/-- θ_fb at an instant, in turns (R419). -/
def fbAngle (s : State) (n : Axis) (t : Nat) : Rat :=
  let f := fbAt s n t
  let cpt := fbCpt s n
  let te : Nat := (f.steps.headD (t, true)).1
  let x : Rat := (f.edge : Rat) / (cpt : Rat) + (fbSpeed s n t).1 * (((t : Rat) - (te : Rat)) / 400000000)
  if x < (f.count : Rat) / (cpt : Rat) then (f.count : Rat) / (cpt : Rat)
  else if ((f.count + 1 : Int) : Rat) / (cpt : Rat) ≤ x then Config.fbTop f.count cpt
  else x

/-- STILL evaluated at an instant (R420). -/
def fbStillAt (s : State) (n : Axis) (t : Nat) : State :=
  if (stepsAfter s n t).isEmpty && (fbSpeed s n t).2 then modFb s n (fun f => { f with still := true }) else s

/-! ### The index (R422 to R425) -/

/-- The nearest whole number of a quotient, half away from zero (R422). -/
def roundHalfAway (x : Rat) : Int := if x < 0 then -roundHalfUp (-x) else roundHalfUp x

/-- An index capture of a count: the check of R422, and the correction that FB_Z_MODE gives (R424, R425). -/
def fbCapture (s : State) (n : Axis) (cap : Int) : State :=
  let f := s.fb[n]
  let turn : Int := ((4 * rgN s (Sig.FB_LINES n.val) : Nat) : Int)
  let d : Int := match f.zRef with
    | some r => cap - r - turn * roundHalfAway (((cap - r : Int) : Rat) / (turn : Rat))
    | none => 0
  let bad := decide (rgN s (Sig.FB_Z_TOL n.val) < d.natAbs)
  let zm := rgN s (Sig.FB_Z_MODE n.val)
  let home := zm == 1 && f.armed
  let rehome := zm == 2 && bad && fbMode s n == 1
  let blocked := decide (axSt s n = .position) && rgN s (Sig.LP_FB_SRC n.val) == 1
  let s := setI s (Sig.FB_Z_COUNT n.val) cap
  let s := if bad then fbErr (setI (setB s (Sig.FB_STAT n.val) 1 true) (Sig.FB_Z_DEV n.val) d) n 23 else s
  if (home || rehome) && blocked then
    modFb (setB s (Sig.FB_STAT n.val) 10 true) n (fun f => { f with zRef := some cap, zAbs := some cap })
  else if home then
    let h := rgI s (Sig.FB_Z_HOME n.val)
    modFb s n (fun f => { f.shift (h - cap) with zRef := some h, zAbs := some h, armed := false, homed := true })
  else if rehome then
    modFb (setB s (Sig.FB_STAT n.val) 9 true) n (fun f => { f.shift (-d) with zRef := none, zAbs := some (cap - d) })
  else modFb s n (fun f => { f with zRef := some cap, zAbs := some cap })

/-- The check for a missing index after a count change without a capture (R423). -/
def fbAbsent (s : State) (n : Axis) : State :=
  let f := s.fb[n]
  let turn : Int := ((4 * rgN s (Sig.FB_LINES n.val) : Nat) : Int)
  match f.zAbs with
  | none => s
  | some r =>
    if turn + (rgN s (Sig.FB_Z_TOL n.val) : Int) < ((f.count - r).natAbs : Int) then
      let s := modFb s n (fun f => { f with zAbs := some (if r < f.count then r + turn else r - turn) })
      fbErr (setB s (Sig.FB_STAT n.val) 2 true) n 23
    else s

/-! ### Accepted edges (R413 to R417) -/

/-- The place of a pair of levels in the quadrature sequence of a forward turn (R382). -/
def quadPlace (a b : Bool) : Nat := if b then (if a then 2 else 3) else (if a then 1 else 0)

/-- The sector of a Hall code, where it is valid (R416). -/
def hallSector (a b z : Bool) : Option Nat :=
  match a, b, z with
  | true, false, true => some 0
  | true, false, false => some 1
  | true, true, false => some 2
  | false, true, false => some 3
  | false, true, true => some 4
  | false, false, true => some 5
  | _, _, _ => none

/-- A quadrature acceptance (R408, R415, R422). -/
def fbQuad (s : State) (n : Axis) (ts : Nat) (a b z : Bool) : State :=
  let f := s.fb[n]
  let s := modFb s n (fun f => { f with a := a, b := b, z := z })
  let s :=
    if a != f.a && b != f.b then fbErr (setB s (Sig.FB_STAT n.val) 0 true) n 21
    else if a != f.a || b != f.b then
      let fwd := (quadPlace a b + 4 - quadPlace f.a f.b) % 4 == 1
      modFb s n (fun f => f.step ts (fwd != fbInv s n))
    else s
  if rgN s (Sig.FB_Z_EN n.val) == 1 then
    if z && !f.z then fbCapture s n (s.fb[n]).count else fbAbsent s n
  else s

/-- A Hall acceptance (R416, R417). -/
def fbHall (s : State) (n : Axis) (ts : Nat) (a b z : Bool) : State :=
  let s := modFb s n (fun f => { f with a := a, b := b, z := z })
  match hallSector a b z with
  | none => fbErr (setB s (Sig.FB_STAT n.val) 3 true) n 22
  | some sec =>
    let f := s.fb[n]
    let sec : Int := if fbInv s n then (6 - (sec : Int)) % 6 else (sec : Int)
    let d := (sec - f.count) % 6
    let near := if d ≤ 3 then f.count + d else f.count + d - 6
    if f.fresh then modFb s n (fun f => { f.setCount near with fresh := false })
    else if d = 1 then modFb s n (fun f => f.step ts true)
    else if d = 5 then modFb s n (fun f => f.step ts false)
    else if d = 0 then s
    else fbErr (setB (modFb s n (fun f => f.setCount near)) (Sig.FB_STAT n.val) 4 true) n 22

/-- The key of a line's last acceptance; line 3 is any line. -/
def keyFb (n : Axis) (line : Nat) : Nat := 0x200 + 4 * n.val + line

/-- Time brought forward to the filter clock at which the changed lines are accepted (R413). -/
def fbTime (s : State) (n : Axis) (lines : List Nat) : State :=
  let t0 := (lines.map (fun l => markOf s (keyFb n l) + fbFilt s n)).foldl max (max s.clk.tb (markOf s (keyFb n 3)))
  let s := toTick s (nextTick t0 (fbClock s n) 0)
  let s := forEach lines s (fun s l => setMark s (keyFb n l) s.clk.tb)
  setMark s (keyFb n 3) (s.clk.tb + 1)

/-- FB_EDGE_ACCEPT: the filter accepts new levels of the lines that the mode uses (R408, R413, R414). -/
def execFbEdgeAccept (n : Axis) (a b z : Bool) (s : State) : Host.Outcome State Fault Refusal :=
  let f := s.fb[n]
  let mode := fbMode s n
  let useB := mode == 1 || mode == 2 || mode == 3
  let useZ := mode == 2 || (mode == 1 && rgN s (Sig.FB_Z_EN n.val) == 1)
  let b := if useB then b else f.b
  let z := if useZ then z else f.z
  let lines := (if a != f.a then [0] else []) ++ (if b != f.b then [1] else []) ++ (if z != f.z then [2] else [])
  if inRun s && (useB || (mode == 4 && !f.wssOff)) && !lines.isEmpty then
    let s := fbTime s n lines
    let ts := s.clk.tb - fbFilt s n
    .next (match mode with
      | 1 => fbQuad s n ts a b z
      | 2 => fbHall s n ts a b z
      | 3 =>
        modFb s n (fun f => let g := { f with a := a, b := b }; if a && !f.a then g.step ts (b != fbInv s n) else g)
      | _ =>
        let fwd := (rgN s (Sig.FB_WSS_SIGN n.val) == 0) != fbInv s n
        modFb s n (fun f => let g := { f with a := a }; if a && !f.a then g.step ts fwd else g))
  else .next s

/-- FB_STILL: no step for FB_STILL_TIME (R420). -/
def execFbStill (n : Axis) (s : State) : Host.Outcome State Fault Refusal :=
  match (s.fb[n]).steps with
  | [] => .next s
  | e :: _ =>
    if inRun s && fbMode s n != 0 && !(s.fb[n]).still then
      let s := toTick s (e.1 + 400000 * rgN s (Sig.FB_STILL_TIME n.val))
      .next (modFb s n (fun f => { f with still := true }))
    else .next s

/-! ### Ring streams (R426, R427) -/

/-- A failed check of a ring stream. -/
def fbStreamFail (s : State) (n : Axis) : State := fbErr (setB s (Sig.FB_STAT n.val) 7 true) n 25

/-- `x` as a signed 32-bit difference. -/
def signed32 (x : Int) : Int := (BitVec.ofInt 32 x).toInt

/-- A valid stream frame of a ring cycle: C_out, L and Z_c (R426, R427). -/
def fbStream (s : State) (n : Axis) (cOut : Int) (l zc : Nat) : State :=
  let f := s.fb[n]
  let s := modFb s n (fun f => { f with cOut := some cOut, missing := 0 })
  let d := match f.cOut with
    | some p => signed32 (cOut - p)
    | none => 0
  if l ≠ rgN s (Sig.FB_LINES n.val) ∨ 100 < d.natAbs then fbStreamFail s n
  else if d = 0 then s
  else
    let inv := fbInv s n
    let s := modFb s n (fun f => fbSteps d.natAbs f s.clk.tb (decide (0 < d) != inv))
    let turn : Int := ((4 * l : Nat) : Int)
    -- How far C_out has passed the value congruent to Z_c, in the direction of motion.
    let past := if 0 < d then (cOut - (zc : Int)) % turn else ((zc : Int) - cOut) % turn
    if past < (d.natAbs : Int) then
      let signedPast := if decide (0 < d) != inv then past else -past
      fbCapture s n ((s.fb[n]).count - signedPast)
    else fbAbsent s n

/-- A ring cycle without a valid stream frame (R426): one event per two missing cycles. -/
def fbNoStream (s : State) (n : Axis) : State :=
  let m := (s.fb[n]).missing + 1
  if 2 ≤ m then fbStreamFail (modFb s n (fun f => { f with missing := 0 })) n
  else modFb s n (fun f => { f with missing := m })

/-! ### The wheel-speed front end (R411, R412) -/

/-- Whether the sensor supply of an axis is on (R412). -/
def wssPower (s : State) (n : Axis) : Bool := inRun s && fbMode s n == 4 && !(s.fb[n]).wssOff

/-- The key of a retry of the sensor supply. -/
def keyWss (n : Axis) : Nat := 0x240 + n.val

/-- WSS_OPEN: below 3.5 mA for 100 µs; the count holds (R412). -/
def execWssOpen (n : Axis) (s : State) : Host.Outcome State Fault Refusal :=
  if wssPower s n then .next (fbErr (setB s (Sig.FB_STAT n.val) 5 true) n 24) else .next s

/-- The sensor supply switched off after an over-current, a retry due in 100 ms (R412). -/
def wssTrip (s : State) (n : Axis) : State :=
  let s := modFb (setB s (Sig.FB_STAT n.val) 6 true) n (fun f => { f with wssOff := true })
  fbErr (setMark s (keyWss n) (s.clk.tb + 40000000)) n 24

/-- WSS_SHORT: above 30 mA for 100 µs, or above 45 mA (R412). -/
def execWssShort (n : Axis) (s : State) : Host.Outcome State Fault Refusal :=
  if wssPower s n then .next (wssTrip s n) else .next s

/-- WSS_RETRY: every 100 ms the supply is switched on again; where the short stands it trips after another 100 µs (R412). -/
def execWssRetry (n : Axis) (stillShort : Bool) (s : State) : Host.Outcome State Fault Refusal :=
  if inRun s && fbMode s n == 4 && (s.fb[n]).wssOff then
    let s := toTick s (markOf s (keyWss n))
    let s := modFb s n (fun f => { f with wssOff := false })
    .next (if stillShort then wssTrip (toTick s (s.clk.tb + 40000)) n else s)
  else .next s

/-- FB_LIVE (R429). -/
def fbLive (s : State) (n : Axis) : Nat :=
  let f := s.fb[n]
  let hall := if fbMode s n = 2 then 4 * bitIf f.a 0 + 2 * bitIf f.b 0 + bitIf f.z 0 else 0
  hall * 2 ^ 11 + bitIf f.z 10 + bitIf f.b 9 + bitIf f.a 8 + bitIf (wssPower s n) 5 + bitIf f.wssOff 4 + bitIf f.homed 3 +
    bitIf (!(f.steps.headD (0, true)).2) 2 + bitIf f.still 1 + bitIf (inRun s && fbMode s n != 0) 0

/-- FB_PERIOD: the interval between the two newest steps, in 10 ns (R428). -/
def fbPeriod (s : State) (n : Axis) : Nat :=
  match (s.fb[n]).steps with
  | e :: e1 :: _ => (e.1 - e1.1) / 4 % 2 ^ 32
  | _ => 0

/-- A write of FB_MODE: index reference and Hall start anew (R417, R422), the sensor supply on in mode 4 (R412). -/
def fbModeWritten (s : State) (n : Axis) : State :=
  modFb s n (fun f => { f with zRef := none, zAbs := none, fresh := true, wssOff := false, cOut := none, missing := 0 })

/-- RUN left: whether edges are lost until the next RUN (R410). -/
def fbRunExit (s : State) (n : Axis) : State := modFb s n (fun f => { f with gap := fbMode s n != 0 })

/-- RUN entered: GAP where it was left with the mode set; the timestamps of the last RUN no longer apply, the first capture and Hall code
are references (R410, R417, R422). -/
def fbRunEntry (s : State) (n : Axis) : State :=
  let s := if (s.fb[n]).gap then setB s (Sig.FB_STAT n.val) 8 true else s
  modFb s n (fun f =>
    { f with gap := false, steps := [], zRef := none, zAbs := none, fresh := true, wssOff := false, cOut := none, missing := 0, still := false })

end Sys2Proof.Machine
end

