-- ==== Sys2Proof/Machine/Plan.lean ====
section
/-! DEFINITION. The planner of Caramel (R314 to R316, R321, R323): ramps with and without a jerk limit, and the plans of a position
move, a velocity move and a stop, as lists of pieces with constant jerk. Units are counts, counts/s and so on. -/

namespace Sys2Proof.Machine

/-! ### Pieces -/

/-- How far a piece goes in a time from its start. -/
def Seg.travel (g : Seg) (t : Rat) : Rat := g.v * t + g.a * t * t / 2 + g.j * t * t * t / 6

/-- The velocity of a piece at a time from its start. -/
def Seg.vAt (g : Seg) (t : Rat) : Rat := g.v + g.a * t + g.j * t * t / 2

/-- The acceleration of a piece at a time from its start. -/
def Seg.aAt (g : Seg) (t : Rat) : Rat := g.a + g.j * t

/-- Pieces of given lengths and jerks, one after the other from a velocity and an acceleration. -/
def chainSegs (v a : Rat) : List (Rat × Rat) → List Seg
  | [] => []
  | (t, j) :: xs =>
    let g : Seg := ⟨t, v, a, j⟩
    g :: chainSegs (g.vAt t) (g.aAt t) xs

/-- The distance of pieces. -/
def segsDist (gs : List Seg) : Rat := sumRat (gs.map (fun g => g.travel g.dur))

/-- The time of pieces. -/
def segsTime (gs : List Seg) : Rat := sumRat (gs.map Seg.dur)

/-- Pieces in the other direction where `k` is −1. -/
def scaleSegs (k : Rat) (gs : List Seg) : List Seg := gs.map (fun g => { g with v := k * g.v, a := k * g.a, j := k * g.j })

/-- A velocity held without an end. -/
def holdSeg (v : Rat) : List Seg := [⟨-1, v, 0, 0⟩]

/-- A change of velocity at a limit under a jerk limit, from an acceleration in force to none (R315). -/
def rampJ (j lim v0 a0 v1 : Rat) : List Seg :=
  let d : Rat := if v0 + a0 * absRat a0 / (2 * j) ≤ v1 then 1 else -1
  let x := d * a0
  let dv := d * (v1 - v0)
  if lim ≤ x then
    chainSegs v0 a0 [((x - lim) / j, -d * j)] ++
      (let v := v0 + d * ((x * x - lim * lim) / (2 * j))
       chainSegs v (d * lim) [((dv - x * x / (2 * j)) / lim, 0), (lim / j, -d * j)])
  else if (2 * lim * lim - x * x) / (2 * j) ≤ dv then
    let th := (dv - (2 * lim * lim - x * x) / (2 * j)) / lim
    chainSegs v0 a0 [((lim - x) / j, d * j)] ++
      (let v := v0 + d * ((lim * lim - x * x) / (2 * j))
       chainSegs v (d * lim) [(th, 0), (lim / j, -d * j)])
  else
    let ap := Config.sqrtRat (j * dv + x * x / 2)
    chainSegs v0 a0 [((ap - x) / j, d * j), (ap / j, -d * j)]

/-- A change of velocity at a limit (R315). -/
def ramp (j lim v0 a0 v1 : Rat) : List Seg :=
  if j = 0 then
    if v0 = v1 then [] else [⟨absRat (v1 - v0) / lim, v0, if v0 < v1 then lim else -lim, 0⟩]
  else if v0 = v1 ∧ a0 = 0 then []
  else rampJ j lim v0 a0 v1

/-! ### A move towards its target (R314, R321) -/

/-- The limits of a plan: V, A, D, J, VSTOP, and the deceleration of the move. -/
structure PlanLim where
  v : Rat
  a : Rat
  d : Rat
  j : Rat
  vs : Rat
  dec : Rat
  deriving DecidableEq, Repr

/-- The limit of a change of speed from `v` ≥ 0 to `v1` ≥ 0: A where |v| rises and D where it falls, counted from where the acceleration in
force leads (R315, R316). -/
def changeLimit (m : PlanLim) (v a v1 : Rat) : Rat :=
  if (if m.j = 0 then v else v + a * absRat a / (2 * m.j)) ≤ v1 then m.a else m.d

/-- What a condition that holds at `lo` and fails at `hi` leaves of the interval after halvings: it still holds at the first end and still
fails at the second (log entry 15). -/
def bisect (holds : Rat → Bool) : Nat → Rat → Rat → Rat × Rat
  | 0, lo, hi => (lo, hi)
  | k + 1, lo, hi => if holds ((lo + hi) / 2) then bisect holds k ((lo + hi) / 2) hi else bisect holds k lo ((lo + hi) / 2)

/-- A ramp to a peak speed and the stop from it at D to VSTOP, under a jerk limit (R321). -/
def peakSegs (m : PlanLim) (v a vs vp : Rat) : List Seg × List Seg :=
  let lim := changeLimit m v a vp
  (if lim ≤ 0 then [] else ramp m.j lim v a vp, if vs < vp then ramp m.j m.d vp 0 vs else [])

/-- The distance of a ramp to a peak speed and of the stop from it. -/
def peakDist (m : PlanLim) (v a vs vp : Rat) : Rat := segsDist (peakSegs m v a vs vp).1 + segsDist (peakSegs m v a vs vp).2

/-- V_p of R321 under a jerk limit, where the distance is too short for `top`: the highest speed from which a stop at D still ends at the
target, to the resolution of 96 halvings (log entry 15). -/
def peakSpeed (m : PlanLim) (s v a vs top : Rat) : Rat := (bisect (fun vp => decide (peakDist m v a vs vp ≤ s)) 96 (min v vs) top).1

/-- From v ≥ 0 to the target `s` ≥ 0 ahead, where a stop at D fits: ramp to V_p, cruise, decelerate to VSTOP. A limit of 0 lets the
velocity change no further. -/
def planTo (m : PlanLim) (s v a : Rat) : List Seg :=
  let vs := min m.vs m.v
  let vt := if m.a ≤ 0 then min m.v v else m.v
  let vt := if m.d ≤ 0 then min vt (max v vs) else vt
  if vt ≤ 0 then
    if v ≤ 0 then holdSeg 0 else if m.d ≤ 0 then holdSeg v else ramp m.j m.d v a 0 ++ holdSeg 0
  else
    let lim := changeLimit m v a vt
    if m.j = 0 then
      let c1 := if lim ≤ 0 then 0 else absRat (vt * vt - v * v) / (2 * lim)
      let c2 := if vs < vt then (vt * vt - vs * vs) / (2 * m.d) else 0
      if c1 + c2 ≤ s then
        ramp 0 lim v 0 vt ++ [⟨(s - c1 - c2) / vt, vt, 0, 0⟩] ++ (if vs < vt then ramp 0 m.d vt 0 vs else [])
      else
        let q := (2 * s + v * v / m.a + vs * vs / m.d) / (1 / m.a + 1 / m.d)
        if m.d ≤ 0 ∨ q < vs * vs then ramp 0 m.a v 0 (Config.sqrtRat (v * v + 2 * m.a * s))
        else
          let vp := Config.sqrtRat q
          ramp 0 m.a v 0 vp ++ ramp 0 m.d vp 0 vs
    else
      let vp := if peakDist m v a vs vt ≤ s then vt else peakSpeed m s v a vs vt
      let p := peakSegs m v a vs vp
      let rest := s - peakDist m v a vs vp
      p.1 ++ (if 0 < vp ∧ 0 < rest then [⟨rest / vp, vp, 0, 0⟩] else []) ++ p.2

/-- The stop distance to VSTOP at a deceleration, in the direction of motion; none where the deceleration is 0. -/
def stopDist (j vs v a d : Rat) : Option Rat :=
  if v ≤ vs then some 0
  else if d ≤ 0 then none
  else some (segsDist (ramp j d v a vs))

/-- The least deceleration whose stop ends at VSTOP at the target (R321), under a jerk limit to the resolution of 96 halvings (log entry 15);
none where no stop ends there. A stop under a jerk limit falls no faster than the jerk brings it to. -/
def needDec (j vs s v a : Rat) : Option Rat :=
  if v ≤ vs then some 0
  else if s ≤ 0 then none
  else if j = 0 then some ((v * v - vs * vs) / (2 * s))
  else
    let late (d : Rat) : Bool := decide (s < segsDist (ramp j d v a vs))
    let top := Config.sqrtRat (j * (v - vs) + a * a / 2) + absRat a
    if late top then none else some (bisect late 96 0 top).2

/-- A plan: its pieces, the direction of its final leg, DEC_OVER_CAP. -/
structure PlanOut where
  segs : List Seg
  dir : Int
  overCap : Bool
  deriving DecidableEq, Repr

/-- The start speed of a move from standstill: VSTART, but no more than lets the stop end at the target (R314). -/
def startSpeed (m : PlanLim) (vstart s : Rat) : Rat :=
  let v0 := min vstart (max m.v 0)
  if v0 ≤ min m.vs m.v then v0
  else if m.d ≤ 0 then min m.vs m.v
  else if v0 * v0 ≤ m.vs * m.vs + 2 * m.d * s then v0
  else Config.sqrtRat (m.vs * m.vs + 2 * m.d * s)

/-- A plan that is at its end: no time at rest. Its command ends at the next profile clock. -/
def standstill : List Seg := [⟨0, 0, 0, 0⟩]

/-- The planner of R321 for a position move from (p, v, a). -/
def planMove (m : PlanLim) (vstart p target v a : Rat) (rest : Bool) : PlanOut :=
  let s := target - p
  let dir : Int := if s < 0 ∨ (s = 0 ∧ v < 0) then -1 else 1
  let k : Rat := (dir : Rat)
  let s := absRat s
  if s = 0 ∧ v = 0 then ⟨standstill, dir, false⟩
  else if rest then ⟨scaleSegs k (planTo m s (startSpeed m vstart s) 0), dir, false⟩
  else if k * v < 0 then
    if m.d ≤ 0 then ⟨holdSeg v, dir, false⟩
    else
      let stop := ramp m.j m.d (-(k * v)) (-(k * a)) 0
      ⟨scaleSegs (-k) stop ++ scaleSegs k (planTo m (s + segsDist stop) 0 0), dir, false⟩
  else
    let fits := match stopDist m.j m.vs (k * v) (k * a) m.d with
      | some x => decide (x ≤ s)
      | none => false
    if fits then ⟨scaleSegs k (planTo m s (k * v) (k * a)), dir, false⟩
    else
      let byTarget : PlanOut :=
        let stop := ramp m.j m.dec (k * v) (k * a) 0
        let past := segsDist stop - s
        ⟨scaleSegs k stop ++ scaleSegs (-k) (planTo m (absRat past) 0 0), -dir, false⟩
      match needDec m.j m.vs s (k * v) (k * a) with
      | some dn =>
        if dn ≤ m.dec then ⟨scaleSegs k (ramp m.j dn (k * v) (k * a) m.vs), dir, decide (m.d < dn)⟩ else byTarget
      | none => byTarget

/-- The plan of a velocity move (R316). -/
def planVelocity (m : PlanLim) (vstart vTarget v a : Rat) (rest : Bool) : PlanOut :=
  let vt := clampRat vTarget (-(max m.v 0)) (max m.v 0)
  let dir : Int := if vt < 0 then -1 else 1
  let v := if rest && decide (0 < vstart) && decide (vstart ≤ absRat vt) then (if vt < 0 then -vstart else vstart) else v
  let kv : Rat := if v < 0 then -1 else 1
  if v * vt < 0 then
    if m.d ≤ 0 then ⟨holdSeg v, dir, false⟩
    else
      let fall := scaleSegs kv (ramp m.j m.d (kv * v) (kv * a) 0)
      if m.a ≤ 0 then ⟨fall ++ holdSeg 0, dir, false⟩ else ⟨fall ++ ramp m.j m.a 0 0 vt ++ holdSeg vt, dir, false⟩
  else
    let k : Rat := if vt < 0 ∨ (vt = 0 ∧ v < 0) then -1 else 1
    let lim := changeLimit m (k * v) (k * a) (k * vt)
    if lim ≤ 0 then ⟨holdSeg v, dir, false⟩ else ⟨scaleSegs k (ramp m.j lim (k * v) (k * a) (k * vt)) ++ holdSeg vt, dir, false⟩

/-- The plan of a stop at a deceleration to VSTOP (R325). -/
def planStop (j d vs v a : Rat) : PlanOut :=
  let k : Rat := if v < 0 then -1 else 1
  let dir : Int := if v < 0 then -1 else 1
  if k * v ≤ vs then ⟨standstill, dir, false⟩ else ⟨scaleSegs k (ramp j d (k * v) (k * a) vs), dir, false⟩

/-! ### Running a plan -/

/-- Where a plan stands: the distance gone, the pieces left, the time spent in the first, velocity and acceleration. -/
structure PlanAt where
  x : Rat
  segs : List Seg
  spent : Rat
  v : Rat
  a : Rat
  deriving DecidableEq, Repr

/-- A plan run on for a time. -/
def runSegs : List Seg → Rat → Rat → Rat → PlanAt
  | [], _, _, x => ⟨x, [], 0, 0, 0⟩
  | g :: gs, spent, dt, x =>
    if g.dur < 0 ∨ spent + dt < g.dur then
      ⟨x + (g.travel (spent + dt) - g.travel spent), g :: gs, spent + dt, g.vAt (spent + dt), g.aAt (spent + dt)⟩
    else runSegs gs 0 (spent + dt - g.dur) (x + (g.travel g.dur - g.travel spent))

/-- The highest |v| and |a| of a piece between two times. -/
def Seg.peaks (g : Seg) (t0 t1 : Rat) : Rat × Rat :=
  let mid := if g.j ≠ 0 ∧ t0 < -(g.a / g.j) ∧ -(g.a / g.j) < t1 then absRat (g.vAt (-(g.a / g.j))) else 0
  (max mid (max (absRat (g.vAt t0)) (absRat (g.vAt t1))), max (absRat (g.aAt t0)) (absRat (g.aAt t1)))

/-- The highest |v| and |a| of a plan in the time to come (R324). -/
def planPeaks : List Seg → Rat → Rat → Rat × Rat
  | [], _, _ => (0, 0)
  | g :: gs, spent, dt =>
    let stop := if g.dur < 0 then spent + dt else min (spent + dt) g.dur
    let p := g.peaks spent stop
    if g.dur < 0 ∨ spent + dt < g.dur then p
    else
      let q := planPeaks gs 0 (spent + dt - g.dur)
      (max p.1 q.1, max p.2 q.2)

/-- The time a plan still takes, in seconds; none where it has no end. -/
def planTime (gs : List Seg) (spent : Rat) : Option Rat :=
  if gs.any (fun g => decide (g.dur < 0)) then none else some (segsTime gs - spent)

end Sys2Proof.Machine
end

