-- ==== Sys2Proof/Machine/Caramel.lean ====
section
/-! DEFINITION. Caramel (chapter 11): the profile clock (R310 to R313), replans (R318 to R321), arrival (R322, R326), the step outputs
(R330 to R334) and the position-compare slots (R335 to R338). -/

namespace Sys2Proof.Machine

/-! ### Reading Φ -/

/-- The integer part of Φ, not wrapped (R310). -/
def carPos (s : State) (n : Axis) : Int := (s.car[n]).phi / 65536

/-- A word that means no cap (R318). -/
abbrev noCap : Nat := 0xFFFFFFFF

/-- A limit under a cap: the limit, and whether the cap governs it (R318). -/
def capped (x : Rat) (cap : Nat) : Rat × Bool :=
  if cap ≠ noCap ∧ (cap : Rat) < x then ((cap : Rat), true) else (x, false)

/-- Φ with the residue of its rounding, in counts (R310). -/
def CarAx.exact (c : CarAx) : Rat := ((c.phi : Rat) + c.res) / 65536

/-- V_stp in counts/s, where a step set is assigned (R333). -/
def stepCap (s : State) (n : Axis) : Option Rat :=
  if rgN s (Sig.CAR_STP_SET n.val) = 0x0F then none
  else
    some (min 5000000 (100000000 / (2 * (rgN s (Sig.CAR_STP_WIDTH n.val) : Rat))) * ((2 ^ rgN s (Sig.CAR_STP_SHIFT n.val) : Nat) : Rat))

/-- The grant caps of an axis as they stand: VCAP, ACAP, DCAP (R318). -/
def capsOf (s : State) (n : Axis) : Nat × Nat × Nat :=
  (rgN s (Sig.HC_VCAP n.val), rgN s (Sig.HC_ACAP n.val), rgN s (Sig.HC_DCAP n.val))

/-! ### Replans (R318 to R321, R325) -/

/-- D_q: the quick-stop rate (R325). -/
def quickRate (dcap dec : Nat) : Nat := if dcap ≠ noCap ∧ dec ≤ dcap then dcap else dec

/-- The limits of a command under the caps that a replan took, and whether a cap governs one (R318, R467). -/
def limitsOf (s : State) (n : Axis) (c : CarCmd) (caps : Nat × Nat × Nat) : PlanLim × Bool :=
  let v := capped c.vMax caps.1
  let a := capped c.acc caps.2.1
  let d := capped c.dec caps.2.2
  let scaled := decide (c.ticks < 2) && decide (c.scale < 1)
  let vE := if scaled then min v.1 (c.scale * c.vMax) else v.1
  let aE := if scaled then min a.1 (c.scale * c.acc) else a.1
  let vS := match stepCap s n with
    | some x => min vE x
    | none => vE
  (⟨vS, aE, d.1, c.jerk, c.vStop, c.dec⟩,
    (v.2 && decide (vS = vE)) || a.2 || d.2 || scaled || (c.kind == 2 && decide (vS < absRat c.vTarget)))

/-- The plan of a command from (p, v, a) (R316, R321, R325). -/
def planOf (s : State) (n : Axis) (c : CarCmd) (caps : Nat × Nat × Nat) (p v a : Rat) (rest : Bool) : PlanOut × Bool :=
  let m := limitsOf s n c caps
  match c.kind with
  | 1 => (planMove m.1 c.vStart p (c.target : Rat) v a rest, m.2)
  | 2 => (planVelocity m.1 c.vStart c.vTarget v a rest, m.2)
  | _ =>
    let dec : Nat := c.dec.floor.toNat
    if c.quick then (planStop 0 (quickRate caps.2.2 dec : Rat) c.vStop v a, false)
    else (planStop c.jerk c.dec c.vStop v a, false)

/-- The motion waits of an axis taken up by a replan that starts: 0 and 3 wait for a replan, 2 and 4 for its switch clock, 1 for the
target (R325, R326). -/
def waitsStart (s : State) (n : Axis) : State :=
  { s with
    rt := { s.rt with
      waits := s.rt.waits.map (fun w =>
        if (w.opcode == opMove || w.opcode == opStop) && decide (w.axis = some n) then
          if w.goal = 0 then { w with goal := 2 } else if w.goal = 3 then { w with goal := 4 } else w
        else w) } }

/-- What a replan works with from its start: the newest command and the caps as they stand (R321). Outside POSITION Caramel's plan stands or
is none (R312, R327, R328), and a replan has nothing to take. -/
def replanTakes (s : State) (n : Axis) : State :=
  if axSt s n = .position then
    let s := waitsStart s n
    modCar s n (fun c =>
      { c with taking := (c.next.or c.taking).or c.cmd, fresh := c.fresh || c.next.isSome, next := none, caps := capsOf s n })
  else modCar s n (fun c => { c with caps := capsOf s n })

/-- A replan that starts at a profile clock (R320, R321). -/
def replanAt (s : State) (n : Axis) (start : Nat) : State :=
  replanTakes (modCar s n (fun c => { c with taking := none, fresh := false, replan := some (start + 800), held := false })) n

/-- A trigger of a replan (R319 to R321): it starts at the next profile clock; one that runs holds it, but for a trigger before its
start. -/
def carTrigger (s : State) (n : Axis) : State :=
  match (s.car[n]).replan with
  | none => replanAt s n (nextTick (s.clk.tb + 1) 40 0)
  | some sw => if s.clk.tb + 800 < sw then replanTakes s n else modCar s n (fun c => { c with held := true })

/-- PLAN_US and CAR_REMAIN_US: the planned time to the target in µs (R154, R339). -/
def planUs (n : Axis) (kind : Nat) (segs : List Seg) (spent : Rat) : Nat :=
  if kind = 2 then noCap
  else
    match planTime segs spent with
    | some t => (clampInt (narrow (Sig.CAR_REMAIN_US n.val) (t * 1000000)) 0 0xFFFFFFFF).toNat
    | none => noCap

/-- The payload of a MOVE or STOP response (R154). -/
def movePayload (us pos : Nat) : List Byte := leBytes 4 us ++ leBytes 1 pos ++ leBytes 3 0

/-- Whether the MOVE of an axis that runs has class 0 or 1. -/
def earlyMove (s : State) (n : Axis) : Bool :=
  match (s.hcAx[n]).moveCls with
  | some c => decide (c ≤ 1)
  | none => false

/-- One more completed apply of an axis in the running summary (R586). -/
def countApply (s : State) (n : Axis) : State :=
  { s with rcd := { s.rcd with sumApplies := setAt s.rcd.sumApplies n.val (s.rcd.sumApplies.getD n.val 0 + 1) } }

/-- TARGET_REACHED, where it is due: EV48 + n, the answers that wait, the applies of the summary (R326, R586). -/
def reportTarget (s : State) (n : Axis) : State :=
  if (s.car[n]).arrived then
    let s := modCar s n (fun c => { c with arrived := false })
    let s := evt s (48 + n.val)
    let s := if earlyMove s n then countApply s n else s
    let s := modHcAx s n (fun h => { h with moveCls := none })
    endWaits s (fun w => (w.opcode == opMove || w.opcode == opStop) && decide (w.axis = some n) && w.goal == 1)
      (fun _ w => (stOk, movePayload w.value 0))
  else s

/-- The plan of a command in force from the switch clock (R320, R325). -/
def adoptPlan (s : State) (n : Axis) (c : CarCmd) : State :=
  let k := s.car[n]
  let s := if k.fresh then reportTarget s n else s
  let rest := decide (k.v = 0) && decide (k.a = 0) && k.segs.isEmpty
  let p := planOf s n c k.caps k.exact k.v k.a rest
  let v0 := (p.1.segs.map Seg.v).headD (if c.kind = 3 then 0 else k.v)
  let a0 := (p.1.segs.map Seg.a).headD 0
  let s := modCar s n (fun k =>
    { k with cmd := some c, segs := p.1.segs, spent := 0, dir := p.1.dir, v := v0, a := a0, done := !k.fresh && k.done })
  let s := if p.2 then setB s (Sig.CAR_STAT n.val) 1 true else s
  let s := if p.1.overCap then setB s (Sig.CAR_STAT n.val) 2 true else s
  match c.kind with
  | 1 => setI s (Sig.CAR_TARGET n.val) c.target
  | 2 => setI s (Sig.CAR_VTARGET n.val) c.vTarget.floor
  | _ => s

/-- The new plan of a replan's command at its switch clock, and the acceptance of the commands that the replan took (R320, R325). -/
def switchPlan (s : State) (n : Axis) (c : CarCmd) : State :=
  let s := adoptPlan s n c
  let us := planUs n c.kind (s.car[n]).segs 0
  let mine (w : Wait) : Bool := (w.opcode == opMove || w.opcode == opStop) && decide (w.axis = some n)
  let s := endWaits s (fun w => mine w && w.goal == 2) (fun _ _ => (stOk, movePayload us 0))
  { s with
    rt := { s.rt with waits := s.rt.waits.map (fun w => if mine w && w.goal == 4 then { w with goal := 1, value := us } else w) } }

/-- The switch clock of a replan (R320, R321, R325): it is counted, its plan takes over where it took a command, and a held trigger starts
the next. -/
def carSwitch (s : State) (n : Axis) : State :=
  let s := incR s (Sig.CAR_REPLAN_COUNT n.val)
  let s := match (s.car[n]).taking with
    | some c => switchPlan s n c
    | none => s
  let s := modCar s n (fun k => { k with replan := none, taking := none, fresh := false })
  if (s.car[n]).held then replanAt s n s.clk.tb else s

/-! ### Position-compare slots (R335 to R338) -/

/-- A slot fires at a check, at an instant of DEV:US_TIME (R338). -/
def slotFire (s : State) (n : Axis) (k us : Nat) : State :=
  let s := evt (setB s (Sig.CAR_CMP_STAT n.val) k true) (56 + n.val)
  let s := setN s (Sig.CAR_CMP_TIME n.val k) us
  modCar s n (fun c =>
    { c with slots := setAt c.slots k { (c.slots.getD k CmpSlot.init) with armed := false, prev := none } })

/-- A slot's position kept for its next check. -/
def slotAt (s : State) (n : Axis) (k : Nat) (p : Int) : State :=
  modCar s n (fun c => { c with slots := setAt c.slots k { (c.slots.getD k CmpSlot.init) with prev := some p } })

/-- Whether a position that goes from `q` to `p` reaches or passes a value in an enabled direction, coming from the strict other side
(R336): the direction is that of the motion. -/
def passes (up dn : Bool) (val q p : Int) : Bool :=
  let was := signed32 (val - q)
  let now := signed32 (val - p)
  let go := signed32 (p - q)
  (up && decide (0 < go) && decide (0 < was) && decide (now ≤ 0)) || (dn && decide (go < 0) && decide (was < 0) && decide (0 ≤ now))

/-- A check of a slot at a position of its source, at an instant of DEV:US_TIME (R335 to R338). -/
def slotCheck (s : State) (n : Axis) (k : Nat) (p : Int) (us : Nat) : State :=
  let c := (s.car[n]).slots.getD k CmpSlot.init
  let val := rgI s (Sig.CAR_CMP_POS n.val k)
  let dir := rgF s (Sig.CAR_CMP_CFG n.val k) 0 2
  let up := bitOf dir 0
  let dn := bitOf dir 1
  if c.arming then
    let s := modCar s n (fun x => { x with slots := setAt x.slots k ⟨false, true, some p⟩ })
    let v := (s.car[n]).v
    let ahead := signed32 (val - p)
    let behind := (decide (0 < v) && up && decide (ahead ≤ 0)) || (decide (v < 0) && dn && decide (0 ≤ ahead))
    if behind then
      let s := evt (setB s (Sig.CAR_CMP_STAT n.val) (4 + k) true) (56 + n.val)
      if rgB s (Sig.CAR_CMP_CFG n.val k) 3 then slotFire s n k us else s
    else s
  else if c.armed then
    match c.prev with
    | none => slotAt s n k p
    | some q => if passes up dn val q p then slotFire s n k us else slotAt s n k p
  else s

/-- Every slot of a source checked (source 0 is Φ, 1 the feedback position). -/
def slotsCheck (s : State) (n : Axis) (src : Nat) (p : Int) (us : Nat) : State :=
  forEach [0, 1, 2, 3] s (fun s k => if rgF s (Sig.CAR_CMP_CFG n.val k) 2 1 = src then slotCheck s n k p us else s)

/-- The positions of the armed slots of source 0 set anew: a load is no motion (R313). -/
def slotsReload (s : State) (n : Axis) : State :=
  forEach [0, 1, 2, 3] s (fun s k =>
    if rgF s (Sig.CAR_CMP_CFG n.val k) 2 1 = 0 ∧ ((s.car[n]).slots.getD k CmpSlot.init).armed = true then slotAt s n k (carPos s n)
    else s)

/-- A slot written by a frame: it waits for its next check, or is disarmed by DIR 0 (R335). -/
def slotWritten (s : State) (n : Axis) (k : Nat) : State :=
  let on := rgF s (Sig.CAR_CMP_CFG n.val k) 0 2 != 0
  modCar s n (fun c => { c with slots := setAt c.slots k ⟨on, on && (c.slots.getD k CmpSlot.init).armed,
    (c.slots.getD k CmpSlot.init).prev⟩ })

/-! ### Step outputs (R330 to R334) -/

/-- Whether a step set serves the axis (R330). -/
def stepAssigned (s : State) (n : Axis) : Bool := rgN s (Sig.CAR_STP_SET n.val) != 0x0F

/-- DIR follows the sign of the debt while STP is low (R332). -/
def stepDir (s : State) (n : Axis) : State :=
  let d := rgI s (Sig.CAR_STP_DEBT n.val)
  let c := s.car[n]
  if d ≠ 0 ∧ c.stpHigh = false ∧ decide (0 < d) ≠ c.dirPos then
    modCar s n (fun c => { c with dirPos := decide (0 < d), dirAt := s.clk.tb })
  else s

/-- Steps owed by a motion of Φ (R331): kept within the 16 bits of the signal. -/
def stepOwe (s : State) (n : Axis) (phi0 : Int) : State :=
  if stepAssigned s n then
    let q : Int := ((2 ^ (16 + rgN s (Sig.CAR_STP_SHIFT n.val)) : Nat) : Int)
    let d := clampInt (rgI s (Sig.CAR_STP_DEBT n.val) + ((s.car[n]).phi / q - phi0 / q)) (-32768) 32767
    let s := setI s (Sig.CAR_STP_DEBT n.val) d
    stepDir (if 4 < d.natAbs then setB s (Sig.CAR_STAT n.val) 4 true else s) n
  else s

/-! ### The profile clock (R310 to R312, R322, R326) -/

/-- The target reached at this clock: Φ at the target, v and a 0, the plan at its end; a replan that runs has only a new command to take
(R322, R326). -/
def CarAx.arrive (c : CarAx) (phi : Int) : CarAx :=
  { c with phi := phi, res := 0, v := 0, a := 0, segs := [], spent := 0, cmd := none, taking := if c.fresh then c.taking else none,
           arrived := true, done := true }

/-- One profile clock of a plan in POSITION: Φ by the exact integral of the velocity, rounded to 2⁻¹⁶ count with the residue carried
(R310). Without a plan, and where the replan of a return from HOLD still runs (R327), Φ stands. -/
def carAdvance (s : State) (n : Axis) : State :=
  let c := s.car[n]
  if c.segs.isEmpty then s
  else
  match c.cmd with
  | none =>
      let r := runSegs c.segs c.spent (1 / 10000000) 0
      let inc := roundHalfUp (r.x * 65536 + c.res)
      modCar s n (fun c =>
        { c with phi := c.phi + inc, res := r.x * 65536 + c.res - (inc : Rat), v := r.v, a := r.a, segs := r.segs, spent := r.spent })
  | some m =>
    let r := runSegs c.segs c.spent (1 / 10000000) 0
    let inc := roundHalfUp (r.x * 65536 + c.res)
    let phi := c.phi + inc
    let ended := r.segs.isEmpty
    let thru := decide (c.v * r.v < 0) ||
      (decide (c.v ≠ 0) && decide (r.v = 0) && r.segs.any (fun g => decide (g.v ≠ 0) || decide (g.a ≠ 0) || decide (g.j ≠ 0)))
    let s := if thru then setB s (Sig.CAR_STAT n.val) 0 true else s
    let go (c : CarAx) : CarAx :=
      { c with phi := phi, res := r.x * 65536 + c.res - (inc : Rat), v := r.v, a := r.a, segs := r.segs, spent := r.spent }
    match m.kind with
    | 1 =>
      let goal := m.target * 65536
      if ended || (decide (0 ≤ r.v * (c.dir : Rat)) && decide (0 ≤ c.dir * (phi - goal)) && decide (0 ≤ c.v * (c.dir : Rat))) then
        modCar s n (fun c => c.arrive goal)
      else modCar s n go
    | 2 =>
      let hit := decide (r.v = m.vTarget) && !c.done
      modCar s n (fun c => let c := go c; if hit then { c with arrived := true, done := true } else c)
    | _ =>
      if ended then
        let s := modCar s n (fun c => c.arrive phi)
        setI s (Sig.CAR_TARGET n.val) (phi / 65536)
      else modCar s n go

/-- The record of a profile clock (R311), and its share of the tick's mean of a_car (R447). -/
def carRecordNow (s : State) (n : Axis) : State :=
  let s := modHcAx s n (fun h => { h with sumA := h.sumA + (s.car[n]).a / 65536, sumAn := h.sumAn + 1 })
  modCar s n (fun c => { c with hist := (⟨s.clk.tb, c.phi / 65536, c.v, c.a⟩ :: c.hist).take 256 })

/-- The key of an axis's profile clock. -/
def keyCar (n : Axis) : Nat := 0x100 + n.val

/-- A profile clock of an axis. -/
def profileClock (s : State) (n : Axis) : State :=
  let s := atGrid s (keyCar n) 40 0
  let phi0 := (s.car[n]).phi
  let s := if axSt s n = .position then stepOwe (carAdvance s n) n phi0 else s
  let s := slotsCheck (carRecordNow s n) n 0 (carPos s n) (usTime s)
  emClock s n

/-- PROFILE_CLOCK: the next edge of the 10 MHz profile clock for an axis (R310 to R313, R331, R336, R381). -/
def execProfileClock (n : Axis) (s : State) : Host.Outcome State Fault Refusal :=
  if inRun s then .next (profileClock s n) else .next s

/-- The profile clocks still due up to a tick. -/
def clocksTo : Nat → State → Axis → Nat → State
  | 0, s, _, _ => s
  | k + 1, s, n, t => if nextTick (max s.clk.tb (markOf s (keyCar n))) 40 0 ≤ t then clocksTo k (profileClock s n) n t else s

/-- REPLAN_SWITCH: the switch clock of a replan; the clocks of the old plan come first (R320). -/
def execReplanSwitch (n : Axis) (s : State) : Host.Outcome State Fault Refusal :=
  match (s.car[n]).replan with
  | none => .next s
  | some t =>
    if inRun s then
      let s := toTick (clocksTo 21 s n t) t
      .next (carSwitch s n)
    else .next s

/-- TARGET_REACHED: Caramel reports its target (R326). -/
def execTargetReached (n : Axis) (s : State) : Host.Outcome State Fault Refusal := .next (reportTarget s n)

/-- STEP_PULSE: STP rises for a step of the debt (R332). -/
def execStepPulse (n : Axis) (s : State) : Host.Outcome State Fault Refusal :=
  let c := s.car[n]
  let d := rgI s (Sig.CAR_STP_DEBT n.val)
  if inRun s && stepAssigned s n && !c.stpHigh && d != 0 && (c.dirPos == decide (0 < d)) then
    let s := toTick s (max (c.stpAt + 4 * rgN s (Sig.CAR_STP_WIDTH n.val)) (c.dirAt + 4 * rgN s (Sig.CAR_DIR_SETUP n.val)))
    let k : Int := if 0 < d then 1 else -1
    let s := setI s (Sig.CAR_STP_DEBT n.val) (d - k)
    let s := setI s (Sig.CAR_STP_COUNT n.val) (rgI s (Sig.CAR_STP_COUNT n.val) + k)
    .next (modCar s n (fun c => { c with stpHigh := true, stpAt := s.clk.tb }))
  else .next s

/-- STEP_PULSE_END: STP falls after CAR_STP_WIDTH; DIR may change (R332). -/
def execStepPulseEnd (n : Axis) (s : State) : Host.Outcome State Fault Refusal :=
  let c := s.car[n]
  if c.stpHigh then
    let s := toTick s (c.stpAt + 4 * rgN s (Sig.CAR_STP_WIDTH n.val))
    .next (stepDir (modCar s n (fun c => { c with stpHigh := false, stpAt := s.clk.tb })) n)
  else .next s

/-! ### What other chapters use -/

/-- The record of the last profile clock at or before a tick (R311); HIST_MISS where it is older than the history. -/
def carRecord (s : State) (n : Axis) (t : Nat) : State × HistRec :=
  let c := s.car[n]
  match c.hist.find? (fun h => decide (h.ts ≤ t)) with
  | some h => (s, h)
  | none =>
    match c.hist.getLast? with
    | some h => (setB s (Sig.CAR_STAT n.val) 3 true, h)
    | none => (s, ⟨t, c.phi / 65536, c.v, c.a⟩)

/-- The command whose plan will be in force when a STOP taken now is planned: the one that a running replan works with, else the one in force
(R321, R325). -/
def planAhead (s : State) (n : Axis) : Option CarCmd :=
  let c := s.car[n]
  match c.replan with
  | some sw => if s.clk.tb + 800 < sw then c.cmd else c.taking.or c.cmd
  | none => c.cmd

/-- Caramel's command for a stop of the given kind, its limits as they stand, VSTOP that of the plan in force (R325). -/
def stopCmd (s : State) (n : Axis) (quick : Bool) : CarCmd where
  kind := 3
  target := 0
  vTarget := 0
  vMax := (rgN s (Sig.CAR_VMAX n.val) : Rat)
  acc := (rgN s (Sig.CAR_ACC n.val) : Rat)
  dec := (rgN s (Sig.CAR_DEC n.val) : Rat)
  jerk := (rgN s (Sig.CAR_JERK n.val) : Rat) * 256
  vStart := 0
  vStop := match planAhead s n with
    | some c => c.vStop
    | none => (rgN s (Sig.CAR_VSTOP n.val) : Rat)
  quick := quick
  cls := 2
  scale := 1
  ticks := 2
  isMove := false

/-- The load of R303 at a task's tag: Φ at the measured position, v_car at the speed reference, which is what the history then shows (R311);
where that is not 0 a stop is planned. -/
def carLoad (s : State) (n : Axis) (tag : Nat) (pos : Int) (v : Rat) : State :=
  let stop := if v = 0 then none else some (stopCmd s n false)
  let s := modCar s n (fun c =>
    { c.idle with phi := pos * 65536, res := 0, v := v, segs := if v = 0 then [] else holdSeg v, next := stop, done := true,
                  hist := [⟨tag, pos, v, 0⟩] })
  carTrigger (slotsReload s n) n

/-- A return to POSITION from a HOLD held from it: a replan from standstill at the frozen Φ (R327). -/
def carResume (s : State) (n : Axis) : State :=
  carTrigger (modCar s n (fun c => { c with v := 0, a := 0, segs := [], spent := 0 })) n

/-- The levels of the balls STPk and DIRk: those of the axis that the set is assigned to, else low (R41, R330, R332). -/
def stepBalls (s : State) (k : Fin 4) : Bool × Bool :=
  match allAxes.find? (fun n => rgN s (Sig.CAR_STP_SET n.val) == k.val) with
  | some n => ((s.car[n]).stpHigh, (s.car[n]).dirPos)
  | none => (false, false)

/-- CAR_STATE (R329). -/
def carState (s : State) (n : Axis) : Nat :=
  let c := s.car[n]
  match c.cmd with
  | some m => if axSt s n = .hold then 4 else m.kind
  | none => if c.segs.isEmpty then 0 else if axSt s n = .hold then 4 else 3

/-- CAR_REMAIN_US (R339). -/
def carRemain (s : State) (n : Axis) : Nat :=
  let c := s.car[n]
  match c.cmd with
  | some m => planUs n m.kind c.segs c.spent
  | none => 0

/-- D_need at present (R321, R324): the deceleration that a position move needs to stop at its target. -/
def carNeed (s : State) (n : Axis) : Rat :=
  let c := s.car[n]
  match c.cmd with
  | some m =>
    if m.kind = 1 then
      let d : Rat := (m.target : Rat) - c.exact
      let k : Rat := if d < 0 then -1 else 1
      (needDec m.jerk m.vStop (absRat d) (k * c.v) (k * c.a)).getD 0
    else 0
  | none => 0

/-- CAR_DNEED, CAR_PEAK_V and CAR_PEAK_A published at a budget tick (R324). -/
def carPublish (s : State) (n : Axis) : State :=
  let c := s.car[n]
  let p := planPeaks c.segs c.spent (1 / 1000)
  let s := setTel s (Sig.CAR_DNEED n.val) (carNeed s n)
  let s := setTel s (Sig.CAR_PEAK_V n.val) (max (absRat c.v) p.1)
  setTel s (Sig.CAR_PEAK_A n.val) (max (absRat c.a) p.2)

end Sys2Proof.Machine
end

