-- ==== Sys2Proof/Machine/Observer.lean ====
section
/-! DEFINITION. The observer (R388 to R392), the agreement test (R393 to R395), sensorless continuation (R398 to R403) and the
high-frequency injection (R404, R405); and the Biscotti outcome of outer steps (R488) that observer, speed and position steps share. -/

namespace Sys2Proof.Machine

/-! ### Biscotti events (R486, R488, R502) -/

/-- The engine time of a step in µs for a number of passes in a drive mode (R276): `base` for two passes at 400 MHz. -/
def stepTime (s : State) (n : Axis) (base : Rat) : Rat :=
  if s.bisc.mode = 2 then 2 * base else if (s.loop[n]).passes = 1 then base / 2 else base

/-- The engine of an axis busy for a time in µs (R276). -/
def engineBusy (s : State) (n : Axis) (us : Rat) : State := modEng s (engOf n) (fun e => { e with busy := e.busy + us })

/-- A failed checkpoint of an axis: the kind bits, BISC_LAST, EV92, and one event of BISC_LE (R480, R486). -/
def biscEvent (s : State) (n : Axis) (kind : Nat) (held : Bool) : State :=
  let s := orR s Sig.BISC_STAT (kind % 8)
  let s := incR s (Sig.BISC_EVENT_AX n.val)
  let s := biscLast s (engOf n).val (slotOf n) kind held
  axFault (evt s 92) n 9

/-- Whether the two copies of an axis's persistent variables agree, the complement bank brought back (R476, R480). -/
def banksAgree (s : State) (n : Axis) : Bool := decide ((s.loop[n]).bankB.compl = (s.loop[n]).bankA)

/-- The verdict of the checkpoint of a task or step of an axis: the kind of a mismatch that the comparator finds in what the passes did, or in
the persistent variables (OUT); an axis that runs one pass has no checkpoint (R480, R481, R494). -/
def verdict (s : State) (n : Axis) (chk : Check) : Option Nat :=
  if (s.loop[n]).passes = 1 then none else chk.mismatch.or (if banksAgree s n then none else some 1)

/-- Whether LP_TAG_SEL selects a tag's source (R272). -/
def tagSelected (s : State) (t : Tag) : Bool :=
  match rgN s (Sig.LP_TAG_SEL t.axis.val) with
  | 0 => !t.src
  | 1 => t.src
  | _ => true

/-- Whether a tag follows the last task-starting tag of its axis too closely (R275). -/
def tooClose (s : State) (n : Axis) (tag : Nat) : Bool :=
  match (s.loop[n]).lastTag with
  | some p => decide (((tag : Rat) - (p : Rat)) / 400000000 < 99 / 100 * tMin s n)
  | none => false

/-- Whether a tag that waits starts a current task: taken in time, selected, far enough from the one before, of an axis that runs tasks
(R263, R272, R275, R296). -/
def startsTask (s : State) (t : Tag) : Bool :=
  decide (s.clk.tb ≤ t.ts + 32000) && tagSelected s t && !tooClose s t.axis t.ts && (axSt s t.axis).runsTasks

/-- The tick at which the window of a tag closes (R267). -/
def closeOf (s : State) (t : Tag) : Nat := windowClose s t.axis t.ts

/-- Whether a current task of an engine is pending: its window has closed (R16, R20). -/
def taskPending (s : State) (e : Fin 2) : Bool :=
  (s.eng[e]).stopped.isSome || (s.eng[e]).fifo.any (fun t => startsTask s t && decide (closeOf s t ≤ s.clk.tb))

/-- Whether a current task of another axis of the engine is pending at a tick (R483, R484). -/
def otherPending (s : State) (n : Axis) (t : Nat) : Bool :=
  (s.eng[engOf n]).fifo.any (fun x => decide (x.axis ≠ n) && startsTask s x && decide (closeOf s x ≤ t))

/-- Whether a later task-starting tag of an axis has arrived (R483, R500). -/
def laterTag (s : State) (n : Axis) : Bool := (s.eng[engOf n]).fifo.any (fun t => decide (t.axis = n) && startsTask s t)

/-- Whether a waiting tag's task comes before another's: by window close, then by axis (R19). -/
def taskBefore (s : State) (x y : Tag) : Bool :=
  decide (closeOf s x < closeOf s y) || (closeOf s x == closeOf s y && decide (x.axis < y.axis))

/-- The Biscotti outcome of an outer step: the step's results, or the loop's last result where it is abandoned (R488). -/
def outerStep (s : State) (n : Axis) (base : Rat) (chk : Check) (f : State → State) : State :=
  let s := engineBusy s n (stepTime s n base)
  match verdict s n chk with
  | none => f s
  | some k =>
    let retry := !chk.pending && !taskPending s (engOf n) && chk.retryOk && banksAgree s n
    let s := biscEvent s n k (!retry)
    if retry then f (incR (setB (engineBusy s n (stepTime s n base)) Sig.BISC_STAT 3 true) (Sig.BISC_RETRY_AX n.val))
    else incR (setB s Sig.BISC_STAT 5 true) (Sig.BISC_HOLD_AX n.val)

/-! ### Angles -/

/-- The electrical angle of the resolver at a tick, in turns, not wrapped (R279). -/
def rsvElec (s : State) (n : Axis) (t : Nat) : Rat :=
  (rgN s (Sig.LP_EANG_MUL n.val) : Rat) * rsvAt s n (t : Rat) + (rgN s (Sig.LP_EANG_OFS n.val) : Rat) / 65536

/-- θ̂o of the estimator in use at a tick, in electrical turns: HFI in continuation on it, otherwise the back-EMF observer. -/
def obsAngle (s : State) (n : Axis) (t : Nat) : Rat :=
  let o := s.obs[n]
  if o.sens && o.est == 2 then o.hth + o.hw * (((t : Rat) - (o.htk : Rat)) / 400000000)
  else o.th + o.we * (((t : Rat) - (o.tk : Rat)) / 400000000)

/-- The fraction of a turn. -/
def fracTurn (x : Rat) : Rat := x - x.floor

/-- The observer at an enable: it starts from the resolver's angle (R403). -/
def obsStart (s : State) (n : Axis) : State :=
  let mul : Rat := (rgN s (Sig.LP_EANG_MUL n.val) : Rat)
  modObs s n (fun o =>
    { o with th := rsvElec s n s.clk.tb, we := mul * (s.rsv[n]).omx, tk := s.clk.tb, fresh := true, conv := false, below := none,
             overSince := none, thPrev := rsvElec s n s.clk.tb })

/-! ### Sensorless continuation (R398 to R402) -/

/-- The key of the end of the running injection period, in thirds of a tick. -/
def keyHfi (n : Axis) : Nat := 0x260 + n.val

/-- The injection loop started at a tick from an angle and a rate in electrical turns (R398, R401, R405). -/
def hfiStart (s : State) (n : Axis) (t : Nat) (th w : Rat) : State :=
  setMark (modObs s n (fun o => { o with hth := th, hw := w, htk := t, hSumQ := 0, hSumD := 0, hN := 0 })) (keyHfi n) (3 * t + 800000)

/-- Continuation entered at the first task whose tag falls after the loss (R398, R400). -/
def sensEntry (s : State) (n : Axis) (tag : Nat) : State :=
  match (s.obs[n]).enter with
  | none => s
  | some (est, t) =>
    if t < tag then
      let mul : Rat := (rgN s (Sig.LP_EANG_MUL n.val) : Rat)
      let ofs : Rat := (rgN s (Sig.LP_EANG_OFS n.val) : Rat) / 65536
      let r := s.rsv[n]
      let s := if est = 2 then hfiStart s n tag (mul * r.theta + ofs) (mul * r.omx) else s
      let s := setB s (Sig.OBS_STAT n.val) 1 true
      let s := if rgN s (Sig.LP_FB_SRC n.val) = 0 then setB s (Sig.OBS_STAT n.val) 4 true else s
      let s := modObs s n (fun o => { o with sens := true, est := est, enter := none, dead := r.theta, msPart := 0 })
      modObs s n (fun o => { o with thPrev := obsAngle s n tag })
    else s

/-- The dead-reckoned position advanced at a task, and the time in continuation counted (R400, R406). -/
def sensAdvance (s : State) (n : Axis) (tag dt : Nat) : State :=
  let o := s.obs[n]
  if o.sens then
    let th := obsAngle s n tag
    let ms := o.msPart + dt
    let s := modObs s n (fun o =>
      { o with dead := o.dead + (th - o.thPrev) / (rgN s (Sig.LP_EANG_MUL n.val) : Rat), thPrev := th, msPart := ms % 400000 })
    setN s (Sig.OBS_SENSORLESS_MS n.val) (rgN s (Sig.OBS_SENSORLESS_MS n.val) + ms / 400000)
  else s

/-- The change of estimator and the failures of continuation, after an observer step (R401, R402). -/
def sensJudge (s : State) (n : Axis) (tag : Nat) : State :=
  let o := s.obs[n]
  if !o.sens then s
  else
    let w := absRat (obsShaft s n)
    let va := agreeSpeed s n
    if o.est = 2 then
      if va ≤ w ∧ o.conv = true then
        let th := obsAngle s n tag
        modObs s n (fun o => { o with est := 1, th := th, tk := tag, thPrev := th })
      else s
    else if w < 6 / 10 * va then
      if hfiUsable s n then
        let th := obsAngle s n tag
        let s := hfiStart s n tag th o.we
        modObs s n (fun o => { o with est := 2, thPrev := th })
      else obsFail (setB s (Sig.OBS_STAT n.val) 3 true) n
    else s

/-! ### The observer step (R388 to R394) -/

/-- Whether the agreement test is armed (R393). -/
def agreeArmed (s : State) (n : Axis) : Bool :=
  let o := s.obs[n]
  (s.rsv[n]).valid && namesResolver s n && o.conv && !o.sens

/-- The speed that judges convergence (R390). -/
def judgeSpeed (s : State) (n : Axis) : Rat :=
  if (s.rsv[n]).valid && namesResolver s n && !(s.obs[n]).sens then (s.rsv[n]).omx else obsShaft s n

/-- The agreement test at an observer step (R394). -/
def agreeStep (s : State) (n : Axis) (tag : Nat) : State :=
  if agreeArmed s n then
    let d := wrapTurn ((s.obs[n]).th - rsvElec s n tag)
    let s := setTel s (Sig.OBS_DELTA n.val) (d * 65536)
    if (rgN s (Sig.OBS_AGREE_MAX n.val) : Rat) < absRat d * 65536 then
      modObs s n (fun o => { o with overSince := o.overSince.or (some tag) })
    else modObs s n (fun o => { o with overSince := none })
  else modObs s n (fun o => { o with overSince := none })

/-- One observer step on the quantities of its task, with its tag and Ts (R388 to R390, R392). -/
def observerStep (s : State) (n : Axis) (tag : Nat) (ts : Rat) : State :=
  let l := s.loop[n]
  let o := s.obs[n]
  let ld : Rat := (rgN s (Sig.LP_LD n.val) : Rat) / 1000000000
  let lq : Rat := (rgN s (Sig.LP_LQ n.val) : Rat) / 1000000000
  let psi : Rat := (rgN s (Sig.LP_PSI n.val) : Rat) / 1000000
  let rs : Rat := (rgN s (Sig.OBS_RS n.val) : Rat) / 1000000
  let thp := o.th + o.we * (((tag : Rat) - (o.tk : Rat)) / 400000000)
  let cs := Config.cosTurn thp
  let sn := Config.sinTurn thp
  let id := l.ia * cs + l.ib * sn
  let iq := l.ib * cs - l.ia * sn
  let idP := if o.fresh then id else o.idP
  let iqP := if o.fresh then iq else o.iqP
  let w := 2 * Config.pi * o.we
  let ed := l.va - rs * id - ld * (id - idP) / ts + w * lq * iq
  let eq := l.vb - rs * iq - lq * (iq - iqP) / ts - w * ld * id
  let sg : Rat := if o.we < 0 then -1 else 1
  let delta := Config.atan2Turn (-(sg * ed)) (sg * eq)
  let g := loopGains (rgN s (Sig.OBS_BW n.val))
  let we := o.we + g.1 * ts * delta
  let emf2 := ed * ed + eq * eq
  let s := modObs s n (fun o =>
    { o with th := thp + g.2 * ts * delta, we := we, tk := tag, idP := id, iqP := iq, fresh := false })
  let sp := absRat (judgeSpeed s n)
  let va := agreeSpeed s n
  let small := decide (absRat delta < 1 / 36)
  let s := modObs s n (fun o =>
    { o with conv := o.conv && small && decide (8 / 10 * va ≤ sp),
             below := if small && decide (va ≤ sp) then o.below.or (some tag) else none })
  let s := setTel s (Sig.OBS_ANGLE n.val) (fracTurn (s.obs[n]).th * 65536)
  let s := setTel s (Sig.OBS_SPEED n.val) (obsShaft s n * 65536)
  let s := setTel s (Sig.OBS_EMF n.val) (Config.sqrtRat emf2 * 1000)
  let full := 2 * Config.pi * we * psi
  let s := if (s.obs[n]).conv && (decide (4 * emf2 < full * full) || decide (4 * (full * full) < emf2)) then
      obsFail s n
    else s
  sensJudge (agreeStep s n tag) n tag

/-- OBSERVER_STEP: one step per current task while OBS_EN is 1 (R388), under the checkpoint of R488; only while no current task is pending
(R20). -/
def execObserverStep (n : Axis) (chk : Check) (s : State) : Host.Outcome State Fault Refusal :=
  match (s.loop[n]).dueObs with
  | none => .next s
  | some (tag, ts) =>
    if inRun s && (axSt s n).runsTasks && !(s.eng[engOf n]).halted && !taskPending s (engOf n) then
      let s := modLoop s n (fun l => { l with dueObs := none })
      .next (outerStep s n 1 chk (fun s => observerStep s n tag ts))
    else .next s

/-- OBSERVER_CONVERGED: |δ| has stayed below 10° for 20 ms at or above the agreement speed (R390). -/
def execObserverConverged (n : Axis) (s : State) : Host.Outcome State Fault Refusal :=
  match (s.obs[n]).below with
  | none => .next s
  | some t =>
    if inRun s && !(s.obs[n]).conv then .next (modObs (toTick s (t + 8000000)) n (fun o => { o with conv := true }))
    else .next s

/-- ANGLE_DISAGREE: |Δ| has exceeded OBS_AGREE_MAX for OBS_AGREE_TIME (R394). -/
def execAngleDisagree (n : Axis) (s : State) : Host.Outcome State Fault Refusal :=
  match (s.obs[n]).overSince with
  | none => .next s
  | some t =>
    if inRun s && agreeArmed s n then
      let s := toTick s (t + 40000 * rgN s (Sig.OBS_AGREE_TIME n.val))
      let s := modObs s n (fun o => { o with overSince := some s.clk.tb })
      let s := incR (setB s (Sig.OBS_STAT n.val) 0 true) (Sig.OBS_DISAGREE_COUNT n.val)
      .next (axFault s n 19)
    else .next s

/-! ### The injection (R404, R405) -/

/-- ψh of a tick in turns (R405). -/
def hfiPhase (t : Nat) : Rat := (t : Rat) * 1500 / 400000000

/-- The means of an injection period over its tasks, of q and d; of a period without a task they are free (R405, log entry 3). -/
def hfiMeans (s : State) (n : Axis) : State × Rat × Rat :=
  let o := s.obs[n]
  if o.hN = 0 then
    let q := drawWord s
    let d := drawWord q.2
    (d.2, (q.1.toInt : Rat) / 65536, (d.1.toInt : Rat) / 65536)
  else (s, o.hSumQ / (o.hN : Rat), o.hSumD / (o.hN : Rat))

/-- HFI_PERIOD_END: ε_h of the injection period drives the HFI loop, and the d response is checked (R405). -/
def execHfiPeriodEnd (n : Axis) (s : State) : Host.Outcome State Fault Refusal :=
  let o := s.obs[n]
  if inRun s && o.sens && o.est == 2 then
    let m := markOf s (keyHfi n)
    let s := setMark (toTick s ((m + 2) / 3)) (keyHfi n) (m + 800000)
    let ld : Rat := (rgN s (Sig.LP_LD n.val) : Rat) / 1000000000
    let lq : Rat := (rgN s (Sig.LP_LQ n.val) : Rat) / 1000000000
    let amp : Rat := (rgN s (Sig.OBS_HFI_AMP n.val) : Rat) / 1000
    let m2 := hfiMeans s n
    let s := m2.1
    -- ωh / 2π is 1 500 Hz, so the two factors 2π of ε_h cancel.
    let e := m2.2.1 * (2 * 1500 * ld * lq) / (amp * (ld - lq))
    let g := loopGains (rgN s (Sig.OBS_HFI_BW n.val))
    let td : Rat := 1 / 1500
    let thp := o.hth + o.hw * (((m : Rat) / 3 - (o.htk : Rat)) / 400000000)
    let s := modObs s n (fun o =>
      { o with hth := thp + g.2 * td * e, hw := o.hw + g.1 * td * e, htk := (m + 2) / 3, hSumQ := 0, hSumD := 0, hN := 0 })
    let s := setTel s (Sig.OBS_HFI_ERR n.val) (e * 65536)
    let nom := amp / (2 * (2 * Config.pi * 1500) * ld)
    let d := m2.2.2
    .next (if d < nom / 2 ∨ 2 * nom < d then obsFail s n else s)
  else .next s

/-- OBS_LIVE (R407). -/
def obsLive (s : State) (n : Axis) : Nat :=
  let o := s.obs[n]
  (if o.sens then o.est else 0) * 16 + bitIf (agreeArmed s n) 3 + bitIf o.conv 2 + bitIf o.sens 1 +
    bitIf (rgN s (Sig.OBS_EN n.val) == 1 && (axSt s n).runsTasks) 0

end Sys2Proof.Machine
end

