-- ==== Sys2Proof/Machine/Loop.lean ====
section
/-! DEFINITION. The loop engine (chapter 10): the current task (R272 to R286), the outer steps (R287 to R291), the limits in force
(R292, R293), transitions among the enabled states with their preloads (R296, R297, R303 to R305, R663), and the end of precharge
(R241). -/

namespace Sys2Proof.Machine

/-! ### Small arithmetic -/

/-- The sign of a number (R284). -/
def sgn (x : Rat) : Rat := if x < 0 then -1 else if x = 0 then 0 else 1

/-- limit2 of R284 for a limit `l` whose square is `l2`. -/
def limit2 (l l2 x y : Rat) : Rat × Rat :=
  let x' := if x * x ≤ l2 then x else sgn x * l
  let room := if x * x ≤ l2 then l2 - x * x else 0
  (x', if y * y ≤ room then y else sgn y * Config.sqrtRat room)

/-- A number kept within ±l, where `l2` is the square of `l`. -/
def limit1 (l l2 x : Rat) : Rat := if x * x ≤ l2 then x else sgn x * l

/-- The integrator after a step: it advances only while its output is unlimited, or while its error drives the output back (R284). -/
def antiWindup (lim lim2 old new e u v : Rat) : Rat :=
  if v = u ∨ sgn e ≠ sgn (u - v) then limit1 lim lim2 new else old

/-- A fraction signal: 0xFFFF stands for 1 (R285). -/
def fracOf (v : Nat) : Rat := if v = 0xFFFF then 1 else (v : Rat) / 65536

/-! ### Angle and feedback (R279, R280, R400) -/

/-- θe at a tick, in turns, not wrapped where the observer supplies it (R279, R400). -/
def elecAngle (s : State) (n : Axis) (t : Nat) : Rat :=
  let src := rgN s (Sig.LP_ANG_SRC n.val)
  if (s.obs[n]).sens || src == 2 then obsAngle s n t
  else if src = 1 then
    fracTurn ((rgN s (Sig.LP_EANG_MUL n.val) : Rat) * fbAngle s n t + (rgN s (Sig.LP_EANG_OFS n.val) : Rat) / 65536)
  else fracTurn (rsvElec s n t)

/-- The speed feedback at a tick in turn/s (R280, R400). -/
def fbkSpeed (s : State) (n : Axis) (t : Nat) : Rat :=
  if rgN s (Sig.LP_FB_SRC n.val) = 1 then (fbSpeed s n t).1
  else if (s.obs[n]).sens then obsShaft s n
  else (s.rsv[n]).omx

/-- The position feedback at a tick in counts, not wrapped (R280, R400). -/
def fbkPos (s : State) (n : Axis) (t : Nat) : Int :=
  if rgN s (Sig.LP_FB_SRC n.val) = 1 then fbPosAt s n t
  else if (s.obs[n]).sens then ((s.obs[n]).dead * 65536).floor
  else thetaCounts (rsvAt s n (t : Rat))

/-! ### Limits in force (R292, R293) -/

/-- The limits besides the grant, in A (R292). -/
def otherLimit (s : State) (n : Axis) : Rat :=
  let imax : Rat := (rgN s (Sig.LP_IMAX n.val) : Rat) / 1000
  let therm := imax * ((rgN s (Sig.HC_THERM_FACTOR n.val) : Rat) / 32768)
  let der := if (s.ax[n]).derate then imax * ((rgN s (Sig.FLT_DERATE_AX n.val) : Rat) / 100) else imax
  let sens := if (s.obs[n]).sens || rgN s (Sig.LP_ANG_SRC n.val) == 2 then imax * ((rgN s (Sig.OBS_SENS_PCT n.val) : Rat) / 100)
    else imax
  min (min imax therm) (min der sens)

/-- The limit in force of an axis in A, but for the share of HOLD, and whether the grant governs it (R292, R293). -/
def limitNow (s : State) (n : Axis) : Rat × Bool :=
  let g : Rat := (rgN s (Sig.HC_GRANT_I n.val) : Rat) / 1000
  let o := otherLimit s n
  (min o g, decide (g < o))

/-- The set-points in force of an axis (R293). -/
def setPoints (s : State) (n : Axis) : SetPts where
  idRef := rgI s (Sig.LP_ID_REF n.val)
  iqRef := rgI s (Sig.LP_IQ_REF n.val)
  iqSlew := rgN s (Sig.LP_IQ_SLEW n.val)
  vd := rgI s (Sig.LP_VD_OL n.val)
  vq := rgI s (Sig.LP_VQ_OL n.val)
  olForced := rgN s (Sig.LP_OL_ANG n.val) == 1
  olSpeed := rgI s (Sig.LP_OL_SPEED n.val)
  holdPct := rgN s (Sig.LP_HOLD_PCT n.val)

/-- ILIM of a task in A (R292). -/
def ilimOf (s : State) (n : Axis) (t : Task) : Rat :=
  if axSt s n = .hold then t.lim * (t.pts.holdPct : Rat) / 100 else t.lim

/-! ### Transitions (R296, R297, R303 to R305, R663) -/

/-- The answers of a STOP that waits in TORQUE or SPEED (R300). -/
def endStops (s : State) (n : Axis) (status : Nat) : State :=
  endWaits s (fun w => w.opcode == opStop && decide (w.axis = some n)) (fun _ w => (status, movePayload w.value 0))

/-- The enabled state `st` entered from an enabled state, with the measured iq, ω and position at the instant (R303 to R305). -/
def enterState (s : State) (n : Axis) (st : AxState) (tag : Nat) (iq w : Rat) (pos : Int) (th : Rat) : State :=
  if st = .hold then toHold s n false
  else
    let old := loopState s n
    let resume := decide (axSt s n = .hold) && decide (old = .position) && decide (st = .position)
    let closeCur := !old.closesCurrent && st.closesCurrent
    let closeSpd := !old.closesSpeed && st.closesSpeed
    let closePos := decide (old ≠ .position) && decide (st = .position)
    let s := axisTo s n st
    let s := if old = st then s else endStops s n stNotInState
    let s := modLoop s n (fun l =>
      let upd (b : Bank) : Bank :=
        { b with
          iD := if old.closesCurrent && !st.closesCurrent then 0 else b.iD
          iQ := if old.closesCurrent && !st.closesCurrent then 0 else b.iQ
          iW := if old.closesSpeed && !st.closesSpeed then 0 else b.iW
          iP := if st = .position then b.iP else 0
          aCar := if closePos then 0 else b.aCar
          iqRef := if st.closesCurrent then some (b.iqRef.getD iq) else none
          wRef := if st.closesSpeed then some (b.wRef.getD w) else none
          forced := if st = .opn ∧ old.closesCurrent = true then th else b.forced }
      let b := upd l.bankA
      { l with bankA := b, bankB := b.compl, preCur := closeCur, preEmf := false, preSpd := closeSpd,
               prePos := closePos, stopRate := if st = .speed then l.stopRate else none })
    let s := if closePos then carLoad s n tag pos (((s.loop[n]).bankA.wRef.getD w) * 65536) else s
    if resume then carResume s n else s

/-- A transition that waits takes effect at the first task whose tag falls after its request (R296). -/
def applyPend (s : State) (n : Axis) (tag : Nat) (iq w : Rat) (pos : Int) (th : Rat) : State :=
  match (s.loop[n]).pend with
  | none => s
  | some (st, t) =>
    if t < tag then enterState (modLoop s n (fun l => { l with pend := none })) n st tag iq w pos th else s

/-! ### Output stage (R284 to R286) -/

/-- T_adv in seconds (R286). -/
def advance (s : State) (n : Axis) (ts : Rat) : Rat :=
  let a := rgN s (Sig.LP_ADV n.val)
  if a ≠ 0 then (a : Rat) / 100000000
  else
    ts / 2 + (if s.bisc.mode = 2 then 12 else if (s.loop[n]).passes = 1 then 35 / 10 else 6) / 10000000

/-- The duty of a shifted phase voltage before its limits; with a rail voltage of 0 the quotient is a free value. -/
def dutyOf (s : State) (x vm : Rat) : State × Rat :=
  if vm = 0 then
    let d := drawWord s
    (d.2, (d.1.toNat : Rat) / 4294967296)
  else (s, 1 / 2 + x / vm)

/-- The three compares of a voltage vector at θo, in the order U, V, W; DUTY_LIM set (R284, R285). -/
def svm (s : State) (n : Axis) (vd vq tho vm : Rat) : State × Nat × Nat × Nat :=
  let cs := Config.cosTurn tho
  let sn := Config.sinTurn tho
  let va := vd * cs - vq * sn
  let vb := vd * sn + vq * cs
  let r3 := Config.sqrtRat 3
  let vu := va
  let vv := -va / 2 + r3 / 2 * vb
  let vw := -va / 2 - r3 / 2 * vb
  let off := -(max vu (max vv vw) + min vu (min vv vw)) / 2
  let lo := fracOf (rgN s (Sig.LP_DUTY_MIN n.val))
  let hi := fracOf (rgN s (Sig.LP_DUTY_MAX n.val))
  let word (d : Rat) : Nat := (roundHalfUp (16 * clampRat d lo hi * (perOf s n : Rat))).toNat
  let (s, du) := dutyOf s (vu + off) vm
  let (s, dv) := dutyOf s (vv + off) vm
  let (s, dw) := dutyOf s (vw + off) vm
  let out (d : Rat) : Bool := decide (clampRat d lo hi ≠ d)
  let s := if out du || out dv || out dw then setB s (Sig.LP_STAT n.val) 5 true else s
  (s, word du, word dv, word dw)

/-! ### The current loop (R283, R284, R305, R405) -/

/-- The slewed iq reference of TORQUE (R305), frozen in HOLD (R297). -/
def slewIq (s : State) (n : Axis) (p : SetPts) (ref ts : Rat) : Rat :=
  if axSt s n = .hold then ref
  else
    let goal : Rat := (p.iqRef : Rat) / 1000
    let slew := p.iqSlew
    if slew = 0 then goal else ref + clampRat (goal - ref) (-((slew : Rat) * 1000 * ts)) ((slew : Rat) * 1000 * ts)

/-- The injection's part of a task: vh, and the filtered currents (R405); the sums of the injection period advance. -/
def hfiTask (s : State) (n : Axis) (tag : Nat) (m : Meas) : State × Rat × Rat × Rat :=
  let o := s.obs[n]
  if o.sens && o.est == 2 then
    let ph := hfiPhase tag
    let sn := Config.sinTurn ph
    let vh := (rgN s (Sig.OBS_HFI_AMP n.val) : Rat) / 1000 * Config.cosTurn ph
    let s := modObs s n (fun o => { o with hSumQ := o.hSumQ + m.iq * sn, hSumD := o.hSumD + m.id * sn, hN := o.hN + 1 })
    let k := s.free
    ({ s with free := k + 2 }, vh, Config.notch k m.id, Config.notch (k + 1) m.iq)
  else (s, 0, m.id, m.iq)

/-- The d-current term of a coupling probe in A at a tick: the profile of R453, ramped to 0 within 1 ms of an abort (R166). -/
def probeAt (p : Probe) (t : Nat) : Rat :=
  let ms : Rat := ((t : Rat) - (p.start : Rat)) / 400000
  if ms < 1 / 2 then 20 * ms
  else if ms < 5 then 10
  else if ms < 11 / 2 then 10 + (p.ip - 10) * 2 * (ms - 5)
  else if ms < 10 then p.ip
  else if ms < 11 then p.ip * (11 - ms)
  else 0

/-- The d-current term that a probe adds to the reference of an axis (R453). -/
def probeTerm (s : State) (n : Axis) (t : Nat) : Rat :=
  match s.hc.probe with
  | none => 0
  | some p =>
    if p.axis ≠ n then 0
    else
      match p.stopped with
      | none => probeAt p t
      | some t0 => probeAt p t0 * clampRat (1 - ((t : Rat) - (t0 : Rat)) / 400000) 0 1

/-- One run of the current loop: vd and vq, with the integrators advanced (R283, R284, R303). -/
def currentLoop (s : State) (t : Task) (ilim : Rat) : State × Rat × Rat :=
  let n := t.axis
  let tag := t.tag
  let m := t.meas
  let (s, vh, id, iq) := hfiTask s n tag m
  let l := s.loop[n]
  let b := l.bankA
  let we := 2 * Config.pi * ((rgN s (Sig.LP_EANG_MUL n.val) : Rat) * m.w)
  let ld : Rat := (rgN s (Sig.LP_LD n.val) : Rat) / 1000000000
  let lq : Rat := (rgN s (Sig.LP_LQ n.val) : Rat) / 1000000000
  let psi : Rat := (rgN s (Sig.LP_PSI n.val) : Rat) / 1000000
  let dec := rgN s (Sig.LP_DECOUPLE n.val) == 1
  let ffd := if dec then -(we * lq * m.iq) else 0
  let ffq := if dec then we * (ld * m.id + psi) else 0
  let idRef := if axSt s n = .hold then b.idRef else (t.pts.idRef : Rat) / 1000
  let r0 := b.iqRef.getD m.iq
  let iqRef := if loopState s n = .torque then slewIq s n t.pts r0 m.ts else r0
  let idAll := idRef + probeTerm s n tag
  let r := limit2 ilim (ilim * ilim) idAll iqRef
  let s := if r ≠ (idAll, iqRef) then setB s (Sig.LP_STAT n.val) 3 true else s
  let ed := r.1 - id
  let eq := r.2 - iq
  let mod := fracOf (rgN s (Sig.LP_MOD_MAX n.val))
  let vmax2 := mod * mod * m.vm * m.vm / 3
  let vmax := mod * m.vm / Config.sqrtRat 3
  let kpd : Rat := (rgI s (Sig.LP_KP_D n.val) : Rat) / 65536
  let kpq : Rat := (rgI s (Sig.LP_KP_Q n.val) : Rat) / 65536
  let kid : Rat := (rgI s (Sig.LP_KI_D n.val) : Rat) / 256
  let kiq : Rat := (rgI s (Sig.LP_KI_Q n.val) : Rat) / 256
  let lastD := if l.preEmf then 0 else b.vd
  let lastQ := if l.preEmf then we * psi else b.vq
  let inD := if l.preCur then lastD - kpd * ed - ffd else b.iD + kid * m.ts * ed
  let inQ := if l.preCur then lastQ - kpq * eq - ffq else b.iQ + kiq * m.ts * eq
  let oldD := if l.preCur then limit1 vmax vmax2 inD else b.iD
  let oldQ := if l.preCur then limit1 vmax vmax2 inQ else b.iQ
  let ud := kpd * ed + inD + ffd + vh
  let uq := kpq * eq + inQ + ffq
  let v := limit2 vmax vmax2 ud uq
  let s := if v ≠ (ud, uq) then setB s (Sig.LP_STAT n.val) 4 true else s
  let b' : Bank :=
    { b with iD := antiWindup vmax vmax2 oldD inD ed ud v.1, iQ := antiWindup vmax vmax2 oldQ inQ eq uq v.2, idRef := idRef,
             iqRef := some iqRef, vd := v.1, vq := v.2 }
  let s := modLoop s n (fun l =>
    { l with bankA := b', bankB := if l.passes = 2 then b'.compl else l.bankB, preCur := false, preEmf := false })
  (if iqRef = 0 ∧ axSt s n = .torque then endStops s n stOk else s, v.1, v.2)

/-- The open-loop voltages of OPEN with the angle and electrical speed they turn at (R294, R663); HOLD keeps them and the angle in force
(R297). The forced angle advances at every task but the one that enters OPEN from a closed state, where it starts (R663). -/
def openLoop (s : State) (t : Task) (entering : Bool) : State × Rat × Rat × Rat × Rat :=
  let n := t.axis
  let l := s.loop[n]
  let b := l.bankA
  let held := decide (axSt s n = .hold)
  let vd := if held then b.vd else (t.pts.vd : Rat) / 1000
  let vq := if held then b.vq else (t.pts.vq : Rat) / 1000
  let turns := if held then l.olForced else t.pts.olForced
  let w : Rat := (t.pts.olSpeed : Rat) / 65536
  let forced := if turns && !held && !entering then fracTurn (b.forced + w * t.ts) else b.forced
  let b' : Bank := { b with vd := vd, vq := vq, forced := forced }
  let s := modLoop s n (fun l =>
    { l with bankA := b', bankB := if l.passes = 2 then b'.compl else l.bankB, olForced := turns })
  let mul : Rat := (rgN s (Sig.LP_EANG_MUL n.val) : Rat)
  if turns then (s, vd, vq, forced, if held then 0 else w) else (s, vd, vq, t.meas.th, mul * t.meas.w)

/-! ### The current task -/

/-- A 16-bit field of a snapshot record (R585). -/
def rec16 (k : Nat) (x : Rat) : List Byte := leInt 2 (clampInt (narrow (0x58500 + k) x) (-32768) 32767)

/-- The record of a task for fault snapshots (R585), kept for the newest 251 tasks and added to the snapshots that collect. -/
def snapTask (s : State) (n : Axis) (tag : Nat) (m : Meas) (vd vq : Rat) : State :=
  let r := rec16 0 (m.id * 10) ++ rec16 1 (m.iq * 10) ++ rec16 2 (vd * 100) ++ rec16 3 (vq * 100) ++
    leBytes 2 ((fracTurn m.th) * 65536).floor.toNat ++ leBytes 2 (min 65535 (narrow 0x58505 (m.vm * 1000 / 16)).toNat) ++
    rec16 6 (m.w * 256) ++ leBytes 2 tag
  let s := modLoop s n (fun l => { l with snapRecs := pushLast 251 l.snapRecs r })
  addSnapRec s (fun x => decide (codeAxis x.code = some n)) r

/-- A step that falls due while the previous step of its loop has not completed: that one is abandoned (R290). -/
def outerLate (s : State) (n : Axis) (late : Bool) : State :=
  if late then axFault (setB s (Sig.LP_STAT n.val) 10 true) n 7 else s

/-- The outer steps and the observer step that fall due at a task, on the feedback at its tag (R287, R290, R388); a held task postpones them
(R278, R487). -/
def dueSteps (s : State) (n : Axis) (t : Task) (ilim : Rat) (heldTask : Bool) : State :=
  let ls := loopState s n
  let l := s.loop[n]
  let k := l.taskN + 1
  let spd := ls.closesSpeed && (k % max 1 (rgN s (Sig.LP_DIV_SPD n.val)) == 0 || l.owedSpd)
  let pos := decide (ls = .position) && (k % max 1 (rgN s (Sig.LP_DIV_POS n.val)) == 0 || l.owedPos)
  let sumS := l.tsSpd + t.ts
  let sumP := l.tsPos + t.ts
  if heldTask then modLoop s n (fun l => { l with taskN := k, owedSpd := spd, owedPos := pos, tsSpd := sumS, tsPos := sumP })
  else
    let due (sum : Rat) : Due := ⟨t.tag, t.meas.w, t.meas.pos, ilim, sum⟩
    let s := modLoop s n (fun l =>
      { l with taskN := k, owedSpd := false, owedPos := false, tsSpd := if spd then 0 else sumS, tsPos := if pos then 0 else sumP,
               dueSpd := if spd then some (due sumS) else l.dueSpd, duePos := if pos then some (due sumP) else l.duePos,
               dueObs := if rgN s (Sig.OBS_EN n.val) = 1 then some (t.tag, t.ts) else none })
    outerLate (outerLate s n (pos && l.duePos.isSome)) n (spd && l.dueSpd.isSome)

/-- The telemetry of a task (R308). -/
def taskTelemetry (s : State) (n : Axis) (m : Meas) (vd vq ilim : Rat) : State :=
  let s := setTel s (Sig.LP_ID n.val) (m.id * 1000)
  let s := setTel s (Sig.LP_IQ n.val) (m.iq * 1000)
  let s := setTel s (Sig.LP_VD n.val) (vd * 1000)
  let s := setTel s (Sig.LP_VQ n.val) (vq * 1000)
  let s := setTel s (Sig.LP_SPEED n.val) (m.w * 65536)
  let s := setI s (Sig.LP_POS n.val) m.pos
  setTel s (Sig.LP_ILIM n.val) (ilim * 1000)

/-- The input snapshot of a task (R477): the set of phase currents, what it measures at its tag (R279 to R282), the limits and set-points in
force (R293). -/
def takeSnapshot (s : State) (n : Axis) (tag : Nat) (ts : Rat) : Task :=
  let r := reconstruct s n tag
  let l := s.loop[n]
  let k := lsbA s n / 16
  let th := elecAngle s n tag
  let cs := Config.cosTurn th
  let sn := Config.sinTurn th
  let vm := taskVm s n
  let i : Rat × Rat := match r.1 with
    | some x => ((x.u : Rat) * k, ((x.u : Rat) * k + 2 * ((x.v : Rat) * k)) / Config.sqrtRat 3)
    | none => (l.ia, l.ib)
  let d : Rat × Rat := match r.1 with
    | some _ => (i.1 * cs + i.2 * sn, i.2 * cs - i.1 * sn)
    | none => (l.id, l.iq)
  let lim := limitNow s n
  { axis := n, tag := tag, ts := ts, set := r.1, ok := r.2.1, miss := r.2.2, ia := i.1, ib := i.2
    meas := ⟨d.1, d.2, fbkSpeed s n tag, fbkPos s n tag, th, vm.1, ts⟩
    floor := vm.2, lim := lim.1, grant := lim.2, pts := setPoints s n }

/-- A task that releases its results: loops, compares, telemetry, and the steps that fall due (R281 to R286, R294, R482). -/
def releaseTask (s : State) (t : Task) (x : CurSet) : State :=
  let n := t.axis
  let m := t.meas
  let s := if t.floor then setB s (Sig.LP_STAT n.val) 6 true else s
  let before := loopState s n
  let s := applyPend s n t.tag m.iq m.w m.pos m.th
  let ilim := ilimOf s n t
  let s := if t.grant then setB s (Sig.LP_STAT n.val) 1 true else s
  let vdP := (s.loop[n]).bankA.vd
  let vqP := (s.loop[n]).bankA.vq
  let mul : Rat := (rgN s (Sig.LP_EANG_MUL n.val) : Rat)
  let ls := loopState s n
  let (s, vd, vq, th, we) : State × Rat × Rat × Rat × Rat :=
    if ls.closesCurrent then
      let r := currentLoop s t ilim
      (r.1, r.2.1, r.2.2, m.th, mul * m.w)
    else if ls = .opn then openLoop s t before.closesCurrent
    else (s, 0, 0, m.th, 0)
  let s := modLoop s n (fun l =>
    { l with lastSet := some x, id := m.id, iq := m.iq, ia := t.ia, ib := t.ib, va := vdP, vb := vqP, thE := m.th, speed := m.w,
             pos := m.pos, vm := m.vm, ilim := ilim, ts := t.ts })
  let s := modHcAx s n (fun h =>
    { h with sumD := h.sumD + m.id, sumQ := h.sumQ + m.iq, sumVm := h.sumVm + m.vm, sumN := h.sumN + 1 })
  let s := taskTelemetry s n m vd vq ilim
  let s := if ls.serving && rgN s (Sig.PWM_SRC n.val) == 0 then
      let r := svm s n vd vq (th + we * advance s n t.ts) m.vm
      directWrites r.1 n r.2.1 r.2.2.1 r.2.2.2
    else s
  dueSteps (snapTask s n t.tag m vd vq) n t ilim false

/-- The forced angle of OPEN where a task computes nothing new: it advances all the same (R278, R663). -/
def forcedOn (s : State) (t : Task) : State :=
  if axSt s t.axis = .opn ∧ t.pts.olForced = true then
    modLoop s t.axis (fun l =>
      let b : Bank := { l.bankA with forced := fracTurn (l.bankA.forced + (t.pts.olSpeed : Rat) / 65536 * t.ts) }
      { l with bankA := b, bankB := if l.passes = 2 then b.compl else l.bankB })
  else s

/-- A task of an axis that its checkpoint lets pass: an implausible set holds the compares and integrators (R269, R278). -/
def passTask (s : State) (t : Task) : State :=
  let n := t.axis
  let s := incR s (Sig.LP_TASK_COUNT n.val)
  let s := modLoop s n (fun l => { l with winTasks := l.winTasks + 1 })
  let s := if t.miss then setB s Sig.SMP_STAT 17 true else s
  let s := slotsCheck s n 1 t.meas.pos (usAt s t.tag)
  match t.set, t.ok with
  | some x, true => releaseTask s t x
  | _, _ =>
    let s := setB s (Sig.LP_STAT n.val) 7 true
    let opn := decide (axSt s n = .opn)
    let s := applyPend s n t.tag (s.loop[n]).iq t.meas.w t.meas.pos t.meas.th
    let s := modLoop s n (fun l => { l with ts := t.ts })
    dueSteps (implausible (if opn then forcedOn s t else s) n t.tag) n t 0 true

/-- A held sample: nothing is released, the steps due are postponed (R487). -/
def holdTask (s : State) (t : Task) : State :=
  dueSteps (incR (setB s Sig.BISC_STAT 4 true) (Sig.BISC_HOLD_AX t.axis.val)) t.axis t 0 true

/-- Whether the transition that takes effect at a task closes the current loop (R281, R296). -/
def closingNow (s : State) (n : Axis) (tag : Nat) : Bool :=
  match (s.loop[n]).pend with
  | some (st, t) => decide (t < tag) && st.closesCurrent && !(loopState s n).closesCurrent
  | none => false

/-- Ts of a task in seconds (R281). -/
def sampleInterval (s : State) (n : Axis) (tag : Nat) : Rat :=
  let l := s.loop[n]
  match l.lastTag with
  | some p =>
    if l.firstTask || closingNow s n tag then (if taskRate s n = 0 then tMin s n else 1 / taskRate s n)
    else min (((tag : Rat) - (p : Rat)) / 400000000) (4 * tMin s n)
  | none => if taskRate s n = 0 then tMin s n else 1 / taskRate s n

/-- A task that starts, its window closed: debug writes and a change of passes that wait for it, and its input snapshot (R477, R494). -/
def beginTask (s : State) (n : Axis) (tag : Nat) : State × Task :=
  let s := toTick s (windowClose s n tag)
  let s := replayLog s (engOf n).val
  let dt := tag - ((s.loop[n]).lastTag.getD tag)
  let s := match (s.loop[n]).passPend with
    | some (p, t) => if t < tag then modeDone (setPasses s n p) else s
    | none => s
  let ts := sampleInterval s n tag
  let s := sensAdvance (sensEntry s n tag) n tag dt
  let s := if rgN s (Sig.LP_FB_SRC n.val) = 1 ∨ rgN s (Sig.LP_ANG_SRC n.val) = 1 then fbStillAt s n tag else s
  let s := modLoop s n (fun l => { l with lastTag := some tag, firstTask := false })
  (s, takeSnapshot s n tag ts)

/-- The engine occupied by a task from a tick (R16 to R18, R276); time is brought forward to its end. -/
def occupy (s : State) (n : Axis) (from_ : Nat) : State :=
  let us := stepTime s n (1 / 2)
  let done := from_ + (us * 400).floor.toNat
  toTick (modEng (engineBusy s n us) (engOf n) (fun e => { e with freeAt := done })) done

/-- The end of a task: its checkpoint, and the retry (R480 to R487). -/
def endTask (s : State) (t : Task) (chk : Check) : State :=
  let n := t.axis
  match verdict s n chk with
  | none => passTask s t
  | some k =>
    let free := (s.eng[engOf n]).freeAt
    let retry := !chk.pending && !otherPending s n (free + (stepTime s n (1 / 2) * 400).floor.toNat) && !laterTag s n && chk.retryOk &&
      banksAgree s n
    let s := biscEvent s n k (!retry)
    if !(axSt s n).runsTasks then s
    else if retry then
      passTask (occupy (incR (setB s Sig.BISC_STAT 3 true) (Sig.BISC_RETRY_AX n.val)) n free) t
    else holdTask s t

/-- A task that starts and runs: after its window closes and the tasks before it on the engine end (R16 to R19, R22). -/
def runTask (s : State) (n : Axis) (tag : Nat) (chk : Check) : State :=
  let close := windowClose s n tag
  let x := beginTask s n tag
  endTask (occupy x.1 n (max close (x.1.eng[engOf n]).freeAt)) x.2 chk

/-- A task that a halt held inside pass A, resumed: pass B and the checkpoint; where a later tag has arrived its results are discarded without
a mismatch event (R500). -/
def resumeTask (s : State) (t : Task) (chk : Check) : State :=
  let n := t.axis
  let s := modEng s (engOf n) (fun e => { e with stopped := none })
  let s := replayLog s (engOf n).val
  if !(axSt s n).runsTasks then s
  else
    let s := occupy s n s.clk.tb
    if laterTag s n then dueSteps s n t 0 true else endTask s t chk

/-- The tag whose task an engine runs next: the one whose window closes first, then the lowest axis (R19). -/
def nextTask (s : State) (e : Fin 2) : Option Tag :=
  ((s.eng[e]).fifo.filter (startsTask s)).foldl (fun m t =>
    match m with
    | none => some t
    | some x => if taskBefore s t x then some t else some x) none

/-- The pending current task of an engine started and held inside pass A (R500). -/
def stopInTask (s : State) (e : Fin 2) : State :=
  match nextTask s e with
  | none => s
  | some t =>
    if (s.eng[e]).stopped.isNone && decide (closeOf s t ≤ s.clk.tb) then
      let x := beginTask (modEng s e (fun g => { g with fifo := g.fifo.erase t })) t.axis t.ts
      modEng x.1 e (fun g => { g with stopped := some x.2 })
    else s

/-- The FIFO without the first tag of an axis. -/
def dropTag (n : Axis) : List Tag → List Tag
  | [] => []
  | t :: ts => if t.axis = n then ts else t :: dropTag n ts

/-- An access of a memory during a step (R533): a corrected error counts MEM_CORR; after an uncorrectable one the value is not used. -/
def memAccess (s : State) (mem : MemCheck) : State :=
  match mem with
  | .good => s
  | .corrected => devFault s 45
  | .uncorrectable => devFault s 46

/-- CURRENT_TASK: the engine takes the oldest tag of an axis; one that starts a task runs in its turn (R19, R263, R272, R275, R284). A task
that a halt held is resumed (R500). -/
def execCurrentTask (n : Axis) (chk : Check) (mem : MemCheck) (s : State) : Host.Outcome State Fault Refusal :=
  let e := engOf n
  if !inRun s || (s.eng[e]).halted then .next s
  else
    match (s.eng[e]).stopped with
    | some t => .next (if t.axis = n then resumeTask s t chk else s)
    | none =>
      match (s.eng[e]).fifo.find? (fun t => decide (t.axis = n)) with
      | none => .next s
      | some t =>
        let s := adcSettle s e
        let taken := modEng s e (fun g => { g with fifo := dropTag n g.fifo })
        if t.ts + 32000 < s.clk.tb then .next (tagLost taken n)
        else if !(axSt s n).runsTasks || !tagSelected s t then .next taken
        else if tooClose s n t.ts then .next (incR (setB taken (Sig.LP_STAT n.val) 9 true) (Sig.LP_SKIP_COUNT n.val))
        else if nextTask s e != some t then .next s
        else
          let s := memAccess taken mem
          .next (match mem with
            | .uncorrectable => s
            | _ => if (axSt s n).runsTasks then runTask s n t.ts chk else s)

/-! ### Outer steps (R287 to R291) -/

/-- An outer step with the check of the memory it reads: one that meets an uncorrectable error is not made (R533). -/
def checkedStep (s : State) (n : Axis) (chk : Check) (mem : MemCheck) (f : State → State) : State :=
  match mem with
  | .uncorrectable => memAccess s mem
  | _ => outerStep (memAccess s mem) n (4 / 10) chk f

/-- A speed reference kept within ±LP_SPD_MAX; SPD_SAT set where that limits it (R305, R309). -/
def limitSpeed (s : State) (n : Axis) (x : Rat) : State × Rat :=
  let top : Rat := (rgN s (Sig.LP_SPD_MAX n.val) : Rat) / 65536
  let y := clampRat x (-top) top
  (if y ≠ x then setB s (Sig.LP_STAT n.val) 2 true else s, y)

/-- The speed reference of SPEED at a speed step (R300, R305): frozen in HOLD (R297) unless a STOP ramps it. -/
def slewSpeed (s : State) (n : Axis) (ref ts : Rat) : State × Rat :=
  let l := s.loop[n]
  if axSt s n = .hold ∧ l.stopRate = none then limitSpeed s n ref
  else
    let g := limitSpeed s n ((rgI s (Sig.LP_SPD_REF n.val) : Rat) / 65536)
    let rate := l.stopRate.getD ((rgN s (Sig.LP_SPD_SLEW n.val) : Rat) / 65536)
    limitSpeed g.1 n (if rate = 0 then g.2 else ref + clampRat (g.2 - ref) (-(rate * ts)) (rate * ts))

/-- One speed step on the feedback of the task at which it fell due (R287, R289). -/
def speedStep (s : State) (n : Axis) (d : Due) : State :=
  let l := s.loop[n]
  let b := l.bankA
  let ref := b.wRef.getD d.speed
  let ls := loopState s n
  let (s, wRef) := if ls = .speed then slewSpeed s n ref d.ts else (s, ref)
  let acc : Rat := if ls = .position ∧ axSt s n ≠ .hold then b.aCar else 0
  let kaff : Rat := (rgN s (Sig.LP_KAFF n.val) : Rat) / 32768
  let jn : Rat := (rgN s (Sig.LP_INERTIA n.val) : Rat) / 10000000
  let kt : Rat := (rgN s (Sig.LP_KT n.val) : Rat) / 1000000
  let ff := kaff * (2 * Config.pi) * jn * acc / kt
  let e := wRef - d.speed
  let kp : Rat := (rgI s (Sig.LP_KP_SPD n.val) : Rat) / 65536
  let ki : Rat := (rgI s (Sig.LP_KI_SPD n.val) : Rat) / 256
  let lim2 := d.ilim * d.ilim
  let iNew := if l.preSpd then b.iqRef.getD l.iq - kp * e - ff else b.iW + ki * d.ts * e
  let old := if l.preSpd then limit1 d.ilim lim2 iNew else b.iW
  let u := kp * e + iNew + ff
  let iq := clampRat u (-d.ilim) d.ilim
  let s := if iq ≠ u then setB s (Sig.LP_STAT n.val) 3 true else s
  let b' : Bank := { b with iW := antiWindup d.ilim lim2 old iNew e u iq, iqRef := some iq, wRef := some wRef }
  let s := modLoop s n (fun l => { l with bankA := b', bankB := if l.passes = 2 then b'.compl else l.bankB, preSpd := false })
  if ls = .speed ∧ wRef = 0 then endStops (modLoop s n (fun l => { l with stopRate := none })) n stOk else s

/-- SPEED_STEP: the speed loop of an axis, after the position step where both are due, while no current task is pending (R20, R287, R289, R533). -/
def execSpeedStep (n : Axis) (chk : Check) (mem : MemCheck) (s : State) : Host.Outcome State Fault Refusal :=
  let l := s.loop[n]
  match l.dueSpd with
  | none => .next s
  | some d =>
    if inRun s && l.duePos.isNone && (loopState s n).closesSpeed && !(s.eng[engOf n]).halted && !taskPending s (engOf n) then
      let s := modLoop s n (fun l => { l with dueSpd := none })
      .next (checkedStep s n chk mem (fun s => if (loopState s n).closesSpeed then speedStep s n d else s))
    else .next s

/-- One position step on the feedback of the task at which it fell due and Caramel's record at that task's tag (R287, R288, R291). -/
def positionStep (s : State) (n : Axis) (d : Due) : State :=
  let l := s.loop[n]
  let (s, r) := carRecord s n d.tag
  let held := decide (axSt s n = .hold)
  let ep := signed32 (r.pos - d.pos)
  let e : Rat := (ep : Rat) / 65536
  let lim := rgN s (Sig.LP_POS_ERR_MAX n.val)
  let s := if lim ≠ 0 ∧ lim < ep.natAbs then axFault (setB s (Sig.LP_STAT n.val) 11 true) n 8 else s
  let v : Rat := if held then 0 else r.v / 65536
  let ff := (rgN s (Sig.LP_KVFF n.val) : Rat) / 32768 * v
  let kp : Rat := (rgI s (Sig.LP_KP_POS n.val) : Rat) / 65536
  let ki : Rat := (rgI s (Sig.LP_KI_POS n.val) : Rat) / 256
  let top : Rat := (rgN s (Sig.LP_SPD_MAX n.val) : Rat) / 65536
  let b := l.bankA
  let iNew := if l.prePos then b.wRef.getD d.speed - kp * e - ff else b.iP + ki * d.ts * e
  let old := if l.prePos then limit1 top (top * top) iNew else b.iP
  let u := kp * e + iNew + ff
  let w := clampRat u (-top) top
  let s := if w ≠ u then setB s (Sig.LP_STAT n.val) 2 true else s
  let b' : Bank :=
    { b with iP := antiWindup top (top * top) old iNew e u w, wRef := some w, pRef := r.pos, aCar := if held then 0 else r.a / 65536 }
  let s := modLoop s n (fun l => { l with bankA := b', bankB := if l.passes = 2 then b'.compl else l.bankB, prePos := false })
  setI s (Sig.LP_POS_REF n.val) r.pos

/-- POSITION_STEP: the position loop of an axis on the record of Caramel, while no current task is pending (R20, R26, R287, R288, R533). -/
def execPositionStep (n : Axis) (chk : Check) (mem : MemCheck) (s : State) : Host.Outcome State Fault Refusal :=
  let l := s.loop[n]
  match l.duePos with
  | none => .next s
  | some d =>
    if inRun s && decide (loopState s n = .position) && !(s.eng[engOf n]).halted && !taskPending s (engOf n) then
      let s := modLoop s n (fun l => { l with duePos := none })
      .next (checkedStep s n chk mem (fun s => if decide (loopState s n = .position) then positionStep s n d else s))
    else .next s

/-! ### The end of precharge (R180, R241, R303, R663) -/

/-- An active compare written before the module takes control of the gates (R180). -/
def initCompare (s : State) (n : Axis) (ph : Fin 3) (w : Nat) : State :=
  let s := modPwm s n (fun p => { p.modCh ph (fun c => { c with act := w }) with live := true })
  let p := s.pwm[n]
  let c := effCompare w p.j
  let on := if p.down then decide (p.cnt ≤ c) else decide (p.cnt < c)
  if (p.ch ph).ideal = on then s else setIdeal s n ph on

/-- The compares of the engine's initialisation: the open-loop voltages in OPEN, else vd 0 and vq ωe × LP_PSI (R241, R303). -/
def initLoop (s : State) (n : Axis) (goal : AxState) : State :=
  if rgN s (Sig.PWM_SRC n.val) ≠ 0 then s
  else
    let t := s.clk.tb
    let mul : Rat := (rgN s (Sig.LP_EANG_MUL n.val) : Rat)
    let we := mul * fbkSpeed s n t
    let psi : Rat := (rgN s (Sig.LP_PSI n.val) : Rat) / 1000000
    let forced := decide (goal = .opn) && rgN s (Sig.LP_OL_ANG n.val) == 1
    let vd : Rat := if goal = .opn then (rgI s (Sig.LP_VD_OL n.val) : Rat) / 1000 else 0
    let vq : Rat := if goal = .opn then (rgI s (Sig.LP_VQ_OL n.val) : Rat) / 1000 else 2 * Config.pi * we * psi
    let th := if forced then 0 else elecAngle s n t
    let w : Rat := if forced then (rgI s (Sig.LP_OL_SPEED n.val) : Rat) / 65536 else we
    let ts := if taskRate s n = 0 then tMin s n else 1 / taskRate s n
    let r := svm s n vd vq (th + w * advance s n ts) (taskVm s n).1
    let s := initCompare (initCompare (initCompare r.1 n 0 r.2.1) n 1 r.2.2.1) n 2 r.2.2.2
    modLoop s n (fun l =>
      let b : Bank := { l.bankA with vd := vd, vq := vq }
      { l with bankA := b, bankB := b.compl, olForced := forced })

/-- The end of precharge: the engine initialised, the axis in the requested state, the module in control (R241). -/
def prechargeDone (s : State) (n : Axis) : State :=
  let goal := (s.ax[n]).goal
  let s := obsStart s n
  let s := modLoop s n (fun l =>
    { l with bankA := Bank.init, bankB := Bank.init.compl, lastTag := none, lastSet := none, firstTask := true, preCur := goal.closesCurrent,
             preEmf := true, preSpd := goal.closesSpeed, prePos := decide (goal = .position), tsSpd := 0, tsPos := 0,
             dueSpd := none, duePos := none, dueObs := none, owedSpd := false, owedPos := false, stopRate := none })
  let s := initLoop s n goal
  let t := s.clk.tb
  let s := withEdges s n (fun s => axisTo s n goal)
  let s := gatesModule s n
  if goal = .position then
    let w := fbkSpeed s n t
    let s := modLoop s n (fun l =>
      let b : Bank := { l.bankA with wRef := some w }
      { l with bankA := b, bankB := b.compl })
    carLoad s n t (fbkPos s n t) (w * 65536)
  else s

/-- PRECHARGE_COMPLETE: every pulse is done and the last gap of the sequence ends (R241). -/
def execPrechargeComplete (n : Axis) (s : State) : Host.Outcome State Fault Refusal :=
  let g := s.gd[n]
  if inRun s && decide (axSt s n = .precharge) && !g.pulse && decide (rgN s (Sig.GD_PRECHG_N n.val) ≤ g.precharge) then
    .next (prechargeDone (toTick s g.nextAt) n)
  else .next s

/-! ### Rates over 10 ms (R308) -/

/-- LP_TASK_RATE and LP_LOAD at the end of a block of 10 ms. -/
def loopRates (s : State) : State :=
  let s := forEach allAxes s (fun s n =>
    let s := setN s (Sig.LP_TASK_RATE n.val) ((s.loop[n]).winTasks * 100)
    let s := setTel s (Sig.LP_LOAD n.val) ((s.eng[engOf n]).busy / 100)
    modLoop s n (fun l => { l with winTasks := 0 }))
  { s with eng := s.eng.map (fun e => { e with busy := 0 }) }

end Sys2Proof.Machine
end

