-- ==== Sys2Proof/Machine/Honeycomb.lean ====
section
/-! DEFINITION. Honeycomb (chapter 16): source estimates (R449 to R451, R456), the heat model (R457, R458), demand (R462), grants
(R463 to R466), the fit of deferrable commands (R467), gate power (R469), the budget tick as one operation (R447), the coupling probe
(R452 to R455), and the meanings of Honeycomb's events but the budget tick. -/

namespace Sys2Proof.Machine

/-! ### Values that may be without bound -/

/-- The four rails. -/
def allRails : List (Fin 4) := [0, 1, 2, 3]

/-- The two axes of a rail (R10). -/
def railAxes (m : Fin 4) : List Axis := [⟨2 * m.val, by omega⟩, ⟨2 * m.val + 1, by omega⟩]

/-- The smaller of two values, none standing for no bound. -/
def optMin (a b : Option Rat) : Option Rat :=
  match a, b with
  | none, y => y
  | x, none => x
  | some x, some y => some (min x y)

/-- A value narrowed to the LSBs of its signal and kept within its type (log entry 4). -/
def telN (key : Nat) (x : Rat) : Nat :=
  match sigFind key with
  | some r => (clampInt (narrow key x) r.lo r.hi).toNat
  | none => 0

/-- A cap as its word: all ones where there is none (R464). -/
def capWord (key : Nat) (x : Option Rat) : Nat :=
  match x with
  | none => noCap
  | some x => telN key x

/-- A free value as a magnitude, where the spec divides by 0 (log entry 3). -/
def drawRat (s : State) : State × Rat :=
  let d := drawWord s
  (d.2, (d.1.toNat : Rat) / 65536)

/-! ### Loss, heat and demand of an axis (R457, R458, R461, R462) -/

/-- The class in force of an axis (R461). -/
def classOf (s : State) (n : Axis) : Nat := (s.hcAx[n]).moveCls.getD (rgN s (Sig.HC_CLASS n.val))

/-- The switching loss of a bridge per ampere: 3 × HC_ESW × vm × (2/π) × f_carrier (R457). -/
def switchLoss (s : State) (n : Axis) (vm : Rat) : Rat :=
  3 * ((rgN s (Sig.HC_ESW n.val) : Rat) / 1000000000) * vm * (2 / Config.pi) * carrierHz s n

/-- HC_RCOND in Ω. -/
def rCond (s : State) (n : Axis) : Rat := (rgN s (Sig.HC_RCOND n.val) : Rat) / 1000000

/-- P_br(I) (R457). -/
def brLoss (s : State) (n : Axis) (vm i : Rat) : Rat := 3 / 2 * rCond s n * i * i + switchLoss s n vm * i

/-- T_case in °C (R457): from TSn where it is fitted, else from the DD sensor of the rail pair. -/
def caseTemp (s : State) (n : Axis) : Rat :=
  if rgN s (Sig.HC_TS_PRESENT n.val) = 0 then ((rgN s (Sig.SMP_HK (ddSlot (railOf n).val)) : Rat) / 16 - 1100) / 4
  else
    let slot := if n.val < 4 then 8 + n.val else 20 + n.val
    let mv : Rat := (rgN s (Sig.SMP_HK slot) : Rat) / 16
    25 + (mv - (rgN s (Sig.HC_TS_V0 n.val) : Rat)) * 1000 / (rgI s (Sig.HC_TS_SLOPE n.val) : Rat)

/-- The largest current whose loss stays within a power; none where no current exceeds it (R458). -/
def heatCurrent (s : State) (n : Axis) (vm p : Rat) : Option Rat :=
  let a := 3 / 2 * rCond s n
  let b := switchLoss s n vm
  if p ≤ 0 then some 0
  else if a ≠ 0 then some ((Config.sqrtRat (b * b + 4 * a * p) - b) / (2 * a))
  else if b ≠ 0 then some (p / b)
  else none

/-- 2π × LP_INERTIA / LP_KT in A per turn/s² (R458, R462). -/
def inertiaA (s : State) (n : Axis) : Rat :=
  2 * Config.pi * ((rgN s (Sig.LP_INERTIA n.val) : Rat) / 10000000) / ((rgN s (Sig.LP_KT n.val) : Rat) / 1000000)

/-- a(I) in turn/s²; none where it is all ones (R458). -/
def accWithin (s : State) (n : Axis) (i : Option Rat) (iLoad : Rat) : Option Rat :=
  if rgN s (Sig.LP_INERTIA n.val) = 0 then none
  else i.map (fun x => max 0 ((x - iLoad) / inertiaA s n))

/-- The demand of an axis for a current and a speed in turn/s (R462). -/
def demandOf (s : State) (n : Axis) (vm i w : Rat) : Rat :=
  let psi : Rat := (rgN s (Sig.LP_PSI n.val) : Rat) / 1000000
  let we := 2 * Config.pi * (rgN s (Sig.LP_EANG_MUL n.val) : Rat) * w
  let rs : Rat := (rgN s (Sig.OBS_RS n.val) : Rat) / 1000000
  3 / 2 * psi * we * i + 3 / 2 * rs * i * i + brLoss s n vm i

/-- The mean of a list, 0 where it is empty. -/
def meanRat (xs : List Rat) : Rat := if xs.isEmpty then 0 else sumRat xs / (xs.length : Rat)

/-- The tick's means of id and iq of an axis: of its tasks, of the last task where none ran in the tick, 0 where none runs. -/
def tickCurrents (s : State) (n : Axis) : Rat × Rat :=
  let h := s.hcAx[n]
  if !(axSt s n).runsTasks then (0, 0)
  else if h.sumN = 0 then ((s.loop[n]).id, (s.loop[n]).iq)
  else (h.sumD / (h.sumN : Rat), h.sumQ / (h.sumN : Rat))

/-- The tick's rail voltage: the mean over the tasks of its axes, the newest words where none ran (R282, R447). -/
def tickVm (s : State) (m : Fin 4) : Rat :=
  let ns := railAxes m
  let k := sumNat (ns.map (fun n => (s.hcAx[n]).sumN))
  if k = 0 then railVolts s m else sumRat (ns.map (fun n => (s.hcAx[n]).sumVm)) / (k : Rat)

/-- What Honeycomb works out for an axis at a tick. -/
structure HcCalc where
  n : Axis
  cls : Nat
  iLoad : Rat
  iPred : Rat
  vRef : Rat
  aRef : Rat
  p : Rat
  iHeat : Option Rat
  deriving DecidableEq, Repr

/-- A published peak referred back to the plan without caps; a free value where the grant in force is 0 (R462). -/
def peakRef (s : State) (n : Axis) (key : Nat) : State × Rat :=
  let k := (s.hcAx[n]).sIn
  if k = 0 then drawRat s else (s, (rgN s key : Rat) / 65536 / k)

/-- The heat model of an axis at a tick (R457, R458): ΔT, the telemetry, the summary's junction temperatures, and I_heat. -/
def heatTick (s : State) (n : Axis) (vm : Rat) : State × Option Rat :=
  let c := tickCurrents s n
  let p := brLoss s n vm (Config.sqrtRat (c.1 * c.1 + c.2 * c.2))
  let rth : Rat := (rgN s (Sig.HC_RTH n.val) : Rat) / 100
  let tau : Rat := (rgN s (Sig.HC_TAU n.val) : Rat) / 1000
  let tc := caseTemp s n
  let dT := (s.hcAx[n]).dT + 1 / 10000 / tau * (p * rth - (s.hcAx[n]).dT)
  let tj := tc + dT
  let q : State × Rat :=
    if rth = 0 then drawRat s else (s, (dT + tau * ((rgN s (Sig.HC_TJ_MAX n.val) : Rat) - tc - dT) * 1000) / rth)
  let i := heatCurrent q.1 n vm q.2
  let s := modHcAx q.1 n (fun h => { h with dT := dT })
  let s := setTel s (Sig.HC_TJ n.val) (tj * 10)
  let s := setTel s (Sig.HC_TCASE n.val) (tc * 10)
  let s := setTel s (Sig.HC_PBRIDGE n.val) (p * 1000)
  let s := setN s (Sig.HC_IHEAT n.val) (capWord (Sig.HC_IHEAT n.val) (i.map (fun x => x * 1000)))
  let hot := clampInt (narrow (Sig.HC_TJ n.val) (tj * 10)) (-32768) 32767
  let r := s.rcd
  let r := { r with
    sumTjHist := histAdd r.sumTjHist n.val (tempBin tj)
    sumTjMax := setAt r.sumTjMax n.val (max hot (r.sumTjMax.getD n.val 0))
    sumRun := if axSt s n = .disabled then r.sumRun else setAt r.sumRun n.val (r.sumRun.getD n.val 0 + 1) }
  ({ s with rcd := r }, i)

/-- I_pred and ω_pred by axis state (R462). -/
def predict (s : State) (n : Axis) (iBar iLoad vRef aRef : Rat) : Rat × Rat :=
  let w := absRat (s.loop[n]).speed
  match axSt s n with
  | .disabled | .precharge | .fault | .safeShort => (0, 0)
  | .opn | .hold => (iBar, w)
  | .torque => (max (absRat ((rgI s (Sig.LP_IQ_REF n.val) : Rat) / 1000)) iBar, w)
  | .speed => (iBar, max w (absRat ((rgI s (Sig.LP_SPD_REF n.val) : Rat) / 65536)))
  | .position => (iLoad + inertiaA s n * aRef, max w vRef)

/-- The computation for an axis at a tick: heat, and the predicted demand (R457, R458, R462). -/
def calcAxis (s : State) (n : Axis) (vm : Rat) : State × HcCalc :=
  let c := tickCurrents s n
  let h := s.hcAx[n]
  let a := if h.sumAn = 0 then 0 else h.sumA / (h.sumAn : Rat)
  let iq10 := pushLast 10 h.iq10 (absRat c.2)
  let a10 := pushLast 10 h.a10 (absRat a)
  let iBar := meanRat iq10
  let iLoad := max 0 (iBar - inertiaA s n * meanRat a10)
  let still := if absRat (s.loop[n]).speed < 1 / 10 then h.still + 1 else 0
  let s := modHcAx s n (fun h => { h with iq10 := iq10, a10 := a10, iLoad := iLoad, still := still })
  let q := heatTick s n vm
  let v := peakRef q.1 n (Sig.CAR_PEAK_V n.val)
  let f := peakRef v.1 n (Sig.CAR_PEAK_A n.val)
  let s := f.1
  let x := predict s n iBar iLoad v.2 f.2
  let p := demandOf s n vm x.1 x.2
  (setTel s (Sig.HC_PDEMAND_AX n.val) (p * 1000),
    { n := n, cls := classOf s n, iLoad := iLoad, iPred := x.1, vRef := v.2, aRef := f.2, p := p, iHeat := q.2 })

/-- The computation for a list of axes, in order. -/
def calcAxes (s : State) : List Axis → State × List HcCalc
  | [] => (s, [])
  | n :: ns =>
    let a := calcAxis s n (tickVm s (railOf n))
    let b := calcAxes a.1 ns
    (b.1, a.2 :: b.2)

/-! ### Sources (R449 to R451, R456) -/

/-- The electrical power of an axis in the tick, with its bridge loss, in W; 0 in DISABLED. -/
def axisPower (s : State) (n : Axis) (vm : Rat) : Rat :=
  if axSt s n = .disabled then 0
  else
    let c := tickCurrents s n
    let b := (s.loop[n]).bankA
    3 / 2 * (b.vd * c.1 + b.vq * c.2) + brLoss s n vm (Config.sqrtRat (c.1 * c.1 + c.2 * c.2))

/-- The energy drawn by an axis in the tick, regeneration not counted (R473). -/
def energyTick (s : State) (n : Axis) (vm : Rat) : State :=
  let e := (s.hcAx[n]).eFrac + max 0 (axisPower s n vm) / 10000
  let k := e.floor.toNat
  setR (modHcAx s n (fun h => { h with eFrac := e - (k : Rat) })) (Sig.HC_ENERGY n.val)
    (rg s (Sig.HC_ENERGY n.val) + BitVec.ofNat 32 k)

/-- The source resistance in use of a rail in Ω (R449). -/
def rSource (s : State) (m : Fin 4) : Rat := (s.hcRail[m]).rsrc.getD ((rgN s Sig.HC_RSRC_DEF : Rat) / 1000)

/-- P_src, P_cap and HC_PRES of a rail in W (R449). -/
def railSource (s : State) (m : Fin 4) (vm : Rat) : Rat × Rat × Rat :=
  let r := rSource s m
  let f : Rat := (rgN s (Sig.HC_VFLOOR m.val) : Rat) / 1000
  let voc := (s.hcRail[m]).voc
  let i := max 0 (min ((voc - f) / r) ((rgN s (Sig.HC_ISRC_MAX m.val) : Rat) / 1000))
  let e := max 0 ((rgN s (Sig.HC_CRAIL m.val) : Rat) / 1000000 * (vm * vm - f * f) / 2)
  ((voc - r * i) * i, e * 50, (rgN s (Sig.HC_PRES m.val) : Rat) / 1000)

/-- The estimates of a rail at a tick: I_rail, the refinement of the source resistance, V_oc, and P_avail (R449, R456). -/
def railTick (s : State) (m : Fin 4) (vm : Rat) : State :=
  let p := sumRat ((railAxes m).map (fun n => axisPower s n vm))
  let q : State × Rat := if p = 0 then (s, 0) else if vm = 0 then drawRat s else (s, p / vm)
  let s := q.1
  let i := q.2
  let h := s.hcRail[m]
  let r := rSource s m
  let rs : Option Rat :=
    match h.vocs.getLast? with
    | none => h.rsrc
    | some (v0, i0) =>
      if (rgN s Sig.HC_REFINE_DI : Rat) / 1000 ≤ absRat (i - i0) then
        let x := -(vm - v0) / (i - i0)
        if r / 4 ≤ x ∧ x ≤ 4 * r then some (r + (x - r) / 16) else h.rsrc
      else h.rsrc
  let vocs := pushLast 64 h.vocs (vm, i)
  let rUse := rs.getD r
  let voc := meanRat (vocs.map (fun x => x.1 + rUse * x.2))
  let s := modHcRail s m (fun _ => ⟨vocs, rs, voc⟩)
  let s := match rs with
    | some x => setTel s (Sig.HC_RSRC m.val) (x * 1000)
    | none => s
  let s := setTel s (Sig.HC_VOC m.val) (voc * 1000)
  let s := setTel s (Sig.HC_IRAIL m.val) (i * 1000)
  let a := railSource s m vm
  setTel s (Sig.HC_PAVAIL m.val) ((a.1 + a.2.1 - a.2.2) * 1000)

/-- The rails of the budget group of a rail (R451). -/
def groupRails (s : State) (m : Fin 4) : List (Fin 4) :=
  let g := rgN s (Sig.HC_SHARE_GRP m.val)
  if g = 0 then [m] else allRails.filter (fun k => rgN s (Sig.HC_SHARE_GRP k.val) == g)

/-- The rail under which a group's figures are kept: its lowest. -/
def groupRep (s : State) (m : Fin 4) : Fin 4 := (groupRails s m).headD m

/-- The axes of a budget group. -/
def groupAxes (s : State) (m : Fin 4) : List Axis := (groupRails s m).flatMap railAxes

/-- The smallest of a list, 0 where it is empty. -/
def minRat : List Rat → Rat
  | [] => 0
  | x :: xs => xs.foldl min x

/-- P_src of a group, and its P_cap less its HC_PRES (R451). -/
def groupSource (s : State) (m : Fin 4) : Rat × Rat :=
  let xs := (groupRails s m).map (fun k => railSource s k (tickVm s k))
  (minRat (xs.map (fun x => x.1)), sumRat (xs.map (fun x => x.2.1 - x.2.2)))

/-- The ring groups that the device takes part in: its first two nonzero groups (R559). -/
def ringGroups (s : State) : List Nat :=
  (allRails.foldl (fun acc m =>
    let g := rgN s (Sig.HC_SHARE_GRP m.val)
    if g = 0 ∨ acc.contains g = true then acc else acc ++ [g]) []).take 2

/-- The lead's allotment for a group, where one governs (R470, R471). -/
def allotmentOf (s : State) (g : Nat) : Option Rat :=
  if s.emq.lead && !s.emq.noLead && decide (s.hc.allotAge < 2) then
    match (ringGroups s).findIdx? (fun x => x == g) with
    | some i => s.hc.allot[i]?
    | none => none
  else none

/-- The power P that a group shares out, and whether an allotment or the local share gave it (R463, R470, R471): 0 own, 1 allotment,
2 local. -/
def groupPower (s : State) (m : Fin 4) : Rat × Nat :=
  let x := groupSource s m
  let own := x.1 + x.2
  let g := rgN s (Sig.HC_SHARE_GRP m.val)
  if g = 0 then (own, 0)
  else
    match allotmentOf s g with
    | some p => (p, 1)
    | none => (own * ((rgN s Sig.HC_SHARE_PCT : Rat) / 100), 2)

/-! ### The class loop and the grants (R463 to R466) -/

/-- The demand of the axes of a group in a class. -/
def classDemand (xs : List HcCalc) (ns : List Axis) (c : Nat) : Rat :=
  sumRat ((xs.filter (fun x => ns.contains x.n && x.cls == c)).map HcCalc.p)

/-- The loop of R463 over the classes from `c` on: k and spare of each. -/
def shareOut : Nat → Rat → List Rat → List (Rat × Rat)
  | _, _, [] => []
  | c, p, d :: ds =>
    let k := if c ≤ 1 ∨ d = 0 then 1 else clampRat (p / d) 0 1
    (k, max (p - k * d) 0) :: shareOut (c + 1) (p - k * d) ds

/-- √k, exact at 0 and 1 (R464). -/
def rootOf (k : Rat) : Rat := if k = 0 ∨ k = 1 then k else Config.sqrtRat k

/-- Whether E_hold is below HC_ESTOP (R450). -/
def reserveLow (s : State) : Bool := rgB s Sig.HC_LIVE 2

/-- The grant of an axis written to its shadow registers (R464, R465, R450). -/
def grantAxis (s : State) (x : HcCalc) (k : Rat) : State :=
  let n := x.n
  let h := s.hcAx[n]
  let r := rootOf k
  let c := x.cls
  let imax : Rat := (rgN s (Sig.LP_IMAX n.val) : Rat) / 1000
  let iSup : Option Rat := if c ≤ 1 then none else some (x.iLoad + r * (x.iPred - x.iLoad))
  let iDec := x.iLoad + inertiaA s n * ((rgN s (Sig.CAR_DNEED n.val) : Rat) / 65536)
  let iH : Option Rat := if c = 0 then none else x.iHeat
  let inner := optMin iH iSup
  let top : Option Rat := inner.map (fun y => max iDec y)
  let g := (optMin top (some imax)).getD imax
  let live : Nat :=
    if imax ≤ g then 0
    else
      match inner with
      | some y => if y < iDec then 2 else if iH = inner then 8 else 4
      | none => 0
  let aH := accWithin s n iH x.iLoad
  let caps : Nat × Nat × Nat :=
    (capWord (Sig.HC_VCAP n.val) (if r = 1 then none else some (r * x.vRef * 65536)),
     capWord (Sig.HC_ACAP n.val) ((optMin (if r = 1 then none else some (r * x.aRef)) aH).map (fun y => y * 65536)),
     capWord (Sig.HC_DCAP n.val) (aH.map (fun y => y * 65536)))
  let due := match h.sCaps with
    | none => true
    | some q => decide (1 / 32 < absRat (r - q)) || (decide (r = 1) && decide (q ≠ 1))
  let next := if due then caps else (h.shV, h.shA, h.shD)
  let low := reserveLow s && decide (2 ≤ c)
  let held := if low then (min next.1 h.shV, min next.2.1 h.shA, min next.2.2 h.shD) else next
  let gi := telN (Sig.HC_GRANT_I n.val) (g * 1000)
  let gi := if low then min gi h.shI else gi
  let s := modHcAx s n (fun h =>
    { h with shI := gi, shV := held.1, shA := held.2.1, shD := held.2.2, shK := k,
             sCaps := if due && decide (held = next) then some r else h.sCaps })
  setF (setF s (Sig.HC_AX_LIVE n.val) 5 3 c) (Sig.HC_AX_LIVE n.val) 1 3 (live / 2)

/-- The class loop of a group, its spare power kept at each of its rails, the grants of its axes, and the group entry of a report. -/
def groupTick (s : State) (xs : List HcCalc) (m : Fin 4) : State :=
  let ns := groupAxes s m
  let ds := [0, 1, 2, 3, 4].map (classDemand xs ns)
  let p := groupPower s m
  let ks := shareOut 0 p.1 ds
  let s := if p.1 - ds.getD 0 0 - ds.getD 1 0 < 0 then setB s Sig.HC_STAT 3 true else s
  let s := if p.2 = 2 then setB (setB s Sig.HC_STAT 5 true) Sig.HC_LIVE 3 true
    else if p.2 = 1 then setB s Sig.HC_LIVE 0 true else s
  let s := forEach (groupRails s m) s (fun s r =>
    { s with hc := { s.hc with spare := setAt s.hc.spare r.val (ks.map (fun x => x.2)) } })
  let s := forEach (xs.filter (fun x => ns.contains x.n)) s (fun s x => grantAxis s x ((ks.getD x.cls (1, 0)).1))
  let g := rgN s (Sig.HC_SHARE_GRP m.val)
  let s := if g ≠ 0 ∧ (ringGroups s).contains g = false then setB s Sig.RING_STAT 5 true else s
  if (ringGroups s).contains g then
    let w := groupSource s m
    let e := [w.1, w.2, ds.getD 0 0 + ds.getD 1 0, ds.getD 2 0, ds.getD 3 0, ds.getD 4 0]
    { s with hc := { s.hc with mine := s.hc.mine ++ [(g, e)] } }
  else s

/-! ### Gate power (R469) -/

/-- The gate-drive power of an axis in mW, with its trickle pump where `on`. -/
def gatePower (s : State) (n : Axis) (on : Bool) : Rat :=
  let v : Rat := (rgN s Sig.VDRV_MV : Rat) / 1000
  let q : Rat := (rgN s (Sig.HC_QG n.val) : Rat) / 1000000000
  6000 * q * v * carrierHz s n + if on then 36 / 10 * v else 0

/-- Whether leaving DISABLED would raise the gate power above HC_VDRV_PMAX (R469). -/
def gateOverBudget (s : State) (n : Axis) : Bool :=
  let on (k : Axis) : Bool := decide (k = n) || decide (axSt s k ≠ .disabled)
  let p := sumRat ((allAxes.filter on).map (fun k => gatePower s k (rgN s (Sig.GD_CPT_EN k.val) == 1)))
  decide ((rgN s Sig.HC_VDRV_PMAX : Rat) < p)

/-- The gate power published (R469). -/
def gateTick (s : State) : State :=
  let s := forEach allAxes s (fun s n => setTel s (Sig.GD_PWR_MW n.val) (gatePower s n (cptOn s n)))
  setTel s Sig.HC_VDRV_PWR
    (sumRat ((allAxes.filter (fun n => decide (axSt s n ≠ .disabled))).map (fun n => gatePower s n (cptOn s n))))

/-! ### The reserve and the live word (R450, R474) -/

/-- E_hold in J, and RES_SHORT (R450). -/
def reserveTick (s : State) : State :=
  let v : Rat := (rgN s Sig.VHOLD_MV : Rat) / 1000
  let e := (rgN s Sig.HC_CHOLD : Rat) / 1000000 * (v * v - 36) / 2
  let s := setTel s Sig.HC_EHOLD (e * 1000000)
  let low := decide (e * 1000000 < (rgN s Sig.HC_ESTOP : Rat))
  let s := setB s Sig.HC_LIVE 2 low
  if low then setB s Sig.HC_STAT 4 true else s

/-- The probe fields and RSRC_DEFAULT of HC_LIVE (R474). -/
def probeLive (s : State) : State :=
  let s := setB s Sig.HC_LIVE 1 s.hc.scheduled
  let s := setF s Sig.HC_LIVE 8 4 (match s.hc.probe with | some p => 2 ^ p.rail.val | none => 0)
  setF s Sig.HC_LIVE 4 4 (allRails.foldl (fun m r => m + bitIf (s.hcRail[r]).rsrc.isNone r.val) 0)

/-! ### The boundary (R28, R447, R466, R467) -/

/-- The boundaries that the first plan of a started MOVE has passed; at the second its start caps end (R467). -/
def startCaps (s : State) (n : Axis) : State :=
  let on (c : CarCmd) : Bool := decide (c.ticks < 2) && decide (c.scale < 1)
  let up (c : CarCmd) : CarCmd := if on c then { c with ticks := c.ticks + 1 } else c
  let k := s.car[n]
  let ends := match k.cmd with
    | some c => on c && c.ticks == 1
    | none => false
  let s := modCar s n (fun k => { k with cmd := k.cmd.map up, next := k.next.map up, taking := k.taking.map up })
  if ends then carTrigger s n else s

/-- The shadows of an axis become active: caps at once, a grant that rises at once, one that falls at the next boundary (R466). -/
def boundaryAxis (s : State) (n : Axis) (fresh : Bool) : State :=
  let s := match (s.hcAx[n]).lateI with
    | some g =>
      setB (setN (modHcAx s n (fun h => { h with lateI := none })) (Sig.HC_GRANT_I n.val) g) (Sig.HC_AX_LIVE n.val) 4 false
    | none => s
  if fresh then
    let h := s.hcAx[n]
    let old := capsOf s n
    let falls := decide (h.shI < rgN s (Sig.HC_GRANT_I n.val))
    let s := if falls then setB s (Sig.HC_AX_LIVE n.val) 4 true else setN s (Sig.HC_GRANT_I n.val) h.shI
    let s := setN (setN (setN s (Sig.HC_VCAP n.val) h.shV) (Sig.HC_ACAP n.val) h.shA) (Sig.HC_DCAP n.val) h.shD
    let s := setTel s (Sig.HC_K n.val) (h.shK * 32768)
    let s := modHcAx s n (fun h =>
      { h with lateI := if falls then some h.shI else none, sIn := rootOf h.shK, age := 0 })
    let s := if old = (h.shV, h.shA, h.shD) then s else carTrigger s n
    startCaps s n
  else startCaps (modHcAx s n (fun h => { h with age := h.age + 1 })) n

/-- What Caramel and the feedback inputs publish at a boundary (R324, R421). -/
def publishAxis (s : State) (n : Axis) : State :=
  let s := carPublish s n
  let t := s.clk.tb
  let w := if fbMode s n = 0 then 0 else (fbSpeed s n t).1
  let s := setTel s (Sig.FB_SPEED n.val) (w * 65536)
  if fbMode s n = 0 then s else fbStillAt s n t

/-- The means of a tick forgotten once they are used. -/
def clearMeans (s : State) (n : Axis) : State :=
  modHcAx s n (fun h => { h with sumD := 0, sumQ := 0, sumVm := 0, sumN := 0, sumA := 0, sumAn := 0 })

/-- The record of a budget tick for device-wide snapshots (R585). -/
def deviceRecord (s : State) : State :=
  let f (key d : Nat) : List Byte := leBytes 2 (min 65535 (rgN s key / d))
  let r := f Sig.VBAT_MV 16 ++ f Sig.VHOLD_MV 16 ++ f Sig.VDRV_MV 4 ++ f (Sig.VM_MV 0) 16 ++ f (Sig.VM_MV 1) 16 ++ f (Sig.VM_MV 2) 16 ++
    f (Sig.VM_MV 3) 16 ++ leBytes 2 (usTime s)
  let s := { s with flt := { s.flt with devRecs := pushLast 251 s.flt.devRecs r } }
  addSnapRec s (fun x => decide (codeAxis x.code = none)) r

/-- What a running probe takes from a budget tick (R453, R454): the rail's voltage and current where the tick lies in one of its windows, the
other axis's current. -/
def probeTick (s : State) : State :=
  match s.hc.probe with
  | none => s
  | some p =>
    let t := s.clk.tb - p.start
    let m := p.rail
    let x := (s.hcRail[m]).vocs.getLastD (0, 0)
    let c := ((railAxes m).filter (fun n => decide (n ≠ p.axis))).map (tickCurrents s)
    let win (lo hi : Nat) (w : List (Rat × Rat)) : List (Rat × Rat) := if lo + 40000 ≤ t ∧ t ≤ hi then w ++ [x] else w
    { s with hc := { s.hc with probe := some { p with
      win1 := win 1200000 2000000 p.win1
      win2 := win 3200000 4000000 p.win2
      other := p.other ++ c.map (fun c => Config.sqrtRat (c.1 * c.1 + c.2 * c.2)) } } }

/-- The boundary of a budget tick: shadows active on every axis, Caramel's figures, the block of 10 ms (R447, R308). -/
def boundaryTick (s : State) : State :=
  let fresh := s.hc.written
  let s := { s with hc := { s.hc with written := false, mineLast := s.hc.mine } }
  let s := forEach allAxes s (fun s n => boundaryAxis s n fresh)
  let s := forEach allAxes s publishAxis
  let s := deviceRecord s
  if s.hc.win + 1 = 100 then loopRates { s with hc := { s.hc with win := 0 } }
  else { s with hc := { s.hc with win := s.hc.win + 1 } }

/-- The computation of a tick, which ends with the shadows written (R447 to R466). -/
def computeTick (s : State) : State :=
  let s := setR s Sig.HC_LIVE (rg s Sig.HC_LIVE &&& 0xFFFFFFF6)
  let s := { s with hc := { s.hc with mine := [], taken := Hc.init.taken } }
  let s := probeTick (forEach allRails s (fun s m => railTick s m (tickVm s m)))
  let s := forEach allAxes s (fun s n => energyTick s n (tickVm s (railOf n)))
  let s := reserveTick s
  let c := calcAxes s allAxes
  let s := forEach allRails c.1 (fun s m =>
    setTel s (Sig.HC_PDEMAND m.val) (sumRat ((c.2.filter (fun x => decide (railOf x.n = m))).map HcCalc.p) * 1000))
  let s := forEach (allRails.filter (fun m => decide (groupRep s m = m))) s (fun s m => groupTick s c.2 m)
  let s := probeLive (gateTick s)
  { s with hc := { s.hc with written := true, scanDue := true, allotAge := s.hc.allotAge + 1 } }

/-! ### Starts that must fit (R467, R468) -/

/-- The demand of a MOVE of an axis for its V and A in counts (R467). -/
def moveNeed (s : State) (n : Axis) (c : CarCmd) : Rat :=
  demandOf s n (tickVm s (railOf n)) ((s.hcAx[n]).iLoad + inertiaA s n * (c.acc / 65536)) (c.vMax / 65536)

/-- The demand of each group among those of some rails, summed per group, keyed by the group's lowest rail. -/
def groupNeeds (s : State) (xs : List (Fin 4 × Rat)) : List (Fin 4 × Rat) :=
  allRails.filterMap (fun m =>
    let ys := xs.filter (fun x => decide (groupRep s x.1 = m))
    if ys.isEmpty then none else some (m, sumRat (ys.map (fun x => x.2))))

/-- spare[c] − S of a group for a class (R467). -/
def roomFor (s : State) (m : Fin 4) (c : Nat) : Rat :=
  (s.hc.spare.getD m.val []).getD c 0 - sumRat ((s.hc.taken.getD m.val []).take (c + 1))

/-- Whether demands of a class fit, each in its group (R467). -/
def needsFit (s : State) (c : Nat) (xs : List (Fin 4 × Rat)) : Bool :=
  xs.all (fun x => decide ((rgN s Sig.HC_START_K : Rat) / 100 * x.2 ≤ roomFor s x.1 c))

/-- min(1, (spare − S) / P_new) of a group (R467). -/
def startShare (s : State) (c : Nat) (x : Fin 4 × Rat) : Rat := if x.2 ≤ 0 then 1 else min 1 (roomFor s x.1 c / x.2)

/-- S grown by the share of each group that starts (R467). -/
def takeNeeds (s : State) (c : Nat) (xs : List (Fin 4 × Rat)) : State :=
  forEach xs s (fun s x =>
    let row := s.hc.taken.getD x.1.val []
    let row := setAt row c (row.getD c 0 + startShare s c x * x.2)
    { s with hc := { s.hc with taken := setAt s.hc.taken x.1.val row } })

/-- Whether the queue holds an entry of a class or a higher one (R468): a MOVE by its class, a probe as class 4. -/
def queueAhead (s : State) (c : Nat) : Bool :=
  s.rt.defq.any (fun d => decide ((match d.cmd with | some m => m.cls | none => 4) ≤ c))

/-! ### The coupling probe (R452 to R455) -/

/-- ILIM² − iq² of an axis (R452). -/
def probeRoom (s : State) (n : Axis) : Rat :=
  let l := s.loop[n]
  l.ilim * l.ilim - l.iq * l.iq

/-- Whether an axis qualifies as a probe axis of its rail (R452). -/
def probeQualifies (s : State) (n : Axis) : Bool :=
  let m := rgN s (Sig.HC_PROBE_AX (railOf n).val)
  (m == 0 || m == n.val % 2 + 1) &&
    (match axSt s n with
      | .torque | .speed | .position | .hold => true
      | _ => false) &&
    decide (1000 ≤ (s.hcAx[n]).still) && decide (400 ≤ probeRoom s n)

/-- The probe axis of a rail: the lower-numbered one that qualifies (R452). -/
def probeAxis (s : State) (m : Fin 4) : Option Axis := (railAxes m).find? (probeQualifies s)

/-- Whether the other axis of a rail stands still or is DISABLED (R452). -/
def otherStill (s : State) (n : Axis) : Bool :=
  ((railAxes (railOf n)).filter (fun k => decide (k ≠ n))).all
    (fun k => decide (axSt s k = .disabled) || decide (1000 ≤ (s.hcAx[k]).still))

/-- i_p of a probe axis (R453). -/
def probeCurrent (s : State) (n : Axis) : Rat := min 30 (Config.sqrtRat (probeRoom s n))

/-- The demand of a rail's probe (R455). -/
def probeNeed (s : State) (n : Axis) : Rat :=
  let i := probeCurrent s n
  3 / 2 * (rCond s n + (rgN s (Sig.OBS_RS n.val) : Rat) / 1000000) * i * i + brLoss s n (tickVm s (railOf n)) i

/-- The rails with a probe axis, and those axes. -/
def probeSet (s : State) : List Axis := allRails.filterMap (probeAxis s)

/-- Whether every rail that has a qualifying axis can be probed (R455). -/
def probeReady (s : State) : Bool := (probeSet s).all (otherStill s)

/-- The demand of a probe per group: its rails are probed one after another, so the largest counts. -/
def probeNeeds (s : State) : List (Fin 4 × Rat) :=
  allRails.filterMap (fun m =>
    let ns := (probeSet s).filter (fun n => decide (groupRep s (railOf n) = m))
    if ns.isEmpty then none else some (m, (ns.map (probeNeed s)).foldl max 0))

/-- SRC_MOHM as a payload (R154). -/
def mohmBytes (xs : List Nat) : List Byte := xs.flatMap (leBytes 2)

/-- The end of a probe: its coupling slice, and the answer of a PROBE_COUPLING (R454, R455, R588). -/
def endProbe (s : State) (results : List Nat) (failed : Bool) (req : Option Req) : State :=
  let s := probeLive { s with hc := { s.hc with probe := none } }
  let s := closeCoupling s (if failed then 1 else 0) results
  match req with
  | some r => finishDev s r opProbe stOk (mohmBytes results)
  | none => s

/-- The first of some rails that has a probe axis beside an axis at rest, with the rails after it (R452, R453). -/
def nextRail (s : State) : List (Fin 4) → Option (Fin 4 × Axis × List (Fin 4))
  | [] => none
  | m :: ms =>
    match probeAxis s m with
    | some n => if otherStill s n then some (m, n, ms) else nextRail s ms
    | none => nextRail s ms

/-- The probe of a rail begun (R453). -/
def startRail (s : State) (p : Probe) (m : Fin 4) (n : Axis) (todo : List (Fin 4)) : State :=
  probeLive { s with hc := { s.hc with
    probe := some { p with rail := m, axis := n, start := s.clk.tb, ip := probeCurrent s n, todo := todo, win1 := [], win2 := [], other := [] } } }

/-- A probe begun over all rails; without a probe axis anywhere it ends at once with no result. -/
def beginProbe (s : State) (req : Option Req) : State :=
  let s := { s with hc := { s.hc with scheduled := s.hc.scheduled && req.isSome } }
  let p : Probe := ⟨0, 0, s.clk.tb, 0, [], [], false, noMohm, false, req, none, [], [], []⟩
  match nextRail s allRails with
  | some (m, n, ms) => startRail s p m n ms
  | none =>
    let s := probeLive s
    match req with
    | some r => finishDev s r opProbe stOk (mohmBytes noMohm)
    | none => s

/-- What follows a rail's probe: the next rail, the failed rails once more, or the end (R454). -/
def probeOn (s : State) (p : Probe) : State :=
  match nextRail s p.todo with
  | some (m, n, ms) => startRail s p m n ms
  | none =>
    if p.retry then endProbe s p.results p.failed p.req
    else
      match nextRail s p.again with
      | some (m, n, ms) => startRail s { p with retry := true, again := [] } m n ms
      | none => endProbe s p.results (p.failed || !p.again.isEmpty) p.req

/-- RUN left under a probe, which ends with the results so far (R454; log entry 14). -/
def dropProbe (s : State) : State :=
  match s.hc.probe with
  | some p => endProbe s p.results true p.req
  | none => s

/-- What Honeycomb keeps of an earlier RUN's ticks forgotten (R447, R658): the shadows written and not yet active, sums, means and
counts of ticks. -/
def freshHoneycomb (s : State) : State :=
  let h := s.hc
  { s with
    hc := { h with written := false, spare := Hc.init.spare, taken := Hc.init.taken, allotAge := 2, mine := [], mineLast := [], win := 0,
                   scanDue := false }
    hcRail := s.hcRail.map (fun r => { r with vocs := [] })
    hcAx := s.hcAx.map (fun h => { h with dT := 0, iq10 := [], a10 := [], age := 0, sumD := 0, sumQ := 0, sumVm := 0, sumN := 0, sumA := 0,
                                          sumAn := 0, still := 0 }) }

/-- A running probe aborted: its currents ramp to 0 within 1 ms, and it gives no result (R166). -/
def stopProbe (s : State) : State :=
  match s.hc.probe with
  | some p => { s with hc := { s.hc with probe := some { p with stopped := some s.clk.tb, req := none } } }
  | none => s

/-! ### Meanings -/

/-- HONEYCOMB_LATE: the shadows are not written by 80 µs; those of the tick before stay in force (R448). -/
def execHoneycombLate (s : State) : Host.Outcome State Fault Refusal :=
  if inRun s then
    .next (incR (setB { s with hc := { s.hc with written := false, scanDue := false } } Sig.HC_STAT 2 true) Sig.HC_LATE_COUNT)
  else .next s

/-- GRANT_STALE: the grants of an axis have not been renewed for 10 budget ticks (R30). -/
def execGrantStale (n : Axis) (s : State) : Host.Outcome State Fault Refusal :=
  if inRun s && decide (10 ≤ (s.hcAx[n]).age) then .next (axFault (modHcAx s n (fun h => { h with age := 0 })) n 10)
  else .next s

/-- PROBE_START: the scheduled probe starts, where every rail with a qualifying axis can be probed and the P4 budget fits (R455, R467,
R450). -/
def execProbeStart (s : State) : Host.Outcome State Fault Refusal :=
  let xs := probeNeeds s
  if inRun s && s.hc.scheduled && s.hc.probe.isNone && !(probeSet s).isEmpty && probeReady s && !reserveLow s && needsFit s 4 xs then
    .next (beginProbe (takeNeeds s 4 xs) none)
  else .next s

/-- The result of a rail's probe in Ω and V, where all conditions of R454 hold. -/
def probeResult (v1 i1 v2 i2 : Rat) (steady : Bool) : Option (Rat × Rat) :=
  let di := i2 - i1
  let rs := (v1 - v2) / di
  if 1 ≤ di ∧ 1 / 1000 ≤ rs ∧ rs ≤ 2 ∧ steady = true then some (rs, v1 + rs * i1) else none

/-- The mean voltage and current of a window of a probe: of its 20 budget ticks, else as told in µV and µA (R453; log entry 14). -/
def windowMean (w : List (Rat × Rat)) (v i : Int) : Rat × Rat :=
  if w.length = 20 then (meanRat (w.map (fun x => x.1)), meanRat (w.map (fun x => x.2))) else ((v : Rat) / 1000000, (i : Rat) / 1000000)

/-- Whether the other axis's current has moved by less than 0.5 A: over the 110 budget ticks of the probe, else as told (R454; log entry
14). -/
def otherSteady (xs : List Rat) (told : Bool) : Bool :=
  if xs.length = 110 then decide (xs.foldl max (xs.headD 0) - minRat xs < 1 / 2) else told

/-- PROBE_RAIL_END: a rail's probe ends; its means V_1, I_1, V_2, I_2 in µV and µA, and whether the current of the other axis moved
by less than 0.5 A, count where the model has not seen every tick of them (R453, R454; log entry 14). -/
def execProbeRailEnd (rail : Fin 4) (v1 i1 v2 i2 : Int) (steady : Bool) (s : State) : Host.Outcome State Fault Refusal :=
  match s.hc.probe with
  | none => .next s
  | some p =>
    if !inRun s || decide (p.rail ≠ rail) then .next s
    else
      match p.stopped with
      | some t => .next (probeLive { toTick s (t + 400000) with hc := { s.hc with probe := none } })
      | none =>
        let s := toTick s (p.start + 4400000)
        let w1 := windowMean p.win1 v1 i1
        let w2 := windowMean p.win2 v2 i2
        match probeResult w1.1 w1.2 w2.1 w2.2 (otherSteady p.other steady) with
        | some (r, v) =>
          let s := modHcRail s rail (fun h => { h with rsrc := some r, voc := v })
          let s := setTel (setTel s (Sig.HC_RSRC rail.val) (r * 1000)) (Sig.HC_VOC rail.val) (v * 1000)
          let s := { setB s Sig.HC_STAT 6 true with hc := { s.hc with probeAt := some (lfSeconds s) } }
          .next (probeOn s { p with results := setAt p.results rail.val (rgN s (Sig.HC_RSRC rail.val)) })
        | none =>
          if p.retry then .next (probeOn (setB s Sig.HC_STAT 7 true) { p with failed := true })
          else .next (probeOn s { p with again := p.again ++ [rail] })

/-- The orderly stop with its final commit (R514, R582). -/
def orderlyStop (s : State) : State := if s.pwr.stopping then s else finalSummary (beginStop s)

/-- THERMAL_STOP: a die sensor at its limit begins the orderly stop, unless one runs, and sets DD_STOP (R460, R521). -/
def execThermalStop (s : State) : Host.Outcome State Fault Refusal :=
  if s.pwr.st = .run ∨ s.pwr.st = .standby then .next (orderlyStop (setB (devFault s 42) Sig.HC_STAT 0 true)) else .next s

end Sys2Proof.Machine
end

