-- ==== Sys2Proof/Machine/Supervision.lean ====
section
/-! DEFINITION. The supervision link between the dies (R524 to R532), the VDRV lock-out and the hard shutdown, the fault events and
releases that have rows of their own, the comparator proof (R491 to R493) and the configuration check (R489). -/

namespace Sys2Proof.Machine

/-! ### The drive supervisor -/

/-- Whether a gate line of an axis is on in `t` that was off in `s`. -/
def turnsOn (s t : State) (n : Axis) : Bool := allGates.any (fun g => !gateOn s n g && gateOn t n g)

/-- A change of the DS with the gate edges that it brings about on any axis (R264), and the rise times of the gates that it turns on
(R246). -/
def withDs (s : State) (f : State → State) : State :=
  let t := (allAxes.foldr (fun n g => fun s => withEdges s n g) f) s
  forEach (allAxes.filter (turnsOn s t)) t riseMax

/-- The DS status word that the DS would send now, under a SEQ (R524). -/
def dsWord (s : State) (seq : Nat) : StWord where
  seq := seq
  req := s.ds.last.req
  grant := maskOf allAxes (dsGrants s)
  vdrvLock := s.ds.vdrvLock
  hbLoss := s.ds.hbReport
  ddHot := s.ds.hot
  ddFault := s.ds.dsFail || s.ds.disTimeout
  notLocked := !s.ds.locked
  disagree := s.ds.disagree
  disTimeout := s.ds.disTimeout

/-- Whether the wrapping count `a` is at or after `b` (R524). -/
def seqAtOrAfter (a b : Nat) : Bool := decide ((a + 256 - b % 256) % 256 < 128)

/-- Whether the DS withholds the grant of an axis whose enable it has been asked for (R526). -/
def withheld (s : State) (n : Axis) : Bool := bitOf s.ds.last.req n.val && !dsGrants s n

/-- Whether the newest heartbeat word requests enable for an axis after the CD could have seen the withholding (R528). -/
def disagrees (s : State) (n : Axis) : Bool :=
  withheld s n &&
    (match s.ds.withheldSeq.getD n.val none with
      | some q => seqAtOrAfter s.ds.last.echo q
      | none => false)

/-- The SEQ of the status word that first reports each withholding (R528). -/
def noteWithheld (s : State) (seq : Nat) : List (Option Nat) :=
  allAxes.map (fun n => if withheld s n then (s.ds.withheldSeq.getD n.val none).or (some seq) else none)

/-- Whether a power state lets the supervision link run: the CD and the DD are powered in STANDBY and RUN (R69). -/
def linkPowered (s : State) : Bool := decide (s.pwr.st = .standby) || decide (s.pwr.st = .run)

/-- A valid heartbeat word at the DS: the requests and the grants (R525), BOOT (R530), the resumption after a loss (R532), the
disagreement (R528, R529). -/
def dsTakes (s : State) (w : HbWord) : State :=
  let d := s.ds
  let d : Ds :=
    if w.boot then { d with last := w, hbMissed := 0, locked := false, hbLost := false, hbReport := false }
    else { d with last := w, hbMissed := 0, hbLost := false, hbReport := d.hbReport || d.hbLost }
  let d : Ds := { d with disSeen := d.disSeen || d.disagree, disBad := d.disBad || (d.disagree && w.req != 0) }
  let s := { s with ds := d }
  if allAxes.any (disagrees s) && !s.ds.disagree then
    { s with ds := { s.ds with disagree := true, disUs := s.clk.us, disSeen := false, disBad := false } }
  else s

/-! ### The heartbeat of the CD -/

/-- The heartbeat word that the CD sends now (R524). -/
def hbWord (s : State) : HbWord :=
  { seq := s.sup.seq, req := s.sup.req, safe := s.sup.safe, echo := s.sup.got.seq, boot := s.sup.boot }

/-- A heartbeat word leaves the CD (R524). -/
def sendHb (s : State) : State := { s with sup := { s.sup with sent := hbWord s, seq := (s.sup.seq + 1) % 256 } }

/-- HEARTBEAT_SEND: a heartbeat word leaves the CD; where its checkpoint and the retry fail the word is not sent (R489, R524). A halted
MP sends none (R634). -/
def execHeartbeatSend (chk : Check) (s : State) : Host.Outcome State Fault Refusal :=
  if linkPowered s && !s.dbg.haltMp then .next (mpTask s chk sendHb id) else .next s

/-- CD_HEARTBEAT: a heartbeat word reaches the DS; one with a bad CRC-16 counts as missing, and the fourth in a row is the loss (R6). -/
def execCdHeartbeat (good : Bool) (s : State) : Host.Outcome State Fault Refusal :=
  if linkPowered s then
    .next (withDs s (fun s =>
      if good then dsTakes s s.sup.sent
      else { s with ds := { s.ds with hbMissed := s.ds.hbMissed + 1, hbLost := s.ds.hbLost || decide (3 ≤ s.ds.hbMissed) } }))
  else .next s

/-- HEARTBEAT_LOSS: four consecutive words missing; the DS gives every axis its safe pattern (R6, R526). -/
def execHeartbeatLoss (s : State) : Host.Outcome State Fault Refusal :=
  if linkPowered s then .next (withDs s (fun s => { s with ds := { s.ds with hbMissed := 4, hbLost := true } })) else .next s

/-- DISAGREE_TIMEOUT: 200 µs after a disagreement the DS latches DISAGREE_TIMEOUT where a word received since still requests enable or
none valid arrived; otherwise the disagreement ends (R529). -/
def execDisagreeTimeout (s : State) : Host.Outcome State Fault Refusal :=
  if s.ds.disagree then
    let s := toUs s (s.ds.disUs + 200)
    .next (withDs s (fun s =>
      { s with ds := { s.ds with disagree := false, disTimeout := s.ds.disTimeout || s.ds.disBad || !s.ds.disSeen } }))
  else .next s

/-! ### The status word of the DS -/

/-- A status word leaves the DS (R524). -/
def sendSt (s : State) : State :=
  let seq := (s.ds.seq + 1) % 256
  { s with ds := { s.ds with seq := seq, sent := dsWord s seq, withheldSeq := noteWithheld s seq } }

/-- DS_STATUS_SEND: a status word leaves the DS (R524). -/
def execDsStatusSend (s : State) : Host.Outcome State Fault Refusal :=
  if linkPowered s then .next (sendSt s) else .next s

/-- One event of VDRV_LOCK per lock-out, whichever path brings it first (R527). -/
def vdrvEpisode (s : State) : State :=
  if s.sup.epVdrv then s else devFault { s with sup := { s.sup with epVdrv := true } } 32

/-- The sources behind the REASON bits of a status word, each once per episode (R527, R532). -/
def wordReasons (s : State) (w : StWord) : State :=
  let e := s.sup
  let s := if w.vdrvLock then vdrvEpisode s else { s with sup := { s.sup with epVdrv := e.epVdrv && s.ds.vdrvLock } }
  let s := { s with sup := { s.sup with epHb := w.hbLoss, epHot := w.ddHot, epFault := w.ddFault } }
  let s := if w.hbLoss && !e.epHb then devFault (setB s Sig.FLT_STAT 2 true) 39 else s
  let s := if w.ddHot && !e.epHot then devFault s 41 else s
  let s := if !w.ddHot && e.epHot then releaseSrc s (devSrc 41) else s
  if w.ddFault && !e.epFault then devFault s 40 else s

/-- Each axis that the CD requests and the word withholds goes to its safe pattern, to FAULT in a lock-out or a hard shutdown (R60, R526,
R531), its request withdrawn (R527). -/
def wordGrants (s : State) (w : StWord) : State :=
  let hit := allAxes.filter (fun n => bitOf s.sup.req n.val && bitOf w.req n.val && !bitOf w.grant n.val)
  forEach hit s (fun s n => setReq (if w.vdrvLock || w.ddHot then toFault s n false else toPattern s n) n false)

/-- A status word at the CD (R527 to R529). -/
def takeSt (s : State) (w : StWord) : State :=
  let old := s.sup.got
  let s := { s with sup := { s.sup with got := w } }
  let s := wordReasons (wordGrants s w) w
  if w.disagree && !old.disagree then devFault (evt (setB s Sig.FLT_STAT 3 true) 74) 40 else s

/-- DS_STATUS: a status word reaches the CD: the axes whose grants it withholds, the sources behind its REASON bits (R527), and
DISAGREE (R528, R529). A word with a bad CRC-16 is not used. -/
def execDsStatus (good : Bool) (s : State) : Host.Outcome State Fault Refusal :=
  if linkPowered s && good then .next (takeSt s s.ds.sent) else .next s

/-! ### Lock-out and hard shutdown -/

/-- VDRV_LOCK: VDRV falls below 8.8 V; every gate is off, each affected axis goes to FAULT, and the lock-out counts one event (R59, R60,
R527). -/
def execVdrvLock (s : State) : Host.Outcome State Fault Refusal :=
  if s.ds.vdrvLock then .next s
  else
    let s := withDs s (fun s => { s with ds := { s.ds with vdrvLock := true }, pwr := { s.pwr with pstLater := none } })
    let s := forEach allAxes (evt (orR s Sig.SUP_STAT 6) 78) toLockedOut
    .next (if linkPowered s then devFault { s with sup := { s.sup with epVdrv := true } } 32 else s)

/-- The protection self-test that a lock-out postponed: it runs on every axis that is DISABLED and writes its event slice (R90, R245, R587). -/
def postponedTest (s : State) (fails : List (Axis × Nat)) : State :=
  if rgB s Sig.BOOT_STAT 6 then
    let s := setB s Sig.BOOT_STAT 6 false
    let s := forEach (allAxes.filter (fun n => decide (axSt s n = .disabled))) s (fun s n => storeTest s n (testFails fails n))
    stageEvent s 0x0020 0xFFFF 1 (protFail s ++ leBytes 1 0)
  else s

/-- VDRV_LOCK_RELEASE: VDRV rises above 9.4 V; no gate turns on by it, VDRV_LOCK is released by itself, a postponed self-test runs
(R59, R60, R90, R507, R662). In SLEEP the wake releases the source and runs the self-test. -/
def execVdrvLockRelease (pstFail : List (Axis × Nat)) (s : State) : Host.Outcome State Fault Refusal :=
  if s.ds.vdrvLock then
    let s := withDs s (fun s => { s with ds := { s.ds with vdrvLock := false } })
    let s := setB s Sig.SUP_STAT 2 false
    .next (if linkPowered s then postponedTest (releaseSrc s (devSrc 32)) pstFail
      else { s with pwr := { s.pwr with pstLater := some pstFail } })
  else .next s

/-- HARD_SHUTDOWN: a DD sensor's comparator trips; every gate is off and the latch is set (R531). -/
def execHardShutdown (s : State) : Host.Outcome State Fault Refusal :=
  if linkPowered s then
    .next (withDs s (fun s =>
      let s := { s with ds := { s.ds with hot := true } }
      forEach (allAxes.filter (fun n => decide (axSt s n ≠ .disabled))) s (fun s n => outOfService s n 5)))
  else .next s

/-- HARD_SHUTDOWN_CLEAR: every sensor reads below 150 °C; the latch clears by itself and DD_HOT is released (R507, R531). -/
def execHardShutdownClear (s : State) : Host.Outcome State Fault Refusal :=
  if s.ds.hot then
    .next (releaseSrc (withDs s (fun s => { s with ds := { s.ds with hot := false } })) (devSrc 41))
  else .next s

/-! ### Fault events and releases -/

/-- FAULT_EVENT: one event of a source at the fault manager (R503 to R506). -/
def execFaultEvent (code : Nat) (s : State) : Host.Outcome State Fault Refusal :=
  if linkPowered s && codeOk code then .next (faultEvt s code) else .next s

/-- FAULT_AUTO_RELEASE: T after the last event of a lasting LOG or ADVISE source (R507). -/
def execFaultAutoRelease (code : Nat) (s : State) : Host.Outcome State Fault Refusal :=
  if linkPowered s && codeOk code && selfReleases s code then
    let f := srcOf s code
    let s := match f.last with
      | some t => toUs s ((t + f.t * 1000 + 9) / 10)
      | none => s
    .next (releaseSrc s code)
  else .next s

/-! ### Biscotti of the MP -/

/-- The key of the comparator proof. -/
abbrev keyProof : Nat := 0x36

/-- The key of the configuration check. -/
abbrev keyConfig : Nat := 0x37

/-- The verdict of a comparator proof (R491, R493): every one of the 40 cases as expected, or PROOF_FAIL, BISCOTTI_FAIL and
BISC_PROOF. -/
def proofVerdict (s : State) (pass : Bool) : State :=
  if pass then incR s Sig.BISC_PROOF_COUNT
  else devFault (setB (setB s Sig.BISC_STAT 7 true) Sig.BOOT_STAT 2 true) 38

/-- COMPARATOR_PROOF: the proof of every BISC_PROOF_PER in RUN (R492); `detected` says for each of the 40 cases whether the verdict was
the expected one. -/
def execComparatorProof (detected : List Bool) (s : State) : Host.Outcome State Fault Refusal :=
  let per := rgN s Sig.BISC_PROOF_PER
  if inRun s && per != 0 then
    .next (proofVerdict (atGrid s keyProof (per * 400000) 0) (decide (40 ≤ detected.length) && (detected.take 40).all id))
  else .next s

/-- CONFIGURATION_CHECK: the MP's check of the window counters' configuration and reactions, every 1 ms; whatever its verdict the
configuration stands (R489, R490). -/
def execConfigurationCheck (chk : Check) (s : State) : Host.Outcome State Fault Refusal :=
  if linkPowered s && !s.dbg.haltMp then
    let s := if inRun s then atGrid s keyConfig 400000 0 else toUs s ((s.clk.us / 1000 + 1) * 1000)
    .next (mpTask s chk id id)
  else .next s

end Sys2Proof.Machine
end

