-- ==== Sys2Proof/Machine/Fuses.lean ====
section
/-! DEFINITION. The fuse array (chapter 21): what a word reads and resolves to (R599 to R601), locks (R602 to R604), life cycle (R615),
the patch entries of a boot (R613), programming (R605 to R611), and the fuse signals (R619, R620). -/

namespace Sys2Proof.Machine

/-! ### Words as sensed and resolved -/

/-- A word at the normal reference as its shadow register holds it: the OR of its two copies, or, where pulses were cut off before the word
was sensed, what it read before them (R599, R607, R608). -/
def fuseWord (s : State) (w : Nat) : Word :=
  (cellGet s.fuse.unsensed w).getD
    ((cellGet s.fuse.copyA w).getD (shippedWord w) ||| (cellGet s.fuse.copyB w).getD (shippedWord w))

/-- A word at the margin reference. -/
def marginWord (s : State) (w : Nat) : Word := (cellGet s.fuse.margin w).getD (fuseWord s w)

/-- Whether a word is marginal (R599). -/
def fuseMarginal (s : State) (w : Nat) : Bool := decide (fuseWord s w ≠ marginWord s w) || s.fuse.marginCommit.contains w

/-- Whether a word is committed (R599, R600). -/
def committed (s : State) (w : Nat) : Bool :=
  (s.fuse.commitA.contains w || s.fuse.commitB.contains w) && !s.fuse.marginCommit.contains w

/-- A life-cycle or lock word: each bit 1 where any copy reads 1 at either reference (R599). -/
def cautiousWord (s : State) (w : Nat) : Word := fuseWord s w ||| marginWord s w

/-- A word as an on-chip consumer reads it: an uncommitted word is 0 (R600). -/
def usedWord (s : State) (w : Nat) : Word := if committed s w then fuseWord s w else 0

/-- Whether a unit of words is used: every word committed and none marginal (R600). -/
def unitUsed (s : State) (ws : List Nat) : Bool := ws.all (fun w => committed s w && !fuseMarginal s w)

/-- The words of key hash slot `k` (R596). -/
def keyWords (k : Nat) : List Nat := (List.range 8).map (fun j => 24 + 8 * k + j)

/-- Whether key hash slot `k` is valid (R614). -/
def keyValid (s : State) (k : Nat) : Bool := decide (k < 2) && unitUsed s (keyWords k)

/-- Whether key hash slot `k` acts: it was valid at the boot (R611, R614). -/
def keyActs (s : State) (k : Nat) : Bool := s.fuse.keys.contains k

/-- The digest that a key hash slot holds (R598). -/
def keyDigest (s : State) (k : Nat) : List Byte := (keyWords k).flatMap (fun w => wordBytes (fuseWord s w))

/-- The words of patch entry `i` (R596). -/
def patchWords (i : Nat) : List Nat := (List.range 4).map (fun j => 40 + 4 * i + j)

/-- The write locks (R602). -/
def writeLocks (s : State) : Nat := (cautiousWord s 252 ||| cautiousWord s 254).toNat

/-- The read locks (R602). -/
def readLocks (s : State) : Nat := (cautiousWord s 253 ||| cautiousWord s 255).toNat

/-- The lock bit of a word's region (R602); none for the life-cycle words. -/
def regionBit (w : Nat) : Option Nat :=
  if w < 16 then some 0
  else if w < 24 then none
  else if w < 32 then some 1
  else if w < 40 then some 2
  else if w < 232 then some 3
  else if w < 252 then some (4 + (w - 232) / 4)
  else some 9

/-- Whether a word's region is write-locked. -/
def writeLocked (s : State) (w : Nat) : Bool :=
  match regionBit w with
  | some i => bitOf (writeLocks s) i
  | none => false

/-- Whether a word is read-locked: only customer words can be (R602, R603). -/
def readLocked (s : State) (w : Nat) : Bool := decide (232 ≤ w) && decide (w < 252) && bitOf (readLocks s) (4 + (w - 232) / 4)

/-- Whether the group of words 16 + 2g and 17 + 2g is blown (R615). -/
def groupBlown (s : State) (g : Nat) : Bool := cautiousWord s (16 + 2 * g) ||| cautiousWord s (17 + 2 * g) != 0

/-- The life cycle of the highest group blown (R615). -/
def decodeLc (s : State) : LifeCycle :=
  if groupBlown s 3 then .retired
  else if groupBlown s 2 then .field
  else if groupBlown s 1 then .develop
  else if groupBlown s 0 then .factory
  else .blank

/-- The words that have commit bits (R596). -/
def commitWords : List Nat := List.range 16 ++ (List.range 228).map (fun j => 24 + j)

/-- Whether a word is incomplete (R601). -/
def wordIncomplete (s : State) (w : Nat) : Bool := fuseWord s w != 0 && !committed s w

/-- Whether a unit is incomplete: some, but not all, of its words committed (R601). -/
def unitIncomplete (s : State) (ws : List Nat) : Bool := ws.any (committed s) && !ws.all (committed s)

/-- Whether a write-locked region holds an incomplete word or unit (R601). -/
def sealedIncomplete (s : State) : Bool :=
  commitWords.any (fun w => writeLocked s w && wordIncomplete s w) ||
    [0, 1].any (fun k => writeLocked s (24 + 8 * k) && unitIncomplete s (keyWords k)) ||
    (List.range 48).any (fun i => writeLocked s (40 + 4 * i) && unitIncomplete s (patchWords i))

/-- Whether any word is marginal. -/
def anyMarginal (s : State) : Bool := (List.range 256).any (fuseMarginal s)

/-! ### Patch entries at boot (R613) -/

/-- Whether every word of an entry is committed and its COMMIT bit is set. -/
def entryCommitted (s : State) (i : Nat) : Bool := (patchWords i).all (committed s) && (fuseWord s (43 + 4 * i)).getLsbD 31

/-- Whether any word of an entry is marginal. -/
def entryMarginal (s : State) (i : Nat) : Bool := (patchWords i).any (fuseMarginal s)

/-- TYPE of an entry (R612). -/
def entryType (s : State) (i : Nat) : Nat := (fuseWord s (43 + 4 * i)).toNat / 2 ^ 29 % 4

/-- Whether an entry's ROM_BUILD matches (R612). -/
def entryBuild (s : State) (i : Nat) : Bool :=
  let b := (fuseWord s (43 + 4 * i)).toNat % 65536
  b == 0 || b == Config.romVersion.toNat % 65536

/-- Whether an entry that matches is skipped with a report (R613). -/
def entrySkipped (s : State) (i : Nat) : Bool :=
  let a := (fuseWord s (40 + 4 * i)).toNat
  entryMarginal s i || decide (2 ≤ entryType s i) || a % 4 != 0 || (entryType s i == 0 && !Config.romHolds a)

/-- The sensing and the patches of a boot (R85, R599, R611, R613): shadow, life cycle, key hash slots, entries applied and skipped, BOOT_STAT. -/
def senseFuses (s : State) (margin : List (Nat × Word)) (weakCommits : List Nat) : State :=
  let f := s.fuse
  let s := { s with fuse := { f with margin := margin, marginCommit := weakCommits, unsensed := [], verifyFail := false } }
  let lc := decodeLc s
  let es := (List.range 48).filter (fun i => entryCommitted s i && entryBuild s i)
  let skipped := (List.range 48).filter (fun i =>
    ((patchWords i).all (fun w => s.fuse.commitA.contains w || s.fuse.commitB.contains w) && entryMarginal s i) ||
      (es.contains i && entrySkipped s i))
  let applied := es.filter (fun i => !skipped.contains i)
  let keys := [0, 1].filter (keyValid s)
  let s := { s with fuse := { s.fuse with lc := lc, lcNow := lc, keys := keys, applied := applied, skipped := skipped } }
  let s := setB s Sig.BOOT_STAT 12 (sealedIncomplete s)
  let s := setB s Sig.BOOT_STAT 11 (anyMarginal s)
  setB s Sig.BOOT_STAT 10 (!skipped.isEmpty)

/-- The applied entries of a TYPE, in ascending index: ADDRESS, DATA and MASK (R613). -/
def entriesOf (s : State) (type : Nat) : List (Nat × Word × Word) :=
  (s.fuse.applied.filter (fun i => entryType s i == type)).map (fun i =>
    ((fuseWord s (40 + 4 * i)).toNat, fuseWord s (41 + 4 * i), fuseWord s (42 + 4 * i)))

/-- What DATA and MASK make of a word (R613). -/
def patchOver (data mask old : Word) : Word := (old &&& ~~~mask) ||| (data &&& mask)

/-- A word of the ROM under its overlays, a later entry on the result of an earlier one (R613). -/
def romRead (s : State) (a : Nat) : Word :=
  ((entriesOf s 0).filter (fun x => x.1 == a)).foldl (fun w x => patchOver x.2.1 x.2.2 w) (Config.romWord a)

/-- A word cut to the type of its register. -/
def regFit (ty : SigType) (w : Word) : Word :=
  match ty with
  | .u8 => w &&& 0xFF
  | .u16 => w &&& 0xFFFF
  | .s16 | .q15 => (w.truncate 16).signExtend 32
  | .u32 | .s32 | .q31 | .bits32 => w

/-- A boot register write of a TYPE 1 entry, before the image is loaded: a block register, at the width it has, or a word of system-bus
memory (R613; log entry 22). -/
def bootWrite (s : State) (x : Nat × Word × Word) : State :=
  let p := Config.sysPlace x.1
  if p.1 = 1 then
    match sigFind p.2 with
    | some r => if r.acc = .ro then s else setR s p.2 (regFit r.ty (patchOver x.2.1 x.2.2 (rg s p.2)))
    | none => s
  else if p.1 = 0 ∨ p.1 = 2 ∨ p.1 = 3 then s
  else
    let k := 3 * 4294967296 + x.1
    let old := (cellGet s.dbg.mem k).getD (Config.dbgMemory 3 x.1 (s.dbg.epochs.getD 3 0))
    { s with dbg := { s.dbg with mem := cellPut s.dbg.mem k (patchOver x.2.1 x.2.2 old) } }

/-- The boot register writes of the applied entries (R613). -/
def bootWrites (s : State) : State := forEach (entriesOf s 1) s bootWrite

/-! ### Judging a FUSE_PROGRAM (R605, R606) -/

/-- Whether VFSRC and the CD temperatures let programming run (R606). -/
def fuseRunnable (e : FuseEnv) : Bool := e.vfsrcOk && e.temps.all (fun t => decide (0 ≤ t) && decide (t ≤ 85))

/-- VFSRC and the temperatures as the runtime reads them (R84, R620). -/
def readFuseEnv (s : State) (e : FuseEnv) : State :=
  setB { s with fuse := { s.fuse with tempOk := e.temps.all (fun t => decide (0 ≤ t) && decide (t ≤ 85)) } } Sig.SUP_STAT 7 e.vfsrcOk

/-- The words that a request programs, with their values (R602, R605). -/
def fusePairs (kind index : Nat) (words : List Word) : List (Nat × Word) :=
  if kind = 1 then (patchWords index).zip words
  else [(index, words.headD 0)]

/-- The life-cycle state that a request of R615 names. -/
def lcRequest (index : Nat) (value : Word) : Option Nat :=
  if value = 0xFFFFFFFF then
    match index with
    | 18 => some 2
    | 20 => some 3
    | 22 => some 4
    | _ => none
  else none

/-- Step 2 of R606: INDEX, KIND, reserved bits and fuses that would have to be unblown. -/
def fuseRange (s : State) (kind index : Nat) (words : List Word) : Bool :=
  let v := words.headD 0
  let unblown := (fusePairs kind index words).any (fun p => fuseWord s p.1 &&& ~~~p.2 != 0)
  if kind = 0 then
    if 16 ≤ index ∧ index < 24 then
      match lcRequest index v with
      | some c => decide (c ≤ (fuseCycle s).code)
      | none => true
    else
      decide (words.length ≠ 1) || decide (254 ≤ index) || unblown || (index == 252 && v &&& 0xFFFFFC00 != 0) ||
        (index == 253 && v &&& 0xFFFFFE0F != 0)
  else
    decide (kind ≠ 1) || decide (48 ≤ index) || decide (words.length ≠ 4) || unblown ||
      !((words.getD 3 0).getLsbD 31) || words.getD 3 0 &&& 0x1FFF0000 != 0

/-- Step 3 of R606: the region is write-locked, or the word is already committed. A word of a patch entry that is committed with its value
does not lock an entry that another word still lacks (R609). -/
def fuseLocked (s : State) (kind index : Nat) (words : List Word) : Bool :=
  let ps := fusePairs kind index words
  if kind = 1 then
    ps.any (fun p => writeLocked s p.1 || (committed s p.1 && fuseWord s p.1 != p.2)) || ps.all (fun p => committed s p.1)
  else
    writeLocked s index || (commitWords.contains index && committed s index) ||
      (decide (fuseCycle s = .develop) && (decide (index < 16) || (decide (24 ≤ index) && decide (index < 32))))

/-- Whether a KIND 1 signature holds (R152, R610). -/
def patchSigned (s : State) (index : Nat) (words : List Word) (sig : List Byte) : Bool :=
  let body := [1, BitVec.ofNat 8 index, 0, 0] ++ wordsBytes words
  let ids := [0, 1, 2, 3].flatMap (fun w => wordBytes (fuseWord s w))
  keyActs s 0 && decide (Config.sha256 Config.patchKey = keyDigest s 0) &&
    Config.ecdsaVerify Config.patchKey (Config.sha256 (body ++ ids)) sig

/-- The status of a FUSE_PROGRAM as R606 judges it. -/
def fuseStatus (s : State) (kind index : Nat) (words : List Word) (sig : List Byte) (e : FuseEnv) : Nat :=
  if fuseCycle s ≠ .factory ∧ fuseCycle s ≠ .develop then stDeniedLifecycle
  else if fuseRange s kind index words then stRange
  else if fuseLocked s kind index words then stLocked
  else if !fuseRunnable e then stRefusedSafety
  else if kind = 1 then (if patchSigned s index words sig then stOk else stRefusedSafety)
  else if fuseCycle s = .develop ∧ 40 ≤ index ∧ index < 232 then stRefusedSafety
  else stOk

/-! ### Pulses (R607 to R610) -/

/-- The value of a copy of a word. -/
def copyOf (s : State) (b : Bool) (w : Nat) : Word := (cellGet (if b then s.fuse.copyB else s.fuse.copyA) w).getD (shippedWord w)

/-- One pulse of a bit of a copy. -/
def pulse (s : State) (b : Bool) (w i : Nat) : State :=
  let v := copyOf s b w ||| BitVec.ofNat 32 (2 ^ i)
  let f := s.fuse
  { s with fuse := if b then { f with copyB := cellPut f.copyB w v } else { f with copyA := cellPut f.copyA w v } }

/-- The bits of a copy that a value sets and the copy lacks. -/
def missingBits (s : State) (b : Bool) (w : Nat) (v : Word) : List Nat :=
  (List.range 32).filter (fun i => v.getLsbD i && !(copyOf s b w).getLsbD i)

/-- The pulses of a word, copy A before copy B; with `late` bit 31 of both copies comes last (R607, R610). -/
def pulsesOf (s : State) (w : Nat) (v : Word) (late : Bool) : List (Bool × Nat × Nat) :=
  let ps := (missingBits s false w v).map (fun i => (false, w, i)) ++ (missingBits s true w v).map (fun i => (true, w, i))
  if late then ps.filter (fun p => p.2.2 != 31) ++ ps.filter (fun p => p.2.2 == 31) else ps

/-- Pulses given one after another, up to a number of them where VFSRC leaves its window; with the number that is left. -/
def runPulses : List (Bool × Nat × Nat) → Option Nat → State → State × Option Nat
  | [], k, s => (s, k)
  | _ :: _, some 0, s => (s, some 0)
  | p :: ps, k, s => runPulses ps (k.map (fun n => n - 1)) (pulse s p.1 p.2.1 p.2.2)

/-- What programming came to: complete, refused by a verification, cut off by VFSRC, or aborted. -/
inductive FuseEnd where
  | done | bad | cut | aborted
  deriving DecidableEq, Repr

/-- A word after its pulses as the surroundings let it read: the pulsed bits that did not blow are missing, those blown before (in `s0`)
stay, and the margin value (R607). -/
def senseWord (s0 s : State) (e : FuseEnv) (w : Nat) : State :=
  match e.sense.find? (fun x => x.1 == w) with
  | some (_, normal, margin) =>
    let keep (b : Bool) : Word := copyOf s b w &&& (normal ||| copyOf s0 b w)
    let f := s.fuse
    { s with fuse := { f with copyA := cellPut f.copyA w (keep false), copyB := cellPut f.copyB w (keep true),
                              margin := cellPut f.margin w margin } }
  | none => { s with fuse := { s.fuse with margin := cellDel s.fuse.margin w } }

/-- The words whose pulses were cut off: their shadow registers keep what they held in `s0` (R607, R608). -/
def keepShadow (s0 s : State) (ws : List Nat) : State :=
  forEach ws s (fun s w => { s with fuse := { s.fuse with unsensed := cellPut s.fuse.unsensed w (fuseWord s0 w) } })

/-- The commit bit of a verified word in both copies (R607). -/
def commitWord (s : State) (w : Nat) : State :=
  if commitWords.contains w then
    { s with fuse := { s.fuse with commitA := w :: s.fuse.commitA, commitB := w :: s.fuse.commitB } }
  else s

/-- One word programmed, sensed and verified (R607, R608); a mirror is pulsed with its lock word (R602). -/
def progWord (s : State) (e : FuseEnv) (k : Option Nat) (w : Nat) (v : Word) (late : Bool) : State × Option Nat × FuseEnd :=
  let ws := if w = 252 ∨ w = 253 then [w, w + 2] else [w]
  let ps := ws.flatMap (fun x => pulsesOf s x v late)
  let q := runPulses ps k s
  let short := match k with
    | some n => decide (n < ps.length)
    | none => false
  if short then (keepShadow s q.1 ws, some 0, .cut)
  else
    let s1 := { q.1 with fuse := { q.1.fuse with unsensed := ws.foldl cellDel q.1.fuse.unsensed } }
    let s := ws.foldl (fun s' x => senseWord s s' e x) s1
    if ws.all (fun x => fuseWord s x == v && !fuseMarginal s x) then (s, q.2, .done)
    else ({ s with fuse := { s.fuse with verifyFail := true } }, q.2, .bad)

/-- Words programmed in order, each with its commit bit, until one is not complete (R607, R610); `ab` counts the words before an ABORT that
wins, which leaves the word it meets without its commit bit (R166). -/
def progWords (e : FuseEnv) (late : Bool) : List (Nat × Word) → Option Nat → Option Nat → State → State × FuseEnd
  | [], _, _, s => (s, .done)
  | p :: ps, k, ab, s =>
    if commitWords.contains p.1 && committed s p.1 then progWords e late ps k ab s
    else
      let q := progWord s e k p.1 p.2 (late && p.1 % 4 == 3)
      match q.2.2 with
      | .done =>
        if ab = some 0 then (q.1, .aborted) else progWords e late ps q.2.1 (ab.map (fun n => n - 1)) (commitWord q.1 p.1)
      | r => (q.1, r)

/-- The words of a life-cycle request: all bits of the named group and of every lower group not yet blown (R615). -/
def lcPairs (s : State) (code : Nat) : List (Nat × Word) :=
  (List.range 4).flatMap (fun g =>
    if g + 1 = code ∨ (g + 1 < code ∧ !groupBlown s g) then [(16 + 2 * g, 0xFFFFFFFF), (17 + 2 * g, 0xFFFFFFFF)] else [])

/-- A list of words programmed, with the window's exit and the life cycle as programmed (R608, R615, R616). -/
def programAll (s : State) (e : FuseEnv) (late : Bool) (ps : List (Nat × Word)) : State × FuseEnd :=
  let q := progWords e late ps e.cut e.abort s
  let s := { q.1 with fuse := { q.1.fuse with lcNow := decodeLc q.1 } }
  (if q.2 = .cut then setB s Sig.SUP_STAT 7 false else s, q.2)

/-- FUSE_PROGRAM for its request: the judgement, the pulses, READBACK and MARGINAL (R154, R605 to R610, R615). -/
def fuseProgramAns (s : State) (kind index : Nat) (words : List Word) (sig : List Byte) (e : FuseEnv) : State × Ans :=
  let s := readFuseEnv s e
  let st := fuseStatus s kind index words sig e
  if st ≠ stOk then (s, ansSt st)
  else
    let ps := match (if kind = 0 then lcRequest index (words.headD 0) else none) with
      | some c => if 16 ≤ index ∧ index < 24 then lcPairs s c else fusePairs kind index words
      | none => fusePairs kind index words
    let q := programAll s e (kind == 1) ps
    let w := if kind = 1 then 43 + 4 * index else index
    match q.2 with
    | .done => (q.1, ansOk (wordBytes (fuseWord q.1 w) ++ leBytes 1 (bitIf (fuseMarginal q.1 w) 0) ++ zeros 3))
    | .aborted => (q.1, ansSt stAborted)
    | _ => (q.1, ansSt stRefusedSafety)

/-! ### Identity and signals (R597, R619, R620) -/

/-- SERIAL_LO and SERIAL_HI (R175, R597). -/
def serialLo (s : State) : Word := usedWord s 0

/-- SERIAL_HI (R175, R597). -/
def serialHi (s : State) : Word := usedWord s 1

/-- A mask over the words of FUSE_COMMIT_A or FUSE_MARGIN_A (R619). -/
def fuseMaskA (f : Nat → Bool) : Nat :=
  (List.range 16).foldl (fun m j => m + bitIf (f (24 + j)) (16 + j)) 0 + (List.range 8).foldl (fun m j => m + bitIf (f j) j) 0

/-- A mask over the customer words (R619). -/
def fuseMaskB (f : Nat → Bool) : Nat := (List.range 20).foldl (fun m j => m + bitIf (f (232 + j)) j) 0

/-- A mask over the patch entries 32h to 32h + 31 (R619). -/
def entryMask (f : Nat → Bool) (h : Nat) : Nat :=
  (List.range 32).foldl (fun m j => m + bitIf (decide (32 * h + j < 48) && f (32 * h + j)) j) 0

/-- FUSE_STAT (R620). -/
def fuseStat (s : State) : Nat :=
  bitIf (decide (s.fuse.lc.code < s.fuse.lcNow.code)) 8 + bitIf s.fuse.verifyFail 7 + bitIf (rgB s Sig.SUP_STAT 7 && s.fuse.tempOk) 6 +
    bitIf (rgB s Sig.BOOT_STAT 12) 5 + bitIf ([252, 253, 254, 255].any (fuseMarginal s)) 4 +
    bitIf ((List.range 8).any (fun j => fuseMarginal s (16 + j))) 3 + bitIf (keyValid s 1) 2 + bitIf (keyValid s 0) 1 +
    bitIf (anyMarginal s) 0

/-- The value of a fuse signal by its item above 0x800 (R619). -/
def fuseItem (s : State) (i : Nat) : Word :=
  if i = 0 then BitVec.ofNat 32 s.fuse.lc.code
  else if i = 1 then BitVec.ofNat 32 (fuseStat s)
  else if i = 2 then BitVec.ofNat 32 (writeLocks s)
  else if i = 3 then BitVec.ofNat 32 (readLocks s)
  else if i = 4 then BitVec.ofNat 32 (fuseMaskA (committed s))
  else if i = 5 then BitVec.ofNat 32 (fuseMaskB (committed s))
  else if i = 6 then BitVec.ofNat 32 (fuseMaskA (fuseMarginal s))
  else if i = 7 then BitVec.ofNat 32 (fuseMaskB (fuseMarginal s))
  else if i < 10 then BitVec.ofNat 32 (entryMask (entryCommitted s) (i - 8))
  else if i < 12 then BitVec.ofNat 32 (entryMask (entryMarginal s) (i - 10))
  else if i < 14 then BitVec.ofNat 32 (entryMask s.fuse.applied.contains (i - 12))
  else if i < 16 then BitVec.ofNat 32 (entryMask s.fuse.skipped.contains (i - 14))
  else if i < 24 then fuseWord s (i - 16)
  else fuseWord s i

/-- The fuse word that an item shows, where it shows one: the lock of R603 applies to it. -/
def fuseItemWord (i : Nat) : Option Nat := if i < 16 then none else if i < 24 then some (i - 16) else some i

/-! ### Meanings -/

/-- VFSRC_WINDOW_EXIT: VFSRC crosses the edge of its window: it leaves it, or where it is outside comes back; programming is refused
outside it (R61, R84, R608; log entry 13). -/
def execVfsrcWindowExit (s : State) : Host.Outcome State Fault Refusal := .next (setB s Sig.SUP_STAT 7 (!rgB s Sig.SUP_STAT 7))

end Sys2Proof.Machine
end

