-- ==== Sys2Proof/Machine/Emquin.lean ====
section
/-! DEFINITION. The Emquin ring (chapter 19): slots and their checks (R542 to R545), census, master and lead (R547 to R553), carrier
synchronisation (R554 to R557), the Honeycomb slots (R558 to R560), streams (R545, R546), forwarded frames (R561 to R564), breaks, fold and
heal (R565 to R568), and the ring signals (R570, R571). -/

namespace Sys2Proof.Machine

/-! ### Cycles and time (R556, R658) -/

/-- The tick count as a stamp shows it: ticks since the epoch (R556, R658). -/
def tickCount (s : State) : Int := (s.clk.tb : Int) - s.clk.epoch

/-- The number of the present ring cycle (R556, R658). -/
def cycleNow (s : State) : Nat := (tickCount s / 4000).toNat

/-- CYCLE as a SYNC carries it (R543). -/
def cycleField (s : State) : Nat := cycleNow s % 2 ^ 32

/-- TICK as a Honeycomb slot carries it (R558). -/
def tickField (s : State) : Nat := cycleNow s / 10 % 256

/-- The key of the ring cycles. -/
abbrev keyRing : Nat := 0x47

/-- Time brought forward to the next ring cycle boundary (R658). -/
def toBoundary (s : State) : State := atGrid s keyRing 4000 (s.clk.epoch % 4000).toNat

/-- A bit of RING_STAT set. -/
def ringFlag (s : State) (i : Nat) : State := setB s Sig.RING_STAT i true

/-- A slot received with a bad CRC (R570). -/
def ringCrcBad (s : State) : State := incR s Sig.RING_CRC_COUNT

/-! ### Census (R547) -/

/-- The STATE flags of the device's own heartbeat (R544): SAFE, NO_LEAD, LOCKED, RUN. -/
def ownFlags (s : State) : Nat :=
  bitIf s.flt.safeMode 3 + bitIf s.emq.noLead 2 + bitIf (!s.emq.epochOwn) 1 + bitIf (inRun s) 0

/-- What a position shows now: a member whose SEQ changed within the last two cycles, with its flags. -/
def memberAt (s : State) (p : Nat) : Option (Nat × Nat) :=
  if p = s.emq.pos ∧ s.emq.mode ≠ 4 then some (ringId s, ownFlags s)
  else
    match s.emq.members.getD p none with
    | some m => if m.age ≤ 2 then some (m.id, m.flags) else none
    | none => none

/-- The census as the heartbeats show it now. -/
def observed (s : State) : List (Option (Nat × Nat)) := (List.range 16).map (memberAt s)

/-- The census in effect, with the device itself in it. -/
def censusNow (s : State) : List (Option (Nat × Nat)) :=
  if s.emq.mode = 4 then s.emq.census else setAt s.emq.census s.emq.pos (some (ringId s, ownFlags s))

/-- The members of the census in effect as (position, ring ID, flags). -/
def censusMembers (s : State) : List (Nat × Nat × Nat) :=
  (List.range 16).filterMap (fun p => ((censusNow s).getD p none).map (fun m => (p, m.1, m.2)))

/-- CENSUS_N: the members of the census. -/
def censusCount (s : State) : Nat := max 1 (censusMembers s).length

/-- What makes two census entries differ: the member, and its SAFE and NO_LEAD flags (R547). -/
def censusKey (m : Option (Nat × Nat)) : Option (Nat × Nat) := m.map (fun x => (x.1, x.2 / 4 % 4))

/-- The STATE flags that a census member's heartbeat shows now. -/
def flagsNow (s : State) (p flags : Nat) : Nat :=
  if p = s.emq.pos then flags
  else
    match s.emq.members.getD p none with
    | some m => m.flags
    | none => flags

/-- The LOCKED members of the census as (position, ring ID) (R544, R550). -/
def lockedMembers (s : State) : List (Nat × Nat) :=
  (censusMembers s).filterMap (fun m => if bitOf (flagsNow s m.1 m.2.2) 1 then some (m.1, m.2.1) else none)

/-- The lowest ring ID of a list, ties to the lower position (R550). -/
def lowestId : List (Nat × Nat) → Option (Nat × Nat)
  | [] => none
  | x :: xs =>
    match lowestId xs with
    | some y => if x.2 ≤ y.2 then some x else some y
    | none => some x

/-- Whether a LOCKED member of the census has a lower ring ID than the master (R550). -/
def outranked (s : State) : Bool :=
  match lowestId (lockedMembers s), s.emq.master with
  | some (_, id), some m => decide (id < m)
  | _, _ => false

/-- Whether another census member carries the ring ID of this one (R552); an excess device is no census member (R548). -/
def duplicated (s : State) : Bool := s.emq.mode != 4 && (censusMembers s).any (fun m => m.1 != s.emq.pos && m.2.1 == ringId s)

/-- Whether the ring has a lead: the master's ring ID is 0 and no other member carries ID 0 (R551). -/
def ringHasLead (s : State) : Bool :=
  s.emq.mode != 0 && s.emq.mode != 4 && decide (s.emq.master = some 0) &&
    decide (((censusMembers s).filter (fun m => m.2.1 == 0)).length ≤ 1)

/-- The lead worked out anew. -/
def settleLead (s : State) : State := { s with emq := { s.emq with lead := ringHasLead s } }

/-- Whether this device is the lead (R551). -/
def isLead (s : State) : Bool := s.emq.isMaster && s.emq.lead

/-- NO_LEAD ended: its hold on the axes is released; they stay in HOLD (R298, R552). -/
def endNoLead (s : State) : State :=
  if s.emq.noLead then
    forEach allAxes { s with emq := { s.emq with noLead := false } } (fun s n =>
      if stillActs s n reHold then s else modAx s n (fun b => { b with holdByFault := false }))
  else s

/-! ### Taking part and leaving (R541) -/

/-- The ring link as it starts: in search mode where `on`, off otherwise. -/
def ringRestart (s : State) (on : Bool) : State :=
  let e := s.emq
  let s := endNoLead s
  settleLead { s with emq :=
    { Emq.init with mode := if on then 1 else 0, queues := e.queues, frameId := e.frameId, seq := e.seq, wire := e.wire,
                    inbox := e.inbox, conflict := e.conflict, trim := e.trim } }

/-! ### Slots that the device writes -/

/-- WIRE as the byte of a SYNC (R543); the spec states no byte for a link delay outside its range (log entry 38). -/
def wireByte (w : Int) : Nat := if 0 ≤ w ∧ w < 256 then w.toNat else (Config.wireByte w).toNat

/-- SYNC as R543 lays it out. -/
def syncBytes (flags id : Nat) (lead : Bool) (hop cycle delay brk n : Nat) (wire : Int) : List Byte :=
  let body := leBytes 1 flags ++ leBytes 1 (16 * id + bitIf lead 3) ++ leBytes 1 hop ++ leBytes 4 cycle ++ leBytes 2 (min 65535 delay) ++
    leBytes 1 brk ++ leBytes 1 n ++ leBytes 1 (wireByte wire) ++ [0]
  0xBC :: body ++ leBytes 2 (crc16 body).toNat

/-- Whether bytes are a SYNC with a good CRC. -/
def syncOk (bs : List Byte) : Bool := decide (bs.length = 16) && decide ((crc16 ((bs.drop 1).take 13)).toNat = fieldAt bs 14 2)

/-- The device's heartbeat slot (R544). -/
def heartbeatBytes (s : State) : List Byte :=
  let body := leBytes 1 s.emq.seq ++ leBytes 1 (16 * ringId s + ownFlags s) ++ leBytes 1 (bitIf s.emq.head 1 + bitIf s.emq.tail 0)
  body ++ [crc8 body]

/-- The axis that an emulation set serves. -/
def setAxis (s : State) (k : Nat) : Option Axis := allAxes.find? (fun n => rgN s (Sig.RSV_EM_SET n.val) == k)

/-- Z_c of an emulation (R383). -/
def emZc (s : State) (n : Axis) : Nat := 4 * (rgN s (Sig.RSV_EM_ZOFS n.val) * rgN s (Sig.RSV_EM_LINES n.val) / 65536) + 2

/-- The stream slot of a set (R545). -/
def streamSlotBytes (s : State) (k : Nat) (n : Axis) : List Byte :=
  let body := leBytes 1 (16 * ringId s + 4 * k) ++ leInt 4 (s.rsv[n]).emOut ++ leBytes 2 (rgN s (Sig.RSV_EM_LINES n.val)) ++
    leBytes 2 (emZc s n)
  body ++ [crc8 body]

/-- The stream slots that the device writes in a cycle (R546): a set that is sent, with a slot of its own, without a conflict, and in
fold only the slots that a folded cycle has (R542); an excess device sends none (R548). -/
def ownStreams (s : State) : List (Nat × List Byte) :=
  (List.range 4).filterMap (fun k =>
    let slot := rgN s (Sig.RING_STRM_SLOT k)
    match setAxis s k with
    | some n =>
      if rgB s (Sig.RSV_EM_CFG n.val) 1 && decide (slot < 16) && !(s.emq.conflict.getD k false) && s.emq.mode != 4 && (s.emq.mode != 3 || decide (slot < 8))
      then some (slot, streamSlotBytes s k n) else none
    | none => none)

/-! ### Honeycomb slots (R558 to R560) -/

/-- A power in 0.1 W, narrowed and kept within a field (R558, log entry 4). -/
def deciWatt (x : Rat) (lo hi : Int) : Int := clampInt (narrow 0x558 (x * 10)) lo hi

/-- A group entry (R558). -/
def groupEntry (e : Nat × List Rat) : List Byte :=
  let u (i : Nat) : List Byte := leBytes 2 (deciWatt (e.2.getD i 0) 0 65535).toNat
  leBytes 1 e.1 ++ u 0 ++ leInt 2 (deciWatt (e.2.getD 1 0) (-32768) 32767) ++ u 2 ++ u 3 ++ u 4 ++ u 5

/-- The device's report, with the values of the computation of the tick before (R558, R559). -/
def reportBytes (s : State) : List Byte :=
  let entry (i : Nat) : List Byte := match s.hc.mineLast[i]? with
    | some e => groupEntry e
    | none => zeros 13
  let body := leBytes 1 (16 * ringId s) ++ leBytes 1 (tickField s) ++ entry 0 ++ entry 1
  body ++ wordBytes (crc32 body)

/-- The group entry at an offset of a report: group, and P_SRC, P_NET, D01, D2, D3, D4 in W. -/
def entryAt (bs : List Byte) (off : Nat) : Nat × List Rat :=
  let u (i : Nat) : Rat := (fieldAt bs (off + i) 2 : Rat) / 10
  let net : Rat := (((BitVec.ofNat 16 (fieldAt bs (off + 3) 2)).toInt : Int) : Rat) / 10
  (fieldAt bs off 1, [u 1, net, u 5, u 7, u 9, u 11])

/-- The entries that the lead holds, as (position, A or B, entry), its own report among them (R559). -/
def leadEntries (s : State) : List (Nat × Nat × Nat × List Rat) :=
  let rs := (s.emq.pos, reportBytes s) :: s.hc.reports.filter (fun r => r.1 != s.emq.pos && (censusMembers s).any (fun m => m.1 == r.1))
  rs.flatMap (fun r => [(r.1, 0, entryAt r.2 2), (r.1, 1, entryAt r.2 15)])

/-- The allotment of an entry (R470): its own demand in each class times k, and an equal share of the spare. -/
def allotmentFor (es : List (Nat × Nat × Nat × List Rat)) (e : Nat × List Rat) : Rat :=
  if e.1 = 0 then 0
  else
    let g := es.filter (fun x => x.2.2.1 == e.1)
    let col (i : Nat) : List Rat := g.map (fun x => x.2.2.2.getD i 0)
    let ks := shareOut 1 (minRat (col 0) + sumRat (col 1)) [sumRat (col 2), sumRat (col 3), sumRat (col 4), sumRat (col 5)]
    let spare := match ks.getLast? with
      | some x => x.2
      | none => 0
    sumRat ((List.range 4).map (fun i => e.2.getD (2 + i) 0 * (ks.getD i (0, 0)).1)) + spare / (g.length : Rat)

/-- The 32 allotments in 1 W units, position-major with A before B (R558). -/
def allotmentsOf (s : State) : List Nat :=
  let es := leadEntries s
  (List.range 32).map (fun j =>
    match es.find? (fun x => x.1 == j / 2 && x.2.1 == j % 2) with
    | some x => (clampInt (narrow 0x559 (allotmentFor es x.2.2)) 0 4095).toNat
    | none => 0)

/-- The allotment message of the lead (R558). -/
def allotmentBytes (s : State) : List Byte :=
  let n := (allotmentsOf s).reverse.foldl (fun m x => m * 4096 + x) 0
  let body := leBytes 1 (tickField s) ++ leBytes 48 n ++ zeros 11
  body ++ wordBytes (crc32 body)

/-- The device's own allotments out of a message, counted in the tick that TICK names (R560). -/
def takeAllotment (s : State) (bs : List Byte) : State :=
  let n := ofLe ((bs.drop 1).take 48)
  let w (j : Nat) : Rat := ((n / 4096 ^ j % 4096 : Nat) : Rat)
  let age := (tickField s + 256 - fieldAt bs 0 1) % 256
  { s with hc := { s.hc with allot := [w (2 * s.emq.pos), w (2 * s.emq.pos + 1)], allotAge := age } }

/-- What the device writes into the Honeycomb slot of a cycle (R558, R559). -/
def writeHoneycomb (s : State) : State :=
  let c := cycleNow s % 10
  if c = s.emq.pos / 2 then { s with emq := { s.emq with txHc := reportBytes s } }
  else if c = 9 ∧ isLead s = true then
    let bs := allotmentBytes s
    takeAllotment { s with emq := { s.emq with txHc := bs } } bs
  else { s with emq := { s.emq with txHc := [] } }

/-! ### Received streams (R426) -/

/-- Whether a stream frame feeds FBn: its CRC is good and its SOURCE is the one that FB_RING_SRC names (R545). -/
def streamFor (s : State) (n : Axis) (bs : List Byte) : Bool :=
  let src := rgN s (Sig.FB_RING_SRC n.val)
  decide (bs.length = 10) && decide (crc8 (bs.take 9) = bs.getD 9 0) && fieldAt bs 0 1 / 16 == src / 16 && fieldAt bs 0 1 / 4 % 4 == src % 4

/-- The presence check of each input in mode 5 at the end of a ring cycle (R426). -/
def streamsMissing (s : State) : State :=
  let s := forEach (allAxes.filter (fun n => fbMode s n == 5 && !(s.emq.streams.any (streamFor s n)))) s fbNoStream
  { s with emq := { s.emq with streams := [] } }

/-! ### Fold (R565 to R568) -/

/-- Fold operation entered: FOLDED, streams 8 to 15 suspended, and the event of a fold (R139, R542, R566). -/
def enterFold (s : State) : State :=
  if s.emq.mode = 3 then s else evt (ringFlag (ringFlag { s with emq := { s.emq with mode := 3, heal := 0 } } 1) 6) 81

/-- Ring operation restored (R568). -/
def endFold (s : State) : State :=
  if s.emq.mode = 3 then
    ringFlag { s with emq := { s.emq with mode := 2, head := false, tail := false, breakPos := 0xFF, heal := 0 } } 2
  else s

/-- The census successor of the device's position: the next position with a member. -/
def successor (s : State) : Nat :=
  let n := censusCount s
  (s.emq.pos + 1) % n

/-- Whether the device is the tail of a folded line (R566). -/
def isTail (s : State) : Bool :=
  let p := successor s
  p == s.emq.breakPos ||
    (match s.emq.members.getD p none with
      | some m => decide (4 ≤ m.age)
      | none => p != s.emq.pos)

/-! ### A cycle at this device -/

/-- What a device does in each cycle that it originates or that passes it: SEQ and its heartbeat (R544), its streams (R546), its Honeycomb
slot (R558), the ages of the members and how long the census has stood (R547, R550, R552), the presence check (R426), the fold's tail (R566), the HEAL that is due (R568), and the
return to search where the line holds only itself (R549). -/
def cyclePass (s : State) : State :=
  let s := streamsMissing s
  let e := s.emq
  let e := { e with seq := (e.seq + 1) % 256, sinceStamp := e.sinceStamp + 1, censusAge := e.censusAge + 1, awayFor := e.awayFor + 1,
                    members := e.members.map (fun m => m.map (fun x => { x with age := x.age + 1 })) }
  let s := { s with emq := e }
  let keys := (observed s).map censusKey
  let s := { s with emq := { s.emq with shown := keys, steady := if keys = s.emq.shown then s.emq.steady + 1 else 0,
                                        usurped := if outranked s then s.emq.usurped + 1 else 0 } }
  let alone := (observed s).all (fun m => decide (m = none) || decide (m = some (ringId s, ownFlags s)))
  let s := { s with emq := { s.emq with aloneFor := if alone then s.emq.aloneFor + 1 else 0,
                                        tail := decide (s.emq.mode = 3) && isTail s } }
  let s := { s with emq := { s.emq with txHb := heartbeatBytes s, txStrm := ownStreams s } }
  let s := writeHoneycomb s
  let s := if s.emq.mode = 3 ∧ 4 ≤ s.emq.aloneFor then
      settleLead { s with emq := { s.emq with mode := 1, head := false, tail := false, isMaster := false, master := none, breakPos := 0xFF } }
    else s
  if s.emq.heal = 1 then endFold { s with emq := { s.emq with heal := 0 } }
  else if s.emq.heal = 2 then { s with emq := { s.emq with heal := 1 } }
  else s

/-- Whether the device originates cycles: the master in ring operation and in search, the head and the tail of a fold (R549, R566). -/
def originates (s : State) : Bool :=
  inRun s && ((s.emq.isMaster && (s.emq.mode == 1 || s.emq.mode == 2)) || (s.emq.mode == 3 && (s.emq.head || s.emq.tail)))

/-- The SYNC that an originator sends at a boundary. -/
def originSync (s : State) (heal : Bool) : List Byte :=
  let e := s.emq
  let fold := e.mode == 3
  let stamp := e.isMaster
  let flags := bitIf fold 7 + bitIf (fold && !e.head) 6 + bitIf heal 5 + bitIf stamp 4 + bitIf e.excess 3
  syncBytes flags (e.master.getD (ringId s)) e.lead e.pos (if stamp then cycleField s else 0) 0 (if fold then e.breakPos else 0xFF)
    (censusCount s) e.wire

/-- RING_CYCLE: at its next cycle boundary the master, or the head or tail of a fold, originates a cycle (R542, R566); a master that gave
way stops there (R549). -/
def execRingCycle (s : State) : Host.Outcome State Fault Refusal :=
  if originates s then
    let s := toBoundary s
    if s.emq.stopAt then
      .next (settleLead { s with emq := { s.emq with isMaster := false, stopAt := false, master := none, mode := max 2 s.emq.mode } })
    else
      let s := cyclePass s
      let heal := decide (s.emq.heal = 3) && s.emq.head
      let s := { s with emq := { s.emq with txSync := originSync s heal, excess := false } }
      .next (if heal then { s with emq := { s.emq with heal := 2 } } else s)
  else .next s

/-! ### SYNC (R547 to R549, R554 to R557, R566, R567) -/

/-- d_in in 0.1 ns (R554). -/
def inDelay (s : State) : Int := if rgN s Sig.RING_RX_DELAY = 0xFFFF then s.emq.wire else (rgN s Sig.RING_RX_DELAY : Int)

/-- The device's boundary nearest to an instant, less that instant, in 0.1 ns (R554). -/
def phaseError (s : State) (b : Int) : Int :=
  let d := (25 * s.clk.epoch - b) % 100000
  if 50000 < d then d - 100000 else d

/-- The trim after a stamped SYNC: a free value within ±200 ppm that moves by at most 1 ppm (R554, log entry 3). -/
def steer (s : State) : State :=
  let d := drawWord s
  let t := clampInt (s.emq.trim + clampInt d.1.toInt (-100) 100) (-20000) 20000
  setI { d.2 with emq := { d.2.emq with trim := t } } Sig.RING_TRIM t

/-- A stamped SYNC that arrived at `rx`, in 0.1 ns of the tick count from the start of the RUN: the master's boundary, the phase error, the
trim, and SYNC_LOCKED (R554, R557). -/
def takeStamp (s : State) (rx : Int) (delay cycle : Nat) : State :=
  let b := rx - (delay : Int) - inDelay s
  let err := phaseError s b
  let s := steer (setI s Sig.RING_PHASE_ERR (clampInt err (-32768) 32767))
  let e := s.emq
  let inRow := if err.natAbs ≤ 20 then e.inRow + 1 else 0
  let outRow := if 50 < err.natAbs then e.outRow + 1 else 0
  let locked := (e.locked || decide (16 ≤ inRow)) && !decide (4 ≤ outRow)
  { s with emq := { e with bound := some (b, cycle), inRow := inRow, outRow := outRow, locked := locked, sinceStamp := 0 } }

/-- The EXCESS flag of a SYNC at a census member; the master sets it in its next cycle (R548). -/
def seeExcess (s : State) (flags : Nat) : State :=
  if bitOf flags 3 then evt (ringFlag { s with emq := { s.emq with excess := s.emq.isMaster } } 10) 82 else s

/-- The SYNC that a member sends on: HOP, DELAY with its residence of 120 ns, and in fold the master's stamp (R543, R554, R567). -/
def passSync (s : State) (bs : List Byte) (stampHere : Bool) : List Byte :=
  let flags := fieldAt bs 1 1
  let stamped := bitOf flags 4
  let flags := if stampHere && !stamped then flags + 16 else flags
  let delay := if stampHere then ((25 * (tickCount s % 4000)).toNat) + 1200
    else (((fieldAt bs 8 2 : Nat) : Int) + inDelay s).toNat + 1200
  let cycle := if stampHere then cycleField s else fieldAt bs 4 4
  syncBytes flags (fieldAt bs 2 1 / 16) (bitOf (fieldAt bs 2 1) 3) s.emq.pos cycle delay (fieldAt bs 10 1) (fieldAt bs 11 1) s.emq.wire

/-- A SYNC at a device beyond position 15: it checks its stream inputs, repeats, adds its residence, leaves HOP and sets EXCESS (R548). -/
def excessSync (s : State) (bs : List Byte) (rx : Int) : State :=
  let s := streamsMissing s
  let flags := fieldAt bs 1 1
  let e := { s.emq with mode := 4, isMaster := false, master := some (fieldAt bs 2 1 / 16), rinOk := true, wire := (fieldAt bs 12 1 : Int),
                        txHb := [], txStrm := [], txHc := [], head := false, tail := false }
  let s := settleLead (ringFlag { s with emq := e } 10)
  let s := if bitOf flags 4 then takeStamp s rx (fieldAt bs 8 2) (fieldAt bs 4 4) else s
  let delay := (((fieldAt bs 8 2 : Nat) : Int) + inDelay s).toNat + 1200
  let out := syncBytes (if bitOf flags 3 then flags else flags + 8) (fieldAt bs 2 1 / 16) (bitOf (fieldAt bs 2 1) 3) (fieldAt bs 3 1)
    (fieldAt bs 4 4) delay (fieldAt bs 10 1) (fieldAt bs 11 1) (fieldAt bs 12 1 : Int)
  { s with emq := { s.emq with txSync := out } }

/-- The census position that a SYNC gives (R547): HOP plus one; in fold the positions stand, and only a device in search takes one, from a
forward cycle. -/
def syncPos (s : State) (bs : List Byte) : Nat :=
  let flags := fieldAt bs 1 1
  let hop := fieldAt bs 3 1
  if !bitOf flags 7 then (hop + 1) % 16
  else if s.emq.mode != 2 && s.emq.mode != 3 && !bitOf flags 6 then (hop + 1) % (max 1 (fieldAt bs 11 1)) % 16
  else s.emq.pos

/-- Ring or fold operation as the SYNC shows it (R566, R568). -/
def syncFold (s : State) (fold : Bool) : State :=
  if fold then enterFold s
  else if s.emq.mode = 3 then endFold s
  else { s with emq := { s.emq with mode := 2 } }

/-- The master, WIRE and BREAK_POS that a SYNC names. -/
def syncFields (s : State) (bs : List Byte) : State :=
  let e := s.emq
  let brk := if bitOf (fieldAt bs 1 1) 7 && !e.head then fieldAt bs 10 1 else e.breakPos
  let e' : Emq :=
    if e.isMaster then { e with breakPos := brk, sinceStamp := 0, rinOk := true }
    else { e with breakPos := brk, master := some (fieldAt bs 2 1 / 16), wire := (fieldAt bs 12 1 : Int), rinOk := true }
  { s with emq := e' }

/-- HEAL seen in a SYNC: ring operation returns at the second boundary after it (R568). -/
def syncHeal (s : State) (flags : Nat) : State :=
  if bitOf flags 5 && s.emq.heal == 0 then { s with emq := { s.emq with heal := 2 } } else s

/-- A SYNC at a device that does not originate the cycle: position, ring or fold, master, steering, and what it writes as the cycle passes
(R547, R554, R566, R567). -/
def followSync (s : State) (bs : List Byte) (rx : Int) : State :=
  let flags := fieldAt bs 1 1
  let fold := bitOf flags 7
  if (!fold && decide (15 ≤ fieldAt bs 3 1)) || (fold && s.emq.mode == 4) then excessSync s bs rx
  else
    let p := syncPos s bs
    let s := syncFields (syncFold { s with emq := { s.emq with pos := p } } fold) bs
    let s := seeExcess (settleLead s) flags
    let s := if bitOf flags 4 && !s.emq.isMaster then takeStamp s rx (fieldAt bs 8 2) (fieldAt bs 4 4) else s
    let s := cyclePass s
    let out := passSync s bs (fold && s.emq.isMaster)
    syncHeal { s with emq := { s.emq with txSync := out } } flags

/-- The master's own SYNC back after one loop: the loop delay and WIRE, narrowed to 0.1 ns (R555, log entry 4), the end of its search (R549), EXCESS (R548). -/
def loopSync (s : State) (bs : List Byte) (rx : Int) : State :=
  let l := (rx - 25 * s.clk.epoch) % 100000
  let n : Int := (censusCount s : Int)
  let s := setI s Sig.RING_LOOP (clampInt l 0 65535)
  let s := { s with emq := { s.emq with wire := narrow 0x555 (((l - n * 1200 : Int) : Rat) / (n : Rat)), mode := 2, rinOk := true } }
  settleLead (seeExcess s (fieldAt bs 1 1))

/-- A SYNC of another master at a master (R549): it gives way to a lower ring ID, or to the same ID with a lower CYCLE; both stop where
both are equal. A device that gives way to another count of cycles has yet to adopt that ring's epoch (R556). -/
def rivalSync (s : State) (bs : List Byte) : State :=
  let id := fieldAt bs 2 1 / 16
  let c := fieldAt bs 4 4
  let me := ringId s
  let s := { s with emq := { s.emq with mode := max 2 s.emq.mode, rinOk := true } }
  if id < me ∨ (id = me ∧ c < cycleField s) then
    { s with emq := { s.emq with stopAt := true, epochOwn := s.emq.epochOwn || decide (c ≠ cycleField s) } }
  else if id = me ∧ c = cycleField s then
    settleLead { s with emq :=
      { s.emq with isMaster := false, master := none, mode := 1, wait := (serialLo s).toNat % 16 + 1, epochOwn := true } }
  else s

/-- SYNC: a SYNC slot received at `arrival`, in 0.1 ns of the tick count; `own` says that it is the device's own SYNC come back. -/
def execSyncSlot (bytes : List Byte) (arrival : Nat) (own : Bool) (s : State) : Host.Outcome State Fault Refusal :=
  if inRun s && s.emq.mode != 0 then
    let s := toTick s (arrival / 25)
    if !syncOk bytes then .next (ringCrcBad s)
    else
      let fold := bitOf (fieldAt bytes 1 1) 7
      if s.emq.isMaster && !fold then
        .next (if own && fieldAt bytes 2 1 / 16 == ringId s then loopSync s bytes (arrival : Int) else rivalSync s bytes)
      else .next (followSync s bytes (arrival : Int))
  else .next s

/-- RING_HEARTBEAT: the heartbeat slot of a census position (R544, R547). -/
def execRingHeartbeat (p : Fin 16) (bytes : List Byte) (s : State) : Host.Outcome State Fault Refusal :=
  if inRun s && s.emq.mode != 0 then
    if decide (bytes.length ≠ 4) || decide (crc8 (bytes.take 3) ≠ bytes.getD 3 0) then .next (ringCrcBad s)
    else if p.val = s.emq.pos ∧ s.emq.mode ≠ 4 then .next s
    else
      let seq := fieldAt bytes 0 1
      let m : Member := ⟨fieldAt bytes 1 1 / 16, seq, fieldAt bytes 1 1 % 16, 0⟩
      let changed := match s.emq.members.getD p.val none with
        | some x => x.seq != seq
        | none => true
      .next (if changed then { s with emq := { s.emq with members := setAt s.emq.members p.val (some m) } } else s)
  else .next s

/-- CENSUS_CHANGE: the census that the heartbeats show has held for two cycles and takes effect (R547); a member that is lost counts one
event of RING_HB (R565); NO_LEAD ends with the duplicate (R552). -/
def execCensusChange (s : State) : Host.Outcome State Fault Refusal :=
  let new := observed s
  let old := s.emq.census
  if inRun s && s.emq.mode != 0 && decide (new.map censusKey ≠ old.map censusKey) && decide (new.map censusKey = s.emq.shown) &&
      decide (2 ≤ s.emq.steady) then
    let count (l : List (Option (Nat × Nat))) (id : Nat) : Nat := (l.filter (fun x => x.map (fun y => y.1) == some id)).length
    let lost := (List.range 16).any (fun id => decide (count new id < count old id))
    let s := evt (ringFlag (settleLead { s with emq := { s.emq with census := new, censusAge := 0 } }) 3) 82
    let s := if lost then devFault s 44 else s
    .next (if duplicated s then s else endNoLead s)
  else .next s

/-- NO_LEAD: this device's ring ID is duplicated and the census has held for four cycles (R552). -/
def execNoLead (s : State) : Host.Outcome State Fault Refusal :=
  if inRun s && duplicated s && !s.emq.noLead && decide (4 ≤ s.emq.censusAge) then
    let s := evt (ringFlag { s with emq := { s.emq with noLead := true } } 4) 83
    let hold := allAxes.filter (fun n =>
      decide (axSt s n = .opn) || decide (axSt s n = .torque) || decide (axSt s n = .speed) || decide (axSt s n = .position))
    .next (forEach hold s (fun s n => toHold s n true))
  else .next s

/-- SEARCH_TIMEOUT: no valid SYNC for 20 µs in search mode, after the wait of a tie; the device originates cycles as master, with its own
epoch and cycle count (R549, R658). -/
def execSearchTimeout (s : State) : Host.Outcome State Fault Refusal :=
  if inRun s && s.emq.mode == 1 && !s.emq.isMaster then
    let s := toTick s (s.clk.tb + 8000 + 4000 * s.emq.wait)
    .next (settleLead { s with emq :=
      { s.emq with isMaster := true, master := some (ringId s), wait := 0, pos := 0, epochOwn := false, breakPos := 0xFF } })
  else .next s

/-- MASTERSHIP_CHANGE: mastership passes to the LOCKED member with the lowest ring ID, below the master's (R550), or, without a stamp for
four cycles of a fold, to the lowest of the part (R567). -/
def execMastershipChange (s : State) : Host.Outcome State Fault Refusal :=
  let orphan := s.emq.mode == 3 && decide (4 ≤ s.emq.sinceStamp)
  match lowestId (lockedMembers s) with
  | some (p, id) =>
    let due := (outranked s && decide (4 ≤ s.emq.usurped)) || orphan
    if inRun s && (s.emq.mode == 2 || s.emq.mode == 3) && due then
      .next (ringFlag (settleLead { s with emq :=
        { s.emq with master := some id, isMaster := decide (p = s.emq.pos), sinceStamp := 0, usurped := 0 } }) 8)
    else .next s
  | none => .next s

/-- EPOCH_ADOPT: with every PWM module stopped the device adopts the ring's epoch and cycle count by one step (R556, R658). -/
def execEpochAdopt (s : State) : Host.Outcome State Fault Refusal :=
  let stopped := allAxes.all (fun n => !(s.pwm[n]).running && !(s.pwm[n]).startPend)
  match s.emq.bound with
  | some (b, c) =>
    if inRun s && s.emq.epochOwn && s.emq.mode != 0 && stopped then
      let e := (b + 12) / 25 - 4000 * (c : Int)
      .next (ringFlag { s with clk := { s.clk with epoch := e }, emq := { s.emq with epochOwn := false } } 9)
    else .next s
  | none => .next s

/-! ### Meanings of the Honeycomb and stream slots -/

/-- HONEYCOMB_REPORT: a report received from a census position (R558, R559). -/
def execHoneycombReport (p : Fin 16) (bytes : List Byte) (s : State) : Host.Outcome State Fault Refusal :=
  if inRun s && s.emq.mode != 0 then
    if decide (bytes.length = 32) && decide (crc32 (bytes.take 28) = wordAt bytes 28) then
      .next { s with hc := { s.hc with reports := cellPut s.hc.reports p.val bytes } }
    else .next (ringCrcBad s)
  else .next s

/-- ALLOTMENT: the lead's message received (R558, R560). -/
def execAllotment (bytes : List Byte) (s : State) : Host.Outcome State Fault Refusal :=
  if inRun s && (s.emq.mode == 2 || s.emq.mode == 3) then
    if decide (bytes.length = 64) && decide (crc32 (bytes.take 60) = wordAt bytes 60) then .next (takeAllotment s bytes)
    else .next (ringCrcBad s)
  else .next s

/-- A set that finds its slot written by another source stops writing it (R546). -/
def streamConflicts (s : State) (slot : Nat) (bs : List Byte) : State :=
  forEach (List.range 4) s (fun s k =>
    if (ownStreams s).any (fun x => x.1 == slot) && rgN s (Sig.RING_STRM_SLOT k) == slot &&
        fieldAt bs 0 1 != 16 * ringId s + 4 * k then
      ringFlag { s with emq := { s.emq with conflict := setAt s.emq.conflict k true } } 7
    else s)

/-- STREAM_SLOT: a stream frame received; it feeds each input in mode 5 that names its source (R426, R545). -/
def execStreamSlot (slot : Fin 16) (bytes : List Byte) (s : State) : Host.Outcome State Fault Refusal :=
  if inRun s && s.emq.mode != 0 && (s.emq.mode != 3 || decide (slot.val < 8)) then
    if decide (bytes.length ≠ 10) || decide (crc8 (bytes.take 9) ≠ bytes.getD 9 0) then .next (ringCrcBad s)
    else
      let s := streamConflicts s slot.val bytes
      let ns := allAxes.filter (fun n => fbMode s n == 5 && streamFor s n bytes)
      let c : Int := (BitVec.ofNat 32 (fieldAt bytes 1 4)).toInt
      let s := forEach ns s (fun s n => fbStream s n c (fieldAt bytes 5 2) (fieldAt bytes 7 2))
      .next { s with emq := { s.emq with streams := s.emq.streams ++ [bytes] } }
  else .next s

/-! ### Forwarded frames (R561 to R564) -/

/-- A segment (R562). -/
def segmentBytes (pos seg last : Nat) (resp : Bool) (dst id seen nak : Nat) (data : List Byte) : List Byte :=
  let body := leBytes 1 (16 * pos + seg) ++ leBytes 1 (16 * last + bitIf resp 3) ++ leBytes 1 dst ++ leBytes 1 id ++ leBytes 2 seen ++
    leBytes 2 nak ++ fitTo 68 data
  body ++ wordBytes (crc32 body)

/-- The index of a frame's last segment. -/
def lastSeg (bs : List Byte) : Nat := (bs.length - 1) / 68

/-- Whether a frame in the queues goes next: the one being sent, else the oldest of the high queues, else the oldest (R561, R564). -/
def nextFrame (qs : List FwdFrame) : Option FwdFrame :=
  ((qs.find? (fun f => f.sending)).or (qs.find? (fun f => f.queue == 44))).or qs.head?

/-- The queues with the frame of an ID changed. -/
def modFrame (s : State) (id : Nat) (f : FwdFrame → FwdFrame) : State :=
  { s with emq := { s.emq with queues := s.emq.queues.map (fun q => if q.id = id then f q else q) } }

/-- A request as it is sent: FWD set, and the remaining time in DEADLINE (R162, R561). -/
def retimed (s : State) (f : FwdFrame) : List Byte :=
  if f.resp then f.bytes
  else
    let h := parseHdr f.bytes
    let left := match f.due with
      | some t => max 1 (t - s.clk.us)
      | none => 0
    frameBytes { h with flags := if bitOf h.flags 4 then h.flags else h.flags + 16, deadline := left } ((f.bytes.drop 16).take h.length)

/-- SEGMENT_SEND: the next segment of the frame that goes next is placed into the empty transport slot (R561 to R563). -/
def execSegmentSend (s : State) : Host.Outcome State Fault Refusal :=
  if inRun s && (s.emq.mode == 2 || s.emq.mode == 3) && s.emq.slot.isEmpty then
    match nextFrame s.emq.queues with
    | some f =>
      if f.away then .next s
      else
        let bs := if f.seg = 0 then retimed s f else f.bytes
        let s := modFrame s f.id (fun f => { f with bytes := bs, sending := true, away := true, nak := false })
        .next { s with emq := { s.emq with
          awayFor := 0
          slot := segmentBytes s.emq.pos f.seg (lastSeg bs) f.resp f.dst f.id (2 ^ s.emq.pos) 0 ((bs.drop (68 * f.seg)).take 68) } }
    | none => .next s
  else .next s

/-- SEGMENT_RESEND: a NAK, or a segment not back within four cycles: the whole frame is sent again (R564). -/
def execSegmentResend (s : State) : Host.Outcome State Fault Refusal :=
  match s.emq.queues.find? (fun f => f.sending) with
  | some f =>
    if inRun s && ((f.away && decide (4 ≤ s.emq.awayFor)) || f.nak) then
      let s := modFrame s f.id (fun f => { f with seg := 0, away := false, nak := false })
      .next (incR { s with emq := { s.emq with slot := [] } } Sig.RING_RESEND_COUNT)
    else .next s
  | none => .next s

/-- The mask of the census positions. -/
def positionMask (s : State) : Nat := (censusMembers s).foldl (fun m x => m ||| 2 ^ x.1) 0

/-- The mask of the positions that a destination names, the writer's not among them. -/
def dstMask (s : State) (dst : Nat) : Nat :=
  ((censusMembers s).filter (fun x => x.1 != s.emq.pos && (dst == 0x1F || x.2.1 == dst))).foldl (fun m x => m ||| 2 ^ x.1) 0

/-- A delivery confirmed (R161, R564). -/
def delivered (s : State) (f : FwdFrame) : State :=
  let s := { s with emq := { s.emq with queues := s.emq.queues.filter (fun q => q.id != f.id) } }
  let ds := s.rt.delivs.map (fun d => if f.key = some (d.req.ring, d.req.tag) then { d with sent := true } else d)
  incR { s with rt := { s.rt with delivs := ds } } Sig.RING_FWD_COUNT

/-- The device's own segment come back (R563, R564): the slot is cleared once SEEN holds every census position; the last segment
confirms the delivery unless a destination refused it. -/
def segmentBack (s : State) (bs : List Byte) : State :=
  let seen := fieldAt bs 4 2
  let nak := fieldAt bs 6 2
  match s.emq.queues.find? (fun f => f.sending) with
  | some f =>
    if positionMask s &&& seen = positionMask s then
      let s := { s with emq := { s.emq with slot := [] } }
      if f.seg < lastSeg f.bytes then modFrame s f.id (fun f => { f with seg := f.seg + 1, away := false })
      else if nak &&& dstMask s f.dst = 0 then delivered s f
      else modFrame s f.id (fun f => { f with away := false, nak := true })
    else { s with emq := { s.emq with slot := bs } }
  | none => { s with emq := { s.emq with slot := [] } }

/-- A segment for this device joined to its frame: the frame so far, or none where it must be refused at its last segment. -/
def joinSegment (s : State) (w id seg : Nat) (data : List Byte) : Incoming :=
  match s.emq.incoming.find? (fun x => x.writer == w && x.id == id) with
  | some x =>
    if seg = 0 then ⟨w, id, 1, data, false⟩
    else ⟨w, id, seg + 1, x.bytes ++ data, x.bad || decide (x.next ≠ seg)⟩
  | none => ⟨w, id, seg + 1, data, decide (seg ≠ 0)⟩

/-- A segment that passes this device on its way to it, and whether the device refuses the frame (R563, R564). -/
def receiveSegment (s : State) (bs : List Byte) : State × Bool :=
  let w := fieldAt bs 0 1 / 16
  let seg := fieldAt bs 0 1 % 16
  let last := fieldAt bs 1 1 / 16
  let id := fieldAt bs 3 1
  if cellGet s.emq.seen w = some id then (s, false)
  else
    let x := joinSegment s w id seg ((bs.drop 8).take 68)
    let rest := s.emq.incoming.filter (fun y => y.writer != w)
    if seg < last then ({ s with emq := { s.emq with incoming := rest ++ [x] } }, false)
    else if x.bad then ({ s with emq := { s.emq with incoming := rest } }, true)
    else
      let n := frameLen (parseHdr x.bytes).length
      let src := match (censusNow s).getD w none with
        | some m => m.1
        | none => w
      ({ s with emq := { s.emq with incoming := rest, seen := cellPut s.emq.seen w id, inbox := s.emq.inbox ++ [(src, x.bytes.take n)] } },
        false)

/-- TRANSPORT_SEGMENT: a transport slot passes: an empty one stays empty; the device's own segment comes back; of another's it marks
SEEN, refuses or takes the frame where it is a destination (R563, R564). -/
def execTransportSegment (bytes : List Byte) (s : State) : Host.Outcome State Fault Refusal :=
  if inRun s && (s.emq.mode == 2 || s.emq.mode == 3) then
    if bytes.all (fun b => b == 0) then .next { s with emq := { s.emq with slot := [] } }
    else if decide (bytes.length ≠ 80) || decide (crc32 (bytes.take 76) ≠ wordAt bytes 76) then
      .next (ringCrcBad { s with emq := { s.emq with slot := bytes, incoming := s.emq.incoming.map (fun x => { x with bad := true }) } })
    else if fieldAt bytes 0 1 / 16 = s.emq.pos then .next (segmentBack s bytes)
    else
      let dst := fieldAt bytes 2 1
      let q := if dst = ringId s ∨ dst = 0x1F then receiveSegment s bytes else (s, false)
      let s := q.1
      let seen := fieldAt bytes 4 2 ||| 2 ^ s.emq.pos
      let nak := if q.2 then fieldAt bytes 6 2 ||| 2 ^ s.emq.pos else fieldAt bytes 6 2
      let b1 := fieldAt bytes 1 1
      .next { s with emq := { s.emq with
        slot := segmentBytes (fieldAt bytes 0 1 / 16) (fieldAt bytes 0 1 % 16) (b1 / 16) (bitOf b1 3) dst (fieldAt bytes 3 1) seen nak
          ((bytes.drop 8).take 68) } }
  else .next s

/-! ### Breaks and heal -/

/-- BREAK: no valid symbol for 0.5 µs, or no valid SYNC for 20 µs: the device declares a break and becomes line head (R565). -/
def execBreakDetected (s : State) : Host.Outcome State Fault Refusal :=
  if inRun s && (s.emq.mode == 2 || s.emq.mode == 3) && !s.emq.head then
    let s := enterFold { s with emq := { s.emq with rinOk := false } }
    let s := { s with emq := { s.emq with head := true, breakPos := s.emq.pos } }
    .next (devFault (incR (evt (ringFlag s 0) 81) Sig.RING_BREAK_COUNT) 44)
  else .next s

/-- HEAL: the head has received valid symbols for 100 µs; it sets HEAL in its next forward cycle (R568). -/
def execHeal (s : State) : Host.Outcome State Fault Refusal :=
  if inRun s && s.emq.mode == 3 && s.emq.head && s.emq.heal == 0 then
    .next { s with emq := { s.emq with heal := 3, rinOk := true } }
  else .next s

/-! ### Ring signals (R570, R571) -/

/-- RING_LIVE (R571). -/
def ringLive (s : State) : Nat :=
  bitIf s.emq.rinOk 7 + bitIf s.emq.tail 6 + bitIf s.emq.head 5 + bitIf (isLead s) 4 + bitIf s.emq.isMaster 3 + bitIf s.emq.noLead 2 +
    bitIf (s.emq.epochOwn && s.emq.mode != 0) 1 + bitIf s.emq.locked 0

/-- The ring IDs of eight positions, 4 bits each (R570). -/
def censusWord (s : State) (h : Nat) : Nat :=
  ((censusMembers s).filter (fun m => m.1 / 8 == h)).foldl (fun a m => a + m.2.1 * 16 ^ (m.1 % 8)) 0

/-- The positions whose member has a flag. -/
def flagMask (s : State) (i : Nat) : Nat :=
  ((censusMembers s).filter (fun m => bitOf m.2.2 i)).foldl (fun a m => a ||| 2 ^ m.1) 0

/-- The computed ring signals by item (R570); none for an item that the register file holds. -/
def ringItem (s : State) (i : Nat) : Option Nat :=
  match i with
  | 0x601 => some (ringLive s)
  | 0x602 => some s.emq.mode
  | 0x603 => some s.emq.pos
  | 0x604 => some (censusCount s)
  | 0x605 => some (s.emq.master.getD 0xFF)
  | 0x606 => some (censusWord s 0)
  | 0x607 => some (censusWord s 1)
  | 0x608 => some (positionMask s)
  | 0x609 => some (flagMask s 2 * 65536 + flagMask s 3)
  | _ => none

end Sys2Proof.Machine
end

