-- ==== Sys2Proof/Machine/Power.lean ====
section
/-! DEFINITION. Supplies, clocks, power states, coupling (chapter 3), and start-up, firmware images and resets (chapter 4): the boot as
one operation, the CD reset, the entry into RUN and the way out of it, SLEEP and the wake, and the meanings of their rows. -/

namespace Sys2Proof.Machine

/-! ### The parameter area (R660) -/

/-- The signals kept in the parameter area (R63, R110, R246, R386, R537, R570, R593). -/
def keptKeys : List Nat :=
  [Sig.REFCLK_SRC, Sig.TRIAL_TIMEOUT, Sig.BOOT_PST_EN, Sig.RING_EN, Sig.FC_SUM_PER, Sig.FC_SNAP_PRE, Sig.FC_SNAP_POST, Sig.FC_COUPLE_WAIT]
    ++ allAxes.flatMap (fun n =>
      [Sig.GD_SAFE_PAT_NEXT n.val, Sig.RSV_EN n.val, Sig.RSV_DIR n.val, Sig.RSV_IN_GAIN n.val, Sig.RSV_BW n.val, Sig.RSV_AMP_NOM n.val,
       Sig.RSV_EXC_FREQ n.val, Sig.RSV_EXC_AMP n.val, Sig.FLT_ROLE_AX n.val, Sig.FLT_DERATE_AX n.val])

/-- The parameter area rewritten from the values in force, with a good CRC-32 (R660). -/
def storeParams (s : State) : State :=
  { s with nd := { s.nd with params := keptKeys.foldl (fun f k => regWrite f k (rg s k)) [], paramsOk := true } }

/-- OBS_CONT_EN and HC_CLASS at the defaults of the axis's role (R399, R461, R517). -/
def roleSignals (s : State) (n : Axis) : State :=
  let role := roleOf s n
  let s := setN s (Sig.OBS_CONT_EN n.val) (if role = 1 then 0 else 1)
  setN s (Sig.HC_CLASS n.val) (if role = 0 then 1 else if role = 1 then 2 else 3)

/-- A kept configuration of a fault source in force (R523, R660). -/
def loadCfg (s : State) (code w : Nat) : State :=
  setSrc s code { srcDefault s code with n := w / 2 ^ 24, react := w / 2 ^ 21 % 8, t := w % 2 ^ 20 }

/-- The parameter area read at a boot: its values, or the defaults and PARAM_DEFAULT where its CRC-32 fails (R85, R91, R660). -/
def loadParams (s : State) (crcOk : Bool) : State :=
  let s :=
    if s.nd.paramsOk && crcOk then
      let s := forEach s.nd.params s (fun s c => setR s c.1 c.2)
      forEach s.nd.fltCfgs s (fun s c => loadCfg s c.1 c.2)
    else setB { s with nd := { s.nd with params := [], fltCfgs := [], paramsOk := false } } Sig.BOOT_STAT 9 true
  forEach allAxes s roleSignals

/-- The newer table of a channel on the ND (R109). -/
def ndTable (r : RsvAx) : Table := if r.ndNewB then r.ndB else r.ndA

/-- The compensation tables read from the ND; a channel whose table fails its CRC-32 runs uncompensated (R91, R109, R371). -/
def loadTables (s : State) (bad : List Axis) : State :=
  let s := forEach allAxes s (fun s n =>
    modRsv s n (fun r => { r with table := if bad.contains n then [] else ndTable r, tableOk := !bad.contains n }))
  if bad.isEmpty then s else setB s Sig.BOOT_STAT 8 true

/-! ### Images (R97 to R101) -/

/-- The bank of a number: 0 A, 1 B. -/
def bankOf (s : State) (b : Nat) : ImgBank := if b = 0 then s.nd.bankA else s.nd.bankB

/-- VERSION of the inactive bank; 0 without a valid image (R110, R587). -/
def spareVersion (s : State) : Nat :=
  let i := bankOf s (1 - rgN s Sig.ACTIVE_BANK)
  if i.valid then i.version else 0

/-- UPD_STATE, with EV85 and its event slice at a change (R102, R139, R587). -/
def setUpd (s : State) (k : Nat) : State :=
  let was := rgN s Sig.UPD_STATE
  if was = k then s
  else
    stageEvent (evt (setN s Sig.UPD_STATE k) 85) 0x0030 0xFFFF 1 (leBytes 1 was ++ leBytes 1 k ++ leBytes 4 (spareVersion s))

/-- A bank changed. -/
def modBank (s : State) (b : Nat) (f : ImgBank → ImgBank) : State :=
  { s with nd := if b = 0 then { s.nd with bankA := f s.nd.bankA } else { s.nd with bankB := f s.nd.bankB } }

/-- The version signals: 0 for a bank without a valid image (R110). -/
def showVersions (s : State) : State :=
  let v (i : ImgBank) : Nat := if i.valid then i.version else 0
  setN (setN s Sig.IMG_VER_A (v s.nd.bankA)) Sig.IMG_VER_B (v s.nd.bankB)

/-- Whether an image's BODY_LEN and sections lie within their limits (R97, R104). -/
def imageLimits (h : List Byte) : Bool :=
  let len := fieldAt h 8 4
  let n := fieldAt h 0x11 1
  decide (len % 256 = 0) && decide (len ≤ 4194048) && decide (1 ≤ n) && decide (n ≤ 8) &&
    (List.range n).all (fun i => decide (fieldAt h (0xA0 + 12 * i + 4) 4 + fieldAt h (0xA0 + 12 * i + 8) 4 ≤ len))

/-- Whether the fixed fields of a header are as R97 gives them. -/
def imageHeader (h : List Byte) : Bool :=
  decide (fieldAt h 0 4 = 0x4E4C4731) && decide (fieldAt h 4 2 = 1) && decide (fieldAt h 6 2 = 0)

/-- Whether the key hash and the signature of an image hold (R98, R99). -/
def imageSigned (s : State) (h body : List Byte) : Bool :=
  let key := (h.drop 0x20).take 64
  let k := fieldAt h 0x10 1
  keyActs s k && decide (Config.sha256 key = keyDigest s k) &&
    Config.ecdsaVerify key (Config.sha256 (h.take 0x60 ++ (h.drop 0xA0).take 0x60 ++ body)) ((h.drop 0x60).take 64)

/-- The status of a bank's image: OK, RANGE outside the limits, REFUSED_SAFETY where the header, the key hash or the signature fails
(R97 to R99, R104). The image of a delivered bank is signed under key hash slot 0 (R2). -/
def imageStatus (s : State) (b : Nat) : Nat :=
  let i := bankOf s b
  if i.delivered then (if keyActs s 0 then stOk else stRefusedSafety)
  else
    let h := memBytes i.bytes 0 256
    if !imageLimits h then stRange
    else if imageHeader h && imageSigned s h (memBytes i.bytes 256 (fieldAt h 8 4)) then stOk
    else stRefusedSafety

/-- The VERSION of a bank's image. -/
def imageVersion (i : ImgBank) : Nat := if i.delivered then Config.deliveredVersion.toNat else ofLe (memBytes i.bytes 0xC 4)

/-- A bank found good or bad. -/
def markBank (s : State) (b : Nat) (ok : Bool) : State :=
  modBank s b (fun i => { i with valid := ok, version := if ok then imageVersion i else i.version })

/-- The current bank-select record: the good slot with the higher number; none where neither is good (R100). -/
def currentRec (s : State) : Option BankRec :=
  match s.nd.recA.ok, s.nd.recB.ok with
  | true, true => some (if s.nd.recA.seq < s.nd.recB.seq then s.nd.recB else s.nd.recA)
  | true, false => some s.nd.recA
  | false, true => some s.nd.recB
  | false, false => none

/-- A new record, in the slot that does not hold the current one (R101). -/
def writeRec (s : State) (bank : Nat) (trial : Bool) (prev : Nat) : State :=
  let seq := match currentRec s with
    | some r => r.seq + 1
    | none => 1
  let r : BankRec := ⟨seq, bank, trial, prev, true⟩
  let inA := s.nd.recA.ok && (!s.nd.recB.ok || decide (s.nd.recB.seq < s.nd.recA.seq))
  { s with nd := if inA then { s.nd with recB := r } else { s.nd with recA := r } }

/-- A reset in the TRIAL state: a record naming the previous bank, and REVERTED until the next update (R106). -/
def revertTrial (s : State) : State :=
  if rgN s Sig.UPD_STATE = 4 then
    let prev := match currentRec s with
      | some r => r.prev
      | none => 0
    let s := writeRec s prev false (rgN s Sig.ACTIVE_BANK)
    { s with nd := { s.nd with reverted := true } }
  else s

/-! ### Entry into RUN, and out of it (R67, R87, R658) -/

/-- The trigger of the transition from STANDBY to RUN; a clock failure found in STANDBY blocks it (R66, R67). -/
def askRun (s : State) : State :=
  if s.pwr.st = .standby ∧ s.pwr.clkBlocked = false then { s with pwr := { s.pwr with toRun := true, toSleep := false } } else s

/-- The marks at an entry into RUN: none from the RUN before; the first conversion slots and the first 1 ms interval end after it (R248,
R254). -/
def runMarks : List (Nat × Nat) := [(0x30, 1), (0x31, 1), (0x32, 1), (0x33, 1), (0x34, 1)]

/-- A channel whose last turn-offs lie before the timebase began (R658). -/
def Chan.freshTimes (c : Chan) : Chan :=
  { c with since := 0, offSince := none, offH := 0, offL := 0, seenH := 0, seenL := 0, onH := 0, onL := 0 }

/-- A module with no instant of an earlier RUN: no logged edge, no blanking window open or under way (R211, R264, R658). -/
def PwmAx.freshTimes (p : PwmAx) : PwmAx :=
  { p.mapCh Chan.freshTimes with edges := [], atcOpen := false, atcOpenAt := none, atcCloseAt := none }

/-- A loop with no tag, set or carrier period of an earlier RUN (R269, R658). -/
def LoopAx.freshTimes (l : LoopAx) : LoopAx :=
  { l with lastTag := none, lastSet := none, implLast := none, implDone := none, firstTask := true }

/-- The device in RUN with its timebase at 0: clocks (R658, R659), converters (R249, R259), housekeeping (R254), no tick of an earlier RUN in
tags, edges, windows, loops or histories (R658), offset learns (R256), inputs (R410), heat (R457), step outputs (R41), emulation (R384) and
the ring (R541). Excitation follows. -/
def enterRun (s : State) : State :=
  let c := s.clk
  let s := { s with
    clk := { c with tb := 0, epoch := 0, usPart := 4 * c.usPart, marks := runMarks }
    pwr := { s.pwr with st := .run, toRun := false, toSleep := false }
    adc := Vector.replicate 4 { Adc.init with running := true, run := s.free }
    hk := Hk.init
    eng := s.eng.map (fun e => { e with fifo := [], freeAt := 0, stopped := none })
    pwm := s.pwm.map PwmAx.freshTimes
    loop := s.loop.map LoopAx.freshTimes
    car := s.car.map (fun c => { c with stpHigh := false, stpAt := 0, dirPos := false, dirAt := 0, hist := [], taking := none,
                                        fresh := false, replan := none, held := false })
    free := s.free + 1 }
  let s := if s.pwr.vanaLow then orR s Sig.SMP_STAT (invalidMask s) else s
  let s := setB (setB (setB s Sig.CLK_STAT 3 true) Sig.CLK_STAT 4 true) Sig.CLK_STAT 8 false
  let s := forEach (allAxes.filter (fun n => decide (axSt s n = .disabled))) s beginLearn
  let s := forEach allAxes s fbRunEntry
  let s := freshHoneycomb s
  let s := forEach allAxes s emResync
  ringRestart s (rgN s Sig.RING_EN == 1)

/-- PLL_LOCK's whole: RUN, and the excitation of both drivers (R347, R349); none in rescue mode (R92). -/
def runNow (s : State) : State :=
  let s := enterRun s
  if s.pwr.rescue then s else startExc (startExc s 0 false) 1 false

/-- The device out of RUN, back in STANDBY: excitation and converters stop, learns are discarded, the ring ends (R67, R249, R256, R347,
R541). -/
def leaveRun (s : State) : State :=
  let s := dropProbe (stopExc (stopExc s 0) 1)
  let s := { s with adc := Vector.ofFn (fun c => { s.adc[c] with running := false }) }
  let s := forEach allAxes s (fun s n => modOfs s n (fun o => { o with learning := false, spoiled := false }))
  let s := forEach allAxes s fbRunExit
  let s := ringRestart s false
  let s := setB (setB s Sig.CLK_STAT 3 false) Sig.CLK_STAT 4 false
  { s with
    clk := { s.clk with usPart := s.clk.usPart / 4, marks := [] }
    pwr := { s.pwr with st := .standby, idleUs := s.clk.us } }

/-! ### The boot (R85, R91) -/

/-- The always-on registers that a CD reset leaves (R69, R75, R83, R93): wake, alarm, reset cause, LFCLK selection and state. -/
def islandRegs (s : State) : RegFile :=
  let keep := [Sig.WAKE_EN, Sig.WAKE_CAUSE, Sig.ALARM, Sig.RESET_CAUSE, Sig.LFCLK_SRC]
  let f := keep.foldl (fun f k => regWrite f k (rg s k)) []
  let f := regWrite f Sig.CLK_STAT (rg s Sig.CLK_STAT &&& 0x6)
  regWrite f Sig.SUP_STAT (rg s Sig.SUP_STAT &&& 0xE4)

/-- The parts of the record that are on the ND. -/
def ndRec (r : Rec) : Rec :=
  { Rec.init with slices := r.slices, absent := r.absent, skips := r.skips, headBlock := r.headBlock, headOff := r.headOff, oldestBlock := r.oldestBlock, hostPins := r.hostPins,
                  freedPins := r.freedPins, maxSeq := r.maxSeq }

/-- The Finyr port after a reset of the CD: no session; the failures and their lockout stand (R630, R631). -/
def dbgAfter (s : State) : Dbg :=
  let d := s.dbg
  { Dbg.init with draws := d.draws, fails := d.fails, lockForever := d.lockForever, lockUntil := d.lockUntil.map (fun t => t - s.clk.us) }

/-- A resolver channel after a reset: its table copies are on the ND. -/
def rsvAfter (r : RsvAx) : RsvAx := { RsvAx.init with ndA := r.ndA, ndB := r.ndB, ndNewB := r.ndNewB }

/-- The DS at a CD reset: it waits for the new boot to lock the patterns; what it has latched stands (R95, R530). -/
def dsAfter (d : Ds) : Ds :=
  { d with locked := false, last := HbWord.init, hbMissed := 0, hbLost := false, hbReport := false, disagree := false,
           withheldSeq := Ds.init.withheldSeq }

/-- The block with its CD reset and not yet booted: the always-on island, the DD, the ND and the fuses stand (R93 to R95). -/
def clearCd (s : State) : State :=
  { State.reset with
    pending := s.pending
    regs := islandRegs s
    clk := { Clock.init with lf := s.clk.lf, lfPart := s.clk.lfPart }
    pwr := { Pwr.init with straps := s.pwr.straps, vioLow := s.pwr.vioLow, vcoreLow := s.pwr.vcoreLow, vanaLow := s.pwr.vanaLow }
    ds := dsAfter s.ds
    gd := Vector.replicate 8 { GdAx.init with tripAt := none }
    rsv := Vector.ofFn (fun n => rsvAfter s.rsv[n])
    aoClear := s.aoClear
    rcd := ndRec s.rcd
    nd := s.nd
    fuse := s.fuse
    dbg := dbgAfter s
    free := s.free }

/-- The bank that a boot starts, with whether it is the other bank and whether it is a trial; none where both fail (R91, R100, R108). -/
def selectBank (s : State) : State × Option (Nat × Bool × Bool) :=
  let r := currentRec s
  let b := match r with
    | some x => x.bank
    | none => 0
  let trial := match r with
    | some x => x.trial
    | none => false
  if imageStatus s b = stOk then (markBank s b true, some (b, false, trial))
  else
    let s := markBank s b false
    let o := 1 - b
    if imageStatus s o = stOk then (markBank s o true, some (o, true, trial)) else (markBank s o false, none)

/-- The image step of a boot (R91, R92, R102, R106, R108): ACTIVE_BANK, FALLBACK with its new record, TRIAL, REVERTED, RESCUE; with whether
an image runs. -/
def bootImage (s : State) : State × Bool :=
  let q := selectBank s
  match q.2 with
  | some (b, fell, trial) =>
    let s := showVersions (setN q.1 Sig.ACTIVE_BANK b)
    if fell then
      let s := setB (writeRec s b false (1 - b)) Sig.BOOT_STAT 14 true
      let s := if trial then { s with nd := { s.nd with reverted := true } } else s
      (setN s Sig.UPD_STATE (if s.nd.reverted then 5 else 0), true)
    else if trial then (setN (setB s Sig.BOOT_STAT 13 true) Sig.UPD_STATE 4, true)
    else (setN s Sig.UPD_STATE (if s.nd.reverted then 5 else 0), true)
  | none =>
    let s := showVersions q.1
    let trial := match currentRec s with
      | some r => r.trial
      | none => false
    let s := if trial then { s with nd := { s.nd with reverted := true } } else s
    let s := setN s Sig.UPD_STATE (if s.nd.reverted then 5 else 0)
    (setB { s with pwr := { s.pwr with rescue := true } } Sig.BOOT_STAT 15 true, false)

/-- The safe patterns sent to the DS and locked, with the heartbeat losses of the time before cleared by the BOOT words; in RETIRED none is
(R85, R95, R240, R530, R618). -/
def lockPatterns (s : State) : State :=
  if s.fuse.lc = .retired then { s with sup := { s.sup with boot := false } }
  else
    let s := forEach allAxes s (fun s n => setR s (Sig.GD_SAFE_PAT n.val) (rg s (Sig.GD_SAFE_PAT_NEXT n.val)))
    let pats := maskOf allAxes (fun n => rgN s (Sig.GD_SAFE_PAT n.val) == 1)
    { s with ds := { s.ds with locked := true, pats := pats, hbMissed := 0, hbLost := false, hbReport := false }
             sup := { s.sup with boot := false } }

/-- The protection self-test of a boot (R90, R244): skipped, postponed by a lock-out, or run on every axis. -/
def bootTest (s : State) (fails : List (Axis × Nat)) : State :=
  let en := rgN s Sig.BOOT_PST_EN == 1 || decide (s.fuse.lc = .field) || decide (s.fuse.lc = .retired)
  if !en then setB s Sig.BOOT_STAT 7 true
  else if s.ds.vdrvLock then setB s Sig.BOOT_STAT 6 true
  else forEach allAxes s (fun s n => storeTest s n (testFails fails n))

/-- The excitation of a boot: both drivers, and the learn of each enabled channel over 50 excitation periods (R85, R342, R348): the carrier
phase that the surroundings give within ±90° (R357), the angle with turn count 0. -/
def bootExcite (s : State) (learned : List RsvLearn) : State :=
  let s := startExc (startExc s 0 true) 1 true
  let s := forEach ([0, 1].filter (fun d => (s.exc[d]).on)) s (fun s d => toTick s (psiTick s d 50))
  let s := forEach [0, 1] s (fun s d => modExc s d (fun e => { e with periods := if e.on then 50 else 0 }))
  forEach (allAxes.filter (fun n => (s.rsv[n]).learnPhase)) s (fun s n =>
    match learned.find? (fun l => decide (l.n = n)) with
    | some l =>
      let half : Rat := (l.phase : Rat) / 32768
      let turn : Rat := (l.angle : Rat) / 65536
      let s := adoptLearn s n ((half - (roundHalfUp half : Rat)) / 2) ((l.amp : Rat) / 16)
      modRsv s n (fun r => { r with theta := turn - turn.floor, tk := (s.clk.tb : Rat), since := s.clk.tb, periods := 100 })
    | none => modRsv (adoptLearn s n 0 0) n (fun r => { r with since := s.clk.tb, periods := 100 }))

/-- READY of a boot: the boot slice, BOOT_COUNT and BOOT_TIME, the trial watchdog (R85, R106, R110, R583). -/
def bootReady (s : State) (image : Bool) (us : Nat) : State :=
  let s := toUs s us
  let s := setN s Sig.BOOT_TIME s.clk.us
  let s := { s with nd := { s.nd with bootCount := s.nd.bootCount + 1 } }
  let s := summaryStart s
  let s := stageBoot s (if image then (bankOf s (rgN s Sig.ACTIVE_BANK)).version else 0)
  { s with pwr := { s.pwr with
      ready := true, booted := true, idleUs := s.clk.us, trialUs := s.clk.us + rgN s Sig.TRIAL_TIMEOUT * 1000000 } }

/-- CLK_FAIL latched (R15, R66): the culprit in RUN, EV91, and the event that leads to DEVICE_SAFE; in STANDBY the way to RUN is
blocked. -/
def clkFailed (s : State) (culprit : Nat) : State :=
  let run := inRun s
  let s := setF (setB s Sig.CLK_STAT 5 true) Sig.CLK_STAT 6 2 (if run then culprit else 0)
  let s := if run then s else { s with pwr := { s.pwr with clkBlocked := true, toRun := false } }
  devFault (evt s 91) 33

/-- The steps of the boot that need RUN (R85): Biscotti (R492, R493), the self-test, the excitation. -/
def bootRun (s : State) (e : BootEnv) : State :=
  let s := enterRun s
  let s := toTick s (s.clk.tb + 200000)
  let s := proofVerdict s e.biscOk
  let s := bootTest s e.pstFail
  let s := toTick s (s.clk.tb + 800000)
  toTick (bootExcite s e.learned) (s.clk.tb + 60000)

/-- The clock step of a boot (R63, R91): a clock failure or a PLL that does not lock leaves the device in STANDBY with CLK_HOLD. -/
def bootClocks (s : State) (e : BootEnv) : State :=
  if e.clkFail then clkFailed (setB s Sig.BOOT_STAT 4 true) 0
  else if !e.refOk || !e.pllOk then
    setB (setB (setB s Sig.CLK_STAT 8 true) Sig.CLK_STAT 3 e.refOk) Sig.BOOT_STAT 4 true
  else bootRun s e

/-- The boot from HFRC start: fuses, image, parameters and tables, safe patterns, clocks and tests, READY (R85, R91). -/
def bootCd (s : State) (e : BootEnv) : State :=
  let s := aoClearSeen (setB (setB s Sig.CLK_STAT 0 true) Sig.SUP_STAT 7 e.vfsrcOk)
  let s := { s with ofs := s.ofs.map (fun o => { o with dflt := true }) }
  let s := bootWrites (senseFuses s e.weakFuses e.weakCommits)
  let s := setB s Sig.BOOT_STAT 3 s.ds.dsFail
  let s := scanRecord s
  let s := if e.tailOpen then setB (nextBlock s) Sig.FC_STAT 1 true else s
  let q := bootImage s
  if q.2 then
    let s := loadTables (loadParams q.1 e.paramCrcOk) e.tableBad
    bootReady (bootClocks (lockPatterns s) e) true e.bootUs
  else bootReady q.1 false e.bootUs

/-- A CD reset for a cause (R93, R95): the record of a trial is rewritten (R106), and the boot runs where VIO and VCORE are up. -/
def resetCd (s : State) (bit : Nat) (e : BootEnv) : State :=
  let s := setB (clearCd (revertTrial s)) Sig.RESET_CAUSE bit true
  if s.pwr.vioLow || s.pwr.vcoreLow then s else bootCd s e

/-! ### Meanings: resets -/

/-- POWER_ON_RESET: the release of the always-on POR (R61, R85, R93, R96). -/
def execPowerOnReset (env : BootEnv) (s : State) : Host.Outcome State Fault Refusal :=
  if s.pwr.booted then .next s
  else
    let s := clearCd s
    let s := { s with
      regs := [(Sig.RESET_CAUSE, 1)]
      clk := Clock.init
      pwr := { Pwr.init with straps := env.straps % 16, vioLow := !env.vioOk }
      ds := { Ds.init with dsFail := !env.dsOk, vdrvLock := !env.vdrvOk }
      dbg := { Dbg.init with draws := s.dbg.draws }
      gd := Vector.replicate 8 GdAx.init
      aoClear := false }
    let s := if env.vdrvOk then s else orR s Sig.SUP_STAT 6
    .next (if env.vioOk then bootCd s env else s)

/-- EXTERNAL_RESET: RESET_N low for a time in ns; below 100 ns it is ignored, from 1 µs on it resets and relatches the straps, and between
the two the outcome is not defined (R46 to R48, R93; log entry 3). -/
def execExternalReset (lowNs : Nat) (env : BootEnv) (s : State) : Host.Outcome State Fault Refusal :=
  if s.pwr.st = .off ∨ lowNs < 100 then .next s
  else
    let hit := decide (1000 ≤ lowNs) || Config.midPulseResets s.free
    let s := if 1000 ≤ lowNs then s else { s with free := s.free + 1 }
    .next (if hit then resetCd { s with pwr := { s.pwr with straps := env.straps % 16 } } 1 env else s)

/-- The device OFF: only the ND and the fuses stand (R61, R67). -/
def goOff (s : State) : State :=
  let s := clearCd s
  { s with regs := [], clk := Clock.init, pwr := { Pwr.init with st := .off }, ds := Ds.init,
                 dbg := { Dbg.init with draws := s.dbg.draws }, gd := Vector.replicate 8 GdAx.init, aoClear := false }

/-- A brown-out of VIO or VCORE: the CD is reset and stays so (R61, R93). -/
def holdCd (s : State) (bit : Nat) : State := setB (clearCd (revertTrial s)) Sig.RESET_CAUSE bit true

/-- BLOCK_RECLAIM: fewer than two erased blocks ahead: the oldest block's pinned slices are copied to the head; the next occurrence erases
the block (R589, log entry 13). -/
def execBlockReclaim (s : State) : Host.Outcome State Fault Refusal :=
  if erasedAhead s < 2 ∧ s.rcd.oldestBlock ≠ s.rcd.headBlock ∧ s.pwr.st ≠ .off then .next (idleAgain (reclaim s))
  else .next s

/-- ALWAYS_ON_POR: max(VBAT, VHOLD) below 5.0 V: OFF (R61, R67, R106). -/
def execAlwaysOnPor (s : State) : Host.Outcome State Fault Refusal := .next (goOff (revertTrial s))

/-- VIO_BROWN_OUT: in SLEEP too, so no wake finds VIO absent (R61, R72, R93). -/
def execVioBrownOut (s : State) : Host.Outcome State Fault Refusal :=
  if s.pwr.st = .off then .next s
  else .next (holdCd { s with pwr := { s.pwr with vioLow := true } } 2)

/-- VCORE_BROWN_OUT (R61, R93). The buck stops in SLEEP (R53), where VCORE is not supervised. -/
def execVcoreBrownOut (s : State) : Host.Outcome State Fault Refusal :=
  if s.pwr.st = .off ∨ s.pwr.st = .sleep then .next s
  else .next (holdCd { s with pwr := { s.pwr with vcoreLow := true } } 3)

/-- VIO_BROWN_OUT_RELEASE: VIO above 3.00 V; the boot runs where VCORE is up (R53, R61). -/
def execVioBrownOutRelease (env : BootEnv) (s : State) : Host.Outcome State Fault Refusal :=
  if s.pwr.vioLow then
    let s := { s with pwr := { s.pwr with vioLow := false } }
    .next (if s.pwr.vcoreLow then s else bootCd s env)
  else .next s

/-- VCORE_BROWN_OUT_RELEASE: VCORE above 0.77 V; the boot runs where VIO is up (R61). -/
def execVcoreBrownOutRelease (env : BootEnv) (s : State) : Host.Outcome State Fault Refusal :=
  if s.pwr.vcoreLow then
    let s := { s with pwr := { s.pwr with vcoreLow := false } }
    .next (if s.pwr.vioLow then s else bootCd s env)
  else .next s

/-- MP_WATCHDOG_EXPIRY: 100 ms without service; the watchdog pauses while Finyr holds the MP (R93, R94). -/
def execMpWatchdogExpiry (env : BootEnv) (s : State) : Host.Outcome State Fault Refusal :=
  if s.pwr.booted && linkPowered s && !s.dbg.haltMp then .next (resetCd s 4 env) else .next s

/-- TRIAL_WATCHDOG_EXPIRY: TRIAL_TIMEOUT after READY of a trial boot (R93, R106). -/
def execTrialWatchdogExpiry (env : BootEnv) (s : State) : Host.Outcome State Fault Refusal :=
  if rgN s Sig.UPD_STATE = 4 ∧ linkPowered s = true then .next (resetCd (toUs s s.pwr.trialUs) 5 env) else .next s

/-! ### Meanings: supplies and clocks -/

/-- SUPPLY_LOSS: VBAT below 7.5 V for 100 µs: EV77, the source, and the orderly stop with its final commit (R57, R514, R582). -/
def execSupplyLoss (s : State) : Host.Outcome State Fault Refusal :=
  if linkPowered s && s.pwr.booted then
    .next (orderlyStop (devFault (evt (setB s Sig.SUP_STAT 4 true) 77) 43))
  else .next s

/-- STOP_DONE: the last staged slice is committed, or 20 ms have run out and the rest is lost; the orderly stop ends (R514, R582). -/
def execStopDone (s : State) : Host.Outcome State Fault Refusal :=
  if s.pwr.stopping then
    let s := if s.rcd.staged.isEmpty then s
      else
        let s := toUs s (s.pwr.stopUs + 20000)
        { s with rcd := { s.rcd with staged := [] } }
    .next (idleAgain (setB { s with pwr := { s.pwr with stopping := false } } Sig.SUP_STAT 3 true))
  else .next s

/-- HOLDUP_SWITCH_OPEN: VBAT below VHOLD (R55, R84). -/
def execHoldupSwitchOpen (s : State) : Host.Outcome State Fault Refusal := .next (setB s Sig.SUP_STAT 5 true)

/-- HOLDUP_SWITCH_CLOSE (R55, R84). -/
def execHoldupSwitchClose (s : State) : Host.Outcome State Fault Refusal := .next (setB s Sig.SUP_STAT 5 false)

/-- CLK_FAIL: a clock departs by more than 2 % (R15, R66). -/
def execClkFail (culprit : Nat) (s : State) : Host.Outcome State Fault Refusal :=
  if linkPowered s then .next (clkFailed s (culprit % 4)) else .next s

/-- PLL_LOCK: the PLL locks after the trigger, and the device enters RUN (R14, R63, R67, R658). -/
def execPllLock (s : State) : Host.Outcome State Fault Refusal :=
  if s.pwr.st = .standby ∧ s.pwr.toRun = true then .next (runNow s) else .next s

/-- A request handed over that waits for RUN answered NOT_IN_STATE: no axis leaves DISABLED outside RUN (R63). -/
def dropEnable (s : State) : State :=
  match s.rt.handed with
  | some (.axisState r _ _ _) =>
    runAx { s with rt := { s.rt with handed := none } } r opAxisState (fun s n => (s, ansNotInState s n))
  | _ => s

/-- PLL_FAIL: the PLL has not locked in 40 µs, or REFCLK has not become valid in 2 ms (R63). -/
def execPllFail (refValid : Bool) (s : State) : Host.Outcome State Fault Refusal :=
  if s.pwr.st = .standby ∧ s.pwr.toRun = true then
    let s := { s with pwr := { s.pwr with toRun := false } }
    .next (dropEnable (setB (setB s Sig.CLK_STAT 8 true) Sig.CLK_STAT 3 refValid))
  else .next s

/-- LFCLK_SWITCHOVER: the crystal has given 1 024 stable cycles and LFCLK switches over at its next edge (R64). -/
def execLfclkSwitchover (s : State) : Host.Outcome State Fault Refusal :=
  if rgN s Sig.LFCLK_SRC = 1 ∧ s.pwr.st ≠ .off then .next (orR s Sig.CLK_STAT 6) else .next s

/-! ### SLEEP and wake (R67 to R75) -/

/-- Whether the device has ND work: slices staged, a table being written, an image being verified (R67, R134, R581). -/
def ndWork (s : State) : Bool :=
  !s.rcd.staged.isEmpty || allAxes.any (fun n => (s.rsv[n]).storing.isSome) || s.upd.commit.isSome

/-- The way to SLEEP begun: out of RUN where needed (R68), the wake monitors armed (R71, R75), and the summary slice of SLEEP entry
(R581). -/
def headToSleep (s : State) : State :=
  let s := if inRun s then leaveRun s else s
  if s.pwr.toSleep then s
  else stageSummary { s with pwr := { s.pwr with toSleep := true, toRun := false, armed := rgN s Sig.WAKE_EN } } 1

/-- IDLE_SLEEP: IDLE_SLEEP ms without a frame, a wake event or ND work, in STANDBY, or in RUN with every axis DISABLED (R67, R68). -/
def execIdleSleep (s : State) : Host.Outcome State Fault Refusal :=
  let p := rgN s Sig.IDLE_SLEEP
  if p ≠ 0 ∧ s.pwr.booted = true ∧ linkPowered s = true ∧ allDisabled s = true ∧ ndWork s = false ∧ s.rt.handed.isNone = true then
    .next (headToSleep (toUs s (s.pwr.idleUs + p * 1000)))
  else .next s

/-- A Finyr session ends: breakpoints disarmed, halted targets resume, authentication lost (R631). -/
def endSession (s : State) : State :=
  let s := { s with
    eng := s.eng.map (fun e => { e with halted := false })
    dbg := { s.dbg with session := false, auth := false, haltMp := false, slots := [] } }
  postBlocked s

/-- SLEEP_ENTRY: the host-visible response rings and staging are empty, and the device enters SLEEP, its step outputs low (R41, R67, R134,
R173, R432, R581, R631). -/
def execSleepEntry (s : State) : Host.Outcome State Fault Refusal :=
  let ringsEmpty := (List.range 16).all (fun i => (ringAt s (16 + i)).empty) && s.rt.blocked.isEmpty
  if s.pwr.st = .standby ∧ s.pwr.toSleep = true ∧ ringsEmpty = true ∧ ndWork s = false then
    let s := aoReset (endSession s)
    let s := setB s Sig.CLK_STAT 0 false
    let rt := { s.rt with subs := Rt.init.subs, lims := Rt.init.lims }
    .next { s with
      rt := rt
      car := s.car.map (fun c => { c with stpHigh := false, dirPos := false })
      dbg := dbgAfter { s with clk := { s.clk with us := 0 } }
      clk := { s.clk with usPart := 0, marks := [] }
      pwr := { s.pwr with st := .sleep, toSleep := false, ready := false, pwFirst := true, pwCounts := [[], [], [], [], [], [], [], []],
                          pwTotals := [0, 0, 0, 0, 0, 0, 0, 0] } }
  else .next s

/-- A wake source fires: its capture bit, from SLEEP entry until READY (R75). -/
def captureWake (s : State) (b : Nat) : State :=
  if s.pwr.st = .sleep ∨ s.pwr.toSleep = true ∨ (s.pwr.booted = true ∧ s.pwr.ready = false) then setB s Sig.WAKE_CAUSE b true else s

/-- The signals that read 0 after a wake until the first 1 ms interval of the next RUN (R254). -/
def clearHk (s : State) : State :=
  let s := forEach (List.range 32) s (fun s k => setN s (Sig.SMP_HK k) 0)
  forEach (List.range 9) s (fun s k => setN s (Sig.VBAT_MV + k) 0)

/-- The wake (R72, R121, R254, R659): US_TIME advanced by the time asleep to the nearest microsecond, STANDBY, the link and its rings at
reset, tables reloaded (R69), READY where no CLK_FAIL is latched, and what a lock-out that ended in SLEEP
left to do (R90). -/
def wakeUp (s : State) : State :=
  let c := s.clk
  let s := { s with
    clk := { c with us := c.us + (c.usPart + 256) / 512, usPart := 0 }
    pwr := { s.pwr with st := .standby, ready := !rgB s Sig.CLK_STAT 5, idleUs := c.us + (c.usPart + 256) / 512 }
    link := Link.init
    rt := { s.rt with blocked := [] } }
  let s := aoClearSeen (setB s Sig.CLK_STAT 0 true)
  let s := forEach allAxes s (fun s n => modRsv s n (fun r => { r with table := ndTable r }))
  let s := clearHk s
  match s.pwr.pstLater with
  | some fails => postponedTest (releaseSrc { s with pwr := { s.pwr with pstLater := none } } (devSrc 32)) fails
  | none => s

/-- Whether a wake source is enabled: as the present SLEEP entry armed it, outside SLEEP as WAKE_EN stands (R71, R75). -/
def wakeArmed (s : State) (b : Nat) : Bool :=
  if s.pwr.st = .sleep ∨ s.pwr.toSleep = true then bitOf s.pwr.armed b else rgB s Sig.WAKE_EN b

/-- A wake event: captured, and where its source is enabled it wakes the device from SLEEP, abandons an entry, or restarts the idle time
(R67, R71, R74, R75). -/
def wakeEvent (s : State) (b : Nat) : State :=
  let s := captureWake s b
  if !wakeArmed s b then s
  else if s.pwr.st = .sleep then wakeUp s
  else idleAgain { s with pwr := { s.pwr with toSleep := false } }

/-- WAKE_VTRC: VTRC rises through 16 V, and the qualification of a coupling begins; while it runs, the next occurrence is VTRC falling below
16 V again, which ends it and wakes nothing (R74, R79, R84; log entry 13). -/
def execWakeVtrc (s : State) : Host.Outcome State Fault Refusal :=
  if s.pwr.st = .off then .next s
  else if rgB s Sig.SUP_STAT 0 then .next (setB s Sig.SUP_STAT 0 false)
  else .next (setB (wakeEvent s 0) Sig.SUP_STAT 0 (rgN s Sig.COUPLED == 0))

/-- WAKE_PIN: WAKE high for 10 µs (R74). -/
def execWakePin (s : State) : Host.Outcome State Fault Refusal := if s.pwr.st = .off then .next s else .next (wakeEvent s 1)

/-- WAKE_CS_N: a falling edge on CS_N (R73, R74). -/
def execWakeCsN (s : State) : Host.Outcome State Fault Refusal := if s.pwr.st = .off then .next s else .next (wakeEvent s 2)

/-- WAKE_RING: RIN activity of 1 µs (R74). -/
def execWakeRing (s : State) : Host.Outcome State Fault Refusal := if s.pwr.st = .off then .next s else .next (wakeEvent s 3)

/-- ALARM: LF_SECONDS comes to equal ALARM (R74): time is brought forward to that second; an instant that has passed does not occur, and all
ones disables it (R83). -/
def execAlarm (s : State) : Host.Outcome State Fault Refusal :=
  let a := rgN s Sig.ALARM
  if a = 0xFFFFFFFF ∨ s.pwr.st = .off ∨ a < s.clk.lf / 32768 then .next s
  else .next (wakeEvent (toLf s (a * 32768)) 4)

/-! ### Parking watch (R76 to R78) -/

/-- The edge windows of an input with one more window: an edge counted where the level changed, those older than PW_WINDOW dropped. -/
def watchInput (ages : List Nat) (edge : Bool) (window : Nat) : List Nat :=
  let xs := (ages.map (fun a => a + 1)).filter (fun a => decide (a < window))
  if edge then 0 :: xs else xs

/-- PARKING_WATCH_WINDOW: the next window of 100 ms in SLEEP: levels sampled and compared, edges counted, and a wake with its slice on a
movement (R74, R76 to R78). -/
def execParkingWatchWindow (levels : Nat) (vtrcHigh : Bool) (s : State) : Host.Outcome State Fault Refusal :=
  if s.pwr.st = .sleep then
    let s := sleepFor s 3277
    let p := s.pwr
    let on (n : Axis) : Bool := bitOf (rgN s Sig.PW_MASK) n.val && fbMode s n == 4
    let edge (n : Axis) : Bool := on n && !p.pwFirst && bitOf levels n.val != bitOf p.pwLevels n.val
    let counts := allAxes.map (fun n => watchInput (p.pwCounts.getD n.val []) (edge n) (rgN s Sig.PW_WINDOW))
    let totals := allAxes.map (fun n => min 255 (p.pwTotals.getD n.val 0 + if edge n then 1 else 0))
    let moved := maskOf allAxes (fun n => on n && decide (rgN s Sig.PW_EDGES ≤ (counts.getD n.val []).length))
    let s := { s with pwr := { p with pwLevels := levels, pwFirst := false, pwCounts := counts, pwTotals := totals } }
    if moved = 0 then .next s
    else
      let s := wakeEvent s 5
      .next (if s.pwr.st = .sleep then s else stageParking (evt s 87) moved vtrcHigh totals)
  else .next s

/-! ### Coupling (R79 to R82) -/

/-- COUPLING: VTRC above 16 V for 50 ms while not coupled: COUPLED and its count, EV75, RUN, the probe scheduled, the coupling slice opened;
one still open from the coupling before is committed without a probe (R79, R81, R455, R588). -/
def execCoupling (s : State) : Host.Outcome State Fault Refusal :=
  if s.pwr.booted && linkPowered s && rgN s Sig.COUPLED == 0 then
    let s := closeCoupling (setN (setB s Sig.SUP_STAT 0 false) Sig.COUPLED 1) 2 noMohm
    let s := { s with nd := { s.nd with coupleCount := s.nd.coupleCount + 1 }, hc := { s.hc with scheduled := true },
                      rcd := { s.rcd with coupling := some (s.clk.us, s.rcd.nextNote), nextNote := [] } }
    .next (askRun (evt s 75))
  else .next s

/-- DECOUPLING: VTRC below 14 V for 10 ms, in SLEEP too: COUPLED clears, EV76, a probe that has not started is cancelled and its slice
closed (R80, R82, R455, R588). -/
def execDecoupling (s : State) : Host.Outcome State Fault Refusal :=
  if s.pwr.booted && decide (s.pwr.st ≠ .off) && rgN s Sig.COUPLED == 1 then
    let s := evt (setN s Sig.COUPLED 0) 76
    .next (if s.hc.scheduled && s.hc.probe.isNone then
        closeCoupling { s with hc := { s.hc with scheduled := false } } 2 noMohm
      else s)
  else .next s

/-! ### Images: what the update rows do (R102 to R105) -/

/-- The inactive bank. -/
def spareBank (s : State) : Nat := 1 - rgN s Sig.ACTIVE_BANK

/-- IMG_WRITE for its request (R102, R104). -/
def imgWriteAns (s : State) (off : Nat) (data : List Byte) : State × Ans :=
  let u := rgN s Sig.UPD_STATE
  if off % 4 ≠ 0 ∨ 4194304 < off + data.length then (s, ansSt stRange)
  else if 2 ≤ u ∧ u ≤ 4 ∨ (off ≠ 0 ∧ u ≠ 1) then (s, ansSt stNotInState)
  else
    let b := spareBank s
    let s := if off = 0 then
        showVersions (modBank { s with nd := { s.nd with reverted := false } } b (fun _ => ImgBank.blank))
      else s
    let s := modBank s b (fun i => { i with bytes := memStore i.bytes off data })
    (setUpd s 1, ansOk [])

/-- IMG_COMMIT for its request: verification starts (R102 to R104). -/
def imgCommitAns (s : State) (r : Req) (restart : Bool) : State × Ans :=
  if rgN s Sig.UPD_STATE ≠ 1 ∨ (restart = true ∧ allDisabled s = false) then (s, ansSt stNotInState)
  else (setUpd { s with upd := ⟨some r, restart, false⟩ } 2, ansLater)

/-- A record write that the loss of supply cuts short: its slot holds no record, the one before stands, and the device is OFF (R101, R107). -/
def cutRec (s : State) (bank : Nat) (trial : Bool) (prev : Nat) : State :=
  let s := writeRec s bank trial prev
  let bad (r : BankRec) : BankRec := if currentRec s = some r then { r with ok := false } else r
  goOff { s with nd := { s.nd with recA := bad s.nd.recA, recB := bad s.nd.recB } }

/-- IMG_CONFIRM for its request (R102, R104, R107). -/
def imgConfirmAns (s : State) (lost : Bool) : State × Ans :=
  if rgN s Sig.UPD_STATE ≠ 4 then (s, ansSt stNotInState)
  else
    let b := rgN s Sig.ACTIVE_BANK
    if lost then (cutRec s b false (1 - b), ansLater)
    else (setUpd (writeRec s b false (1 - b)) 0, ansOk [])

/-- IMG_VERIFY_END: verification of the inactive bank ends: the refusal, or the trial record, the answer and the restart asked for; the supply
may be lost while the record is written (R98, R99, R102, R104, R105, R107; log entry 39). -/
def execImgVerifyEnd (env : CommitEnv) (s : State) : Host.Outcome State Fault Refusal :=
  match s.upd.commit with
  | none => .next s
  | some r =>
    let b := spareBank s
    let restart := s.upd.restart
    let s := idleAgain { s with upd := ⟨none, false, false⟩ }
    let st := imageStatus s b
    if st = stOk ∧ env.lost = true then .next (cutRec (markBank s b true) b true (rgN s Sig.ACTIVE_BANK))
    else if st = stOk then
      let s := showVersions (markBank s b true)
      let s := setUpd (writeRec s b true (rgN s Sig.ACTIVE_BANK)) 3
      let s := finishDev s r opImgCommit stOk []
      .next (if restart && allDisabled s then resetCd s 6 env.boot else s)
    else .next (finishDev (setUpd s 1) r opImgCommit st [])

end Sys2Proof.Machine
end

