-- ==== Sys2Proof/Machine/SigAccess.lean ====
section
/-! DEFINITION. Access to signals (chapter 6): the value that a read of each signal gives, the checks of a read and of a write in the order
of R147, and the effect of a write of one signal. -/

namespace Sys2Proof.Machine

/-! ### Values that are computed when they are read -/

/-- A value narrowed to the LSBs of its signal (log entry 4). -/
def telWord (key : Nat) (x : Rat) : Word :=
  match sigFind key with
  | some r => BitVec.ofInt 32 (clampInt (narrow key x) r.lo r.hi)
  | none => 0

/-- RSV_LEARN_PROG: accepted revolutions in per cent of RSV_LEARN_REVS (R376). -/
def learnProg (s : State) (n : Axis) : Word :=
  telWord (Sig.RSV_LEARN_PROG n.val) (100 * ((s.rsv[n]).learn.revs : Rat) / (rgN s (Sig.RSV_LEARN_REVS n.val) : Rat))

/-- CAR_CMP_STAT with the ARMED bits (R340). -/
def cmpStat (s : State) (n : Axis) : Word :=
  let c := s.car[n]
  rg s (Sig.CAR_CMP_STAT n.val) |||
    BitVec.ofNat 32 ((List.range 4).foldl (fun m k => m + bitIf (c.slots.getD k CmpSlot.init).armed (8 + k)) 0)

/-- The axis signals that mirror other state, by item. -/
def viewAxis (s : State) (n : Axis) (i : Nat) : Option Word :=
  let nat (x : Nat) : Option Word := some (BitVec.ofNat 32 x)
  match i with
  | 0x121 => nat (gdStat s n)
  | 0x200 => nat (axSt s n).code
  | 0x201 => nat (s.ax[n]).held.code
  | 0x302 => nat (carState s n)
  | 0x328 => some (cmpStat s n)
  | 0x405 => some ((BitVec.ofInt 16 (s.rsv[n]).theta.floor).signExtend 32)
  | 0x41E => some (BitVec.ofInt 32 (tableAt (s.rsv[n]).table (rgN s (Sig.RSV_CMP_IDX n.val))))
  | 0x800 => nat ((s.pwm[n]).cnt + bitIf (s.pwm[n]).down 16)
  | 0x801 => nat (s.pwm[n]).chU.act
  | 0x802 => nat (s.pwm[n]).chV.act
  | 0x803 => nat (s.pwm[n]).chW.act
  | 0x830 => some (BitVec.ofInt 32 (carPos s n))
  | 0x831 => some (telWord (Sig.CAR_VEL n.val) (s.car[n]).v)
  | 0x832 => some (telWord (Sig.CAR_ACCEL n.val) (s.car[n]).a)
  | 0x833 => nat (carRemain s n)
  | 0x84A => nat (rsvLive s n)
  | 0x84C => some (learnProg s n)
  | 0x84D => nat (tablePeak (s.rsv[n]).table)
  | 0x854 => nat (obsLive s n)
  | 0x858 => some (BitVec.ofInt 32 (s.fb[n]).count)
  | 0x859 => some (BitVec.ofInt 32 (fbPos s n))
  | 0x85B => nat (fbPeriod s n)
  | 0x85E => nat (fbLive s n)
  | _ => none

/-- SMP_LIVE (R271). -/
def smpLive (s : State) : Nat :=
  [(0 : Fin 4), 1, 2, 3].foldl (fun m c =>
    m + bitIf (s.adc[c]).running c.val + bitIf ((s.adc[c]).running && adcValid s) (4 + c.val)) 0 +
    maskOf allAxes (fun n => (s.ofs[n]).dflt) * 2 ^ 16

/-- SMP_STAT with the losses and invalid words of the converters up to now (R260, R261). -/
def smpStat (s : State) : Nat :=
  rgN s Sig.SMP_STAT ||| bitIf (decide (0 < wordsLost s 0)) 0 ||| bitIf (decide (0 < wordsLost s 1)) 1 |||
    (if s.pwr.vanaLow && inRun s then invalidMask s else 0)

/-- SMP_OVR_COUNT of a ring with the losses up to now (R260). -/
def ovrCount (s : State) (k : Nat) : Nat := rgN s (Sig.SMP_OVR_COUNT k) + (if k = 0 then wordsLost s 0 else if k = 1 then wordsLost s 1 else 0)

/-- BISC_LIVE (R502). -/
def biscLive (s : State) : Nat :=
  bitIf s.bisc.proof 0 + bitIf (s.bisc.logs.any (fun x => decide (0 < x))) 1 +
    maskOf allAxes (fun n => decide ((s.loop[n]).passes = 1)) * 2 ^ 8

/-- FC_LIVE (R594): a commit runs while slices are staged, and the ND is powered while it has work. -/
def fcLive (s : State) : Nat :=
  bitIf (!s.rcd.staged.isEmpty) 1 + bitIf (ndWork s) 2 + s.rcd.staged.length % 2 ^ 16 * 2 ^ 16

/-- Whether AUTH_CHALLENGE is refused now (R630). -/
def authLocked (s : State) : Bool :=
  s.dbg.lockForever ||
    (match s.dbg.lockUntil with
      | some t => decide (s.clk.us < t)
      | none => false)

/-- DBG_LIVE (R640). -/
def dbgLive (s : State) : Nat :=
  bitIf (s.eng[(1 : Fin 2)]).halted 6 + bitIf (s.eng[(0 : Fin 2)]).halted 5 + bitIf s.dbg.haltMp 4 + bitIf s.dbg.auth 3 + bitIf (authLocked s) 2 +
    bitIf s.dbg.session 1 + bitIf (rgN s Sig.DBG_POWER_PERMIT == 1) 0

/-- The code that FLT_IDX selects (R538). -/
def fltCode (s : State) : Nat := rgN s Sig.FLT_IDX

/-- FLT_WIN_FILL of a source (R537, R662). -/
def winFill (s : State) (code : Nat) : Nat :=
  let f := srcOf s code
  if f.t = 0 then (if f.lasting then 1 else 0)
  else (f.hist.filter (fun t => decide (stamp100 s - t < f.t * 1000))).length

/-- The load of the subscriptions in values per second (R168). -/
def subLoad (subs : List (Option Sub)) : Rat :=
  sumRat (subs.filterMap (fun x => x.map (fun u => (u.sids.length : Rat) * 100000 / (u.period : Rat))))

/-- HC_PROBE_AGE (R453, R472). -/
def probeAge (s : State) : Nat :=
  match s.hc.probeAt with
  | some t => lfSeconds s - t
  | none => 0xFFFFFFFF

/-- The fault signals that mirror the fault manager, by item (R537). -/
def viewFault (s : State) (i : Nat) : Option Word :=
  let nat (x : Nat) : Option Word := some (BitVec.ofNat 32 x)
  if i = 0x401 then nat (fltLive s)
  else if i = 0x404 then nat (srcCfg s (fltCode s))
  else if i = 0x405 then nat (srcOf s (fltCode s)).events
  else if i = 0x406 then nat (winFill s (fltCode s))
  else if i = 0x407 then nat (srcOf s (fltCode s)).lastUs
  else if i = 0x428 then nat (lastingMask s none)
  else if h : 0x420 ≤ i ∧ i < 0x428 then nat (lastingMask s (some ⟨i - 0x420, by omega⟩))
  else if h : 0x430 ≤ i ∧ i < 0x438 then nat (reactInForce s ⟨i - 0x430, by omega⟩)
  else none

/-- FW_VER: the version of the image that runs (R175). -/
def fwVer (s : State) : Nat := if s.pwr.rescue then 0 else (bankOf s (rgN s Sig.ACTIVE_BANK)).version

/-- The identity and runtime signals that mirror other state, by item (R175, R110). -/
def viewRuntime (s : State) (i : Nat) : Option Word :=
  let nat (x : Nat) : Option Word := some (BitVec.ofNat 32 x)
  match i with
  | 0x902 => nat (ringId s)
  | 0x904 => some (serialHi s)
  | 0x905 => some (serialLo s)
  | 0x906 => nat (fwVer s)
  | 0x907 => some Config.romVersion
  | 0x918 => nat s.nd.bootCount
  | 0x920 => nat (usTime s)
  | 0x926 => nat s.rt.defq.length
  | 0x928 => nat (s.rt.subs.filterMap id).length
  | 0x929 => some (telWord Sig.SUB_LOAD (subLoad s.rt.subs))
  | 0x92A => nat (s.rt.lims.filterMap id).length
  | 0x941 => nat (dbgLive s)
  | 0x945 => nat s.nd.sessions
  | _ => none

/-- The record's signals that mirror it, by item (R593). -/
def viewRecord (s : State) (i : Nat) : Option Word :=
  let nat (x : Nat) : Option Word := some (BitVec.ofNat 32 x)
  match i with
  | 0x701 => nat (fcLive s)
  | 0x702 => nat (newestSeq s)
  | 0x703 => nat (oldestSeq s)
  | 0x704 => nat ((footSum (standing s) + 1023) / 1024)
  | 0x705 => nat ((footSum (pinnedSlices s) + 1023) / 1024)
  | 0x70D => nat (stagedBytes s)
  | 0x70E => nat s.nd.reclaimCount
  | _ => none

/-- The device-wide signals that mirror other state, by item. -/
def viewDev (s : State) (i : Nat) : Option Word :=
  let nat (x : Nat) : Option Word := some (BitVec.ofNat 32 x)
  if i = 0x010 then nat (if inRun s then 2 else 1)
  else if i = 0x015 then nat (lfSeconds s)
  else if i = 0x029 then nat s.nd.coupleCount
  else if i = 0x100 then nat (smpStat s)
  else if i = 0x101 then nat (smpLive s)
  else if 0x104 ≤ i ∧ i < 0x108 then nat (ovrCount s (i - 0x104))
  else if i = 0x204 then nat (aoLive s)
  else if h : 0x238 ≤ i ∧ i < 0x23E then nat (s.ao[(⟨i - 0x238, by omega⟩ : Fin 6)]).out
  else if i = 0x30C then nat (probeAge s)
  else if 0x400 ≤ i ∧ i < 0x500 then viewFault s i
  else if i = 0x501 then nat (biscLive s)
  else if 0x600 ≤ i ∧ i < 0x700 then (ringItem s i).map (BitVec.ofNat 32)
  else if 0x700 ≤ i ∧ i < 0x800 then viewRecord s i
  else if 0x800 ≤ i ∧ i < 0x900 then some (fuseItem s (i - 0x800))
  else viewRuntime s i

/-- The present value of a signal by key, with no effect (R150): what a subscription, a limit slot and a read find. -/
def viewKey (s : State) (key : Nat) : Word :=
  let i := key % 0x1000
  if h : key / 0x1000 < 8 then (viewAxis s ⟨key / 0x1000, h⟩ i).getD (rg s key)
  else (viewDev s i).getD (rg s key)

/-- What a read does to a signal that a read changes: GD_RISE_MAX and SMP_FIFO_MAX are cleared, RSV_CMP_VAL advances its index (R246,
R270, R378). -/
def readEffect (s : State) (key : Nat) : State :=
  if h : key / 0x1000 < 8 then
    let n : Axis := ⟨key / 0x1000, h⟩
    if key % 0x1000 = 0x814 then setN s key 0
    else if key % 0x1000 = 0x41E then cmpAdvance s n
    else s
  else if key = Sig.SMP_FIFO_MAX 0 ∨ key = Sig.SMP_FIFO_MAX 1 then setN s key 0
  else s

/-! ### Which signal a SID names (R142, R143) -/

/-- The key of a SID and its row, where the SID is valid for the device; `any` holds in a frame with DEV_SEL 0x1F (R143). -/
def sidRow (s : State) (any : Bool) (sid : Word) : Option (Nat × SigRow) :=
  let x := sid.toNat
  if x < 2 ^ 20 ∧ x / 0x1000 % 16 ≤ 8 ∧ (any = true ∨ x / 0x10000 = ringId s) then
    (sigFind (x % 0x10000)).map (fun r => (x % 0x10000, r))
  else none

/-- Whether a key is a fuse word that is read-locked (R603). -/
def fuseHidden (s : State) (key : Nat) : Bool :=
  decide (0x8800 ≤ key) && decide (key < 0x8900) &&
    (match fuseItemWord (key - 0x8800) with
      | some w => readLocked s w
      | none => false)

/-- The status of a read of one SID (R147), with DESCRIBE or without. -/
def readStatus (s : State) (any : Bool) (sid : Word) : Nat :=
  match sidRow s any sid with
  | none => stBadSid
  | some (key, r) =>
    if r.acc = .wo then stBadSid
    else if fuseHidden s key then stLocked
    else stOk

/-! ### Writes: the checks of R147 -/

/-- The axes whose DISABLED a write of an RWL signal needs: its axis, or the four of its driver (R344). -/
def rwlAxes (key : Nat) : List Axis :=
  if h : key / 0x1000 < 8 then
    let n : Axis := ⟨key / 0x1000, h⟩
    if key % 0x1000 = 0x408 ∨ key % 0x1000 = 0x409 then drvAxes (drvOf n) else [n]
  else [⟨key % 8, by omega⟩]

/-- Whether the life-cycle state bars the write (R517, R590, R635). -/
def lifeBars (s : State) (key : Nat) (w : Word) : Bool :=
  let lc := lifeCycle s
  if 0x8410 ≤ key ∧ key < 0x8418 then decide (lc = .field) || decide (lc = .retired)
  else if key = Sig.DBG_POWER_PERMIT then decide (w = 1) && decide (lc ≠ .develop)
  else if key = Sig.FC_UNPIN then (unpinWrite s w.toNat).2 == stDeniedLifecycle
  else false

/-- Whether a divisor is one of R287. -/
def divisorOk (v : Nat) : Bool := [1, 2, 4, 8, 16].contains v

/-- Whether a set number is free for an axis: none, or 0 to 3 and held by no other axis (R10, R330, R380). -/
def setFree (s : State) (n : Axis) (base v : Nat) : Bool :=
  v == 0x0F || (decide (v < 4) && allAxes.all (fun m => m == n || rgN s (m.val * 0x1000 + base) != v))

/-- Whether RSV_BW would stay within f_exc / 5 on the enabled channels of a driver, with the value of one channel or the frequency
replaced (R360). -/
def bandOk (s : State) (d : Fin 2) (freq : Nat) (n : Option Axis) (bw : Nat) : Bool :=
  (drvAxes d).all (fun m =>
    (rgN s (Sig.RSV_EN m.val) != 1 && !(s.rsv[m]).en) ||
      decide (5 * (if n = some m then bw else rgN s (Sig.RSV_BW m.val)) ≤ freq))

/-- Whether an excitation amplitude has its headroom: √2 × A_rms at most VEXC − 1.5 V (R345). -/
def headroomOk (s : State) (v : Nat) : Bool := !noHeadroom (rgN s Sig.VEXC_MV) v

/-- Whether the precharge stays within 900 µs (R242). -/
def prechargeOk (pulses on off : Nat) : Bool := decide (pulses * (on + off) ≤ 900)

/-- The ranges of axis signals that their tables give besides a bound (R10, R215, R242, R287, R330, R344, R345, R360, R380, R386,
R426, R457, R461). -/
def axisRange (s : State) (n : Axis) (i v : Nat) : Bool :=
  match i with
  | 0x002 => decide (v < 2 * rgN s (Sig.PWM_PER n.val))
  | 0x012 => v % 4 != 3 && v / 4 % 4 != 3 && v / 16 % 4 != 3
  | 0x015 => v % 2 == 0
  | 0x040 => decide (v < 8) || v == 0x0F
  | 0x109 => prechargeOk v (rgN s (Sig.GD_PRECHG_ON n.val)) (rgN s (Sig.GD_PRECHG_OFF n.val))
  | 0x10A => prechargeOk (rgN s (Sig.GD_PRECHG_N n.val)) v (rgN s (Sig.GD_PRECHG_OFF n.val))
  | 0x10B => prechargeOk (rgN s (Sig.GD_PRECHG_N n.val)) (rgN s (Sig.GD_PRECHG_ON n.val)) v
  | 0x203 => divisorOk v && rgN s (Sig.LP_DIV_POS n.val) % v == 0
  | 0x204 => divisorOk v && v % rgN s (Sig.LP_DIV_SPD n.val) == 0
  | 0x30C | 0x30D => decide (v ≤ rgN s (Sig.CAR_VMAX n.val))
  | 0x310 => setFree s n 0x310 v
  | 0x403 => bandOk s (drvOf n) (rgN s (Sig.RSV_EXC_FREQ n.val)) (some n) v
  | 0x408 => bandOk s (drvOf n) v none 0
  | 0x409 => headroomOk s v
  | 0x41A => decide (v ≤ rgN s (Sig.RSV_LEARN_VMAX n.val))
  | 0x41B => decide ((v : Rat) / 65536 ≤ vTrk s n)
  | 0x420 => setFree s n 0x420 v
  | 0x50D => v / 4 % 4 == 0
  | 0x700 => decide (2 ≤ v) || roleOf s n == 0
  | 0x709 => v != 0
  | _ => true

/-- The ranges of device-wide signals that their tables give besides a bound (R431, R501, R538, R570, R593). -/
def devRange (s : State) (i v : Nat) : Bool :=
  if 0x218 ≤ i ∧ i < 0x21E ∨ 0x220 ≤ i ∧ i < 0x226 then decide (v < 16384) || v == 0xFFFF
  else if i = 0x403 then codeOk v
  else if i = 0x502 then decide (100 ≤ v) && decide (v ≤ 60000) || (v == 0 && decide (lifeCycle s = .develop))
  else if i = 0x60A then decide (v ≤ 500) || v == 0xFFFF
  else if 0x610 ≤ i ∧ i < 0x614 then
    v == 0xFF || (decide (v < 16) && [0, 1, 2, 3].all (fun k => 0x610 + k == i || rgN s (Sig.RING_STRM_SLOT k) != v))
  else if i = 0x708 then v == 0 || (decide (60 ≤ v) && decide (v ≤ 86400))
  else if i = 0x709 then
    decide (60 ≤ v + rgN s Sig.FC_SNAP_POST) && decide (v + rgN s Sig.FC_SNAP_POST ≤ 251)
  else if i = 0x70A then
    decide (60 ≤ v + rgN s Sig.FC_SNAP_PRE) && decide (v + rgN s Sig.FC_SNAP_PRE ≤ 251)
  else true

/-- Whether a gain signal belongs to a loop that is closed in the present state (R294, R301). -/
def gainClosed (s : State) (n : Axis) (i : Nat) : Bool :=
  let st := loopState s n
  if 0x210 ≤ i ∧ i < 0x214 then st.closesCurrent
  else if 0x214 ≤ i ∧ i < 0x216 then st.closesSpeed
  else if 0x216 ≤ i ∧ i < 0x218 then decide (st = .position)
  else false

/-- The status of a write of PWR_REQ: no way out of RUN while an axis is not DISABLED (R68). -/
def pwrStatus (s : State) (v : Nat) : Nat := if v ≠ 2 ∧ inRun s = true ∧ allDisabled s = false then stNotInState else stOk

/-- The checks that follow those of R147 (R68, R301, R523, R590). -/
def laterStatus (s : State) (key : Nat) (w : Word) : Nat :=
  if h : key / 0x1000 < 8 then
    if gainClosed s ⟨key / 0x1000, h⟩ (key % 0x1000) then stLoopClosed else stOk
  else if key = Sig.FLT_CFG then cfgStatus s (fltCode s) w.toNat
  else if key = Sig.FC_PIN then (pinWrite s w.toNat).2
  else if key = Sig.FC_UNPIN then (unpinWrite s w.toNat).2
  else if key = Sig.PWR_REQ then pwrStatus s w.toNat
  else stOk

/-- Whether a value lies in the range that the table of its signal gives besides a bound, in the light of other signals. -/
def rangeHolds (s : State) (key : Nat) (w : Word) : Bool :=
  if h : key / 0x1000 < 8 then axisRange s ⟨key / 0x1000, h⟩ (key % 0x1000) w.toNat else devRange s (key % 0x1000) w.toNat

/-- The checks of R147 for a write of one SID: the first that fails decides the status. -/
def accessStatus (s : State) (any : Bool) (sid value : Word) : Nat :=
  match sidRow s any sid with
  | none => stBadSid
  | some (key, r) =>
    if r.acc = .ro then stBadSid
    else if lifeBars s key value then stDeniedLifecycle
    else if key / 0x1000 < 8 ∧ key % 0x1000 = 0x110 then stLocked
    else if r.acc = .rwl ∧ (rwlAxes key).all (fun n => decide (axSt s n = .disabled)) = false then stNotInState
    else if slotOk r value = false then stRange
    else if rangeHolds s key value = false then stRange
    else stOk

/-- The status of a pair of a frame: the checks of R147 on the state before the frame (R155); its range among other signals, and the checks
that follow, on the state that the pairs before it leave as well (R10, R242, R330, R380, R537, log entry 41). -/
def pairStatus (s0 s : State) (any : Bool) (sid value : Word) : Nat :=
  if accessStatus s0 any sid value ≠ stOk then accessStatus s0 any sid value
  else if rangeHolds s (sid.toNat % 0x10000) value = false then stRange
  else laterStatus s (sid.toNat % 0x10000) value

/-- The status of a write of one SID. -/
def writeStatus (s : State) (any : Bool) (sid value : Word) : Nat := pairStatus s s any sid value

/-! ### Writes: the effects -/

/-- A W1C write: the bits written as 1 cleared (R148). -/
def w1cWrite (s : State) (key : Nat) (w : Word) : State := setR s key (rg s key &&& ~~~w)

/-- A write of LP_OL_ANG from 0 to 1 in OPEN: the forced angle starts at the present θe (R663). -/
def olAngWritten (s : State) (n : Axis) (w : Word) : State :=
  let was := rgN s (Sig.LP_OL_ANG n.val)
  let s := setR s (Sig.LP_OL_ANG n.val) w
  if was = 0 ∧ w = 1 ∧ axSt s n = .opn then
    let th := elecAngle s n s.clk.tb
    modLoop s n (fun l =>
      let b : Bank := { l.bankA with forced := th }
      { l with bankA := b, bankB := if l.passes = 2 then b.compl else l.bankB })
  else s

/-- The step debt cleared (R334); an unassigned set is low (R330). -/
def stepWritten (s : State) (n : Axis) : State :=
  let s := setI s (Sig.CAR_STP_DEBT n.val) 0
  if stepAssigned s n then s else modCar s n (fun c => { c with stpHigh := false, dirPos := false })

/-- A write of a driver-wide signal: all four axes hold it, and the excitation restarts with the first-start sequence (R344). -/
def driverWrite (s : State) (n : Axis) (i : Nat) (w : Word) : State :=
  let s := forEach (drvAxes (drvOf n)) s (fun s m => setR s (m.val * 0x1000 + i) w)
  if inRun s then startExc s (drvOf n) true else modExc s (drvOf n) (fun e => { e with started := false })

/-- A write of RSV_AMP_NOM: a value other than 0 is the nominal amplitude from now on (R367). -/
def ampNomWritten (s : State) (n : Axis) (w : Word) : State :=
  let s := setR s (Sig.RSV_AMP_NOM n.val) w
  if w = 0 then s
  else modRsv s n (fun r => if r.adopted then { r with aNom := (w.toNat : Rat) / 16 } else r)

/-- The effect of an accepted write of an axis signal. `active` holds the conditions behind latches that are active (R237). -/
def writeAxis (s : State) (n : Axis) (i : Nat) (r : SigRow) (w : Word) (active : Nat) : State :=
  let key := n.val * 0x1000 + i
  match i with
  | 0x000 =>
    let s := setR s key w
    if 2 * w.toNat ≤ rgN s (Sig.PWM_OFFSET n.val) then setN s (Sig.PWM_OFFSET n.val) 0 else s
  | 0x040 => atcOff (setR s key w) n (w = 0x0F)
  | 0x043 => atcOff (setR s key w) n (w = 0)
  | 0x120 => latchClear s n w.toNat active
  | 0x224 => setR (modLoop s n (fun l => { l with stopRate := none })) key w
  | 0x229 => olAngWritten s n w
  | 0x310 | 0x311 | 0x312 => stepWritten (setR s key w) n
  | 0x328 => w1cWrite s key (w &&& 0xFF)
  | 0x405 => turnsWrite s n w
  | 0x408 | 0x409 => driverWrite s n i w
  | 0x40A => ampNomWritten s n w
  | 0x418 => cmpCtrl s n w.toNat
  | 0x41E => cmpValWrite s n w
  | 0x420 | 0x421 | 0x422 | 0x423 => emResync (setR s key w) n
  | 0x500 => fbModeWritten (setR s key w) n
  | 0x50B => if w = 1 then modFb s n (fun f => { f with armed := true }) else s
  | _ => if r.acc = .w1c then w1cWrite s key w else setR s key w

/-- The effect of a write of PWR_REQ (R67, R68). -/
def pwrWrite (s : State) (v : Nat) : State :=
  match v with
  | 0 => headToSleep s
  | 1 =>
    let s := if inRun s then leaveRun s else s
    { s with pwr := { s.pwr with toRun := false, toSleep := false } }
  | _ => askRun s

/-- A write of RING_EN: the ring link starts or ends where it changes in RUN (R541). -/
def ringEnWritten (s : State) (w : Word) : State :=
  let was := rg s Sig.RING_EN
  let s := setR s Sig.RING_EN w
  if inRun s && was != w then ringRestart s (w == 1) else s

/-- A write of FLT_ROLE_AXn: the role and what follows it, in one step (R517). -/
def roleWritten (s : State) (n : Axis) (w : Word) : State :=
  roleSignals (roleDefaults (setR s (Sig.FLT_ROLE_AX n.val) w) n) n

/-- The effect of an accepted write of an analogue-output signal (R433, R438, R441, R442, R434). -/
def writeAo (s : State) (i : Nat) (w : Word) : State :=
  let key := 0x8000 + i
  if i = 0x202 then (if rgB s Sig.AO_LOAD_SRC 1 then aoStrobe s else s)
  else if i = 0x203 then aoClearSeen (w1cWrite s key w)
  else if h : 0x210 ≤ i ∧ i < 0x216 then aoSpanSet s ⟨i - 0x210, by omega⟩ w.toNat
  else if h : 0x220 ≤ i ∧ i < 0x226 then aoClrWritten (setR s key w) ⟨i - 0x220, by omega⟩
  else setR s key w

/-- The effect of an accepted write of a fault signal (R507, R509, R517). -/
def writeFault (s : State) (i : Nat) (r : SigRow) (w : Word) : State :=
  let key := 0x8000 + i
  if i = 0x404 then writeCfg s (fltCode s) w.toNat
  else if h : 0x410 ≤ i ∧ i < 0x418 then roleWritten s ⟨i - 0x410, by omega⟩ w
  else if h : 0x420 ≤ i ∧ i < 0x428 then releaseWrite s (some ⟨i - 0x420, by omega⟩) w.toNat
  else if i = 0x428 then releaseWrite s none w.toNat
  else if r.acc = .w1c then w1cWrite s key w
  else setR s key w

/-- The effect of an accepted write of a ring signal (R541, R546). -/
def writeRing (s : State) (i : Nat) (r : SigRow) (w : Word) : State :=
  let key := 0x8000 + i
  if 0x610 ≤ i ∧ i < 0x614 then
    let s := setR s key w
    { s with emq := { s.emq with conflict := setAt s.emq.conflict (i - 0x610) false } }
  else if i = 0x61C then ringEnWritten s w
  else if r.acc = .w1c then w1cWrite s key w
  else setR s key w

/-- The effect of an accepted write of a device-wide signal. -/
def writeDev (s : State) (i : Nat) (r : SigRow) (w : Word) : State :=
  let key := 0x8000 + i
  if i = 0x000 then w1cWrite s key (w &&& 2)
  else if i = 0x011 then pwrWrite s w.toNat
  else if i = 0x021 then (let s := setR s key w; if w = 0 then setB s Sig.CLK_STAT 2 false else s)
  else if h : 0x110 ≤ i ∧ i < 0x118 then gainWritten s ⟨i - 0x110, by omega⟩ w.toNat
  else if i = 0x100 then w1cWrite (adcSettle (adcSettle s 0) 1) key w
  else if 0x200 ≤ i ∧ i < 0x300 then writeAo s i w
  else if 0x400 ≤ i ∧ i < 0x500 then writeFault s i r w
  else if 0x600 ≤ i ∧ i < 0x700 then writeRing s i r w
  else if i = 0x706 then (pinWrite s w.toNat).1
  else if i = 0x707 then (unpinWrite s w.toNat).1
  else if r.acc = .w1c then w1cWrite s key w
  else setR s key w

/-- The effect of an accepted write of one signal (R149). -/
def writeKey (s : State) (key : Nat) (r : SigRow) (w : Word) (active : Nat) : State :=
  if h : key / 0x1000 < 8 then writeAxis s ⟨key / 0x1000, h⟩ (key % 0x1000) r w active
  else writeDev s (key % 0x1000) r w

/-! ### Frames that write (R155, R198, R335, R435, R660) -/

/-- The pairs of a frame that finds the state `s0`, carried out in list order on a trial: the state, or the index, status and key at which
a check fails (R155). -/
def writePairs (s0 : State) (any : Bool) (active : Nat) : State → Nat → List (Word × Word) → State × Option (Nat × Nat × Word)
  | s, _, [] => (s, none)
  | s, i, (sid, v) :: ps =>
    let st := pairStatus s0 s any sid v
    if st ≠ stOk then (s, some (i, st, sid))
    else
      match sidRow s any sid with
      | some (key, r) => writePairs s0 any active (writeKey s key r v active) (i + 1) ps
      | none => (s, some (i, stBadSid, sid))

/-- The keys that a frame writes. -/
def pairKeys (pairs : List (Word × Word)) : List Nat := pairs.map (fun p => p.1.toNat % 0x10000)

/-- Whether a key is a shadow of the module of an axis (R196, R207). -/
def shadowKey (n : Axis) (key : Nat) : Bool :=
  key / 0x1000 == n.val && [0x008, 0x009, 0x00A, 0x018, 0x019, 0x01A, 0x01B].contains (key % 0x1000)

/-- LATE_LOAD of the axes whose shadow writes straddled a reload edge (R197, R198). -/
def lateLoads (s : State) (keys : List Nat) (straddle : List Axis) : State :=
  forEach (allAxes.filter (fun n => straddle.contains n && keys.any (shadowKey n))) s (fun s n =>
    incR (setB s (Sig.PWM_STAT n.val) 4 true) (Sig.PWM_LATE_COUNT n.val))

/-- LATE of the channels whose code writes missed a strobe (R435). -/
def lateCodes (s : State) (keys : List Nat) : State :=
  forEach aoChannels s (fun s k => if keys.contains (Sig.AO_CODE k.val) then setB s Sig.AO_STAT (14 + k.val) true else s)

/-- The position-compare slots that a frame writes, armed once all its writes are carried out (R335). -/
def slotsWritten (s : State) (keys : List Nat) : State :=
  forEach allAxes s (fun s n => forEach [0, 1, 2, 3] s (fun s k =>
    if keys.contains (Sig.CAR_CMP_POS n.val k) || keys.contains (Sig.CAR_CMP_CFG n.val k) then slotWritten s n k else s))

/-- What follows the writes of a frame: late flags, slots, and the parameter area where a kept signal was written. -/
def frameWritten (s : State) (keys : List Nat) (straddle : List Axis) (aoLate : Bool) : State :=
  let s := lateLoads s keys straddle
  let s := if aoLate then lateCodes s keys else s
  let s := slotsWritten s keys
  if keys.any (Sig.FLT_CFG :: keptKeys).contains then storeParams s else s

/-- The payload of SIG_READ and SIG_WRITE where no SID failed, or a frame is refused as a whole (R154). -/
def countPayload (count fail : Nat) : List Byte := leBytes 2 count ++ leBytes 2 fail

/-- Whether a pair writes a pending code. -/
def codePair (p : Word × Word) : Bool :=
  let k := p.1.toNat % 0x10000
  decide (Sig.AO_CODE 0 ≤ k) && decide (k ≤ Sig.AO_CODE 5)

/-- The pairs of a frame up to its last write of a pending code, and the others. -/
def codeSpan (pairs : List (Word × Word)) : List (Word × Word) × List (Word × Word) :=
  let back := (pairs.reverse.takeWhile (fun p => !codePair p)).length
  (pairs.take (pairs.length - back), pairs.drop (pairs.length - back))

/-- Whether the pending codes of a frame straddle a strobe that it writes itself (R434, R435). -/
def strobeWithin (s : State) (pairs : List (Word × Word)) : Bool :=
  rgB s Sig.AO_LOAD_SRC 1 && ((codeSpan pairs).1.dropWhile (fun p => !codePair p)).any (fun p => p.1.toNat % 0x10000 == Sig.AO_LOAD)

/-- The pairs in the order in which they act where the pending codes straddle a strobe: every code after it (R435). -/
def codesLast (pairs : List (Word × Word)) : List (Word × Word) :=
  let x := codeSpan pairs
  x.1.filter (fun p => !codePair p) ++ x.1.filter codePair ++ x.2

/-- A SIG_WRITE of the given pairs (R155, R435). -/
def sigWriteAns (s : State) (r : Req) (pairs : List (Word × Word)) (active : Nat) (straddle : List Axis) (aoLate : Bool) : State × Ans :=
  let any := r.devSel == 0x1F
  let x := writePairs s any active s 0 pairs
  match x.2 with
  | none =>
    let within := strobeWithin s pairs
    let y := if within then (writePairs s any active s 0 (codesLast pairs)).1 else x.1
    (frameWritten y (pairKeys pairs) straddle (aoLate || within), ansOk (countPayload pairs.length 0xFFFF))
  | some (i, st, sid) =>
    let seq := ((pairs.map Prod.snd).getD i 0).toNat
    let full := sid.toNat % 0x10000 == Sig.FC_PIN && st == stRange && (sliceOf x.1 seq).isSome
    let s := if full then setB s Sig.FC_STAT 5 true else s
    (s, ⟨st, countPayload 0 i, if st = stBadSid then i else 0, false⟩)

/-- A SIG_READ of the given SIDs: all checked before any is read (R155). -/
def sigReadAns (s : State) (r : Req) (describe : Bool) (sids : List Word) : State × Ans :=
  let any := r.devSel == 0x1F
  let sts := sids.map (readStatus s any)
  match sts.findIdx? (fun st => st != stOk) with
  | some i =>
    let st := sts.getD i stOk
    (s, ⟨st, countPayload 0 i, if st = stBadSid then i else 0, false⟩)
  | none =>
    let key (w : Word) : Nat := w.toNat % 0x10000
    if describe then
      (s, ansOk (countPayload sids.length 0xFFFF ++ sids.flatMap (fun w =>
        match sigFind (key w) with
        | some row => descriptorBytes (key w) row
        | none => [])))
    else
      let step (x : State × List Byte) (w : Word) : State × List Byte :=
        (readEffect x.1 (key w), x.2 ++ wordBytes (viewKey x.1 (key w)))
      let x := sids.foldl step (s, [])
      (x.1, ansOk (countPayload sids.length 0xFFFF ++ x.2))

end Sys2Proof.Machine
end

