-- ==== Sys2Proof/Machine/Finyr.lean ====
section
/-! DEFINITION. The Finyr debug port (chapter 22): requests and their answers (R625 to R628), sessions and authentication (R629 to
R632), halts and steps (R633 to R636), breakpoints and signal conditions (R637, R638), memory and record access (R639). -/

namespace Sys2Proof.Machine

/-! ### Answers (R627) -/

/-- What an operation answers: ACK, INFO and data. -/
structure DbgAns where
  ack : Nat
  info : Nat
  data : List Byte
  deriving DecidableEq, Repr

/-- OK with data. -/
def dbgOk (data : List Byte) : DbgAns := ⟨0, 0, data⟩

/-- FAULT. -/
def dbgFault : DbgAns := ⟨2, 0, []⟩

/-- DENIED with its reason. -/
def dbgDenied (info : Nat) : DbgAns := ⟨3, info, []⟩

/-- The bytes of a response (R625). -/
def dbgBytes (q : DbgReq) (a : DbgAns) : List Byte :=
  let body := leBytes 1 a.ack ++ leBytes 1 q.seq ++ leBytes 1 (a.data.length / 4) ++ leBytes 1 a.info ++ a.data
  body ++ leBytes 2 (crc16 body).toNat

/-- The response sent; OK and DENIED are stored for a repetition until another request is answered; CRC tells of no request (R628). -/
def dbgSend (s : State) (q : DbgReq) (a : DbgAns) : State :=
  let bs := dbgBytes q a
  let d := { s.dbg with answer := bs }
  { s with dbg := if a.ack = 0 ∨ a.ack = 3 then { d with lastSeq := some q.seq, lastAns := bs }
                  else if a.ack = 4 then d else { d with lastSeq := none } }

/-! ### Requests (R625, R626, R628, R629) -/

/-- The ports of an operation (R626). -/
def dbgPorts (op : Nat) : List Nat :=
  match op with
  | 1 => [0, 1, 2, 3, 4]
  | 2 => [0, 1, 2, 3]
  | 3 | 4 | 5 => [0, 1, 2]
  | 6 => [0, 1, 2, 5]
  | _ => [5]

/-- Whether LEN is one that the operation carries. -/
def dbgLenOk (op len : Nat) : Bool :=
  match op with
  | 1 | 2 => decide (len ≤ 64)
  | 6 => len == 4
  | 9 => len == 8
  | _ => len == 0

/-- The slots of a port (R637). -/
def dbgSlotCount (port : Nat) : Nat := if port = 0 then 12 else 4

/-- Whether ADDRESS is one that the operation takes. -/
def dbgAddrOk (op port addr : Nat) : Bool :=
  match op with
  | 1 | 2 => true
  | 5 => decide (1 ≤ addr) && decide (addr ≤ 65535)
  | 6 => decide (addr < dbgSlotCount port)
  | 10 => addr == 0x52455354
  | 12 => addr == 0x52455449
  | _ => addr == 0

/-- Whether a request is valid: its port, LEN, PAGE and ADDRESS are those of its operation (R626). -/
def dbgValid (q : DbgReq) (op data : Nat) : Bool :=
  (dbgPorts op).contains q.port && dbgLenOk op q.len && dbgAddrOk op q.port q.addr &&
    (if op = 1 ∧ q.port = 4 then decide (q.page ≤ 16) else q.page == 0) &&
    (if op = 2 ∨ op = 6 ∨ op = 9 then q.len == data else data == 0)

/-- A session opened by the first valid request: EV93, SESSION_OPENED and its count on the ND (R629). -/
def openSession (s : State) : State :=
  if s.dbg.session then s
  else
    let s := evt (setB s Sig.DBG_STAT 1 true) 93
    { s with dbg := { s.dbg with session := true }, nd := { s.nd with sessions := s.nd.sessions + 1 } }

/-- Whether the session's authentication keeps an operation from being served (R629). -/
def dbgBarred (s : State) (op : Nat) : Bool :=
  decide (lifeCycle s = .field) && !s.dbg.auth && !([7, 8, 9, 11].contains op)

/-- A Finyr request: its CRC, a repetition, its fields, the session, and what the operation does (R627 to R629). The port answers while
the CD is powered. -/
def dbgServe (s : State) (q : DbgReq) (op data : Nat) (f : State → State × DbgAns) : State :=
  if !linkPowered s || !s.pwr.booted then s
  else if !q.crcOk then dbgSend s q ⟨4, 0, []⟩
  else if s.dbg.lastSeq = some q.seq then
    { s with dbg := { s.dbg with answer := s.dbg.lastAns, lastUs := s.clk.us } }
  else if !dbgValid q op data then dbgSend s q ⟨5, 0, []⟩
  else
    let s := openSession s
    let s := { s with dbg := { s.dbg with lastUs := s.clk.us } }
    if dbgBarred s op then dbgSend s q (dbgDenied 1)
    else
      let x := f s
      dbgSend x.1 q x.2

/-! ### Memory and record access (R626, R639) -/

/-- The engine of a port, for ports 1 and 2. -/
def portEngine (port : Nat) : Option (Fin 2) := if port = 1 then some 0 else if port = 2 then some 1 else none

/-- Whether a target is halted. -/
def targetHalted (s : State) (port : Nat) : Bool :=
  match portEngine port with
  | some e => (s.eng[e]).halted
  | none => s.dbg.haltMp

/-- Whether nothing but Finyr changes the memory behind a port: its target is halted, or for the system bus all three are. -/
def dbgStill (s : State) (port : Nat) : Bool := if port = 3 then [0, 1, 2].all (targetHalted s) else targetHalted s port

/-- The memory behind a port as the cores that run may have left it by now (log entry 22). -/
def dbgStir (s : State) (port : Nat) : State :=
  { s with
    dbg := { s.dbg with mem := s.dbg.mem.filter (fun x => decide (x.1 / 4294967296 ≠ port)), epochs := setAt s.dbg.epochs port s.free }
    free := s.free + 1 }

/-- The key of a word behind a port. -/
def dbgKey (port a : Nat) : Nat := port * 4294967296 + a % 4294967296

/-- Whether a word behind a port is one of the ROM, which the MP and the system bus reach (log entry 22). -/
def dbgRom (port a : Nat) : Bool := (port == 0 || port == 3) && Config.romHolds a

/-- A word of the memory behind a port: the ROM under its overlays (R613), or as Finyr wrote it, else one that the spec does not give
(log entry 22). -/
def dbgCell (s : State) (port a : Nat) : Word :=
  if dbgRom port a then romRead s a
  else (cellGet s.dbg.mem (dbgKey port a)).getD (Config.dbgMemory port a (s.dbg.epochs.getD port 0))

/-- A word written to the memory behind a port; the ROM takes none. -/
def dbgPut (s : State) (port a : Nat) (w : Word) : State :=
  if dbgRom port a then s else { s with dbg := { s.dbg with mem := cellPut s.dbg.mem (dbgKey port a) w } }

/-- The word addresses of an access (R626). -/
def dbgAddrs (q : DbgReq) : List Nat := (List.range q.len).map (fun i => q.addr + 4 * i)

/-- Whether a word of a core or of the system bus is mapped (log entry 22). -/
def dbgMapped (port a : Nat) : Bool := if port = 3 then decide ((Config.sysPlace a).1 ≠ 0) else Config.coreMapped port a

/-- Whether an access of a core or of the system bus is answered FAULT: an address that is not aligned, or a word that is not mapped
(log entry 22). -/
def dbgUnmapped (q : DbgReq) : Bool := decide (q.addr % 4 ≠ 0) || (dbgAddrs q).any (fun a => !dbgMapped q.port a)

/-- A word of the system bus: a block register, a word of a trace ring, which nothing that the spec describes fills, a fuse word, where a
read-locked one and FINYR_KEY read 0, or memory (R598, R603, R639). -/
def sysWord (s : State) (a : Nat) : State × Word :=
  let x := Config.sysPlace a
  if x.1 = 1 ∧ (sigFind x.2).isSome = true then (s, viewKey s x.2)
  else if x.1 = 2 then ((drawWord s).2, (drawWord s).1)
  else if x.1 = 3 then (s, if readLocked s x.2 || (decide (8 ≤ x.2) && decide (x.2 < 16)) then 0 else fuseWord s x.2)
  else (s, dbgCell s 3 a)

/-- Words of a core or of the system bus. -/
def dbgWords (port : Nat) : List Nat → State → State × List Byte
  | [], s => (s, [])
  | a :: as, s =>
    let x := if port = 3 then sysWord s a else (s, dbgCell s port a)
    let y := dbgWords port as x.1
    (y.1, wordBytes x.2 ++ y.2)

/-- A word written on the system bus: a block register takes the value that its width holds, with the effect of a write of it and none of the
checks of a host's write (R23, R639); whether the condition behind a latch is active then is not told. Fuse words and trace rings take
nothing. -/
def sysPut (s : State) (a : Nat) (w : Word) : State :=
  let x := Config.sysPlace a
  match (if x.1 = 1 then sigFind x.2 else none) with
  | some r =>
    if r.acc = .ro then s
    else
      let d := drawWord s
      writeKey d.2 x.2 r (regFit r.ty w) d.1.toNat
  | none => if x.1 = 2 ∨ x.1 = 3 then s else dbgPut s 3 a w

/-- READ of a slice's page (R591, R592, R626). -/
def readPage (s : State) (q : DbgReq) : State × DbgAns :=
  match readSlice s q.addr false with
  | none => (s, dbgFault)
  | some x =>
    if !kindOpen s x.kind then (s, dbgDenied 5)
    else if x.total ≤ 256 * q.page then (s, dbgFault)
    else (s, dbgOk ((x.bytes.drop (256 * q.page)).take (4 * q.len)))

/-- READ for its request. -/
def dbgReadAns (s : State) (q : DbgReq) : State × DbgAns :=
  if q.port = 4 then readPage s q
  else
    if dbgUnmapped q then (s, dbgFault)
    else
      let y := dbgWords q.port (dbgAddrs q) (if dbgStill s q.port then s else dbgStir s q.port)
      (y.1, dbgOk y.2)

/-- The log of a target: 0 and 1 the engines, 2 the MP (R498). -/
def logOf (port : Nat) : Nat := if port = 0 then 2 else port - 1

/-- Debug writes of a target logged, with REPLAY_OVF beyond 64 (R498, R499). -/
def logWrites (s : State) (port n : Nat) : State :=
  let k := logOf port
  let c := s.bisc.logs.getD k 0 + n
  let s := { s with bisc := { s.bisc with logs := setAt s.bisc.logs k (min 65 c) } }
  if 64 < c then setB s Sig.BISC_STAT 8 true else s

/-- WRITE for its request: words of a core are logged for pass B (R498), words of the system bus reach their registers (R23, R639). -/
def dbgWriteAns (s : State) (q : DbgReq) (data : List Word) : State × DbgAns :=
  if dbgUnmapped q then (s, dbgFault)
  else
    let s := forEach ((dbgAddrs q).zip data) s (fun s x => if q.port = 3 then sysPut s x.1 x.2 else dbgPut s q.port x.1 x.2)
    (if q.port < 3 then logWrites s q.port q.len else s, dbgOk [])

/-! ### Halts (R633 to R636) -/

/-- Whether an engine may halt: its axes are DISABLED, or the power permit is in force (R633, R635). -/
def engineMayHalt (s : State) (e : Fin 2) : Bool :=
  (allAxes.filter (fun n => decide (engOf n = e))).all (fun n => decide (axSt s n = .disabled)) ||
    (decide (lifeCycle s = .develop) && rgN s Sig.DBG_POWER_PERMIT == 1)

/-- Whether a target may halt. -/
def targetMayHalt (s : State) (port : Nat) : Bool :=
  match portEngine port with
  | some e => engineMayHalt s e
  | none => true

/-- An engine halted, or stepped while it is halted: its read pointer stands (R260), and a current task that is pending has started and stands
inside its pass A (R500, R634, R636). -/
def haltEngine (s : State) (e : Fin 2) (stepped : Bool) : State :=
  if (s.eng[e]).halted && !stepped then s
  else
    let s := adcSettle s e
    let s := modAdc s (adcOf e) (fun a => { a with read := readPtr s e })
    modEng (stopInTask s e) e (fun x => { x with halted := true })

/-- A target halted for a cause; a second cause while it is halted is recorded with the first (R636). What it ran before, or runs in a step,
may have changed its memory. -/
def haltTarget (s : State) (port bit : Nat) : State :=
  let was := targetHalted s port
  let s := { s with dbg := { s.dbg with cause := if was then s.dbg.cause ||| 2 ^ bit else 2 ^ bit } }
  let s := if was && bit != 2 then s else dbgStir (dbgStir s port) 3
  match portEngine port with
  | some e => haltEngine s e (bit == 2)
  | none => { s with dbg := { s.dbg with haltMp := true } }

/-- HALT or STEP for its request: DENIED where the engine's condition does not hold (R633); HALT_DENIED shows it (R638). -/
def dbgHaltAns (s : State) (q : DbgReq) (bit : Nat) : State × DbgAns :=
  if targetMayHalt s q.port then (haltTarget s q.port bit, dbgOk [])
  else (setB s Sig.DBG_STAT 4 true, dbgDenied 3)

/-- A target resumes. -/
def resumeTarget (s : State) (port : Nat) : State :=
  match portEngine port with
  | some e => modEng s e (fun x => { x with halted := false })
  | none => postBlocked { s with dbg := { s.dbg with haltMp := false } }

/-! ### Breakpoints (R637, R638) -/

/-- Whether the words that R637 gives as 0 are 0. -/
def bpWordsOk (port slot : Nat) (ws : List Word) : Bool :=
  let w (i : Nat) : Word := ws.getD i 0
  if port = 0 then (decide (8 ≤ slot) || (w 2 == 0 && w 3 == 0)) else port == 5 || w 3 == 0

/-- A slot written: enabled by bit 0 of word 0, else free. -/
def putSlot (s : State) (port slot : Nat) (ws : List Word) : State :=
  let rest := s.dbg.slots.filter (fun b => !(b.port == port && b.slot == slot))
  let on := (ws.headD 0).getLsbD 0
  { s with dbg := { s.dbg with slots := if on then rest ++ [⟨port, slot, ws, none⟩] else rest } }

/-- BP_SET for its request: a breakpoint of an engine needs its condition (R633, R637). -/
def dbgBpAns (s : State) (q : DbgReq) (ws : List Word) : State × DbgAns :=
  if !bpWordsOk q.port q.addr ws then (s, ⟨5, 0, []⟩)
  else if (ws.headD 0).getLsbD 0 && (portEngine q.port).isSome && !targetMayHalt s q.port then (s, dbgDenied 3)
  else (putSlot s q.port q.addr ws, dbgOk [])

/-- Whether a signal condition holds, with the comparison of its type (R170, R637, R638). -/
def conditionHolds (s : State) (b : Bp) : Bool :=
  let sid := b.words.getD 1 0
  match sidRow s false sid with
  | none => false
  | some (key, r) =>
    if readStatus s false sid ≠ stOk then false
    else
      let v := viewKey s key
      let c := b.words.getD 3 0
      match (b.words.getD 2 0).toNat % 8 with
      | 0 => decide (v = c)
      | 1 => decide (v ≠ c)
      | 2 => decide (slotVal r.ty c < slotVal r.ty v)
      | 3 => decide (slotVal r.ty v < slotVal r.ty c)
      | 4 => (match b.last with
        | some x => decide (v ≠ x)
        | none => false)
      | _ => false

/-- The targets that a signal condition halts (R637). -/
def conditionTargets (b : Bp) : List Nat :=
  match (b.words.getD 2 0).toNat / 16 % 4 with
  | 0 => [0]
  | 1 => [1]
  | 2 => [2]
  | _ => [0, 1, 2]

/-- The hit of a signal condition: each target halts where it may; else HALT_DENIED (R638). -/
def conditionHit (s : State) (b : Bp) : State :=
  forEach (conditionTargets b) s (fun s p => if targetMayHalt s p then haltTarget s p 3 else setB s Sig.DBG_STAT 4 true)

/-- The value that an any-change condition compares with from now on. -/
def conditionSeen (s : State) (b : Bp) : Bp :=
  match sidRow s false (b.words.getD 1 0) with
  | some (key, _) => { b with last := some (viewKey s key) }
  | none => b

/-- Every signal condition evaluated, in ascending slot number, while the MP runs (R638). -/
def evalConditions (s : State) : State :=
  let bs := s.dbg.slots.filter (fun b => b.port == 5)
  let hits := [0, 1, 2, 3].flatMap (fun k => bs.filter (fun b => b.slot == k && conditionHolds s b))
  let slots := s.dbg.slots.map (fun b => if b.port = 5 then conditionSeen s b else b)
  forEach hits { s with dbg := { s.dbg with slots := slots } } conditionHit

/-- The breakpoints of an engine disarmed where one of its axes leaves DISABLED without the permit (R635). -/
def disarmEngine (s : State) (n : Axis) : State :=
  if decide (lifeCycle s = .develop) && rgN s Sig.DBG_POWER_PERMIT == 1 then s
  else { s with dbg := { s.dbg with slots := s.dbg.slots.filter (fun b => b.port != (engOf n).val + 1) } }

/-! ### Authentication (R630) -/

/-- The expected MAC of a nonce (R597, R598, R630). -/
def expectedMac (s : State) (nonce : List Byte) : List Byte :=
  fitTo 32 (Config.hmacSha256 ((List.range 8).flatMap (fun i => wordBytes (usedWord s (8 + i))))
    (nonce ++ wordBytes (serialLo s) ++ wordBytes (serialHi s)))

/-- AUTH_CHALLENGE for its request. -/
def challengeAns (s : State) : State × DbgAns :=
  if authLocked s then (s, dbgDenied 4)
  else
    let bs := fitTo 16 (Config.nonce s.dbg.draws)
    ({ s with dbg := { s.dbg with nonce := some (bs, s.clk.us), draws := s.dbg.draws + 1 } }, dbgOk bs)

/-- Whether a MAC answers the nonce in force within its 10 s. -/
def macHolds (s : State) (mac : List Word) : Bool :=
  match s.dbg.nonce with
  | some (n, t) => decide (s.clk.us ≤ t + 10000000) && decide (wordsBytes mac = expectedMac s n)
  | none => false

/-- The verdict on a MAC, which consumes the nonce (R630). -/
def macVerdict (s : State) (mac : List Word) : State × DbgAns :=
  if macHolds s mac then ({ s with dbg := { s.dbg with nonce := none, auth := true, fails := 0 } }, dbgOk [])
  else
    let s := incR (setB s Sig.DBG_STAT 3 true) Sig.DBG_AUTH_FAIL
    let d := s.dbg
    ({ s with dbg := { d with nonce := none, fails := d.fails + 1, lockUntil := some (s.clk.us + 1000000),
                              lockForever := d.lockForever || decide (7 ≤ d.fails) } }, dbgDenied 1)

/-- AUTH_RESPONSE for its request, `elapsed` µs after it was first sent: WAIT is possible within 40 µs (R630). -/
def authAns (s : State) (mac : List Word) (elapsed : Nat) : State × DbgAns :=
  if elapsed < 40 then
    let x := drawBool s
    if x.1 then (x.2, ⟨1, 0, []⟩) else macVerdict x.2 mac
  else macVerdict s mac

/-! ### RETIRE (R615, R632) -/

/-- What a RETIRE that has blown, or failed to blow, its group answers. The reason of a failed verification has no code (log entry 3). -/
def retireEnd (s : State) (r : Nat × Bool) : State × DbgAns :=
  let s := { s with dbg := { s.dbg with retiring := none } }
  if r.2 then (s, dbgOk [])
  else if rgB s Sig.SUP_STAT 7 then
    let x := drawWord s
    (x.2, dbgDenied (x.1.toNat % 256))
  else (s, dbgDenied 6)

/-- RETIRE for its request: the checks, then WAIT while the group is blown; the repeated request ends it. -/
def retireAns (s : State) (q : DbgReq) (e : FuseEnv) : State × DbgAns :=
  match s.dbg.retiring.filter (fun r => r.1 == q.seq) with
  | some r => retireEnd s r
  | none =>
    if lifeCycle s ≠ .develop ∧ lifeCycle s ≠ .field then (s, dbgDenied 2)
    else
      let e := { e with abort := none }
      let s := readFuseEnv s e
      if !fuseRunnable e then (s, dbgDenied 6)
      else
        let x := programAll s e false (lcPairs s 4)
        ({ x.1 with dbg := { x.1.dbg with retiring := some (q.seq, decide (x.2 = .done)) } }, ⟨1, 0, []⟩)

/-! ### Meanings -/

/-- LINE_RESET: 64 ones on FDIO while the port is not idle (R623). -/
def execLineReset (s : State) : Host.Outcome State Fault Refusal :=
  .next (if linkPowered s then setB s Sig.DBG_STAT 0 true else s)

/-- READ (R626, R639). -/
def execDbgRead (q : DbgReq) (s : State) : Host.Outcome State Fault Refusal :=
  .next (dbgServe s q 1 0 (fun s => dbgReadAns s q))

/-- WRITE (R498, R626, R639). -/
def execDbgWrite (q : DbgReq) (data : List Word) (s : State) : Host.Outcome State Fault Refusal :=
  .next (dbgServe s q 2 data.length (fun s => dbgWriteAns s q data))

/-- HALT (R633, R634). -/
def execDbgHalt (q : DbgReq) (s : State) : Host.Outcome State Fault Refusal :=
  .next (dbgServe s q 3 0 (fun s => dbgHaltAns s q 0))

/-- RESUME (R626). -/
def execDbgResume (q : DbgReq) (s : State) : Host.Outcome State Fault Refusal :=
  .next (dbgServe s q 4 0 (fun s => (resumeTarget s q.port, dbgOk [])))

/-- STEP: the instructions run, and the target halts again (R633, R636). -/
def execDbgStep (q : DbgReq) (s : State) : Host.Outcome State Fault Refusal :=
  .next (dbgServe s q 5 0 (fun s => dbgHaltAns s q 2))

/-- BP_SET (R637). -/
def execDbgBpSet (q : DbgReq) (data : List Word) (s : State) : Host.Outcome State Fault Refusal :=
  .next (dbgServe s q 6 data.length (fun s => dbgBpAns s q data))

/-- BREAKPOINT_HIT: an enabled slot's breakpoint or watchpoint is reached, or its signal condition holds (R633, R638). -/
def execBreakpointHit (port slot : Nat) (s : State) : Host.Outcome State Fault Refusal :=
  match s.dbg.slots.find? (fun b => b.port == port && b.slot == slot) with
  | none => .next s
  | some b =>
    if port = 5 then
      .next (if !s.dbg.haltMp && conditionHolds s b then conditionHit s b else s)
    else .next (if targetMayHalt s port then haltTarget s port 1 else s)

/-- STATUS (R626). -/
def execDbgStatus (q : DbgReq) (s : State) : Host.Outcome State Fault Refusal :=
  .next (dbgServe s q 7 0 (fun s =>
    (s, dbgOk (leBytes 4 (dbgLive s) ++ wordBytes (rg s Sig.DBG_STAT) ++ wordBytes (Config.haltCause s.dbg.cause) ++ leBytes 4 (usTime s)))))

/-- AUTH_CHALLENGE (R630). -/
def execAuthChallenge (q : DbgReq) (s : State) : Host.Outcome State Fault Refusal :=
  .next (dbgServe s q 8 0 challengeAns)

/-- AUTH_RESPONSE (R630). -/
def execAuthResponse (q : DbgReq) (mac : List Word) (elapsedUs : Nat) (s : State) : Host.Outcome State Fault Refusal :=
  .next (dbgServe s q 9 mac.length (fun s => authAns s mac elapsedUs))

/-- AUTH_LOCKOUT_END: the 1 s after a failed authentication runs out (R630). -/
def execAuthLockoutEnd (s : State) : Host.Outcome State Fault Refusal :=
  match s.dbg.lockUntil with
  | some t =>
    let s := toUs s t
    .next { s with dbg := { s.dbg with lockUntil := none } }
  | none => .next s

/-- RESET_REQ: a CD reset with cause bit 7 at the end of its response (R93, R632). -/
def execResetReq (q : DbgReq) (env : BootEnv) (s : State) : Host.Outcome State Fault Refusal :=
  let go := linkPowered s && s.pwr.booted && q.crcOk && decide (s.dbg.lastSeq ≠ some q.seq) && dbgValid q 10 0 && !dbgBarred s 10
  let s := dbgServe s q 10 0 (fun s => (s, dbgOk []))
  if go then
    let bs := s.dbg.answer
    let s := resetCd s 7 env
    .next { s with dbg := { s.dbg with answer := bs } }
  else .next s

/-- CLOSE: the session ends (R631). -/
def execCloseSession (q : DbgReq) (s : State) : Host.Outcome State Fault Refusal :=
  .next (dbgServe s q 11 0 (fun s => (endSession s, dbgOk [])))

/-- RETIRE (R615, R616, R632). -/
def execRetire (q : DbgReq) (env : FuseEnv) (s : State) : Host.Outcome State Fault Refusal :=
  .next (dbgServe s q 12 0 (fun s => retireAns s q env))

/-- SESSION_TIMEOUT: no valid request for DBG_IDLE_TIMEOUT (R631). -/
def execSessionTimeout (s : State) : Host.Outcome State Fault Refusal :=
  if s.dbg.session then
    let s := toUs s (s.dbg.lastUs + rgN s Sig.DBG_IDLE_TIMEOUT * 1000)
    .next (setB (endSession s) Sig.DBG_STAT 2 true)
  else .next s

end Sys2Proof.Machine
end

