-- ==== Sys2Proof/Machine/Streams.lean ====
section
/-! DEFINITION. Subscriptions (R167 to R169), limit slots (R170 to R172), what both send, and the budget tick with what hangs on it
(R28, R447, R638). -/

namespace Sys2Proof.Machine

/-! ### Stream frames (R136, R169, R172) -/

/-- The bytes of a stream frame: TAG, OPCODE 0x80 or 0x81, STREAM set, the device as source, SEQ. -/
def streamFrame (s : State) (tag op seq : Nat) (fwd : Bool) (payload : List Byte) : List Byte :=
  frameBytes
    { tag := tag, opcode := op, flags := 0xA0 + bitIf fwd 4, devSel := ringId s, axisSel := 0xFF, length := 0, deadline := 0, b12 := 0,
      b13 := ringId s, b14 := seq % 65536 } payload

/-- A stream frame into its subscription ring, or over the Emquin ring to the entry device of its request (R169). -/
def sendStream (s : State) (ring entry : Nat) (fwd : Bool) (bs : List Byte) : State :=
  if fwd then forwardBytes s false true entry none none bs else streamBytes s ring bs

/-- The value of a SID of this device as a stream or a limit finds it (R150). -/
def sidValue (s : State) (sid : Word) : Word := viewKey s (sid.toNat % 0x10000)

/-! ### Subscriptions (R167 to R169) -/

/-- Whether a value has changed by more than DEADBAND, or in any bit of a BITS32 (R167). -/
def changed (deadband : Nat) (sid old new : Word) : Bool :=
  match sigFind (sid.toNat % 0x10000) with
  | some r => if r.ty = .bits32 then old != new else decide (deadband < (slotVal r.ty new - slotVal r.ty old).natAbs)
  | none => false

/-- Whether a check of a subscription sends a frame: always where periodic or before the first frame (R167). -/
def subSends (u : Sub) (vs : List Word) : Bool :=
  u.mode == 1 || u.lastVals.isEmpty ||
    ((u.sids.zip (u.lastVals.zip vs)).any (fun x => changed u.deadband x.1 x.2.1 x.2.2))

/-- A subscription changed. -/
def putSub (s : State) (handle : Nat) (u : Option Sub) : State := { s with rt := { s.rt with subs := setAt s.rt.subs (handle - 1) u } }

/-- The subscription of a handle. -/
def subOf (s : State) (handle : Nat) : Option Sub := if handle = 0 then none else (s.rt.subs.getD (handle - 1) none)

/-- The check of a subscription at its instant: the values captured, and the frame where one is due. -/
def subCheck (s : State) (handle : Nat) (u : Sub) : State :=
  let vs := u.sids.map (sidValue s)
  let next := { u with due := u.due + 10 * u.period }
  if subSends u vs then
    let bs := streamFrame s handle 0x80 u.seq u.fwd (leBytes 4 (usTime s) ++ wordsBytes vs)
    putSub (sendStream s u.ring u.entry u.fwd bs) handle (some { next with lastVals := vs, seq := u.seq + 1 })
  else putSub s handle (some next)

/-- SUBSCRIPTION_PERIOD: the next PERIOD of a subscription ends (R167). A halted runtime sends nothing (R633). -/
def execSubscriptionPeriod (handle : Nat) (s : State) : Host.Outcome State Fault Refusal :=
  match subOf s handle with
  | none => .next s
  | some u => if linkPowered s && !s.dbg.haltMp then .next (subCheck (toUs s u.due) handle u) else .next s

/-! ### Limit slots (R170 to R172) -/

/-- A limit slot changed. -/
def putLim (s : State) (slot : Nat) (l : Option Lim) : State := { s with rt := { s.rt with lims := setAt s.rt.lims slot l } }

/-- The event of a leave or return: EV64 + n for an axis signal, EV88 for a device-wide one (R171). -/
def limEvent (sid : Word) : Nat := if sid.toNat / 0x1000 % 16 < 8 then 64 + sid.toNat / 0x1000 % 16 else 88

/-- A leave or a return: its event, and its report where RING is set (R171, R172). -/
def limReport (s : State) (slot : Nat) (l : Lim) (v : Word) (leave : Bool) : State :=
  let s := evt s (limEvent l.sid)
  let on := l.ring != 0
  let s := putLim s slot (some { l with outside := leave, count := 0, seq := if on then l.seq + 1 else l.seq })
  if on then
    let bs := streamFrame s slot 0x81 l.seq l.fwd
      (leBytes 4 (usTime s) ++ wordBytes l.sid ++ wordBytes v ++ leBytes 1 (if leave then 1 else 0) ++ zeros 3)
    sendStream s l.ring l.entry l.fwd bs
  else s

/-- Whether a value counts towards the slot's next leave or return, compared by its type (R170, R171). -/
def limCounts (l : Lim) (v : Word) : Bool :=
  match sigFind (l.sid.toNat % 0x10000) with
  | some r =>
    let x := slotVal r.ty v
    let lo := slotVal r.ty l.low
    let hi := slotVal r.ty l.high
    let h : Int := l.hyst.toNat
    if l.outside then decide (lo + h ≤ x) && decide (x ≤ hi - h) else decide (x < lo) || decide (hi < x)
  | none => false

/-- The check of a slot at a budget tick. -/
def limCheck (s : State) (slot : Nat) : State :=
  match s.rt.lims.getD slot none with
  | none => s
  | some l =>
    let v := sidValue s l.sid
    if limCounts l v then
      if l.qual ≤ l.count + 1 then limReport s slot l v (!l.outside) else putLim s slot (some { l with count := l.count + 1 })
    else putLim s slot (some { l with count := 0 })

/-! ### The budget tick (R28, R447) -/

/-- The key of the budget ticks. -/
abbrev keyBudget : Nat := 0x35

/-- What the runtime does at a budget tick besides Honeycomb: the limit slots and Finyr's signal conditions (R170, R638). -/
def runtimeTick (s : State) : State := evalConditions (forEach (List.range 64) s limCheck)

/-- BUDGET_TICK: the next budget tick of the carrier grid: the shadows become active at its boundary, and Honeycomb computes those of the
next one, where its checkpoint passes (R447, R489). While the MP is halted only the boundary is passed (R633). -/
def execBudgetTick (chk : Check) (s : State) : Host.Outcome State Fault Refusal :=
  if inRun s then
    let s := boundaryTick (atGrid s keyBudget 40000 (s.clk.epoch % 40000).toNat)
    let s := if s.dbg.haltMp then s else runtimeTick (mpTask s chk computeTick id)
    .next (forEach allAxes s clearMeans)
  else .next s

end Sys2Proof.Machine
end

