-- ==== Sys2Proof/Machine/Commands.lean ====
section
/-! DEFINITION. The commands that act on the device (chapter 6): what bars a command (R92, R151, R162, R516), signals, subscriptions and
limits, groups, the drive mode, the record, images, fuses and tests; and the rows that write one signal, each a SIG_WRITE of that signal. -/

namespace Sys2Proof.Machine

/-! ### Requests (R162, R661) -/

/-- Whether the runtime carries out commands: the CD is powered and booted, and Finyr does not hold the MP (R633). -/
def serves (s : State) : Bool := linkPowered s && s.pwr.booted && !s.dbg.haltMp

/-- The request behind a command that a frame carries. -/
def reqOf (i : Instr) : Option Req :=
  match i with
  | .imgConfirm c => some c.req
  | .sigRead r _ _ | .sigWrite r _ _ _ | .sigSubscribe r _ _ _ _ _ _ | .sigLimit r _ _ _ _ _ _ _ _ | .axisState r _ _ _ | .move r _
  | .stop r _ _ | .setGains r _ _ _ | .groupSet r _ _ | .modeSet r _ _ _ | .abort r _ _ | .recRead r _ _ _ _ _ | .recNote r _
  | .imgWrite r _ _ | .imgCommit r _ | .fuseProgram r _ _ _ _ _ | .selftest r _ _ _ | .probeCoupling r _ _ => some r
  | _ => none

/-- The opcode of a command that a frame carries (R151). -/
def opOf (i : Instr) : Nat :=
  match i with
  | .sigRead .. => opSigRead
  | .sigWrite .. => opSigWrite
  | .sigSubscribe .. => opSigSubscribe
  | .sigLimit .. => opSigLimit
  | .axisState .. => opAxisState
  | .move .. => opMove
  | .stop .. => opStop
  | .setGains .. => opSetGains
  | .groupSet .. => opGroupSet
  | .modeSet .. => opModeSet
  | .abort .. => opAbort
  | .recRead .. => opRecRead
  | .recNote .. => opRecNote
  | .imgWrite .. => opImgWrite
  | .imgCommit .. => opImgCommit
  | .imgConfirm .. => opImgConfirm
  | .fuseProgram .. => opFuseProgram
  | .selftest .. => opSelftest
  | .probeCoupling .. => opProbe
  | _ => 0

/-- A request no longer handed over: it is being carried out. -/
def unhand (s : State) (r : Req) : State :=
  match s.rt.handed with
  | some i => if reqOf i = some r then { s with rt := { s.rt with handed := none } } else s
  | none => s

/-- Whether the DEADLINE of a request has run out (R162). -/
def lateReq (s : State) (r : Req) : Bool := decide (0 < r.deadline) && decide (r.taken + r.deadline ≤ s.clk.us)

/-- A command answered EXPIRED with a cause, for every target the device has in it (R154, R159, R162). -/
def expireCmd (s : State) (r : Req) (op cause : Nat) : State :=
  if aggregated r op then
    aggAdd (latch (aggOpen s r op) r) r ((deviceTargets op r.mask (ringId s)).map (fun t => ⟨t, stExpired, cause⟩))
  else answer (latch s r) r op stExpired (expiredPayload op cause)

/-- Whether the life cycle bars a command (R151). -/
def lifeBar (lc : LifeCycle) (op : Nat) (disable : Bool) : Bool :=
  match op with
  | 0x10 => !disable && (decide (lc = .blank) || decide (lc = .factory) || decide (lc = .retired))
  | 0x11 | 0x41 => decide (lc = .blank) || decide (lc = .factory) || decide (lc = .retired)
  | 0x13 | 0x15 | 0x40 => decide (lc = .retired)
  | 0x21 | 0x30 | 0x31 | 0x32 => decide (lc = .blank) || decide (lc = .factory)
  | 0x38 => decide (lc ≠ .factory) && decide (lc ≠ .develop)
  | _ => false

/-- The status with which the rescue mode (R92), DEVICE_SAFE (R516) or the life cycle (R151) bars a command; OK where none does. `special`
is a SIG_READ of device-wide signals alone, an IMG_COMMIT with RESTART, or an AXIS_STATE for DISABLED. -/
def commandBar (s : State) (op : Nat) (special : Bool) : Nat :=
  if s.pwr.rescue && !([0x20, 0x30, 0x31].contains op || (op == 0x01 && special)) then stNotInState
  else if s.flt.safeMode && (!([0x01, 0x03, 0x04, 0x18, 0x20, 0x21, 0x30, 0x31].contains op) || (op == 0x31 && special)) then stNotInState
  else if lifeBar (if op = opFuseProgram then fuseCycle s else lifeCycle s) op special then stDeniedLifecycle
  else stOk

/-- A refusal with the payload of R154. -/
def refusal (op status : Nat) : Ans := ⟨status, if op = 0x01 ∨ op = 0x02 then countPayload 0 0xFFFF else [], 0, false⟩

/-- A device command from its start to its answer: the deadline, what bars it, and what it does. -/
def devCmd (s : State) (r : Req) (op : Nat) (special : Bool) (f : State → State × Ans) : State :=
  let s := unhand s r
  if lateReq s r then expireCmd s r op 1
  else
    let st := commandBar s op special
    runDev s r op (fun s => if st = stOk then f s else (s, refusal op st))

/-- An axis command from its start to its answers. -/
def axCmd (s : State) (r : Req) (op : Nat) (special : Bool) (f : State → Axis → State × Ans) : State :=
  let s := unhand s r
  if lateReq s r then expireCmd s r op 1
  else
    let st := commandBar s op special
    runAx s r op (fun s n =>
      if st = stOk then f s n else if st = stNotInState then (s, ansNotInState s n) else (s, ansSt st))

/-- The axes that an axis command acts on. -/
def selAxes (r : Req) (op : Nat) : List Axis :=
  if aggregated r op then axesOf r.mask
  else if h : r.axisSel < 8 then [⟨r.axisSel, h⟩] else []

/-! ### SIG_READ and SIG_WRITE (R155) -/

/-- Whether a SID is of a device-wide signal. -/
def deviceSid (w : Word) : Bool := w.toNat / 0x1000 % 16 == 8

/-- A SIG_READ. -/
def readCmd (s : State) (r : Req) (describe : Bool) (sids : List Word) : State :=
  devCmd s r opSigRead (sids.all deviceSid) (fun s =>
    if sids.isEmpty || decide ((if describe then 125 else 250) < sids.length) then (s, refusal opSigRead stRange)
    else sigReadAns s r describe sids)

/-- A SIG_WRITE. -/
def writeCmd (s : State) (r : Req) (pairs : List (Word × Word)) (active : Nat) (straddle : List Axis) (aoLate : Bool) : State :=
  devCmd s r opSigWrite false (fun s =>
    if pairs.isEmpty || decide (125 < pairs.length) then (s, refusal opSigWrite stRange)
    else sigWriteAns s r pairs active straddle aoLate)

/-- The SID of a signal of this device (R142). -/
def sidOf (s : State) (key : Nat) : Word := BitVec.ofNat 32 (ringId s * 65536 + key)

/-- A SIG_WRITE of one signal. -/
def writeOne (s : State) (r : Req) (key : Nat) (value : Word) : State := writeCmd s r [(sidOf s key, value)] 0 [] false

/-- SIG_READ (R155). -/
def execSigRead (r : Req) (describe : Bool) (sids : List Word) (s : State) : Host.Outcome State Fault Refusal :=
  if serves s then .next (readCmd s r describe sids) else .next s

/-- SIG_WRITE (R155). The latch conditions that a write of GD_LATCH meets are a free value (R237, log entry 3). -/
def execSigWrite (r : Req) (pairs : List (Word × Word)) (straddle : List Axis) (aoLate : Bool) (s : State) :
    Host.Outcome State Fault Refusal :=
  if serves s then
    if (pairKeys pairs).any (fun k => decide (k < 0x8000) && k % 0x1000 == 0x120) then
      let x := drawWord s
      .next (writeCmd x.2 r pairs x.1.toNat straddle aoLate)
    else .next (writeCmd s r pairs 0 straddle aoLate)
  else .next s

/-! ### Rows that write or read one signal -/

/-- PWR_REQ_RUN: PWR_REQ written 2 (R67, R68). -/
def execPwrReqRun (r : Req) (s : State) : Host.Outcome State Fault Refusal :=
  if serves s then .next (writeOne s r Sig.PWR_REQ 2) else .next s

/-- PWR_REQ_STANDBY: PWR_REQ written 1 (R67, R68). -/
def execPwrReqStandby (r : Req) (s : State) : Host.Outcome State Fault Refusal :=
  if serves s then .next (writeOne s r Sig.PWR_REQ 1) else .next s

/-- PWR_REQ_SLEEP: PWR_REQ written 0 (R67, R68). -/
def execPwrReqSleep (r : Req) (s : State) : Host.Outcome State Fault Refusal :=
  if serves s then .next (writeOne s r Sig.PWR_REQ 0) else .next s

/-- FAULT_RELEASE: a write of FLT_LASTING_AXn or FLT_LASTING_DEV (R507). -/
def execFaultRelease (r : Req) (sid value : Word) (s : State) : Host.Outcome State Fault Refusal :=
  if serves s then .next (writeCmd s r [(sid, value)] 0 [] false) else .next s

/-- FLT_CFG_WRITE: a write of FLT_CFG for the source that FLT_IDX selects (R509, R523). -/
def execFltCfgWrite (r : Req) (value : Word) (s : State) : Host.Outcome State Fault Refusal :=
  if serves s then .next (writeOne s r Sig.FLT_CFG value) else .next s

/-- FLT_ROLE_WRITE: a write of FLT_ROLE_AXn (R517). -/
def execFltRoleWrite (r : Req) (n : Axis) (value : Word) (s : State) : Host.Outcome State Fault Refusal :=
  if serves s then .next (writeOne s r (Sig.FLT_ROLE_AX n.val) value) else .next s

/-- GD_LATCH_CLEAR: a write of GD_LATCH with the conditions that are active (R237). -/
def execGdLatchClear (r : Req) (n : Axis) (value : Word) (active : Nat) (s : State) : Host.Outcome State Fault Refusal :=
  if serves s then .next (writeCmd s r [(sidOf s (Sig.GD_LATCH n.val), value)] active [] false) else .next s

/-- SMP_GAIN_WRITE (R256, R271). -/
def execSmpGainWrite (r : Req) (n : Axis) (value : Word) (s : State) : Host.Outcome State Fault Refusal :=
  if serves s then .next (writeOne s r (Sig.SMP_GAIN_AX n.val) value) else .next s

/-- COMPARE_SLOT_ARM: a write of a slot's position or configuration (R335). -/
def execCompareSlotArm (r : Req) (n : Axis) (slot : Fin 4) (cfg : Bool) (value : Word) (s : State) : Host.Outcome State Fault Refusal :=
  if serves s then
    .next (writeOne s r (if cfg then Sig.CAR_CMP_CFG n.val slot.val else Sig.CAR_CMP_POS n.val slot.val) value)
  else .next s

/-- EXCITATION_RESTART: a write of RSV_EXC_AMP or RSV_EXC_FREQ (R344). -/
def execExcitationRestart (r : Req) (n : Axis) (amp : Bool) (value : Word) (s : State) : Host.Outcome State Fault Refusal :=
  if serves s then .next (writeOne s r (if amp then Sig.RSV_EXC_AMP n.val else Sig.RSV_EXC_FREQ n.val) value) else .next s

/-- RSV_TURNS_WRITE (R359). -/
def execRsvTurnsWrite (r : Req) (n : Axis) (value : Word) (s : State) : Host.Outcome State Fault Refusal :=
  if serves s then .next (writeOne s r (Sig.RSV_TURNS n.val) value) else .next s

/-- CMP_START: RSV_CMP_CTRL written 1 (R372, R378). -/
def execCmpStart (r : Req) (n : Axis) (s : State) : Host.Outcome State Fault Refusal :=
  if serves s then .next (writeOne s r (Sig.RSV_CMP_CTRL n.val) 1) else .next s

/-- CMP_CANCEL: RSV_CMP_CTRL written 2 (R378). -/
def execCmpCancel (r : Req) (n : Axis) (s : State) : Host.Outcome State Fault Refusal :=
  if serves s then .next (writeOne s r (Sig.RSV_CMP_CTRL n.val) 2) else .next s

/-- CMP_CLEAR: RSV_CMP_CTRL written 3 (R378). -/
def execCmpClear (r : Req) (n : Axis) (s : State) : Host.Outcome State Fault Refusal :=
  if serves s then .next (writeOne s r (Sig.RSV_CMP_CTRL n.val) 3) else .next s

/-- CMP_STORE: RSV_CMP_CTRL written 4 (R378). -/
def execCmpStore (r : Req) (n : Axis) (s : State) : Host.Outcome State Fault Refusal :=
  if serves s then .next (writeOne s r (Sig.RSV_CMP_CTRL n.val) 4) else .next s

/-- RSV_CMP_VAL_READ: a read of RSV_CMP_VAL, which advances RSV_CMP_IDX (R378). -/
def execRsvCmpValRead (r : Req) (n : Axis) (s : State) : Host.Outcome State Fault Refusal :=
  if serves s then .next (readCmd s r false [sidOf s (Sig.RSV_CMP_VAL n.val)]) else .next s

/-- RSV_CMP_VAL_WRITE (R378). -/
def execRsvCmpValWrite (r : Req) (n : Axis) (value : Word) (s : State) : Host.Outcome State Fault Refusal :=
  if serves s then .next (writeOne s r (Sig.RSV_CMP_VAL n.val) value) else .next s

/-- FB_Z_ARM: a write of FB_Z_ARM (R417). -/
def execFbZArm (r : Req) (n : Axis) (value : Word) (s : State) : Host.Outcome State Fault Refusal :=
  if serves s then .next (writeOne s r (Sig.FB_Z_ARM n.val) value) else .next s

/-- AO_LOAD: a write of AO_LOAD (R434). -/
def execAoLoad (r : Req) (value : Word) (s : State) : Host.Outcome State Fault Refusal :=
  if serves s then .next (writeOne s r Sig.AO_LOAD value) else .next s

/-- AO_SPAN_WRITE: a write of AO_SPANk (R441). -/
def execAoSpanWrite (r : Req) (k : Fin 6) (value : Word) (s : State) : Host.Outcome State Fault Refusal :=
  if serves s then .next (writeOne s r (Sig.AO_SPAN k.val) value) else .next s

/-- FC_PIN: a write of FC_PIN (R590). -/
def execFcPin (r : Req) (value : Word) (s : State) : Host.Outcome State Fault Refusal :=
  if serves s then .next (writeOne s r Sig.FC_PIN value) else .next s

/-- FC_UNPIN: a write of FC_UNPIN (R590). -/
def execFcUnpin (r : Req) (value : Word) (s : State) : Host.Outcome State Fault Refusal :=
  if serves s then .next (writeOne s r Sig.FC_UNPIN value) else .next s

/-! ### SIG_SUBSCRIBE and SIG_LIMIT (R168, R170, R173) -/

/-- Whether a ring is a subscription ring. -/
def streamRing (ring : Nat) : Bool := decide (36 ≤ ring) && decide (ring ≤ 43)

/-- The first status other than OK that the SIDs of a list have for a read (R147). -/
def sidsStatus (s : State) (sids : List Word) : Nat := ((sids.map (readStatus s false)).find? (fun st => st != stOk)).getD stOk

/-- SIG_SUBSCRIBE for its request. -/
def subscribeAns (s : State) (r : Req) (handle ring mode period deadband : Nat) (sids : List Word) : State × Ans :=
  let used := (subOf s handle).isSome
  if 32 < handle ∨ 2 < mode ∨ (handle ≠ 0 ∧ used = false) then (s, ansSt stRange)
  else if mode = 0 then
    if used && sids.isEmpty then (putSub s handle none, ansOk (zeros 4)) else (s, ansSt stRange)
  else if streamRing ring = false ∨ period = 0 ∨ 1000000 < period ∨ sids.length = 0 ∨ 32 < sids.length then (s, ansSt stRange)
  else if sidsStatus s sids ≠ stOk then (s, ansSt (sidsStatus s sids))
  else
    match (if handle = 0 then s.rt.subs.findIdx? Option.isNone else some (handle - 1)) with
    | none => (s, ansSt stRange)
    | some i =>
      let s' := putSub s (i + 1) (some ⟨ring, mode, period, deadband, sids, [], s.clk.us + 10 * period, 0, r.entry, r.fwd⟩)
      if 500000 < subLoad s'.rt.subs then (s, ansSt stRange) else (s', ansOk (leBytes 1 (i + 1) ++ zeros 3))

/-- SIG_SUBSCRIBE (R152, R167, R168, R173). -/
def execSigSubscribe (r : Req) (handle ring mode period deadband : Nat) (sids : List Word) (s : State) :
    Host.Outcome State Fault Refusal :=
  if serves s then .next (devCmd s r opSigSubscribe false (fun s => subscribeAns s r handle ring mode period deadband sids)) else .next s

/-- SIG_LIMIT for its request. -/
def limitAns (s : State) (r : Req) (slot enable ring : Nat) (sid low high hyst : Word) (qual : Nat) : State × Ans :=
  if 64 ≤ slot ∨ 1 < enable then (s, ansSt stRange)
  else if enable = 0 then (putLim s slot none, ansOk (leBytes 1 slot ++ zeros 3))
  else if (ring ≠ 0 ∧ streamRing ring = false) ∨ qual = 0 ∨ 10000 < qual then (s, ansSt stRange)
  else
    match sidRow s false sid with
    | none => (s, ansSt stBadSid)
    | some (key, row) =>
      if fuseHidden s key then (s, ansSt stLocked)
      else if row.ty = .bits32 ∨ row.acc = .wo ∨ slotCoded row.ty low = false ∨ slotCoded row.ty high = false then (s, ansSt stRange)
      else (putLim s slot (some ⟨ring, sid, low, high, hyst, qual, 0, false, 0, r.entry, r.fwd⟩), ansOk (leBytes 1 slot ++ zeros 3))

/-- SIG_LIMIT (R152, R170, R173). -/
def execSigLimit (r : Req) (slot : Nat) (enable : Bool) (ring : Nat) (sid low high hyst : Word) (qual : Nat) (s : State) :
    Host.Outcome State Fault Refusal :=
  if serves s then .next (devCmd s r opSigLimit false (fun s => limitAns s r slot (if enable then 1 else 0) ring sid low high hyst qual))
  else .next s

/-! ### SET_GAINS, GROUP_SET, MODE_SET -/

/-- SET_GAINS for one axis (R156, R301, R302). -/
def gainsAns (s : State) (n : Axis) (loop : Nat) (kp ki : Word) : State × Ans :=
  if 3 < loop then (s, ansSt stRange)
  else
    let k := Sig.LP_KP_D n.val + 2 * loop
    let fits (key : Nat) (w : Word) : Bool := match sigFind key with
      | some row => slotOk row w
      | none => false
    if fits k kp = false ∨ fits (k + 1) ki = false then (s, ansSt stRange)
    else if gainClosed s n (0x210 + 2 * loop) then (s, ansSt stLoopClosed)
    else (setR (setR s k kp) (k + 1) ki, ansOk [])

/-- SET_GAINS (R302). -/
def execSetGains (r : Req) (loop : Nat) (kp ki : Word) (s : State) : Host.Outcome State Fault Refusal :=
  if serves s then .next (axCmd s r opSetGains false (fun s n => gainsAns s n loop kp ki)) else .next s

/-- GROUP_SET for its request (R152, R156). -/
def groupAns (s : State) (group mask : Nat) : State × Ans :=
  if 3 < group ∨ 255 < mask then (s, ansSt stRange) else (setN s (Sig.GROUP group) mask, ansOk [])

/-- GROUP_SET (R156). -/
def execGroupSet (r : Req) (group mask : Nat) (s : State) : Host.Outcome State Fault Refusal :=
  if serves s then .next (devCmd s r opGroupSet false (fun s => groupAns s group mask)) else .next s

/-- The PERMIT that is valid for a SPLIT_MASK; none where PERMIT_SEED is 0 (R497). -/
def validPermit (s : State) (mask : Nat) : Option Word :=
  let seed := usedWord s 251
  if seed = 0 then none
  else some (crc32 (wordBytes (serialLo s) ++ wordBytes (serialHi s) ++ leBytes 1 mask ++ wordBytes seed))

/-- Whether a MODE_SET needs a permit: in FIELD, where it makes an axis with role EMB or STEER single-pass (R156, R497). -/
def needsPermit (s : State) (mode mask : Nat) : Bool :=
  decide (lifeCycle s = .field) && allAxes.any (fun n => modePasses mode mask n == 1 && decide (roleOf s n ≤ 1))

/-- The status of a MODE_SET (R152, R156, R274, R496). -/
def modeStatus (s : State) (mode mask : Nat) (permit : Word) : Nat :=
  if 2 < mode ∨ 255 < mask ∨ (mask ≠ 0 ∧ mode ≠ 1) then stRange
  else if (mode = 2) ≠ (s.bisc.mode = 2) ∧ allDisabled s = false then stNotInState
  else if needsPermit s mode mask = true ∧ validPermit s mask ≠ some permit then stRefusedSafety
  else if allAxes.any (fun n => (loopState s n).closesCurrent && rateTooHigh s mode mask n) then stNotInState
  else stOk

/-- The change of an axis's passes: at its next sample boundary where it runs tasks, else at once (R307, R494, R495). -/
def passChange (s : State) (mode mask : Nat) (n : Axis) : State :=
  let p := modePasses mode mask n
  if (axSt s n).runsTasks then
    modLoop s n (fun l => { l with passPend := if l.passes = p then none else some (p, s.clk.tb) })
  else if (s.loop[n]).passes = p then s
  else setPasses s n p

/-- MODE_SET for its request: its completion is latched with the mode in effect, so no ABORT wins against it (R166); the answer comes when
every axis has changed (R307). -/
def modeAns (s : State) (r : Req) (mode mask : Nat) (permit : Word) : State × Ans :=
  let st := modeStatus s mode mask permit
  if st ≠ stOk then (s, ansSt st)
  else
    let s := if needsPermit s mode mask then setB s Sig.BISC_STAT 9 true else s
    let s := { s with bisc := { s.bisc with mode := mode, mask := mask } }
    let s := forEach allAxes s (fun s n => passChange s mode mask n)
    if allAxes.all (fun n => (s.loop[n]).passPend.isNone) then (s, ansOk (modePayload s))
    else (addWait (latch s r) ⟨r, opModeSet, none, 0, 0⟩, ansLater)

/-- MODE_SET (R307, R494 to R497). -/
def execModeSet (r : Req) (mode mask : Nat) (permit : Word) (s : State) : Host.Outcome State Fault Refusal :=
  if serves s then .next (devCmd s r opModeSet false (fun s => modeAns s r mode mask permit)) else .next s

/-! ### Record, images, fuses -/

/-- REC_READ (R591, R592). -/
def execRecRead (r : Req) (seq off maxLen : Nat) (nextOpt : Bool) (fails : Nat) (s : State) : Host.Outcome State Fault Refusal :=
  if serves s then .next (devCmd s r opRecRead false (fun s => recReadAns s seq off maxLen nextOpt fails)) else .next s

/-- REC_NOTE for its request: the note waits for staging, and its answer for the commit marker (R158, R579). -/
def noteAns (s : State) (r : Req) (note : List Byte) : State × Ans :=
  if note.length = 0 ∨ 256 < note.length then (s, ansSt stRange)
  else
    let s := { s with rcd := { s.rcd with noteWaits := s.rcd.noteWaits ++ [(r, note)] } }
    (admitNotes s.rcd.noteWaits.length s, ansLater)

/-- REC_NOTE (R158). -/
def execRecNote (r : Req) (note : List Byte) (s : State) : Host.Outcome State Fault Refusal :=
  if serves s then .next (devCmd s r opRecNote false (fun s => noteAns s r note)) else .next s

/-- IMG_WRITE (R102, R104). -/
def execImgWrite (r : Req) (off : Nat) (data : List Byte) (s : State) : Host.Outcome State Fault Refusal :=
  if serves s then
    .next (devCmd s r opImgWrite false (fun s =>
      if data.length < 4 ∨ 1004 < data.length ∨ data.length % 4 ≠ 0 then (s, ansSt stRange) else imgWriteAns s off data))
  else .next s

/-- IMG_COMMIT (R102 to R105). -/
def execImgCommit (r : Req) (restart : Bool) (s : State) : Host.Outcome State Fault Refusal :=
  if serves s then .next (devCmd s r opImgCommit restart (fun s => imgCommitAns s r restart)) else .next s

/-- IMG_CONFIRM; the supply may be lost while its record is written (R102, R104, R107). -/
def execImgConfirm (c : Confirm) (s : State) : Host.Outcome State Fault Refusal :=
  if serves s then .next (devCmd s c.req opImgConfirm false (fun s => imgConfirmAns s c.lost)) else .next s

/-- FUSE_PROGRAM (R605 to R611, R615). -/
def execFuseProgram (r : Req) (kind index : Nat) (words : List Word) (sig : List Byte) (env : FuseEnv) (s : State) :
    Host.Outcome State Fault Refusal :=
  if serves s then .next (devCmd s r opFuseProgram false (fun s => fuseProgramAns s kind index words sig env)) else .next s

/-! ### SELFTEST (R156, R157, R244, R245, R492, R493) -/

/-- Whether a SELFTEST is refused for an axis. -/
def testRefused (s : State) (tests : Nat) (n : Axis) : Bool := bitOf tests 0 && (s.ds.vdrvLock || decide (axSt s n ≠ .disabled))

/-- The tests run on some axes, all in parallel, with their event slice (R244, R245, R587). -/
def runTests (s : State) (tests : Nat) (ns : List Axis) (fails : List (Axis × Nat)) (biscOk : Bool) : State :=
  let s := if bitOf tests 0 then forEach ns (toUs s (s.clk.us + 1980)) (fun s n => storeTest s n (testFails fails n)) else s
  stageEvent s 0x0020 0xFFFF 1 (protFail s ++ leBytes 1 (if bitOf tests 1 then (if biscOk then 1 else 2) else 0))

/-- A SELFTEST that is not barred: the tests of the axes that take it, the answers, and then the verdict on Biscotti. Where an ABORT wins
while it runs, only the tests of `run.ended` have run, and the answer is ABORTED (R154, R166). -/
def selftestRun (s : State) (r : Req) (tests : Nat) (fails : List (Axis × Nat)) (run : TestRun) : State :=
  let no := (selAxes r opSelftest).filter (testRefused s tests)
  let go := (selAxes r opSelftest).filter (fun n => !testRefused s tests n)
  if go.isEmpty then runAx s r opSelftest (fun s n => (s, ansNotInState s n))
  else
    let all := tests
    let tests := match run.ended with
      | some m => tests &&& m
      | none => tests
    let s := runTests s tests go fails run.biscOk
    let s := runAx s r opSelftest (fun s n =>
      if no.contains n then (s, ansNotInState s n)
      else if tests ≠ all then (s, ansSt stAborted)
      else (s, ansOk (protFail s ++ leBytes 1 (if bitOf tests 1 then (if run.biscOk then 1 else 2) else 0) ++ zeros 3)))
    if bitOf tests 1 then proofVerdict s run.biscOk else s

/-- SELFTEST (R156, R157, R166, R245, R492). -/
def execSelftest (r : Req) (tests : Nat) (pstFail : List (Axis × Nat)) (run : TestRun) (s : State) :
    Host.Outcome State Fault Refusal :=
  if !serves s then .next s
  else if lateReq s r || commandBar s opSelftest false != stOk || decide (3 < tests) then
    .next (axCmd s r opSelftest false (fun s _ => (s, ansSt stRange)))
  else .next (selftestRun (unhand s r) r tests pstFail run)

end Sys2Proof.Machine
end

