-- ==== Sys2Proof/Machine/Motion.lean ====
section
/-! DEFINITION. The commands that act on axes and on motion: AXIS_STATE and the way out of DISABLED (R153, R241, R295 to R298), MOVE and STOP
(R156, R300, R317, R325), the deferral queue (R163, R467, R468), PROBE_COUPLING (R455) and ABORT (R165, R166). -/

namespace Sys2Proof.Machine

/-! ### Leaving DISABLED (R241, and the refusals of R190, R238, R274, R298, R368, R409, R469, R508, R552, R635) -/

/-- Whether the angle sources of an axis let it leave DISABLED for a state (R368, R409). -/
def anglesReady (s : State) (n : Axis) (st : AxState) : Bool :=
  let src := rgN s (Sig.LP_ANG_SRC n.val)
  let fb := rgN s (Sig.LP_FB_SRC n.val)
  let m := fbMode s n
  let forced := decide (st = .opn) && rgN s (Sig.LP_OL_ANG n.val) == 1
  (!namesResolver s n || (s.rsv[n]).valid || forced) &&
    (src != 1 || m == 1 || m == 2) && (fb != 1 || m == 1 || m == 2 || m == 5)

/-- Whether closing the current loop of an axis is refused: PWM_SRC 1 (R190), or a task rate above the limit (R274). -/
def closeRefused (s : State) (n : Axis) (st : AxState) : Bool :=
  st.closesCurrent &&
    (rgN s (Sig.PWM_SRC n.val) == 1 || (!(loopState s n).closesCurrent && rateTooHigh s s.bisc.mode s.bisc.mask n))

/-- Whether an axis may leave DISABLED for a state, but for the grant of the DS and the gate power. -/
def mayEnable (s : State) (n : Axis) (st : AxState) : Bool :=
  !latchBars s n && !testBars s n && !s.ds.vdrvLock && !blocked s n && !(s.eng[engOf n]).halted && anglesReady s n st &&
    !closeRefused s n st

/-- The enable request taken to the DS and its answer brought back over the supervision link (R524, R525). -/
def askGrant (s : State) (n : Axis) : State :=
  let s := sendHb (setReq s n true)
  let s := withDs s (fun s => dsTakes s s.sup.sent)
  let s := sendSt s
  takeSt s s.ds.sent

/-- The axis in PRECHARGE 20 µs after the request (R241): what is out of service returns (R238), the counter starts at its next valley
(R180), an offset learn is discarded (R256). -/
def enterPrecharge (s : State) (n : Axis) (st : AxState) : State :=
  let s := disarmEngine s n
  let s := modGd s n (fun g => { g with out := bitIf (s.ds.vdrvLock || s.ds.hot) 5, precharge := 0, pulse := false, nextAt := s.clk.tb })
  let s := modPwm s n (fun p => { p with startPend := true })
  let s := modOfs s n (fun o => if o.learning then { o with spoiled := true } else o)
  let s := modLoop s n (fun l => { l with lastSet := none })
  axisTo (modAx s n (fun b => { b with goal := st })) n .precharge

/-- A request out of DISABLED (R241), `t0` the tick of its taking: the state, and whether the axis is in PRECHARGE. -/
def enableAxis (s : State) (n : Axis) (st : AxState) (t0 : Nat) : State × Bool :=
  if !mayEnable s n st then (s, false)
  else if gateOverBudget s n then (setB s Sig.HC_STAT 8 true, false)
  else
    let s := askGrant s n
    if bitOf s.sup.got.grant n.val && decide (axSt s n = .disabled) then (enterPrecharge (toTick s (t0 + 8000)) n st, true)
    else (setReq s n false, false)

/-! ### AXIS_STATE (R153, R295 to R298) -/

/-- The payload of an AXIS_STATE response: the state of the axis as it is posted (R154). -/
def statePayload (s : State) (n : Axis) : List Byte := leBytes 4 (axSt s n).code

/-- The answer of a transition that has begun: at once, or with WAIT when the state is reached (R152, R166). -/
def stateAns (s : State) (r : Req) (n : Axis) (st : AxState) (wait : Bool) : State × Ans :=
  if wait && decide (axSt s n ≠ st) then (addWait s ⟨r, opAxisState, some n, st.code, 0⟩, ansLater) else (s, ansOk (statePayload s n))

/-- A transition among OPEN to HOLD, at the first task whose tag falls after now (R296). -/
def pendState (s : State) (n : Axis) (st : AxState) : State := modLoop s n (fun l => { l with pend := some (st, s.clk.tb) })

/-- AXIS_STATE for one axis (R295), `t0` the tick of its taking. -/
def axisAns (s : State) (r : Req) (n : Axis) (st : AxState) (wait : Bool) (t0 : Nat) : State × Ans :=
  let cur := axSt s n
  if cur = st then (s, ansOk (statePayload s n))
  else if st = .disabled then stateAns (toDisabled s n) r n .disabled wait
  else
    match cur with
    | .disabled =>
      if st = .hold then (s, ansNotInState s n)
      else if s.emq.noLead then (s, ansSt stNoLead)
      else
        let x := enableAxis s n st t0
        if x.2 then stateAns x.1 r n st wait else (x.1, ansNotInState x.1 n)
    | .opn | .torque | .speed | .position =>
      if closeRefused s n st then (s, ansNotInState s n) else stateAns (pendState s n st) r n st wait
    | .hold =>
      if s.emq.noLead && st != .hold then (s, ansSt stNoLead)
      else if ((s.ax[n]).holdByFault && st != .hold) || closeRefused s n st then (s, ansNotInState s n)
      else stateAns (pendState s n st) r n st wait
    | _ => (s, ansNotInState s n)

/-- Whether a request waits for RUN: it would bring an axis out of DISABLED in STANDBY (R63, R67). -/
def needsRun (s : State) (r : Req) (st : AxState) : Bool :=
  !inRun s && decide (st ≠ .disabled) && decide (st ≠ .hold) && !s.emq.noLead &&
    (selAxes r opAxisState).any (fun n => decide (axSt s n = .disabled) && mayEnable s n st)

/-- An AXIS_STATE as its checkpoint lets it through. -/
def axisStateRun (s : State) (r : Req) (st : Nat) (wait : Bool) (chk : Check) : State :=
  match (if st = 1 ∨ 6 < st ∨ (wait = true ∧ aggregated r opAxisState = true) then none else AxState.ofCode st) with
  | none => axCmd s r opAxisState (st == 0) (fun s _ => (s, ansSt stRange))
  | some x =>
    if lateReq s r || commandBar s opAxisState (st == 0) != stOk then axCmd s r opAxisState (st == 0) (fun s _ => (s, ansSt stOk))
    else if needsRun s r x && !s.pwr.clkBlocked then
      let s := askRun s
      { s with rt := { s.rt with handed := some (.axisState r st wait chk) } }
    else
      let t0 := s.clk.tb
      axCmd s r opAxisState (st == 0) (fun s n =>
        if !inRun s && x != .disabled && axSt s n == .disabled then (s, ansNotInState s n) else axisAns s r n x wait t0)

/-- AXIS_STATE: a safety task of the MP; where its checkpoint and the retry fail nothing is done (R489). -/
def execAxisState (r : Req) (st : Nat) (wait : Bool) (chk : Check) (s : State) : Host.Outcome State Fault Refusal :=
  if serves s then .next (mpTask s chk (fun s => axisStateRun s r st wait chk) id) else .next s

/-! ### MOVE (R156, R163, R317, R325, R467) -/

/-- The fields of a MOVE as taken: where one is 0, the Caramel signal of its name (R317). -/
def moveTaken (s : State) (n : Axis) (m : MoveArgs) : MoveArgs :=
  let or0 (v key : Nat) : Nat := if v = 0 then rgN s key else v
  { m with
    vmax := or0 m.vmax (Sig.CAR_VMAX n.val)
    acc := or0 m.acc (Sig.CAR_ACC n.val)
    dec := or0 m.dec (Sig.CAR_DEC n.val)
    jerk := or0 m.jerk (Sig.CAR_JERK n.val)
    vstart := or0 m.vstart (Sig.CAR_VSTART n.val)
    vstop := or0 m.vstop (Sig.CAR_VSTOP n.val) }

/-- Whether R317 refuses a MOVE as taken. -/
def moveOutside (m : MoveArgs) : Bool :=
  m.vmax == 0 || m.acc == 0 || m.dec == 0 || decide (m.vmax < m.vstart) || decide (m.vmax < m.vstop) ||
    (match m.kind with
      | 0 => decide (m.target < -2147483648) || decide (2147483647 < m.target)
      | 1 => decide (2 ^ 47 - 1 < m.target.natAbs)
      | _ => decide (m.vmax < m.target.natAbs))

/-- The status of a MOVE for an axis (R152, R156, R160, R317). -/
def moveStatus (s : State) (r : Req) (m : MoveArgs) (n : Axis) : Nat :=
  if 2 < m.kind ∨ 4 < m.cls ∨ (m.waitDone = true ∧ aggregated r opMove = true) then stRange
  else if axSt s n ≠ .position then stNotInState
  else if m.cls ≤ 1 ∧ roleOf s n ≠ 0 then stRefusedSafety
  else if moveOutside (moveTaken s n m) then stRange
  else stOk

/-- The integer part of Φ at the next profile clock, at which a trigger given now is taken (R317, R320). -/
def nextPos (s : State) (n : Axis) : Int := carPos (if axSt s n = .position then carAdvance s n else s) n

/-- A MOVE as Caramel takes it, with its start scale (R317, R467). -/
def moveCmd (s : State) (n : Axis) (m : MoveArgs) (scale : Rat) : CarCmd where
  kind := if m.kind = 2 then 2 else 1
  target := if m.kind = 0 then nextPos s n + signed32 (m.target - nextPos s n) else nextPos s n + m.target
  vTarget := if m.kind = 2 then (m.target : Rat) else 0
  vMax := (m.vmax : Rat)
  acc := (m.acc : Rat)
  dec := (m.dec : Rat)
  jerk := (m.jerk : Rat) * 256
  vStart := (m.vstart : Rat)
  vStop := (m.vstop : Rat)
  quick := false
  cls := m.cls
  scale := scale
  ticks := 0
  isMove := true

/-- Whether a new MOVE or STOP replaces a command whose answer waits: a MOVE with WAIT_DONE, or a command whose replan has not started
(R156, R174). -/
def replaced (s : State) (n : Axis) (w : Wait) : Bool :=
  let early := match (s.car[n]).replan with
    | some sw => decide (s.clk.tb + 800 < sw)
    | none => true
  (w.opcode == opMove || w.opcode == opStop) && decide (w.axis = some n) &&
    (w.goal == 0 || w.goal == 3 || ((w.goal == 2 || w.goal == 4) && early) || (w.opcode == opMove && (w.goal == 1 || w.goal == 4)))

/-- What a new MOVE or STOP ends on its axis (R156). -/
def endOldMotion (s : State) (n : Axis) : State :=
  let s := endWaits s (replaced s n) (fun _ _ => (stAborted, []))
  dropDeferred s (fun d => d.cmd.isSome && d.axes.contains n) stAborted

/-- The demand of a MOVE on some axes, per group (R467). -/
def moveNeeds (s : State) (xs : List (Axis × MoveArgs)) : List (Fin 4 × Rat) :=
  groupNeeds s (xs.map (fun x => (railOf x.1, moveNeed s x.1 (moveCmd s x.1 x.2 1))))

/-- Caramel told to move, its answer waiting for the switch clock or the target (R319, R325, R326). -/
def startMove (s : State) (r : Req) (n : Axis) (m : MoveArgs) (scale : Rat) : State :=
  let s := reportTarget s n
  let s := modHcAx s n (fun h => { h with moveCls := some m.cls })
  let c := moveCmd s n m scale
  let s := addWait s ⟨r, opMove, some n, if m.waitDone then 3 else 0, 0⟩
  carTrigger (modCar s n (fun k => { k with next := some c })) n

/-- A MOVE started on its axes; one of class 2 to 4 takes its share of the spare power (R467). -/
def startMoves (s : State) (r : Req) (cls : Nat) (xs : List (Axis × MoveArgs)) : State :=
  if cls < 2 then forEach xs s (fun s x => startMove s r x.1 x.2 1)
  else
    let needs := moveNeeds s xs
    let scale (n : Axis) : Rat :=
      match needs.find? (fun y => decide (y.1 = groupRep s (railOf n))) with
      | some y => rootOf (startShare s cls y)
      | none => 1
    forEach xs (takeNeeds s cls needs) (fun s x => startMove s r x.1 x.2 (scale x.1))

/-- The class of a queued entry (R468). -/
def entryCls (d : Deferred) : Nat :=
  match d.cmd with
  | some m => m.cls
  | none => 4

/-- The queue with an entry in its place: by class, then by arrival (R468). -/
def insertEntry (d : Deferred) : List Deferred → List Deferred
  | [] => [d]
  | x :: xs => if entryCls d < entryCls x then d :: x :: xs else x :: insertEntry d xs

/-- The place of a new entry in the queue, counted from 1 (R154, R468). -/
def queuePos (s : State) (d : Deferred) : Nat := (s.rt.defq.filter (fun x => decide (entryCls x ≤ entryCls d))).length + 1

/-- A command put into the deferral queue. -/
def deferEntry (s : State) (d : Deferred) : State := { s with rt := { s.rt with defq := insertEntry d s.rt.defq } }

/-- Whether a new MOVE of class 2 to 4 starts at once (R450, R467, R468). -/
def moveFits (s : State) (cls : Nat) (xs : List (Axis × MoveArgs)) : Bool :=
  !reserveLow s && !queueAhead s cls && needsFit s cls (moveNeeds s xs)

/-- The result of an axis whose MOVE is refused. -/
def moveRefusal (s : State) (n : Axis) (st : Nat) : TRes := ⟨8 * ringId s + n.val, st, if st = stNotInState then (axSt s n).code else 0⟩

/-- A status given to the axes that take a MOVE, with the refusals of the others. -/
def answerMove (s : State) (r : Req) (go : List Axis) (no : List TRes) (st detail : Nat) (payload : List Byte) : State :=
  let s := if st = stBusyDeferred then s else latch s r
  if aggregated r opMove then aggAdd s r (go.map (fun n => ⟨8 * ringId s + n.val, st, detail⟩) ++ no)
  else answer s r opMove st payload

/-- A MOVE that is not barred: refused per axis, started, deferred as one, or expired where the queue is full (R160, R163, R467). -/
def moveRun (s : State) (r : Req) (m : MoveArgs) : State :=
  let ns := selAxes r opMove
  let go := ns.filter (fun n => moveStatus s r m n == stOk)
  let no := (ns.filter (fun n => moveStatus s r m n != stOk)).map (fun n => moveRefusal s n (moveStatus s r m n))
  if go.isEmpty then
    runAx s r opMove (fun s n =>
      let st := moveStatus s r m n
      if st = stNotInState then (s, ansNotInState s n) else (s, ansSt st))
  else
    let s := if aggregated r opMove then aggAdd (aggOpen s r opMove) r no else s
    let xs := go.map (fun n => (n, moveTaken s n m))
    let s' := forEach go s endOldMotion
    if m.cls < 2 ∨ moveFits s' m.cls xs = true then startMoves s' r m.cls xs
    else if 64 ≤ s'.rt.defq.length then answerMove s r go [] stExpired 0xFFFF (expiredPayload opMove 3)
    else
      let d : Deferred := ⟨r, some m, go, xs.map Prod.snd, [], s.clk.us⟩
      let pos := queuePos s' d
      answerMove (deferEntry s' d) r go [] stBusyDeferred pos (movePayload 0 pos)

/-- MOVE (R156, R163, R317, R325, R467). -/
def execMove (r : Req) (m : MoveArgs) (s : State) : Host.Outcome State Fault Refusal :=
  if !serves s then .next s
  else if lateReq s r || commandBar s opMove false != stOk then .next (axCmd s r opMove false (fun s _ => (s, ansSt stOk)))
  else .next (moveRun (unhand s r) r m)

/-! ### STOP (R156, R300, R325) -/

/-- A STOP of Caramel: a replan, and where it is idle standstill at once, there where it stands (R300, R319, R325). -/
def stopMotion (s : State) (r : Req) (n : Axis) (kind : Nat) (wait : Bool) : State × Ans :=
  let c := s.car[n]
  let s := modHcAx s n (fun h => { h with moveCls := none })
  if c.cmd.isNone && c.segs.isEmpty && c.next.isNone && c.taking.isNone then
    let s := setI (modCar s n (fun c => { c with arrived := false })) (Sig.CAR_TARGET n.val) (carPos s n)
    (carTrigger (evt s (48 + n.val)) n, ansOk (movePayload 0 0))
  else
    let cmd := stopCmd s n (kind == 1)
    let s := addWait s ⟨r, opStop, some n, if wait then 3 else 0, 0⟩
    (carTrigger (modCar s n (fun k => { k with next := some cmd })) n, ansLater)

/-- PLAN_US of a STOP of a set-point: the time of its ramp from `x` to 0 at a rate per second; a rate of 0 steps (R154, R300, R305). -/
def rampUs (n : Axis) (x rate : Rat) : Nat :=
  if rate = 0 then 0 else (clampInt (narrow (Sig.CAR_REMAIN_US n.val) (absRat x / rate * 1000000)) 0 0xFFFFFFFF).toNat

/-- A STOP of a set-point with its PLAN_US: with WAIT_DONE it is answered when the reference reaches 0 (R300). -/
def stopRef (s : State) (r : Req) (n : Axis) (wait there : Bool) (us : Nat) : State × Ans :=
  if there then (s, ansOk (movePayload 0 0))
  else if wait then (addWait s ⟨r, opStop, some n, 5, us⟩, ansLater)
  else (s, ansOk (movePayload us 0))

/-- The rate of a STOP in SPEED, in turn/s² (R300, R325). -/
def stopRateOf (s : State) (n : Axis) (kind : Nat) : Rat :=
  let dec := rgN s (Sig.CAR_DEC n.val)
  ((if kind = 1 then quickRate (rgN s (Sig.HC_DCAP n.val)) dec else dec : Nat) : Rat) / 65536

/-- STOP for one axis (R156, R300). -/
def stopAns (s : State) (r : Req) (n : Axis) (kind : Nat) (wait : Bool) : State × Ans :=
  if 1 < kind ∨ (wait = true ∧ aggregated r opStop = true) then (s, ansSt stRange)
  else
    match axSt s n with
    | .fault | .safeShort => (s, ansNotInState s n)
    | .disabled | .precharge => (s, ansOk (movePayload 0 0))
    | .opn =>
      let s := endOldMotion s n
      (setI (setI s (Sig.LP_VD_OL n.val) 0) (Sig.LP_VQ_OL n.val) 0, ansOk (movePayload 0 0))
    | .torque =>
      let s := setI (endOldMotion s n) (Sig.LP_IQ_REF n.val) 0
      let ref := (s.loop[n]).bankA.iqRef
      stopRef s r n wait (decide (ref = some 0)) (rampUs n (ref.getD (s.loop[n]).iq) (rgN s (Sig.LP_IQ_SLEW n.val) * 1000))
    | .position => stopMotion (endOldMotion s n) r n kind wait
    | _ =>
      let s := endOldMotion s n
      if loopState s n = .speed then
        let s := setI s (Sig.LP_SPD_REF n.val) 0
        let ref := (s.loop[n]).bankA.wRef
        let there := decide (ref = some 0)
        let s := modLoop s n (fun l => { l with stopRate := if there then none else some (stopRateOf s n kind) })
        stopRef s r n wait there (rampUs n (ref.getD (s.loop[n]).speed) (stopRateOf s n kind))
      else (s, ansOk (movePayload 0 0))

/-- STOP (R156, R300, R325). -/
def execStop (r : Req) (kind : Nat) (waitDone : Bool) (s : State) : Host.Outcome State Fault Refusal :=
  if serves s then .next (axCmd s r opStop false (fun s n => stopAns s r n kind waitDone)) else .next s

/-! ### PROBE_COUPLING (R455, R467, R588) -/

/-- Whether a probe starts at once, but for the queue (R450, R455, R467). -/
def probeFits (s : State) : Bool := s.hc.probe.isNone && !reserveLow s && probeReady s && needsFit s 4 (probeNeeds s)

/-- A probe started for a request, with its note (R455, R588). -/
def probeNow (s : State) (r : Req) (note : List Byte) : State :=
  let s := if note.isEmpty then s else coupleNote s note
  beginProbe (takeNeeds s 4 (probeNeeds s)) (some r)

/-- PROBE_COUPLING for its request. -/
def probeAns (s : State) (r : Req) (noteOnly : Bool) (note : List Byte) : State × Ans :=
  if 64 < note.length then (s, ansSt stRange)
  else if noteOnly then (coupleNote s note, ansOk (mohmBytes noMohm))
  else if probeFits s && !queueAhead s 4 then (probeNow s r note, ansLater)
  else if 64 ≤ s.rt.defq.length then (s, ⟨stExpired, expiredPayload opProbe 3, 0xFFFF, false⟩)
  else
    let d : Deferred := ⟨r, none, [], [], note, s.clk.us⟩
    let pos := queuePos s d
    (deferEntry s d, ⟨stBusyDeferred, leBytes 4 0 ++ leBytes 1 pos ++ zeros 3, pos, false⟩)

/-- PROBE_COUPLING (R455). -/
def execProbeCoupling (r : Req) (noteOnly : Bool) (note : List Byte) (s : State) : Host.Outcome State Fault Refusal :=
  if serves s then .next (devCmd s r opProbe false (fun s => probeAns s r noteOnly note)) else .next s

/-! ### The deferral queue (R163, R467, R468) -/

/-- Whether a queued entry can start now (R450, R467). -/
def entryFits (s : State) (d : Deferred) : Bool :=
  match d.cmd with
  | some m => !reserveLow s && needsFit s m.cls (moveNeeds s (d.axes.zip d.lims))
  | none => probeFits s

/-- The request under which a queued entry starts, with its own collection where it is aggregated (R160). -/
def openLate (s : State) (d : Deferred) : State × Req :=
  let op := if d.cmd.isSome then opMove else opProbe
  let r : Req := { d.req with taken := s.clk.us }
  if aggregated d.req op then
    let ts := if d.cmd.isSome then d.axes.map (fun n => 8 * ringId s + n.val) else [8 * ringId s]
    ({ s with rt := { s.rt with aggs := s.rt.aggs ++ [⟨r, op, ts, [], true⟩] } }, r)
  else (s, r)

/-- A queued entry started. -/
def startEntry (s : State) (d : Deferred) : State :=
  let x := openLate s d
  match d.cmd with
  | some m => startMoves x.1 x.2 m.cls (d.axes.zip d.lims)
  | none => probeNow x.1 x.2 d.note

/-- The queue scanned in order; the first entry that does not fit ends it (R468). -/
def scanQueue : Nat → State → State
  | 0, s => s
  | k + 1, s =>
    match s.rt.defq with
    | [] => s
    | d :: ds => if entryFits s d then scanQueue k (startEntry { s with rt := { s.rt with defq := ds } } d) else s

/-- DEFERRED_START: after the grants of a tick are computed, queued entries start in order while they fit (R468). -/
def execDeferredStart (s : State) : Host.Outcome State Fault Refusal :=
  if inRun s && s.hc.scanDue && !s.dbg.haltMp then
    .next (scanQueue s.rt.defq.length { s with hc := { s.hc with scanDue := false } })
  else .next s

/-- The instant at which a queued entry expires: its DEADLINE, or DEFER_MAX where that is 0 (R163). -/
def entryEnds (s : State) (d : Deferred) : Nat :=
  if d.req.deadline = 0 then d.since + rgN s Sig.DEFER_MAX else d.req.taken + d.req.deadline

/-- The entry that expires first. -/
def firstToEnd (s : State) : List Deferred → Option Deferred
  | [] => none
  | d :: ds =>
    match firstToEnd s ds with
    | some e => if entryEnds s e < entryEnds s d then some e else some d
    | none => some d

/-- An entry answered EXPIRED with its cause, and EV80 (R163). -/
def expireEntry (s : State) (d : Deferred) : State :=
  let cause := if d.req.deadline = 0 then 2 else 1
  let op := if d.cmd.isSome then opMove else opProbe
  let s := evt (latch s d.req) 80
  if aggregated d.req op then
    let ts := if d.cmd.isSome then d.axes.map (fun n => 8 * ringId s + n.val) else [8 * ringId s]
    answerAgg s d.req op (ts.map (fun t => ⟨t, stExpired, cause⟩)) true
  else answer s d.req op stExpired (expiredPayload op cause)

/-- DEFERRED_EXPIRY: the queued entry whose time runs out first expires (R163). -/
def execDeferredExpiry (s : State) : Host.Outcome State Fault Refusal :=
  match firstToEnd s s.rt.defq with
  | none => .next s
  | some d =>
    if serves s then
      let s := toUs s (entryEnds s d)
      .next (expireEntry { s with rt := { s.rt with defq := s.rt.defq.erase d } } d)
    else .next s

/-! ### ABORT (R165, R166) -/

/-- Whether a request is the one that an ABORT names. -/
def named (ring tag : Nat) (r : Req) : Bool := r.ring == ring && r.tag == tag

/-- A winning abort of a running MOVE: a planned stop of its axis, as STOP KIND 0 (R166). -/
def abortMotion (s : State) (n : Axis) : State :=
  if axSt s n = .position then
    let cmd := stopCmd s n false
    let s := modHcAx s n (fun h => { h with moveCls := none })
    carTrigger (modCar s n (fun k => { k with next := some cmd })) n
  else discardPlan s n

/-- The axes on which a MOVE that an ABORT names has its answer pending. -/
def moveAxes (s : State) (ring tag : Nat) : List Axis :=
  (s.rt.waits.filter (fun w => named ring tag w.req && w.opcode == opMove)).filterMap Wait.axis

/-- What a winning abort does to its target (R166): its answers become ABORTED, a queued command leaves the queue, a running MOVE stops, a
note is not committed, an update ends without a record, a probe ramps down. -/
def abortTarget (s : State) (ring tag : Nat) : State :=
  let s := forEach (moveAxes s ring tag) s abortMotion
  let s := endWaits s (fun w => named ring tag w.req) (fun _ _ => (stAborted, []))
  let s := dropDeferred s (fun d => named ring tag d.req) stAborted
  let notes := s.rcd.noteWaits.filter (fun x => named ring tag x.1)
  let held := s.rcd.staged.filterMap (fun x => x.req.filter (named ring tag))
  let s := { s with rcd := { s.rcd with
    noteWaits := s.rcd.noteWaits.filter (fun x => !named ring tag x.1)
    staged := s.rcd.staged.filter (fun x => (x.req.filter (named ring tag)).isNone) } }
  let s := forEach (notes.map Prod.fst ++ held) s (fun s r => finishDev s r opRecNote stAborted [])
  let s := match s.upd.commit.filter (named ring tag) with
    | some r => finishDev (setUpd { s with upd := ⟨none, false, false⟩ } 1) r opImgCommit stAborted []
    | none => s
  let s := match (s.hc.probe.bind Probe.req).filter (named ring tag) with
    | some r => finishDev (stopProbe s) r opProbe stAborted []
    | none => s
  match s.rt.handed with
  | some i =>
    match (reqOf i).filter (named ring tag) with
    | some r =>
      let s := { s with rt := { s.rt with handed := none } }
      if axisOpcode (opOf i) then runAx s r (opOf i) (fun s _ => (s, ansSt stAborted)) else finishDev s r (opOf i) stAborted []
    | none => s
  | none => s

/-- ABORT for its request (R165): the target looked up among the frames the device remembers; a completion up to the instant at which the
ABORT was taken wins, else the ABORT does. -/
def abortAns (s : State) (r : Req) (tag ring : Nat) : State × Ans :=
  if 15 < ring then (s, ansSt stRange)
  else
    let key := ringKey r ring
    let mine (t : Taken) : Bool := t.ring == r.ring && t.tag == r.tag && t.opcode == opAbort && t.done.isNone
    match s.rt.taken.find? (fun t => t.ring == key && t.tag == tag && !mine t) with
    | none => (s, ansSt stRange)
    | some t =>
      let won : State × Ans :=
        let s := abortTarget s key tag
        ({ s with rt := { s.rt with taken := latchIn r.taken key tag s.rt.taken } }, ansOk (leBytes 4 (r.taken % 2 ^ 32)))
      match t.done with
      | some d => if usAtOrBefore d r.taken then (s, ⟨stDoneBeforeAbort, leBytes 4 (d % 2 ^ 32), 0, false⟩) else won
      | none => won

/-- ABORT (R165, R166). -/
def execAbort (r : Req) (tag ring : Nat) (s : State) : Host.Outcome State Fault Refusal :=
  if serves s then .next (devCmd s r opAbort false (fun s => abortAns s r tag ring)) else .next s

end Sys2Proof.Machine
end

