-- ==== Sys2Proof/Machine/Link.lean ====
section
/-! DEFINITION. The host link (chapter 5): SPI transactions on rings and link registers (R113 to R127, R140), the taking of frames (R128 to
R137, R151, R152), and the frames, reports and time limits of commands that cross the Emquin ring (R159 to R162, R169). -/

namespace Sys2Proof.Machine

/-! ### Transactions (R115, R116, R120) -/

/-- A transaction that breaks a link rule: PROTO_ERR, its code, EV89 (R120, R139). -/
def protoError (s : State) (code : Nat) : State := evt { s with link := { s.link with protoErr := true, peCode := code } } 89

/-- Whether the device serves transactions: READY is high (R115). -/
def linkUp (s : State) : Bool := linkPowered s && s.pwr.ready

/-- OP of an instruction byte (R116). -/
def txOp (instr : Nat) : Nat := instr / 16 % 4

/-- INDEX of an instruction byte. -/
def txIndex (instr : Nat) : Nat := instr % 16

/-- WIDTH of an instruction byte. -/
def txWidth (instr : Nat) : Nat := instr / 64 % 4

/-- The PE_CODE of a ring data operation; none where it is in order (R120). -/
def dataError (s : State) (instr ring off : Nat) (ok : Bool) : Option Nat :=
  if txWidth instr = 3 then some 1
  else if txIndex instr ≠ 0 then some 2
  else if ok = false then some 3
  else if off % 4 ≠ 0 ∨ (ringAt s ring).bytes ≤ off then some 4
  else none

/-- RING_DATA_WRITE: whole words stored in a request ring, a trailing part-word discarded (R113, R119, R120). -/
def execRingDataWrite (instr ring off : Nat) (data : List Byte) (s : State) : Host.Outcome State Fault Refusal :=
  if linkUp s && txOp instr == 2 then
    match dataError s instr ring off (decide (ring ≤ 15)) with
    | some c => .next (protoError s c)
    | none =>
      let n := data.length / 4 * 4
      let s := { s with link := { s.link with buf := memStoreRing s.link.buf (ringBase ring) (ringAt s ring).bytes off (data.take n) } }
      .next (if n < data.length then protoError s 6 else s)
  else .next s

/-- Whether the host may read the data of a ring (R120). -/
def readableRing (ring : Nat) : Bool := (decide (16 ≤ ring) && decide (ring ≤ 31)) || (decide (36 ≤ ring) && decide (ring ≤ 43))

/-- The value of a link register as the end of the address phase captures it (R118, R121, R122). -/
def linkReg (s : State) (index ring : Nat) : Nat :=
  match index with
  | 0 => linkId s
  | 1 => linkStat s
  | 2 => evtWord s 0
  | 3 => evtWord s 1
  | 4 => evtWord s 2
  | 5 => evtMask s 0
  | 6 => evtMask s 1
  | 7 => evtMask s 2
  | 8 => (ringAt s ring).head
  | 9 => (ringAt s ring).tail
  | _ => ringCfg s ring

/-- The PE_CODE of a register read; none where it is in order (R117, R120). -/
def regReadError (instr ring : Nat) : Option Nat :=
  if txWidth instr = 3 then some 1
  else if 10 < txIndex instr then some 2
  else if 8 ≤ txIndex instr ∧ hostVisible ring = false then some 3
  else none

/-- The bytes that the device drives in a data phase. -/
def drive (s : State) (bs : List Byte) : State := { s with link := { s.link with out := bs } }

/-- A read that the device does not serve: the pull-ups give 0xFF bytes (R115, R120). -/
def undriven (s : State) (len : Nat) : State := drive s (List.replicate len 0xFF)

/-- A register read: its four bytes, repeated for as long as SCK runs (R118). -/
def regReadTx (s : State) (instr ring len : Nat) : State :=
  match regReadError instr ring with
  | some c => protoError (undriven s len) c
  | none =>
    let v := leBytes 4 (linkReg s (txIndex instr) ring)
    drive s ((List.range len).map (fun i => v.getD (i % 4) 0))

/-- RING_DATA_READ: a read of `len` bytes, of a response or subscription ring (OP 3) or of a link register (OP 0). A read that breaks a rule,
or that comes while READY is low, returns 0xFF bytes (R115, R118 to R120). -/
def execRingDataRead (instr ring off len : Nat) (s : State) : Host.Outcome State Fault Refusal :=
  if txOp instr ≠ 0 ∧ txOp instr ≠ 3 then .next s
  else if !linkUp s then .next (undriven s len)
  else if txOp instr = 0 then .next (regReadTx s instr ring len)
  else
    match dataError s instr ring off (readableRing ring) with
    | some c => .next (protoError (undriven s len) c)
    | none => .next (drive s (memBytesRing s.link.buf (ringBase ring) (ringAt s ring).bytes off len))

/-! ### Frames in the request rings (R128 to R131) -/

/-- The header at RING_TAIL of a request ring. -/
def headHdr (s : State) (r : Nat) : Hdr :=
  let g := ringAt s r
  parseHdr (memBytesRing s.link.buf (ringBase r) g.bytes g.tail 16)

/-- Whether the next frame of a request ring lies wholly below RING_HEAD; of one whose LENGTH is too great, its header (R128, R129). -/
def frameThere (s : State) (r : Nat) : Bool :=
  let g := ringAt s r
  let h := headHdr s r
  decide (16 ≤ g.used) && (decide (1008 < h.length) || decide (frameLen h.length ≤ g.used))

/-- Whether a RESP_RING is one of R137. -/
def respRingOk (x : Nat) : Bool := x == 0 || (decide (16 ≤ x) && decide (x ≤ 31))

/-- The response ring that a frame names: the paired ring for 0, and where the field is not valid (R129, R136). -/
def respRingOf (r x : Nat) : Nat := if x ≠ 0 ∧ respRingOk x = true then x else r + 16

/-- Whether the response ring of the next frame of a ring has room for a response of 1 028 bytes (R130). -/
def respRoom (s : State) (r : Nat) : Bool := (ringAt s (respRingOf r (headHdr s r).b12)).room 1028

/-- The rings in the order in which they are served: PRIO first, and from the one after the ring served last (R131). -/
def serveOrder (s : State) : List Nat :=
  let order := (List.range 16).map (fun i => (s.link.lastServed + 1 + i) % 16)
  order.filter (fun r => (ringAt s r).prio) ++ order.filter (fun r => !(ringAt s r).prio)

/-- The request rings that wait for room: STALL (R130). -/
def restall (s : State) (rings : List Nat) : State :=
  { s with link := { s.link with stalled := rings.filter (fun r => frameThere s r && !respRoom s r) } }

/-! ### Link registers (R118, R121, R122, R125, R126) -/

/-- The bytes of all host-visible rings (R124). -/
def totalRings (s : State) : Nat := sumNat ((List.range 44).map (fun r => if hostVisible r then (ringAt s r).bytes else 0))

/-- A write of RING_HEAD: the host is the producer of the request rings (R126). -/
def writeHead (s : State) (r v : Nat) : State :=
  if 15 < r ∨ v % 4 ≠ 0 ∨ (ringAt s r).bytes ≤ v then protoError s 5 else modRing s r (fun g => { g with head := v })

/-- A write of RING_TAIL: the host is the consumer of the response and subscription rings; room for frames that wait (R126, R130). -/
def writeTail (s : State) (r v : Nat) : State :=
  if r ≤ 15 ∨ v % 4 ≠ 0 ∨ (ringAt s r).bytes ≤ v then protoError s 5
  else
    let s := modRing s r (fun g => { g with tail := v })
    let s := if s.dbg.haltMp then s else postBlocked s
    restall s s.link.stalled

/-- A write of RING_CFG: a change of SIZE is accepted only for an empty ring within the buffer; a refused one leaves the whole write without
effect (R122, R125). -/
def writeRingCfg (s : State) (r w : Nat) : State :=
  let g := ringAt s r
  let size := w / 16 % 4
  let cfg (g : Ring) : Ring :=
    { g with prio := if r ≤ 15 then bitOf w 7 else g.prio, drop := if bitOf w 6 && decide (36 ≤ r) then 0 else g.drop }
  if size = g.size then modRing s r cfg
  else if size = 3 ∨ g.empty = false ∨ 262144 < totalRings s - g.bytes + 4096 * 2 ^ size then protoError s 7
  else modRing s r (fun g => cfg { g with size := size, head := 0, tail := 0 })

/-- A write of EVTk: the sticky bits written 1 are cleared; those that occur on the same edge stay set (R140). -/
def writeEvt (s : State) (k w : Nat) (raised : List Nat) : State :=
  let keep := (List.range 96).filter (fun i => bitOf s.link.events i && !(decide (i / 32 = k) && bitOf w (i % 32)))
  let s := { s with link := { s.link with events := keep.foldl (fun m i => m ||| 2 ^ i) 0 } }
  forEach (raised.filter (fun i => decide (i < 96) && !isLevel i)) s evt

/-- A write of EVTMASKk. -/
def writeMask (s : State) (k w : Nat) : State :=
  { s with link := { s.link with masks := s.link.masks - evtMask s k * 2 ^ (32 * k) + w % 2 ^ 32 * 2 ^ (32 * k) } }

/-- The effect of a register write of a word (R121). -/
def writeLink (s : State) (index ring w : Nat) (raised : List Nat) : State :=
  match index with
  | 0 => s
  | 1 =>
    { s with link := { s.link with protoErr := s.link.protoErr && !bitOf w 3, resync := s.link.resync && !bitOf w 4 } }
  | 2 => writeEvt s 0 w raised
  | 3 => writeEvt s 1 w raised
  | 4 => writeEvt s 2 w raised
  | 5 => writeMask s 0 w
  | 6 => writeMask s 1 w
  | 7 => writeMask s 2 w
  | 8 => if hostVisible ring then writeHead s ring (w % 65536) else protoError s 3
  | 9 => if hostVisible ring then writeTail s ring (w % 65536) else protoError s 3
  | _ => if hostVisible ring then writeRingCfg s ring w else protoError s 3

/-- A register write as a transaction (R118, R120). -/
def linkWrite (s : State) (instr ring : Nat) (data : List Byte) (raised : List Nat) : State :=
  if txWidth instr = 3 then protoError s 1
  else if 10 < txIndex instr then protoError s 2
  else if data.length ≠ 4 then protoError s 8
  else writeLink s (txIndex instr) ring (ofLe data) raised

/-- Whether an instruction byte is a register write, of one of some registers or with an index that none has. -/
def writesReg (instr : Nat) (rs : List Nat) : Bool := txOp instr == 1 && rs.contains (txIndex instr)

/-- LINK_REG_WRITE: a register write to any link register (R121). -/
def execLinkRegWrite (instr ring : Nat) (data : List Byte) (s : State) : Host.Outcome State Fault Refusal :=
  if linkUp s && txOp instr == 1 then .next (linkWrite s instr ring data []) else .next s

/-- RING_HEAD_WRITE (R126 to R128). -/
def execRingHeadWrite (instr ring : Nat) (data : List Byte) (s : State) : Host.Outcome State Fault Refusal :=
  if linkUp s && writesReg instr [8] then .next (linkWrite s instr ring data []) else .next s

/-- RING_TAIL_WRITE (R126, R130, R139, R141). -/
def execRingTailWrite (instr ring : Nat) (data : List Byte) (s : State) : Host.Outcome State Fault Refusal :=
  if linkUp s && writesReg instr [9] then .next (linkWrite s instr ring data []) else .next s

/-- RING_CFG_SIZE: a write of RING_CFG (R125). -/
def execRingCfgSize (instr ring : Nat) (data : List Byte) (s : State) : Host.Outcome State Fault Refusal :=
  if linkUp s && writesReg instr [10] then .next (linkWrite s instr ring data []) else .next s

/-- CLR_DROP: a write of RING_CFG with CLR_DROP set (R122). -/
def execClrDrop (instr ring : Nat) (data : List Byte) (s : State) : Host.Outcome State Fault Refusal :=
  if linkUp s && writesReg instr [10] && bitOf (ofLe data) 6 then .next (linkWrite s instr ring data []) else .next s

/-- EVT_CLEAR: a W1C write of EVT0, EVT1 or EVT2, with the events that occur on the same edge (R140, R141). -/
def execEvtClear (instr ring : Nat) (data : List Byte) (raised : List Nat) (s : State) : Host.Outcome State Fault Refusal :=
  if linkUp s && writesReg instr [2, 3, 4] then .next (linkWrite s instr ring data raised) else .next s

/-! ### What a frame commands (R151, R152) -/

/-- Whether an opcode is one that R151 lists. -/
def knownOp (op : Nat) : Bool :=
  [0x01, 0x02, 0x03, 0x04, 0x10, 0x11, 0x12, 0x13, 0x14, 0x15, 0x18, 0x20, 0x21, 0x30, 0x31, 0x32, 0x38, 0x40, 0x41].contains op

/-- Whether R151 gives an opcode this AXIS_SEL and DEV_SEL. -/
def selectionOk (op axisSel devSel : Nat) : Bool :=
  (axisOpcode op || axisSel == 0xFF) &&
    (devSel != 0x1F || [0x02, 0x10, 0x11, 0x12, 0x13, 0x14, 0x15, 0x40, 0x41].contains op)

/-- A checkpoint that passes: what a command carries until it is carried out. -/
def Check.pass : Check := ⟨none, false, false⟩

/-- A signed field of 8 bytes. -/
def signed64 (bs : List Byte) (off : Nat) : Int := (BitVec.ofNat 64 (fieldAt bs off 8)).toInt

/-- Pairs of words. -/
def pairsOf : List Word → List (Word × Word)
  | a :: b :: ws => (a, b) :: pairsOf ws
  | _ => []

/-- The payload of a SIG_READ, SIG_WRITE, SIG_SUBSCRIBE or SIG_LIMIT as a command; none where it is malformed (R152). -/
def parseSignal (r : Req) (op : Nat) (p : List Byte) : Option Instr :=
  let u (off n : Nat) : Nat := fieldAt p off n
  match op with
  | 0x01 =>
    let n := u 0 2
    if 4 ≤ p.length ∧ u 2 2 ≤ 1 ∧ 1 ≤ n ∧ n ≤ (if u 2 2 = 1 then 125 else 250) ∧ p.length = 4 + 4 * n then
      some (.sigRead r (u 2 2 == 1) (wordsOf n (p.drop 4)))
    else none
  | 0x02 =>
    let n := u 0 2
    if 4 ≤ p.length ∧ u 2 2 = 0 ∧ 1 ≤ n ∧ n ≤ 125 ∧ p.length = 4 + 8 * n then
      some (.sigWrite r (pairsOf (wordsOf (2 * n) (p.drop 4))) [] false)
    else none
  | 0x03 =>
    let n := u 3 1
    if 12 ≤ p.length ∧ n ≤ 32 ∧ p.length = 12 + 4 * n then
      some (.sigSubscribe r (u 0 1) (u 1 1) (u 2 1) (u 4 4) (u 8 4) (wordsOf n (p.drop 12)))
    else none
  | _ =>
    if p.length = 24 ∧ u 1 1 ≤ 1 ∧ u 3 1 = 0 ∧ u 22 2 = 0 then
      some (.sigLimit r (u 0 1) (u 1 1 == 1) (u 2 1) (wordAt p 4) (wordAt p 8) (wordAt p 12) (wordAt p 16) (u 20 2))
    else none

/-- The payload of an axis command, GROUP_SET, MODE_SET or ABORT as a command (R152). -/
def parseAxis (r : Req) (op : Nat) (p : List Byte) : Option Instr :=
  let u (off n : Nat) : Nat := fieldAt p off n
  match op with
  | 0x10 => if p.length = 4 ∧ u 1 1 ≤ 1 ∧ u 2 2 = 0 then some (.axisState r (u 0 1) (u 1 1 == 1) Check.pass) else none
  | 0x11 =>
    if p.length = 36 ∧ u 2 1 ≤ 1 ∧ u 3 1 = 0 then
      some (.move r ⟨u 0 1, u 1 1, u 2 1 == 1, signed64 p 4, u 12 4, u 16 4, u 20 4, u 24 4, u 28 4, u 32 4⟩)
    else none
  | 0x12 => if p.length = 4 ∧ u 1 1 ≤ 1 ∧ u 2 2 = 0 then some (.stop r (u 0 1) (u 1 1 == 1)) else none
  | 0x13 => if p.length = 12 ∧ u 1 3 = 0 then some (.setGains r (u 0 1) (wordAt p 4) (wordAt p 8)) else none
  | 0x14 => if p.length = 4 ∧ u 2 2 = 0 then some (.groupSet r (u 0 1) (u 1 1)) else none
  | 0x15 => if p.length = 8 ∧ u 2 2 = 0 then some (.modeSet r (u 0 1) (u 1 1) (wordAt p 4)) else none
  | _ => if p.length = 4 ∧ u 3 1 = 0 then some (.abort r (u 0 2) (u 2 1)) else none

/-- The payload of any other command (R152). -/
def parseRest (r : Req) (op : Nat) (p : List Byte) : Option Instr :=
  let u (off n : Nat) : Nat := fieldAt p off n
  match op with
  | 0x20 => if p.length = 12 ∧ u 8 1 ≤ 1 ∧ u 9 3 = 0 then some (.recRead r (u 0 4) (u 4 2) (u 6 2) (u 8 1 == 1) 0) else none
  | 0x21 => if 4 ≤ p.length ∧ u 2 2 = 0 ∧ p.length = 4 + u 0 2 then some (.recNote r (p.drop 4)) else none
  | 0x30 => if 8 ≤ p.length ∧ p.length ≤ 1008 ∧ p.length % 4 = 0 then some (.imgWrite r (u 0 4) (p.drop 4)) else none
  | 0x31 => if p.length = 4 ∧ u 0 4 ≤ 1 then some (.imgCommit r (u 0 4 == 1)) else none
  | 0x32 => if p.length = 0 then some (.imgConfirm ⟨r, false⟩) else none
  | 0x38 =>
    let env : FuseEnv := ⟨false, [], [], none, none⟩
    if u 2 2 ≠ 0 then none
    else if u 0 1 = 0 ∧ p.length = 8 then some (.fuseProgram r 0 (u 1 1) [wordAt p 4] [] env)
    else if u 0 1 = 1 ∧ p.length = 84 then some (.fuseProgram r 1 (u 1 1) (wordsOf 4 (p.drop 4)) (p.drop 20) env)
    else none
  | 0x40 => if p.length = 4 ∧ u 0 4 ≤ 3 then some (.selftest r (u 0 4) [] ⟨true, none⟩) else none
  | _ =>
    if 4 ≤ p.length ∧ u 0 1 ≤ 1 ∧ u 2 2 = 0 ∧ u 1 1 ≤ 64 ∧ p.length = 4 + u 1 1 then
      some (.probeCoupling r (u 0 1 == 1) (p.drop 4))
    else none

/-- The command of a frame's payload; none where it is malformed (R152). -/
def parseCmd (r : Req) (op : Nat) (p : List Byte) : Option Instr :=
  if op ≤ 0x04 then parseSignal r op p
  else if op ≤ 0x18 then parseAxis r op p
  else parseRest r op p

/-- Whether the selection of an axis command is empty: a group with mask 0 (R156). -/
def emptyGroup (r : Req) (op : Nat) : Bool := axisOpcode op && r.mask == 0

/-- A command refused with RANGE for every target that the device has in it; a selection without targets is refused as one. -/
def refuseRange (s : State) (r : Req) (op : Nat) : State :=
  if emptyGroup r op then sendResp (countFail (latch s r) r op stRange) r op stRange []
  else if axisOpcode op then runAx s r op (fun s _ => (s, ansSt stRange))
  else runDev s r op (fun s => (s, refusal op stRange))

/-- A frame for this device handed over to the runtime, or refused where its selection or its payload is malformed (R151, R152). -/
def handOver (s : State) (r : Req) (op : Nat) (payload : List Byte) : State :=
  if !selectionOk op r.axisSel r.devSel || emptyGroup r op then
    if r.devSel == 0x1F && !selectionOk op r.axisSel r.devSel then
      sendResp (countFail (latch s r) r op stRange) r op stRange (refusal op stRange).payload
    else refuseRange s r op
  else
    match parseCmd r op payload with
    | some i => { s with rt := { s.rt with handed := some i } }
    | none => refuseRange s r op

/-! ### Taking frames (R129, R131, R137, R160, R161) -/

/-- A frame remembered among the last 64 of its ring (R165). -/
def remember (s : State) (ring tag op : Nat) : State :=
  let mine := (s.rt.taken.filter (fun t => t.ring == ring)).take 63
  { s with rt := { s.rt with taken := ⟨ring, tag, op, none⟩ :: (mine ++ s.rt.taken.filter (fun t => t.ring != ring)) } }

/-- The rest of a request ring discarded, RESYNC (R129). -/
def resync (s : State) (r : Nat) : State :=
  evt (modRing { s with link := { s.link with resync := true } } r (fun g => { g with tail := g.head })) 90

/-- The request that a header makes, taken from a ring. -/
def reqFrom (s : State) (h : Hdr) (ring resp : Nat) (fwd : Bool) (entry : Nat) : Req where
  ring := ring
  tag := h.tag
  noReply := bitOf h.flags 6
  devSel := h.devSel
  axisSel := h.axisSel
  deadline := h.deadline
  resp := resp
  taken := s.clk.us
  fwd := fwd
  entry := entry
  mask := selMask s h.axisSel

/-- Whether a header taken from a host request ring breaks R137, or its opcode is not listed (R151). -/
def badHeader (h : Hdr) : Bool :=
  bitOf h.flags 7 || bitOf h.flags 5 || bitOf h.flags 4 || h.flags % 16 != 0 || h.b13 != 0 || h.b14 != 0 || !devSelOk h.devSel ||
    !axisSelOk h.axisSel || !respRingOk h.b12 || !knownOp h.opcode

/-- The members of the census that carry a ring ID. -/
def membersOf (s : State) (id : Nat) : Nat := ((censusMembers s).filter (fun m => m.2.1 == id)).length

/-- The stream ring that a SIG_SUBSCRIBE or SIG_LIMIT names. -/
def streamOf (op : Nat) (p : List Byte) : Nat := if op = 0x03 then fieldAt p 1 1 else if op = 0x04 then fieldAt p 2 1 else 0

/-- A frame placed in the forward queues under its request (R561). -/
def sendOn (s : State) (r : Req) (dst : Nat) (bs : List Byte) : State :=
  let due := if r.deadline = 0 then none else some (r.taken + r.deadline)
  forwardBytes s (ringAt s r.ring).prio false dst due (some (r.ring, r.tag)) bs

/-- A frame that names one remote device (R160, R161). -/
def sendRemote (s : State) (r : Req) (op : Nat) (payload bs : List Byte) : State :=
  let refuse (st : Nat) : State := sendResp (countFail (latch s r) r op st) r op st (refusal op st).payload
  if s.emq.mode = 0 ∨ s.emq.mode = 4 ∨ membersOf s r.devSel = 0 then refuse stRange
  else if 1 < membersOf s r.devSel then refuse stNoLead
  else
    let keep := s.rt.delivs.filter (fun d => !(d.req.ring == r.ring && d.req.tag == r.tag && d.dev == r.devSel))
    sendOn { s with rt := { s.rt with delivs := keep ++ [⟨r, op, r.devSel, false, streamOf op payload⟩] } } r r.devSel bs

/-- A frame that R129 and R137 let through, sent where DEV_SEL says (R160, R161). -/
def routeFrame (s : State) (r : Req) (op : Nat) (payload bs : List Byte) : State :=
  if r.devSel = 0x1F then
    let others := selectionOk op r.axisSel r.devSel && !emptyGroup r op && (censusIds s).any (fun d => d != ringId s)
    let s := if others then sendOn (aggOpen s r op) r 0x1F bs else s
    handOver s r op payload
  else if r.devSel = ringId s then handOver s r op payload
  else sendRemote s r op payload bs

/-- The next frame of a request ring taken (R129, R137). -/
def takeFrame (s : State) (ring : Nat) : State :=
  let g := ringAt s ring
  let h := headHdr s ring
  let s := { s with link := { s.link with lastServed := ring }, pwr := { s.pwr with idleUs := s.clk.us } }
  let r := reqFrom s h ring (respRingOf ring h.b12) false (ringId s)
  if 1008 < h.length then sendResp (countFail (resync s ring) r h.opcode stRange) r h.opcode stRange []
  else
    let n := frameLen h.length
    let bs := memBytesRing s.link.buf (ringBase ring) g.bytes g.tail n
    if crc32 (bs.take (n - 4)) ≠ wordAt bs (n - 4) then
      sendResp (countFail (resync s ring) r h.opcode stCrcErr) r h.opcode stCrcErr []
    else
      let s := incR (modRing s ring (fun g => { g with tail := (g.tail + n) % g.bytes })) Sig.CMD_COUNT
      let s := remember s ring h.tag h.opcode
      if badHeader h then
        let q := { r with resp := ring + 16 }
        sendResp (countFail (latch s q) q h.opcode stRange) q h.opcode stRange []
      else routeFrame s r h.opcode ((bs.drop 16).take h.length) bs

/-- FRAME_TAKE: the device takes the next frame by R131 where it handles none (R661); an access whose error cannot be corrected gives no
frame (R533). -/
def execFrameTake (mem : MemCheck) (s : State) : Host.Outcome State Fault Refusal :=
  if serves s && s.pwr.ready && s.rt.handed.isNone then
    let s := restall s (List.range 16)
    match ((serveOrder s).filter (frameThere s)).find? (respRoom s) with
    | none => .next s
    | some ring =>
      let s := memAccess s mem
      .next (match mem with
        | .uncorrectable => s
        | _ => takeFrame s ring)
  else .next s

/-! ### Frames and reports over the Emquin ring (R159 to R161, R169, R561 to R564) -/

/-- The targets of an aggregated payload with their results (R159). -/
def reportOf (p : List Byte) : List TRes :=
  let n := fieldAt p 1 1
  let bad := (List.range n).map (fun i => (⟨fieldAt p (36 + 4 * i) 1, fieldAt p (37 + 4 * i) 1, fieldAt p (38 + 4 * i) 2⟩ : TRes))
  ((List.range 128).filter (fun t => bitOf (fieldAt p 4 16) t)).map (fun t => (bad.find? (fun b => b.t == t)).getD ⟨t, stOk, 0⟩)

/-- The stream frames that a remote device will send for a request answered OK (R169). -/
def noteStream (s : State) (d : Delivery) (p : List Byte) : State :=
  let code := if d.opcode = 0x03 then 0x80 else 0x81
  let tag := fieldAt p 0 1
  if (d.opcode = 0x03 ∨ d.opcode = 0x04) ∧ d.stream ≠ 0 then
    let keep := s.rt.remote.filter (fun x => !(x.1 == d.dev && x.2.1 == code && x.2.2.1 == tag))
    { s with rt := { s.rt with remote := keep ++ [(d.dev, code, tag, d.stream)] } }
  else s

/-- A response of a remote device that answers for itself: into the response ring of its request, unless NO_REPLY suppresses a final OK
(R161, R164, R564). -/
def passResponse (s : State) (d : Delivery) (h : Hdr) (bs : List Byte) : State :=
  let s := if h.b12 = stBusyDeferred then s
    else { latch s d.req with rt := { (latch s d.req).rt with delivs := s.rt.delivs.filter (fun x => decide (x ≠ d)) } }
  let s := if h.b12 = stOk then noteStream s d ((bs.drop 16).take h.length) else s
  if h.b12 = stOk ∧ d.req.noReply = true then s else postBytes s d.req.resp bs

/-- A report of a remote device collected (R160); a device that defers will send a response of its own. -/
def collectReport (s : State) (a : Agg) (src : Nat) (h : Hdr) (p : List Byte) : State :=
  let res := (reportOf p).filter (fun x => decide (x.t / 8 = src) && !(a.got.any (fun y => y.t == x.t)))
  let s := if res.any (fun x => x.status == stBusyDeferred) then
      { s with rt := { s.rt with delivs := s.rt.delivs ++ [⟨a.req, h.opcode, src, true, 0⟩] } }
    else s
  aggAdd s a.req res

/-- A response that arrives over the ring. -/
def takeResponse (s : State) (src : Nat) (h : Hdr) (bs : List Byte) : State :=
  match s.rt.delivs.find? (fun d => d.dev == src && d.req.tag == h.tag && d.opcode == h.opcode) with
  | some d => passResponse s d h bs
  | none =>
    match s.rt.aggs.find? (fun a => a.req.devSel == 0x1F && !a.req.fwd && !a.late && a.req.tag == h.tag && a.opcode == h.opcode) with
    | some a => collectReport s a src h ((bs.drop 16).take h.length)
    | none => s

/-- A stream frame that arrives over the ring: into the ring its request named (R169). -/
def takeStream (s : State) (src : Nat) (h : Hdr) (bs : List Byte) : State :=
  match s.rt.remote.find? (fun x => x.1 == src && x.2.1 == h.opcode && x.2.2.1 == h.tag) with
  | some x => streamBytes s x.2.2.2 bs
  | none => s

/-- A request that arrives over the ring: refused in NO_LEAD (R160, R552), else handed over with the time that is left (R162). -/
def takeForwarded (s : State) (src : Nat) (h : Hdr) (bs : List Byte) : State :=
  let s := { s with pwr := { s.pwr with idleUs := s.clk.us } }
  let r := reqFrom s h (64 + src) (respRingOf 0 h.b12) true src
  let s := remember (incR s Sig.CMD_COUNT) r.ring h.tag h.opcode
  if !knownOp h.opcode then sendResp (countFail (latch s r) r h.opcode stRange) r h.opcode stRange []
  else if s.emq.noLead then
    if axisOpcode h.opcode && r.mask != 0 then runAx s r h.opcode (fun s _ => (s, ansSt stNoLead))
    else runDev s r h.opcode (fun s => (s, refusal h.opcode stNoLead))
  else handOver s r h.opcode ((bs.drop 16).take h.length)

/-- FORWARDED_FRAME: a frame or a report from the device `src` that has arrived whole over the ring (R160, R161, R169). -/
def execForwardedFrame (src : Nat) (bytes : List Byte) (s : State) : Host.Outcome State Fault Refusal :=
  let h := parseHdr bytes
  let n := frameLen h.length
  let drop (s : State) : State := { s with emq := { s.emq with inbox := s.emq.inbox.erase (src, bytes) } }
  if !serves s then .next s
  else if decide (bytes.length ≠ n) || decide (1008 < h.length) || decide (crc32 (bytes.take (n - 4)) ≠ wordAt bytes (n - 4)) then
    .next (drop s)
  else if bitOf h.flags 5 then .next (takeStream (drop s) src h bytes)
  else if bitOf h.flags 7 then .next (takeResponse (drop s) src h bytes)
  else if s.rt.handed.isSome then .next s
  else .next (takeForwarded (drop s) src h bytes)

/-! ### Time limits (R160 to R162) -/

/-- The member of a list with the least key. -/
def earliest {α : Type} (key : α → Nat) : List α → Option α
  | [] => none
  | x :: xs =>
    match earliest key xs with
    | some y => if key y < key x then some y else some x
    | none => some x

/-- AGG_TIMEOUT: the oldest collection of this entry device ends; a target that has not reported is EXPIRED with DETAIL 0xFFFE (R159,
R160). -/
def execAggTimeout (s : State) : Host.Outcome State Fault Refusal :=
  match earliest (fun a => a.req.taken) (s.rt.aggs.filter (fun a => !a.req.fwd && !a.late)) with
  | none => .next s
  | some a =>
    if serves s then
      let s := toUs s (a.req.taken + rgN s Sig.AGG_TIMEOUT)
      let missing := a.targets.filter (fun t => !(a.got.any (fun g => g.t == t)))
      let s := { s with
        rt := { s.rt with aggs := s.rt.aggs.erase a }
        emq := { s.emq with queues := s.emq.queues.filter (fun f => f.sending || f.key != some (a.req.ring, a.req.tag)) } }
      .next (answerAgg s a.req a.opcode (a.got ++ missing.map (fun t => ⟨t, stExpired, 0xFFFE⟩)) false)
    else .next s

/-- An EXPIRED that the entry device posts for a remote target, which SRC_DEV names (R161, R162). -/
def expireRemote (s : State) (d : Delivery) (cause : Nat) : State :=
  let s := { s with
    rt := { s.rt with delivs := s.rt.delivs.erase d }
    emq := { s.emq with queues := s.emq.queues.filter (fun f => f.key != some (d.req.ring, d.req.tag)) } }
  let s := countFail (latch s d.req) d.req d.opcode stExpired
  postBytes s d.req.resp (frameBytes
    { tag := d.req.tag, opcode := d.opcode, flags := 0x80, devSel := d.req.devSel, axisSel := d.req.axisSel, length := 0, deadline := 0,
      b12 := stExpired, b13 := d.dev, b14 := 0 } (expiredPayload d.opcode cause))

/-- DELIVERY_TIMEOUT: the oldest delivery that the ring has not confirmed within AGG_TIMEOUT: EXPIRED with CAUSE 4 (R161). -/
def execDeliveryTimeout (s : State) : Host.Outcome State Fault Refusal :=
  match earliest (fun d => d.req.taken) (s.rt.delivs.filter (fun d => !d.sent)) with
  | none => .next s
  | some d => if serves s then .next (expireRemote (toUs s (d.req.taken + rgN s Sig.AGG_TIMEOUT)) d 4) else .next s

/-- A command that has not started: handed over, a note that waits for staging, or a frame in the forward queues. -/
inductive Unstarted where
  | here (i : Instr) (r : Req)
  | note (r : Req)
  | away (d : Delivery)
  deriving DecidableEq, Repr

/-- The request of a command that has not started. -/
def Unstarted.req (x : Unstarted) : Req :=
  match x with
  | .here _ r => r
  | .note r => r
  | .away d => d.req

/-- The commands that have not started and have a DEADLINE (R162). -/
def unstarted (s : State) : List Unstarted :=
  let here := match s.rt.handed with
    | some i => match reqOf i with
      | some r => [Unstarted.here i r]
      | none => []
    | none => []
  let away := s.rt.delivs.filter (fun d =>
    !d.sent && s.emq.queues.any (fun f => !f.sending && f.key == some (d.req.ring, d.req.tag)))
  (here ++ s.rcd.noteWaits.map (fun x => Unstarted.note x.1) ++ away.map Unstarted.away).filter (fun x => decide (0 < x.req.deadline))

/-- A command that has not started ended by its DEADLINE (R162). -/
def expireUnstarted (s : State) (x : Unstarted) : State :=
  match x with
  | .here i r => expireCmd { s with rt := { s.rt with handed := none } } r (opOf i) 1
  | .note r => expireCmd { s with rcd := { s.rcd with noteWaits := s.rcd.noteWaits.filter (fun y => decide (y.1 ≠ r)) } } r opRecNote 1
  | .away d => expireRemote s d 1

/-- DEADLINE_EXPIRY: the DEADLINE that runs out first among the commands that have not started (R162). -/
def execDeadlineExpiry (s : State) : Host.Outcome State Fault Refusal :=
  match earliest (fun x => x.req.taken + x.req.deadline) (unstarted s) with
  | none => .next s
  | some x => if serves s then .next (expireUnstarted (toUs s (x.req.taken + x.req.deadline)) x) else .next s

end Sys2Proof.Machine
end

