-- ==== Sys2Proof/Machine/Dispatch.lean ====
section
/-! DEFINITION. The dispatch: one arm per command of the table, each one call of that command's meaning. -/

namespace Sys2Proof.Machine

/-- The effect of a command on everything but the queue. -/
def exec (i : Instr) (s : State) : Host.Outcome State Fault Refusal :=
  match i with
  -- resets, supplies, clocks and power states
  | .powerOnReset env => Sys2Proof.Machine.execPowerOnReset env s
  | .externalReset lowNs env => Sys2Proof.Machine.execExternalReset lowNs env s
  | .alwaysOnPor => Sys2Proof.Machine.execAlwaysOnPor s
  | .vioBrownOut => Sys2Proof.Machine.execVioBrownOut s
  | .vcoreBrownOut => Sys2Proof.Machine.execVcoreBrownOut s
  | .vanaLow => Sys2Proof.Machine.execVanaLow s
  | .vanaRecover => Sys2Proof.Machine.execVanaRecover s
  | .mpWatchdogExpiry env => Sys2Proof.Machine.execMpWatchdogExpiry env s
  | .trialWatchdogExpiry env => Sys2Proof.Machine.execTrialWatchdogExpiry env s
  | .supplyLoss => Sys2Proof.Machine.execSupplyLoss s
  | .stopDone => Sys2Proof.Machine.execStopDone s
  | .holdupSwitchOpen => Sys2Proof.Machine.execHoldupSwitchOpen s
  | .vdrvLock => Sys2Proof.Machine.execVdrvLock s
  | .vdrvLockRelease pstFail => Sys2Proof.Machine.execVdrvLockRelease pstFail s
  | .vfsrcWindowExit => Sys2Proof.Machine.execVfsrcWindowExit s
  | .clkFail culprit => Sys2Proof.Machine.execClkFail culprit s
  | .pllLock => Sys2Proof.Machine.execPllLock s
  | .pllFail refValid => Sys2Proof.Machine.execPllFail refValid s
  | .lfclkSwitchover => Sys2Proof.Machine.execLfclkSwitchover s
  | .pwrReqRun r => Sys2Proof.Machine.execPwrReqRun r s
  | .pwrReqStandby r => Sys2Proof.Machine.execPwrReqStandby r s
  | .pwrReqSleep r => Sys2Proof.Machine.execPwrReqSleep r s
  | .idleSleep => Sys2Proof.Machine.execIdleSleep s
  | .sleepEntry => Sys2Proof.Machine.execSleepEntry s
  | .wakeVtrc => Sys2Proof.Machine.execWakeVtrc s
  | .wakePin => Sys2Proof.Machine.execWakePin s
  | .wakeCsN => Sys2Proof.Machine.execWakeCsN s
  | .wakeRing => Sys2Proof.Machine.execWakeRing s
  | .alarm => Sys2Proof.Machine.execAlarm s
  | .parkingWatchWindow levels vtrcHigh => Sys2Proof.Machine.execParkingWatchWindow levels vtrcHigh s
  | .coupling => Sys2Proof.Machine.execCoupling s
  | .decoupling => Sys2Proof.Machine.execDecoupling s
  -- host link
  | .ringDataWrite instr ring off data => Sys2Proof.Machine.execRingDataWrite instr ring off data s
  | .ringDataRead instr ring off len => Sys2Proof.Machine.execRingDataRead instr ring off len s
  | .linkRegWrite instr ring data => Sys2Proof.Machine.execLinkRegWrite instr ring data s
  | .ringHeadWrite instr ring data => Sys2Proof.Machine.execRingHeadWrite instr ring data s
  | .ringTailWrite instr ring data => Sys2Proof.Machine.execRingTailWrite instr ring data s
  | .ringCfgSize instr ring data => Sys2Proof.Machine.execRingCfgSize instr ring data s
  | .clrDrop instr ring data => Sys2Proof.Machine.execClrDrop instr ring data s
  | .evtClear instr ring data raised => Sys2Proof.Machine.execEvtClear instr ring data raised s
  | .frameTake mem => Sys2Proof.Machine.execFrameTake mem s
  -- commands
  | .sigRead r describe sids => Sys2Proof.Machine.execSigRead r describe sids s
  | .sigWrite r pairs straddle aoLate => Sys2Proof.Machine.execSigWrite r pairs straddle aoLate s
  | .sigSubscribe r handle ring mode period deadband sids => Sys2Proof.Machine.execSigSubscribe r handle ring mode period deadband sids s
  | .sigLimit r slot enable ring sid low high hyst qual => Sys2Proof.Machine.execSigLimit r slot enable ring sid low high hyst qual s
  | .axisState r st wait chk => Sys2Proof.Machine.execAxisState r st wait chk s
  | .move r m => Sys2Proof.Machine.execMove r m s
  | .stop r kind waitDone => Sys2Proof.Machine.execStop r kind waitDone s
  | .setGains r loop kp ki => Sys2Proof.Machine.execSetGains r loop kp ki s
  | .groupSet r group mask => Sys2Proof.Machine.execGroupSet r group mask s
  | .modeSet r mode mask permit => Sys2Proof.Machine.execModeSet r mode mask permit s
  | .abort r tag ring => Sys2Proof.Machine.execAbort r tag ring s
  | .recRead r seq off maxLen nextOpt fails => Sys2Proof.Machine.execRecRead r seq off maxLen nextOpt fails s
  | .recNote r note => Sys2Proof.Machine.execRecNote r note s
  | .imgWrite r off data => Sys2Proof.Machine.execImgWrite r off data s
  | .imgCommit r restart => Sys2Proof.Machine.execImgCommit r restart s
  | .imgVerifyEnd env => Sys2Proof.Machine.execImgVerifyEnd env s
  | .imgConfirm c => Sys2Proof.Machine.execImgConfirm c s
  | .fuseProgram r kind index words sig env => Sys2Proof.Machine.execFuseProgram r kind index words sig env s
  | .selftest r tests pstFail run => Sys2Proof.Machine.execSelftest r tests pstFail run s
  | .probeCoupling r noteOnly note => Sys2Proof.Machine.execProbeCoupling r noteOnly note s
  | .deferredStart => Sys2Proof.Machine.execDeferredStart s
  | .deferredExpiry => Sys2Proof.Machine.execDeferredExpiry s
  | .deadlineExpiry => Sys2Proof.Machine.execDeadlineExpiry s
  | .aggTimeout => Sys2Proof.Machine.execAggTimeout s
  | .deliveryTimeout => Sys2Proof.Machine.execDeliveryTimeout s
  | .forwardedFrame src bytes => Sys2Proof.Machine.execForwardedFrame src bytes s
  | .subscriptionPeriod handle => Sys2Proof.Machine.execSubscriptionPeriod handle s
  | .budgetTick chk => Sys2Proof.Machine.execBudgetTick chk s
  | .honeycombLate => Sys2Proof.Machine.execHoneycombLate s
  | .grantStale n => Sys2Proof.Machine.execGrantStale n s
  | .probeStart => Sys2Proof.Machine.execProbeStart s
  | .probeRailEnd rail v1 i1 v2 i2 steady => Sys2Proof.Machine.execProbeRailEnd rail v1 i1 v2 i2 steady s
  | .thermalStop => Sys2Proof.Machine.execThermalStop s
  -- supervision between the dies
  | .heartbeatSend chk => Sys2Proof.Machine.execHeartbeatSend chk s
  | .cdHeartbeat good => Sys2Proof.Machine.execCdHeartbeat good s
  | .dsStatusSend => Sys2Proof.Machine.execDsStatusSend s
  | .dsStatus good => Sys2Proof.Machine.execDsStatus good s
  | .heartbeatLoss => Sys2Proof.Machine.execHeartbeatLoss s
  | .disagreeTimeout => Sys2Proof.Machine.execDisagreeTimeout s
  | .hardShutdown => Sys2Proof.Machine.execHardShutdown s
  | .hardShutdownClear => Sys2Proof.Machine.execHardShutdownClear s
  | .faultEvent code => Sys2Proof.Machine.execFaultEvent code s
  | .snapshotStage code => Sys2Proof.Machine.execSnapshotStage code s
  | .faultAutoRelease code => Sys2Proof.Machine.execFaultAutoRelease code s
  | .faultRelease r sid value => Sys2Proof.Machine.execFaultRelease r sid value s
  | .fltCfgWrite r value => Sys2Proof.Machine.execFltCfgWrite r value s
  | .fltRoleWrite r n value => Sys2Proof.Machine.execFltRoleWrite r n value s
  -- PWM
  | .counterStart n => Sys2Proof.Machine.execCounterStart n s
  | .carrierValley n => Sys2Proof.Machine.execCarrierValley n s
  | .carrierPeak n => Sys2Proof.Machine.execCarrierPeak n s
  | .compareMatch n ph => Sys2Proof.Machine.execCompareMatch n ph s
  | .minpwStretchEnd n ph => Sys2Proof.Machine.execMinpwStretchEnd n ph s
  | .bootstrapRefresh n ph => Sys2Proof.Machine.execBootstrapRefresh n ph s
  | .tagCompare n => Sys2Proof.Machine.execTagCompare n s
  | .deadtimeTurnOn n g => Sys2Proof.Machine.execDeadtimeTurnOn n g s
  | .gateSenseReport n g => Sys2Proof.Machine.execGateSenseReport n g s
  | .hsTimeout n g => Sys2Proof.Machine.execHsTimeout n g s
  | .atcWindowOpen n => Sys2Proof.Machine.execAtcWindowOpen n s
  | .atcWindowClose n => Sys2Proof.Machine.execAtcWindowClose n s
  -- gate drive
  | .scTrip n g => Sys2Proof.Machine.execScTrip n g s
  | .didtTrip n g => Sys2Proof.Machine.execDidtTrip n g s
  | .gateWeak n g => Sys2Proof.Machine.execGateWeak n g s
  | .gateWeakSag n g => Sys2Proof.Machine.execGateWeakSag n g s
  | .xcmd n ph => Sys2Proof.Machine.execXcmd n ph s
  | .tripIn n => Sys2Proof.Machine.execTripIn n s
  | .gdLatchClear r n value active => Sys2Proof.Machine.execGdLatchClear r n value active s
  | .prechargePulse n => Sys2Proof.Machine.execPrechargePulse n s
  | .prechargeComplete n => Sys2Proof.Machine.execPrechargeComplete n s
  -- sampling
  | .adcConversion c code => Sys2Proof.Machine.execAdcConversion c code s
  | .hkIntervalEnd => Sys2Proof.Machine.execHkIntervalEnd s
  | .offsetLearnStart n => Sys2Proof.Machine.execOffsetLearnStart n s
  | .offsetLearnEnd n meanU meanV => Sys2Proof.Machine.execOffsetLearnEnd n meanU meanV s
  | .smpGainWrite r n value => Sys2Proof.Machine.execSmpGainWrite r n value s
  -- loop engine
  | .currentTask n chk mem => Sys2Proof.Machine.execCurrentTask n chk mem s
  | .speedStep n chk mem => Sys2Proof.Machine.execSpeedStep n chk mem s
  | .positionStep n chk mem => Sys2Proof.Machine.execPositionStep n chk mem s
  | .observerStep n chk => Sys2Proof.Machine.execObserverStep n chk s
  | .observerConverged n => Sys2Proof.Machine.execObserverConverged n s
  | .angleDisagree n => Sys2Proof.Machine.execAngleDisagree n s
  | .hfiPeriodEnd n => Sys2Proof.Machine.execHfiPeriodEnd n s
  -- Caramel
  | .profileClock n => Sys2Proof.Machine.execProfileClock n s
  | .compareSlotArm r n slot cfg value => Sys2Proof.Machine.execCompareSlotArm r n slot cfg value s
  | .replanSwitch n => Sys2Proof.Machine.execReplanSwitch n s
  | .targetReached n => Sys2Proof.Machine.execTargetReached n s
  | .stepPulse n => Sys2Proof.Machine.execStepPulse n s
  | .stepPulseEnd n => Sys2Proof.Machine.execStepPulseEnd n s
  -- resolver
  | .excitationRestart r n amp value => Sys2Proof.Machine.execExcitationRestart r n amp value s
  | .phaseLearnEnd n => Sys2Proof.Machine.execPhaseLearnEnd n s
  | .demodPeriodEnd n chk => Sys2Proof.Machine.execDemodPeriodEnd n chk s
  | .excPeriodEnd drv limited => Sys2Proof.Machine.execExcPeriodEnd drv limited s
  | .openWireProbe n => Sys2Proof.Machine.execOpenWireProbe n s
  | .rsvTurnsWrite r n value => Sys2Proof.Machine.execRsvTurnsWrite r n value s
  | .cmpStart r n => Sys2Proof.Machine.execCmpStart r n s
  | .cmpCancel r n => Sys2Proof.Machine.execCmpCancel r n s
  | .cmpClear r n => Sys2Proof.Machine.execCmpClear r n s
  | .cmpStore r n => Sys2Proof.Machine.execCmpStore r n s
  | .tableWriteEnd n => Sys2Proof.Machine.execTableWriteEnd n s
  | .rsvCmpValRead r n => Sys2Proof.Machine.execRsvCmpValRead r n s
  | .rsvCmpValWrite r n value => Sys2Proof.Machine.execRsvCmpValWrite r n value s
  -- feedback inputs
  | .fbEdgeAccept n a b z => Sys2Proof.Machine.execFbEdgeAccept n a b z s
  | .fbStill n => Sys2Proof.Machine.execFbStill n s
  | .fbZArm r n value => Sys2Proof.Machine.execFbZArm r n value s
  | .wssOpen n => Sys2Proof.Machine.execWssOpen n s
  | .wssShort n => Sys2Proof.Machine.execWssShort n s
  | .wssRetry n stillShort => Sys2Proof.Machine.execWssRetry n stillShort s
  -- analogue outputs
  | .aoldStrobe => Sys2Proof.Machine.execAoldStrobe s
  | .aoLoad r value => Sys2Proof.Machine.execAoLoad r value s
  | .aoLimiterTick k => Sys2Proof.Machine.execAoLimiterTick k s
  | .aoclrAssert => Sys2Proof.Machine.execAoclrAssert s
  | .aoclrRelease => Sys2Proof.Machine.execAoclrRelease s
  | .aoSpanWrite r k value => Sys2Proof.Machine.execAoSpanWrite r k value s
  | .spanChangeDone k => Sys2Proof.Machine.execSpanChangeDone k s
  | .aoShort k => Sys2Proof.Machine.execAoShort k s
  -- Biscotti
  | .comparatorProof detected => Sys2Proof.Machine.execComparatorProof detected s
  -- Emquin ring
  | .ringCycle => Sys2Proof.Machine.execRingCycle s
  | .syncSlot bytes arrival own => Sys2Proof.Machine.execSyncSlot bytes arrival own s
  | .ringHeartbeat p bytes => Sys2Proof.Machine.execRingHeartbeat p bytes s
  | .censusChange => Sys2Proof.Machine.execCensusChange s
  | .noLead => Sys2Proof.Machine.execNoLead s
  | .searchTimeout => Sys2Proof.Machine.execSearchTimeout s
  | .mastershipChange => Sys2Proof.Machine.execMastershipChange s
  | .epochAdopt => Sys2Proof.Machine.execEpochAdopt s
  | .honeycombReport p bytes => Sys2Proof.Machine.execHoneycombReport p bytes s
  | .allotment bytes => Sys2Proof.Machine.execAllotment bytes s
  | .streamSlot slot bytes => Sys2Proof.Machine.execStreamSlot slot bytes s
  | .transportSegment bytes => Sys2Proof.Machine.execTransportSegment bytes s
  | .segmentSend => Sys2Proof.Machine.execSegmentSend s
  | .segmentResend => Sys2Proof.Machine.execSegmentResend s
  | .breakDetected => Sys2Proof.Machine.execBreakDetected s
  | .heal => Sys2Proof.Machine.execHeal s
  -- Fruitcake record
  | .sliceCommit readBackOk => Sys2Proof.Machine.execSliceCommit readBackOk s
  | .blockReclaim => Sys2Proof.Machine.execBlockReclaim s
  | .summaryPeriod => Sys2Proof.Machine.execSummaryPeriod s
  | .coupleWaitExpiry => Sys2Proof.Machine.execCoupleWaitExpiry s
  | .fcPin r value => Sys2Proof.Machine.execFcPin r value s
  | .fcUnpin r value => Sys2Proof.Machine.execFcUnpin r value s
  -- Finyr
  | .lineReset => Sys2Proof.Machine.execLineReset s
  | .dbgRead q => Sys2Proof.Machine.execDbgRead q s
  | .dbgWrite q data => Sys2Proof.Machine.execDbgWrite q data s
  | .dbgHalt q => Sys2Proof.Machine.execDbgHalt q s
  | .dbgResume q => Sys2Proof.Machine.execDbgResume q s
  | .dbgStep q => Sys2Proof.Machine.execDbgStep q s
  | .dbgBpSet q data => Sys2Proof.Machine.execDbgBpSet q data s
  | .breakpointHit port slot => Sys2Proof.Machine.execBreakpointHit port slot s
  | .dbgStatus q => Sys2Proof.Machine.execDbgStatus q s
  | .authChallenge q => Sys2Proof.Machine.execAuthChallenge q s
  | .authResponse q mac elapsedUs => Sys2Proof.Machine.execAuthResponse q mac elapsedUs s
  | .authLockoutEnd => Sys2Proof.Machine.execAuthLockoutEnd s
  | .resetReq q env => Sys2Proof.Machine.execResetReq q env s
  | .closeSession q => Sys2Proof.Machine.execCloseSession q s
  | .retire q env => Sys2Proof.Machine.execRetire q env s
  | .sessionTimeout => Sys2Proof.Machine.execSessionTimeout s
  -- rows that end the table
  | .vioBrownOutRelease env => Sys2Proof.Machine.execVioBrownOutRelease env s
  | .vcoreBrownOutRelease env => Sys2Proof.Machine.execVcoreBrownOutRelease env s
  | .holdupSwitchClose => Sys2Proof.Machine.execHoldupSwitchClose s
  | .configurationCheck chk => Sys2Proof.Machine.execConfigurationCheck chk s

end Sys2Proof.Machine
end

