-- ==== Sys2Proof/WellFormed.lean ====
section
/-! DEFINITION. Which terms of Instr are commands that a sender can send: every field within its width on the wire, every number of an
event's surroundings within what the part can show. The meanings are total and do not rest on this check; a field that a frame can carry
and the spec refuses (a KIND that no row names) is well-formed, since its refusal is the device's. -/

namespace Sys2Proof

/-- Whether a request's fields are those of a taken frame (R135 to R137, R151): TAG, DEADLINE and AXIS_SEL in their widths, a listed
DEV_SEL, a host response ring, a mask of axes, and a request ring, or the key of an entry device for a frame that came over the ring. -/
def Req.wf (r : Req) : Bool :=
  decide (r.tag < 2 ^ 16) && (decide (r.devSel ≤ 0x0F) || r.devSel == 0x1F) &&
    (decide (r.axisSel ≤ 7) || (decide (0x10 ≤ r.axisSel) && decide (r.axisSel ≤ 0x13)) || r.axisSel == 0xFF) &&
    decide (r.deadline < 2 ^ 32) && decide (16 ≤ r.resp) && decide (r.resp ≤ 31) && decide (r.mask < 256) &&
    (if r.fwd then decide (r.entry ≤ 15) && r.ring == 64 + r.entry else decide (r.ring ≤ 15))

/-- Whether a MOVE's fields fit their places in the payload (R152). -/
def MoveArgs.wf (m : MoveArgs) : Bool :=
  decide (m.kind < 256) && decide (m.cls < 256) && decide (-(2 ^ 63 : Int) ≤ m.target) && decide (m.target < 2 ^ 63) &&
    [m.vmax, m.acc, m.dec, m.jerk, m.vstart, m.vstop].all (fun x => decide (x < 2 ^ 32))

/-- Whether what a boot finds names things that the part has: four straps (R47), 256 fuse words (R596), six test bits per axis (R247), one
outcome per channel. -/
def BootEnv.wf (e : BootEnv) : Bool :=
  decide (e.straps < 16) && e.weakFuses.all (fun x => decide (x.1 < 256)) && e.weakCommits.all (fun w => decide (w < 256)) &&
    e.pstFail.all (fun x => decide (x.2 < 64)) && decide ((e.learned.map RsvLearn.n).Nodup)

/-- Whether what a fuse request finds names fuse words. -/
def FuseEnv.wf (e : FuseEnv) : Bool := decide (e.temps.length = 2) && e.sense.all (fun x => decide (x.1 < 256))

/-- Whether a Finyr header's fields are in their widths (R625). -/
def DbgReq.wf (q : DbgReq) : Bool :=
  decide (q.port < 256) && decide (q.seq < 256) && decide (q.len < 256) && decide (q.page < 256) && decide (q.addr < 2 ^ 32)

/-- Whether an instruction byte, a ring number and, for a data operation, an offset are in their widths (R116, R119). -/
def txWf (instr ring off : Nat) : Bool := decide (instr < 256) && decide (ring < 256) && decide (off < 2 ^ 16)

/-- Whether the KIND bits of a Biscotti mismatch are ones that a checkpoint can report: at least one of three (R502). -/
def Check.wf (c : Check) : Bool :=
  match c.mismatch with
  | none => true
  | some k => decide (1 ≤ k) && decide (k < 8)

/-- Whether a term is a command that its sender can send. -/
def Instr.wf (i : Instr) : Bool :=
  match i with
  | .imgConfirm c => c.req.wf
  | .imgVerifyEnd env => env.boot.wf
  | .powerOnReset env | .mpWatchdogExpiry env | .trialWatchdogExpiry env | .vioBrownOutRelease env | .vcoreBrownOutRelease env
  | .externalReset _ env => env.wf
  | .vdrvLockRelease fails => fails.all (fun x => decide (x.2 < 64))
  | .clkFail culprit => decide (culprit < 4)
  | .parkingWatchWindow levels _ => decide (levels < 256)
  | .ringDataWrite instr ring off data => txWf instr ring off && decide (data.length < 2 ^ 16)
  | .ringDataRead instr ring off len => txWf instr ring off && decide (len < 2 ^ 16)
  | .linkRegWrite instr ring data | .ringHeadWrite instr ring data | .ringTailWrite instr ring data | .ringCfgSize instr ring data
  | .clrDrop instr ring data => txWf instr ring 0 && decide (data.length < 2 ^ 16)
  | .evtClear instr ring data raised => txWf instr ring 0 && decide (data.length < 2 ^ 16) && raised.all (fun e => decide (e < 96))
  | .sigRead r _ sids => r.wf && decide (sids.length ≤ 250)
  | .sigWrite r pairs _ _ => r.wf && decide (pairs.length ≤ 125)
  | .sigSubscribe r handle ring mode period deadband sids =>
    r.wf && decide (handle < 256) && decide (ring < 256) && decide (mode < 256) && decide (period < 2 ^ 32) &&
      decide (deadband < 2 ^ 32) && decide (sids.length ≤ 32)
  | .sigLimit r slot _ ring _ _ _ _ qual => r.wf && decide (slot < 256) && decide (ring < 256) && decide (qual < 2 ^ 16)
  | .axisState r st _ chk => r.wf && decide (st < 256) && chk.wf
  | .move r m => r.wf && m.wf
  | .stop r kind _ => r.wf && decide (kind < 256)
  | .setGains r loop _ _ => r.wf && decide (loop < 256)
  | .groupSet r group mask => r.wf && decide (group < 256) && decide (mask < 256)
  | .modeSet r mode mask _ => r.wf && decide (mode < 256) && decide (mask < 256)
  | .abort r tag ring => r.wf && decide (tag < 2 ^ 16) && decide (ring < 256)
  | .recRead r seq off maxLen _ _ => r.wf && decide (seq < 2 ^ 32) && decide (off < 2 ^ 16) && decide (maxLen < 2 ^ 16)
  | .recNote r note => r.wf && decide (note.length ≤ 1004)
  | .imgWrite r off data => r.wf && decide (off < 2 ^ 32) && decide (data.length ≤ 1004)
  | .fuseProgram r kind index words sig env =>
    r.wf && decide (kind < 256) && decide (index < 256) && decide (words.length ≤ 4) && decide (sig.length ≤ 64) && env.wf
  | .selftest r tests fails _ => r.wf && decide (tests < 256) && fails.all (fun x => decide (x.2 < 64))
  | .probeCoupling r _ note => r.wf && decide (note.length ≤ 64)
  | .forwardedFrame src bytes => decide (src ≤ 15) && decide (bytes.length ≤ 1028)
  | .subscriptionPeriod handle => decide (1 ≤ handle) && decide (handle ≤ 32)
  | .faultEvent code | .snapshotStage code | .faultAutoRelease code => decide (code < 2 ^ 16)
  | .heartbeatSend chk | .budgetTick chk | .configurationCheck chk => chk.wf
  | .currentTask _ chk _ | .speedStep _ chk _ | .positionStep _ chk _ | .observerStep _ chk | .demodPeriodEnd _ chk => chk.wf
  | .comparatorProof detected => decide (detected.length ≤ 64)
  | .syncSlot bytes _ _ => decide (bytes.length ≤ 2048)
  | .ringHeartbeat _ bytes | .honeycombReport _ bytes | .allotment bytes | .streamSlot _ bytes | .transportSegment bytes =>
    decide (bytes.length ≤ 2048)
  | .gdLatchClear r _ _ active => r.wf && decide (active < 2 ^ 32)
  | .pwrReqRun r | .pwrReqStandby r | .pwrReqSleep r | .imgCommit r _ | .faultRelease r _ _ | .fltCfgWrite r _
  | .fltRoleWrite r _ _ | .smpGainWrite r _ _ | .compareSlotArm r _ _ _ _ | .excitationRestart r _ _ _ | .rsvTurnsWrite r _ _
  | .cmpStart r _ | .cmpCancel r _ | .cmpClear r _ | .cmpStore r _ | .rsvCmpValRead r _ | .rsvCmpValWrite r _ _ | .fbZArm r _ _
  | .aoLoad r _ | .aoSpanWrite r _ _ | .fcPin r _ | .fcUnpin r _ => r.wf
  | .dbgRead q | .dbgHalt q | .dbgResume q | .dbgStep q | .dbgStatus q | .authChallenge q | .closeSession q => q.wf
  | .dbgWrite q data | .dbgBpSet q data => q.wf && decide (data.length ≤ 64)
  | .authResponse q mac _ => q.wf && decide (mac.length ≤ 64)
  | .breakpointHit port slot => decide (port < 6) && decide (slot < 12)
  | .resetReq q env => q.wf && env.wf
  | .retire q env => q.wf && env.wf
  | .alwaysOnPor | .vioBrownOut | .vcoreBrownOut | .vanaLow | .vanaRecover | .supplyLoss | .stopDone | .holdupSwitchOpen | .vdrvLock
  | .vfsrcWindowExit | .pllLock | .pllFail _ | .lfclkSwitchover | .idleSleep | .sleepEntry | .wakeVtrc | .wakePin | .wakeCsN | .wakeRing
  | .alarm | .coupling | .decoupling | .frameTake _ => true
  | .deferredStart | .deferredExpiry | .deadlineExpiry | .aggTimeout | .deliveryTimeout | .honeycombLate | .grantStale _ | .probeStart
  | .probeRailEnd _ _ _ _ _ _ | .thermalStop => true
  | .cdHeartbeat _ | .dsStatusSend | .dsStatus _ | .heartbeatLoss | .disagreeTimeout | .hardShutdown | .hardShutdownClear => true
  | .counterStart _ | .carrierValley _ | .carrierPeak _ | .compareMatch _ _ | .minpwStretchEnd _ _ | .bootstrapRefresh _ _
  | .tagCompare _ | .deadtimeTurnOn _ _ | .gateSenseReport _ _ | .hsTimeout _ _ | .atcWindowOpen _ | .atcWindowClose _ => true
  | .scTrip _ _ | .didtTrip _ _ | .gateWeak _ _ | .gateWeakSag _ _ | .xcmd _ _ | .tripIn _ | .prechargePulse _ | .prechargeComplete _ => true
  | .adcConversion _ _ | .hkIntervalEnd | .offsetLearnStart _ | .offsetLearnEnd _ _ _ => true
  | .observerConverged _ | .angleDisagree _ | .hfiPeriodEnd _ | .profileClock _ | .replanSwitch _ | .targetReached _ | .stepPulse _
  | .stepPulseEnd _ => true
  | .phaseLearnEnd _ | .excPeriodEnd _ _ | .openWireProbe _ | .tableWriteEnd _ => true
  | .fbEdgeAccept _ _ _ _ | .fbStill _ | .wssOpen _ | .wssShort _ | .wssRetry _ _ => true
  | .aoldStrobe | .aoLimiterTick _ | .aoclrAssert | .aoclrRelease | .spanChangeDone _ | .aoShort _ => true
  | .ringCycle | .censusChange | .noLead | .searchTimeout | .mastershipChange | .epochAdopt | .segmentSend | .segmentResend
  | .breakDetected | .heal => true
  | .sliceCommit _ | .blockReclaim | .summaryPeriod | .coupleWaitExpiry => true
  | .lineReset | .authLockoutEnd | .sessionTimeout | .holdupSwitchClose => true

end Sys2Proof
end

