-- ==== Sys2Proof/Safety.lean ====
section
/-! DEFINITION. The terms in which claims are stated: the canonical form of the state's sparse parts, what a command leaves alone, when a
command is carried out, and the device held in reset. -/

namespace Sys2Proof.Machine

/-! ### What every step keeps -/

/-- The sparse parts of the state in their canonical form: the signals, the kept parameters, the link buffer and both image banks. -/
structure Canonical (s : State) : Prop where
  regs : RegFile.wf s.regs = true
  params : RegFile.wf s.nd.params = true
  buf : Memory.wf s.link.buf = true
  bankA : Memory.wf s.nd.bankA.bytes = true
  bankB : Memory.wf s.nd.bankB.bytes = true

/-- Whether bit `i` of word `w` is blown in a copy of the fuse array. -/
def blownIn (copy : List (Nat × Word)) (w i : Nat) : Bool := ((cellGet copy w).getD (shippedWord w)).getLsbD i

/-- Every fuse that is blown in one state is blown in another. -/
def FusesStay (s t : State) : Prop :=
  ∀ w i, (blownIn s.fuse.copyA w i = true → blownIn t.fuse.copyA w i = true) ∧
    (blownIn s.fuse.copyB w i = true → blownIn t.fuse.copyB w i = true)

/-! ### What an operation leaves alone -/

/-- The signals that answers, slices and fault events write: the counts and causes of chapters 6, 18 and 20, and LP_PASSES of an axis. -/
def ledgerKeys : List Nat :=
  [Sig.CMD_FAIL_COUNT, Sig.LAST_FAIL, Sig.FLT_SAFE_CAUSE, Sig.FLT_STAT, Sig.FC_EVT_DROP, Sig.FC_STAT, Sig.BISC_REPLAY_COUNT]
    ++ allAxes.map (fun n => Sig.LP_PASSES n.val)

/-- The two states agree in everything but the link's rings and events, the runtime, the forward queues, the fault manager, the record, the
states, bridges, loops and plans of the axes, the requests to the DS, the marks of the clock, the start of the idle time and the signals of
`ledgerKeys`; DEVICE_SAFE is not left. -/
structure Quiet (s t : State) : Prop where
  pending : t.pending = s.pending
  pwr : { t.pwr with idleUs := s.pwr.idleUs } = s.pwr
  ds : t.ds = s.ds
  adc : t.adc = s.adc
  hk : t.hk = s.hk
  eng : t.eng = s.eng
  rsv : t.rsv = s.rsv
  exc : t.exc = s.exc
  fb : t.fb = s.fb
  ao : t.ao = s.ao
  aoClear : t.aoClear = s.aoClear
  hcRail : t.hcRail = s.hcRail
  hc : t.hc = s.hc
  bisc : t.bisc = s.bisc
  nd : t.nd = s.nd
  upd : t.upd = s.upd
  fuse : t.fuse = s.fuse
  dbg : t.dbg = s.dbg
  free : t.free = s.free
  tb : t.clk.tb = s.clk.tb
  us : t.clk.us = s.clk.us
  safe : s.flt.safeMode = true → t.flt.safeMode = true
  keys : ∀ k, k ∉ ledgerKeys → rg t k = rg s k

/-- The two states agree in everything but the value of one signal. -/
def OnlySignal (k : Nat) (s t : State) : Prop := { t with regs := s.regs } = s ∧ ∀ j, j ≠ k → rg t j = rg s j

/-- The two states agree in everything but the value of one signal and the sticky events. -/
def OnlySignalAndEvents (k : Nat) (s t : State) : Prop :=
  { t with regs := s.regs, link := { t.link with events := s.link.events } } = s ∧ ∀ j, j ≠ k → rg t j = rg s j

/-- The two states agree in every signal but those of a list and the ones that answers, slices and fault events write. -/
def SignalsBut (ks : List Nat) (s t : State) : Prop := ∀ k, k ∉ ks → k ∉ ledgerKeys → rg t k = rg s k

/-- A fault source has counted one more event. -/
def Counts (s t : State) (code : Nat) : Prop := (srcOf t code).events = (srcOf s code).events + 1

/-! ### Commands -/

/-- A command of a frame is carried out: the runtime serves it, its DEADLINE has not run out, nothing bars it, and one device answers. -/
structure Accepted (s : State) (r : Req) (op : Nat) (special : Bool) : Prop where
  serves : serves s = true
  intime : lateReq s r = false
  unbarred : commandBar s op special = stOk
  single : aggregated r op = false

/-- The write of one signal is carried out: its frame is, and the checks of R147 accept SID and value. -/
structure WriteAccepted (s : State) (r : Req) (key : Nat) (value : Word) : Prop where
  frame : Accepted s r opSigWrite false
  value : writeStatus (unhand s r) false (sidOf s key) value = stOk

/-- A ring of the link has room for a frame that nothing keeps waiting: the MP runs, no response waits for the ring, and R127 admits it. -/
structure CanPost (s : State) (ring len : Nat) : Prop where
  exists_ : ring < s.link.rings.length
  running : s.dbg.haltMp = false
  first : s.rt.blocked.any (fun b => b.1 == ring) = false
  room : (ringAt s ring).room len = true

/-- A frame stands in a ring from the RING_HEAD of one state to that of another, RING_TAIL unmoved (R133). -/
structure Posted (s t : State) (ring : Nat) (bs : List Byte) : Prop where
  bytes : memBytesRing t.link.buf (ringBase ring) (ringAt s ring).bytes (ringAt s ring).head bs.length = bs
  head : (ringAt t ring).head = ((ringAt s ring).head + bs.length) % (ringAt s ring).bytes
  tail : (ringAt t ring).tail = (ringAt s ring).tail
  size : (ringAt t ring).size = (ringAt s ring).size

/-- A transaction changes nothing of the block but the link's registers, rings, buffer and output, and the responses that waited for
room. -/
def OnlyLink (s t : State) : Prop := { t with link := s.link, rt := { t.rt with blocked := s.rt.blocked } } = s

/-- A transaction that breaks a link rule: PROTO_ERR, its code and event 89, nothing else but the device's output (R120). -/
def BreaksRule (s t : State) (code : Nat) : Prop :=
  { t with link := { t.link with out := s.link.out } } = protoError s code

/-- A Finyr request is carried out: the CD is powered and booted, the request is whole, new and valid, and nothing bars its operation
(R626, R628, R629). -/
structure DbgAccepted (s : State) (q : DbgReq) (op data : Nat) : Prop where
  powered : linkPowered s = true
  booted : s.pwr.booted = true
  whole : q.crcOk = true
  fresh : s.dbg.lastSeq ≠ some q.seq
  valid : dbgValid q op data = true
  unbarred : dbgBarred s op = false

/-! ### Offsets -/

/-- No word of the running offset learn of an axis is invalid (R256, R261). -/
def LearnedValid (s : State) (n : Axis) : Prop :=
  ∀ v, heldBad s n v (learnFrom s n) (learnFrom s n + learnTicks) = false

/-- A learned offset within ±64 LSB, in sixteenths of an LSB (R256). -/
def InOffsetRange (x : Int) : Prop := -1024 ≤ x ∧ x ≤ 1024

/-! ### Resets -/

/-- The CD held in reset: not booted, READY low, in the power state of a boot, every axis DISABLED and every gate off; the queue, the ND's
slices, the coupling count and the fuses as before. -/
structure HeldInReset (s t : State) : Prop where
  booted : t.pwr.booted = false
  ready : t.pwr.ready = false
  standby : t.pwr.st = .standby
  disabled : ∀ n, axSt t n = .disabled
  gates : ∀ n g, gateOn t n g = false
  pending : t.pending = s.pending
  slices : t.rcd.slices = s.rcd.slices
  couples : t.nd.coupleCount = s.nd.coupleCount
  fuse : t.fuse = s.fuse

end Sys2Proof.Machine
end

