-- ==== Sys2Proof/Certificates/Slice0/Obligations.lean ====
section
/-! DEFINITION. The statements for the provers, one for each entry of OBLIGATIONS.json, in its order. -/

open Sys2Proof Sys2Proof.Machine

/-! ### The block as a whole -/

/-- A step on a queue with a command at its front is that command's effect on the state with the rest of the queue; a step on an empty queue
is one tick of the clock in use (log entry 1). -/
def Obligations.StepRunsTheFrontCommand : Prop :=
  (∀ (c : Instr) (rest : List Instr) (s : State), step { s with pending := c :: rest } = exec c { s with pending := rest }) ∧
    ∀ s : State, s.pending = [] → step s = .next (idleTick s)

/-- The state after reset holds what the spec gives: the reset values of chapter 3, RESET_CAUSE bit 0 of a power-on (R96), READY low, every
axis DISABLED with its gates off, DEVELOP and an empty bank B (R2), and no command waits. The model's choices in it: log entries 7 and 10.
-/
def Obligations.ResetStateIsAsTheSpecGivesIt : Prop :=
  State.reset.pending = [] ∧ State.reset.pwr.ready = false ∧ (∀ n, axSt State.reset n = .disabled) ∧
    (∀ n g, gateOn State.reset n g = false) ∧ rg State.reset Sig.RESET_CAUSE = 1 ∧ rg State.reset Sig.WAKE_EN = 0x27 ∧
    rg State.reset Sig.ALARM = 0xFFFFFFFF ∧ rg State.reset Sig.PW_EDGES = 3 ∧ rg State.reset Sig.PW_WINDOW = 20 ∧
    rg State.reset Sig.SUP_STAT = 0 ∧ rg State.reset Sig.CLK_STAT = 0 ∧ viewKey State.reset Sig.PWR_STATE = 1 ∧
    lifeCycle State.reset = .develop ∧ State.reset.nd.bankB = ImgBank.blank

/-- The state after reset is in canonical form. -/
def Obligations.ResetIsCanonical : Prop := Canonical State.reset

/-- Every step keeps the canonical form of the signals, the kept parameters, the link buffer and the image banks. -/
def Obligations.StepsKeepTheCanonicalForm : Prop :=
  ∀ s t : State, Canonical s → step s = .next t → Canonical t

/-- Every command of the table completes in every state, with a next state whose queue is as it was; every step answers a next state, takes
the command at the front out of the queue, and adds none. -/
def Obligations.StepsServeTheQueueInOrder : Prop :=
  (∀ (c : Instr) (s : State), ∃ t, exec c s = .next t ∧ t.pending = s.pending) ∧
    ∀ s : State, ∃ t, step s = .next t ∧ t.pending = s.pending.tail

/-- No step unblows a fuse. -/
def Obligations.StepsKeepBlownFuses : Prop :=
  ∀ s t : State, step s = .next t → FusesStay s t

/-! ### Resets, supplies, clocks, power states (chapters 3 and 4) -/

/-- VIO_BROWN_OUT, VCORE_BROWN_OUT and ALWAYS_ON_POR: the CD is held in reset with every gate off, and RESET_CAUSE says which brown-out it
was (R61, R93, R96); an always-on reset takes the device to OFF with every signal at its reset value (R61, R67). The model's choices in it:
log entries 2 and 39. -/
def Obligations.BrownOutsHoldTheCdInReset : Prop :=
  (∀ s : State, s.pwr.st ≠ .off →
      ∃ t, exec .vioBrownOut s = .next t ∧ HeldInReset s t ∧ t.pwr.vioLow = true ∧ t.pwr.vcoreLow = s.pwr.vcoreLow ∧
        rgB t Sig.RESET_CAUSE 2 = true) ∧
    (∀ s : State, s.pwr.st = .standby ∨ s.pwr.st = .run →
      ∃ t, exec .vcoreBrownOut s = .next t ∧ HeldInReset s t ∧ t.pwr.vcoreLow = true ∧ t.pwr.vioLow = s.pwr.vioLow ∧
        rgB t Sig.RESET_CAUSE 3 = true) ∧
    ∀ s : State, ∃ t, exec .alwaysOnPor s = .next t ∧ t.pwr.st = .off ∧ t.pwr.ready = false ∧ t.regs = [] ∧ t.link = Link.init ∧
      t.rcd.slices = s.rcd.slices ∧ t.fuse = s.fuse ∧ t.pending = s.pending

/-- POWER_ON_RESET, EXTERNAL_RESET, MP_WATCHDOG_EXPIRY, TRIAL_WATCHDOG_EXPIRY and the release of a brown-out where the other supply is up:
the boot runs to its end and READY is high; where the other supply is low the CD stays in reset. A RESET_N pulse below 100 ns does nothing,
and one between 100 ns and 1 µs does nothing or resets (R46 to R48, R61, R85, R93 to R95, R106). The model's choices in it: log entries 2
and 39. -/
def Obligations.BootsEndWithReady : Prop :=
  (∀ (s : State) (env : BootEnv), s.pwr.booted = false → env.vioOk = true →
      ∃ t, exec (.powerOnReset env) s = .next t ∧ t.pwr.booted = true ∧ t.pwr.ready = true) ∧
    (∀ (s : State) (env : BootEnv) (ns : Nat), s.pwr.st ≠ .off → s.pwr.vioLow = false → s.pwr.vcoreLow = false → 1000 ≤ ns →
      ∃ t, exec (.externalReset ns env) s = .next t ∧ t.pwr.booted = true ∧ t.pwr.ready = true) ∧
    (∀ (s : State) (env : BootEnv) (ns : Nat), ns < 100 → exec (.externalReset ns env) s = .next s) ∧
    (∀ (s : State) (env : BootEnv) (ns : Nat), s.pwr.st ≠ .off → s.pwr.vioLow = false → s.pwr.vcoreLow = false → 100 ≤ ns → ns < 1000 →
      ∃ t, exec (.externalReset ns env) s = .next t ∧ (t = { s with free := s.free + 1 } ∨ (t.pwr.booted = true ∧ t.pwr.ready = true))) ∧
    (∀ (s : State) (env : BootEnv), serves s = true → s.pwr.vioLow = false → s.pwr.vcoreLow = false →
      ∃ t, exec (.mpWatchdogExpiry env) s = .next t ∧ t.pwr.booted = true ∧ t.pwr.ready = true) ∧
    (∀ (s : State) (env : BootEnv), linkPowered s = true → rgN s Sig.UPD_STATE = 4 → s.pwr.vioLow = false → s.pwr.vcoreLow = false →
      ∃ t, exec (.trialWatchdogExpiry env) s = .next t ∧ t.pwr.booted = true ∧ t.pwr.ready = true) ∧
    (∀ (s : State) (env : BootEnv), s.pwr.vioLow = true → s.pwr.vcoreLow = false →
      ∃ t, exec (.vioBrownOutRelease env) s = .next t ∧ t.pwr.booted = true ∧ t.pwr.ready = true) ∧
    (∀ (s : State) (env : BootEnv), s.pwr.vioLow = false → s.pwr.vcoreLow = true →
      ∃ t, exec (.vcoreBrownOutRelease env) s = .next t ∧ t.pwr.booted = true ∧ t.pwr.ready = true) ∧
    ∀ (s : State) (env : BootEnv), s.pwr.vioLow = true → s.pwr.vcoreLow = true →
      exec (.vioBrownOutRelease env) s = .next { s with pwr := { s.pwr with vioLow := false } } ∧
        exec (.vcoreBrownOutRelease env) s = .next { s with pwr := { s.pwr with vcoreLow := false } }

/-- SUPPLY_LOSS and THERMAL_STOP begin the orderly stop: every axis is DISABLED, in FAULT or in SAFE_SHORT, SUPPLY_LOSS sets its flag in
SUP_STAT and THERMAL_STOP sets DD_STOP. STOP_DONE ends the stop, with nothing left in staging and the flag STOP_DONE, and changes no other
signal. HOLDUP_SWITCH_OPEN and HOLDUP_SWITCH_CLOSE set and clear the flag of the switch, VFSRC_WINDOW_EXIT gives FSRC_OK the side of the
window that VFSRC has come to, and these three change nothing else. VANA_LOW sets its flag and makes the converters' words invalid, and
VANA_RECOVER clears the flag, changes no other signal and makes them valid again (R55, R57, R61, R84, R261, R460, R514, R582). The model's
choices in it: log entries 2 and 13. -/
def Obligations.SuppliesStopTheDeviceAndShowInSupStat : Prop :=
  (∀ s : State, linkPowered s = true → s.pwr.booted = true →
      ∃ t, exec .supplyLoss s = .next t ∧ t.pwr.stopping = true ∧ rgB t Sig.SUP_STAT 4 = true ∧ t.clk.us = s.clk.us ∧
        (s.pwr.stopping = false → ∀ n, axSt t n = .disabled ∨ axSt t n = .fault ∨ axSt t n = .safeShort)) ∧
    (∀ s : State, linkPowered s = true →
      ∃ t, exec .thermalStop s = .next t ∧ t.pwr.stopping = true ∧ rgB t Sig.HC_STAT 0 = true ∧ t.clk.us = s.clk.us ∧
        (s.pwr.stopping = false → ∀ n, axSt t n = .disabled ∨ axSt t n = .fault ∨ axSt t n = .safeShort)) ∧
    (∀ s : State, s.pwr.stopping = true →
      ∃ t, exec .stopDone s = .next t ∧ t.pwr.stopping = false ∧ t.rcd.staged = [] ∧ rgB t Sig.SUP_STAT 3 = true ∧
        ∀ k, k ≠ Sig.SUP_STAT → rg t k = rg s k) ∧
    (∀ s : State, ∃ t, exec .holdupSwitchOpen s = .next t ∧ rgB t Sig.SUP_STAT 5 = true ∧ OnlySignal Sig.SUP_STAT s t) ∧
    (∀ s : State, ∃ t, exec .holdupSwitchClose s = .next t ∧ rgB t Sig.SUP_STAT 5 = false ∧ OnlySignal Sig.SUP_STAT s t) ∧
    (∀ s : State,
      ∃ t, exec .vfsrcWindowExit s = .next t ∧ rgB t Sig.SUP_STAT 7 = !rgB s Sig.SUP_STAT 7 ∧ OnlySignal Sig.SUP_STAT s t) ∧
    (∀ s : State, s.pwr.vanaLow = false →
      ∃ t, exec .vanaLow s = .next t ∧ t.pwr.vanaLow = true ∧ rgB t Sig.SUP_STAT 6 = true ∧ adcValid t = false ∧ t.ds = s.ds) ∧
    ∀ s : State, ∃ t, exec .vanaRecover s = .next t ∧ t.pwr = { s.pwr with vanaLow := false } ∧ adcValid t = true ∧
      rgB t Sig.SUP_STAT 6 = false ∧ ∀ k, k ≠ Sig.SUP_STAT → rg t k = rg s k

/-- VDRV_LOCK and HARD_SHUTDOWN turn every gate off at once, and VDRV_LOCK sets both its bits in SUP_STAT; VDRV_LOCK_RELEASE and
HARD_SHUTDOWN_CLEAR end the lock-out and the latch and change no axis's state, and the sticky bit of a lock-out stays (R59, R60, R84, R531).
The model's choices in it: log entry 2. -/
def Obligations.LockOutAndHardShutdownTurnEveryGateOff : Prop :=
  (∀ s : State, s.ds.vdrvLock = false →
      ∃ t, exec .vdrvLock s = .next t ∧ t.ds.vdrvLock = true ∧ (∀ n g, gateOn t n g = false) ∧ rgB t Sig.SUP_STAT 2 = true ∧
        rgB t Sig.SUP_STAT 1 = true) ∧
    (∀ (s : State) (fails : List (Axis × Nat)), s.ds.vdrvLock = true →
      ∃ t, exec (.vdrvLockRelease fails) s = .next t ∧ t.ds.vdrvLock = false ∧ rgB t Sig.SUP_STAT 2 = false ∧
        rgB t Sig.SUP_STAT 1 = rgB s Sig.SUP_STAT 1 ∧ ∀ n, axSt t n = axSt s n) ∧
    (∀ s : State, linkPowered s = true → ∃ t, exec .hardShutdown s = .next t ∧ t.ds.hot = true ∧ ∀ n g, gateOn t n g = false) ∧
    ∀ s : State, s.ds.hot = true → ∃ t, exec .hardShutdownClear s = .next t ∧ t.ds.hot = false ∧ ∀ n, axSt t n = axSt s n

/-- CLK_FAIL is latched with its culprit, in STANDBY with none, and leads to DEVICE_SAFE where source 33 has that reaction at its first
event, in STANDBY also barring the way to RUN; PLL_LOCK brings RUN with the timebase at 0; PLL_FAIL shows in CLK_STAT and leaves the device
in STANDBY; LFCLK_SWITCHOVER shows the crystal in CLK_STAT and changes nothing else (R15, R63, R64, R66, R67, R84, R658). The model's
choices in it: log entry 2. -/
def Obligations.ClockEventsShowInClkStat : Prop :=
  (∀ (s : State) (c : Nat), linkPowered s = true → c < 4 → (srcOf s (devSrc 33)).lasting = false → (srcOf s (devSrc 33)).react = reSafe →
      (srcOf s (devSrc 33)).t = 0 →
      ∃ t, exec (.clkFail c) s = .next t ∧ t.flt.safeMode = true ∧ rgB t Sig.CLK_STAT 5 = true ∧
        rgF t Sig.CLK_STAT 6 2 = (if inRun s then c else 0) ∧ (inRun s = false → t.pwr.clkBlocked = true ∧ t.pwr.toRun = false)) ∧
    (∀ s : State, s.pwr.st = .standby → s.pwr.toRun = true →
      ∃ t, exec .pllLock s = .next t ∧ t.pwr.st = .run ∧ t.clk.tb = 0 ∧ t.clk.us = s.clk.us ∧ t.pwr.toRun = false) ∧
    (∀ (s : State) (ref : Bool), s.pwr.st = .standby → s.pwr.toRun = true →
      ∃ t, exec (.pllFail ref) s = .next t ∧ t.pwr.st = .standby ∧ t.pwr.toRun = false ∧ rgB t Sig.CLK_STAT 8 = true ∧
        rgB t Sig.CLK_STAT 3 = ref ∧ t.flt.safeMode = s.flt.safeMode) ∧
    ∀ s : State, s.pwr.st ≠ .off → rgN s Sig.LFCLK_SRC = 1 →
      ∃ t, exec .lfclkSwitchover s = .next t ∧ rgB t Sig.CLK_STAT 1 = true ∧ rgB t Sig.CLK_STAT 2 = true ∧ OnlySignal Sig.CLK_STAT s t

/-- PWR_REQ_RUN in STANDBY starts the way to RUN; PWR_REQ_STANDBY brings STANDBY and ends a change under way; PWR_REQ_SLEEP and IDLE_SLEEP
bring STANDBY and put the device on the way to SLEEP, from RUN and from STANDBY; a write of PWR_REQ that would leave RUN while an axis is
not DISABLED has status NOT_IN_STATE (R67, R68). The model's choices in it: log entry 2. -/
def Obligations.PowerRequestsMoveThePowerState : Prop :=
  (∀ (s : State) (r : Req), s.pwr.st = .standby → s.pwr.clkBlocked = false → WriteAccepted s r Sig.PWR_REQ 2 →
      ∃ t, exec (.pwrReqRun r) s = .next t ∧ t.pwr.toRun = true ∧ t.pwr.st = .standby) ∧
    (∀ (s : State) (r : Req), WriteAccepted s r Sig.PWR_REQ 1 →
      ∃ t, exec (.pwrReqStandby r) s = .next t ∧ t.pwr.st = .standby ∧ t.pwr.toRun = false ∧ t.pwr.toSleep = false) ∧
    (∀ (s : State) (r : Req), WriteAccepted s r Sig.PWR_REQ 0 →
      ∃ t, exec (.pwrReqSleep r) s = .next t ∧ t.pwr.st = .standby ∧ t.pwr.toSleep = true) ∧
    (∀ s : State, linkPowered s = true → s.pwr.booted = true → allDisabled s = true → ndWork s = false → s.rt.handed = none →
      rgN s Sig.IDLE_SLEEP ≠ 0 → ∃ t, exec .idleSleep s = .next t ∧ t.pwr.st = .standby ∧ t.pwr.toSleep = true) ∧
    ∀ (s : State) (v : Nat), v < 2 → inRun s = true → allDisabled s = false →
      writeStatus s false (sidOf s Sig.PWR_REQ) (BitVec.ofNat 32 v) = stNotInState

/-- SLEEP_ENTRY puts the device to sleep once its response rings and staging are empty, with READY low, no subscription, no limit slot and
no debug session; an event of a wake source that was enabled at the entry (VTRC, WAKE, CS_N, the ring, the alarm, a movement that the
parking watch finds) brings it back to STANDBY with READY high where no CLK_FAIL is latched and its bit in WAKE_CAUSE, the link at reset but
for event 87 of a movement; VTRC falling again while a coupling is qualified ends that and changes nothing else; a parking-watch window
samples the levels and wakes by no input that PW_MASK leaves out (R67, R71 to R78, R134, R173, R631). The model's choices in it: log entries
2, 13 and 39. -/
def Obligations.SleepAndWakeFollowTheirSources : Prop :=
  (∀ s : State, s.pwr.st = .standby → s.pwr.toSleep = true → ndWork s = false → s.rt.blocked = [] →
      (∀ i, i < 16 → (ringAt s (16 + i)).empty = true) →
      ∃ t, exec .sleepEntry s = .next t ∧ t.pwr.st = .sleep ∧ t.pwr.ready = false ∧ t.rt.subs = List.replicate 32 none ∧
        t.rt.lims = List.replicate 64 none ∧ t.dbg.session = false ∧ t.dbg.haltMp = false) ∧
    (∀ (s : State) (k : Fin 4), s.pwr.st = .sleep → bitOf s.pwr.armed k.val = true → (k = 0 → rgB s Sig.SUP_STAT 0 = false) →
      ∃ t, exec (match k with | 0 => .wakeVtrc | 1 => .wakePin | 2 => .wakeCsN | 3 => .wakeRing) s = .next t ∧ t.pwr.st = .standby ∧
        t.pwr.ready = !rgB s Sig.CLK_STAT 5 ∧ rgB t Sig.WAKE_CAUSE k.val = true ∧ t.link = Link.init) ∧
    (∀ s : State, s.pwr.st ≠ .off → rgB s Sig.SUP_STAT 0 = true →
      ∃ t, exec .wakeVtrc s = .next t ∧ rgB t Sig.SUP_STAT 0 = false ∧ OnlySignal Sig.SUP_STAT s t) ∧
    (∀ s : State, s.pwr.st = .sleep → bitOf s.pwr.armed 4 = true → rgN s Sig.ALARM ≠ 0xFFFFFFFF → s.clk.lf ≤ rgN s Sig.ALARM * 32768 →
      ∃ t, exec .alarm s = .next t ∧ t.pwr.st = .standby ∧ t.pwr.ready = !rgB s Sig.CLK_STAT 5 ∧ rgB t Sig.WAKE_CAUSE 4 = true ∧
        t.link = Link.init ∧ t.clk.lf = rgN s Sig.ALARM * 32768) ∧
    (∀ (s : State) (levels : Nat) (high : Bool) (n : Axis), s.pwr.st = .sleep → bitOf s.pwr.armed 5 = true →
      bitOf (rgN s Sig.PW_MASK) n.val = true → fbMode s n = 4 → s.pwr.pwFirst = false →
      bitOf levels n.val ≠ bitOf s.pwr.pwLevels n.val →
      rgN s Sig.PW_EDGES ≤ (watchInput (s.pwr.pwCounts.getD n.val []) true (rgN s Sig.PW_WINDOW)).length →
      ∃ t, exec (.parkingWatchWindow levels high) s = .next t ∧ t.pwr.st = .standby ∧ t.pwr.ready = !rgB s Sig.CLK_STAT 5 ∧
        rgB t Sig.WAKE_CAUSE 5 = true ∧ bitOf t.link.events 87 = true ∧ t.link.rings = Link.init.rings) ∧
    ∀ (s : State) (levels : Nat) (high : Bool), s.pwr.st = .sleep →
      ∃ t, exec (.parkingWatchWindow levels high) s = .next t ∧ t.clk.lf = s.clk.lf + 3277 ∧ t.pwr.pwFirst = false ∧ t.pwr.pwLevels = levels ∧
        ((∀ n : Axis, bitOf (rgN s Sig.PW_MASK) n.val = false) → t.pwr.st = .sleep)

/-- COUPLING counts and declares the coupling with event 75, schedules the probe and in STANDBY asks for RUN, and changes no other signal
but the record's counts; DECOUPLING ends the coupling with event 76, cancels a probe that has not started, and stops no axis (R79 to R82).
The model's choices in it: log entries 2 and 14. -/
def Obligations.CouplingsAreDeclaredAndEnded : Prop :=
  (∀ s : State, s.pwr.booted = true → linkPowered s = true → rgN s Sig.COUPLED = 0 →
      ∃ t, exec .coupling s = .next t ∧ rgN t Sig.COUPLED = 1 ∧ t.nd.coupleCount = s.nd.coupleCount + 1 ∧ t.hc.scheduled = true ∧
        rgB t Sig.SUP_STAT 0 = false ∧ bitOf t.link.events 75 = true ∧
        (s.pwr.st = .standby → s.pwr.clkBlocked = false → t.pwr.toRun = true) ∧
        SignalsBut [Sig.COUPLED, Sig.SUP_STAT] s t) ∧
    ∀ s : State, s.pwr.booted = true → s.pwr.st ≠ .off → rgN s Sig.COUPLED = 1 →
      ∃ t, exec .decoupling s = .next t ∧ rgN t Sig.COUPLED = 0 ∧ t.nd.coupleCount = s.nd.coupleCount ∧ t.ax = s.ax ∧
        bitOf t.link.events 76 = true ∧ (s.hc.probe = none → t.hc.scheduled = false)

/-! ### Host link (chapter 5) -/

/-- RING_DATA_WRITE stores whole words in a request ring, wrapping at the ring's end, and leaves every other byte alone; one with a
part-word shows code 6 in PROTO_ERR. RING_DATA_READ drives the bytes of a response or subscription ring, or of a link register over and
over, and changes nothing; while READY is low it drives 0xFF bytes. Either one that breaks a rule shows in PROTO_ERR and stores nothing, and
a read that does drives 0xFF bytes (R113, R115, R118 to R120). The model's choices in it: log entries 6, 29 and 46. -/
def Obligations.RingDataOperationsMoveBytes : Prop :=
  (∀ (s : State) (instr ring off : Nat) (data : List Byte), linkUp s = true → txOp instr = 2 →
      dataError s instr ring off (decide (ring ≤ 15)) = none → data.length % 4 = 0 → data.length ≤ (ringAt s ring).bytes →
      ∃ t, exec (.ringDataWrite instr ring off data) s = .next t ∧ OnlyLink s t ∧ t.link.rings = s.link.rings ∧
        t.link.events = s.link.events ∧
        memBytesRing t.link.buf (ringBase ring) (ringAt s ring).bytes off data.length = data ∧
        ∀ a, (∀ i, i < data.length → a ≠ ringBase ring + (off + i) % (ringAt s ring).bytes) →
          memRead t.link.buf a = memRead s.link.buf a) ∧
    (∀ (s : State) (instr ring off : Nat) (data : List Byte), linkUp s = true → txOp instr = 2 →
      dataError s instr ring off (decide (ring ≤ 15)) = none → data.length % 4 ≠ 0 → data.length / 4 * 4 ≤ (ringAt s ring).bytes →
      ∃ t, exec (.ringDataWrite instr ring off data) s = .next t ∧ t.link.protoErr = true ∧ t.link.peCode = 6 ∧
        memBytesRing t.link.buf (ringBase ring) (ringAt s ring).bytes off (data.length / 4 * 4) = data.take (data.length / 4 * 4) ∧
        ∀ a, (∀ i, i < data.length / 4 * 4 → a ≠ ringBase ring + (off + i) % (ringAt s ring).bytes) →
          memRead t.link.buf a = memRead s.link.buf a) ∧
    (∀ (s : State) (instr ring off len : Nat), linkUp s = true → txOp instr = 0 → regReadError instr ring = none →
      ∃ t, exec (.ringDataRead instr ring off len) s = .next t ∧ { t with link := { t.link with out := s.link.out } } = s ∧
        t.link.out = (List.range len).map (fun i => (leBytes 4 (linkReg s (txIndex instr) ring)).getD (i % 4) 0)) ∧
    (∀ (s : State) (instr ring off len : Nat), linkUp s = false → txOp instr = 0 ∨ txOp instr = 3 →
      ∃ t, exec (.ringDataRead instr ring off len) s = .next t ∧ { t with link := { t.link with out := s.link.out } } = s ∧
        t.link.out = List.replicate len 0xFF) ∧
    (∀ (s : State) (instr ring off len c : Nat), linkUp s = true → txOp instr = 0 → regReadError instr ring = some c →
      ∃ t, exec (.ringDataRead instr ring off len) s = .next t ∧ BreaksRule s t c ∧ t.link.out = List.replicate len 0xFF) ∧
    (∀ (s : State) (instr ring off len : Nat), linkUp s = true → txOp instr = 3 →
      dataError s instr ring off (readableRing ring) = none →
      ∃ t, exec (.ringDataRead instr ring off len) s = .next t ∧ { t with link := { t.link with out := s.link.out } } = s ∧
        t.link.out = memBytesRing s.link.buf (ringBase ring) (ringAt s ring).bytes off len) ∧
    (∀ (s : State) (instr ring off : Nat) (data : List Byte) (c : Nat), linkUp s = true → txOp instr = 2 →
      dataError s instr ring off (decide (ring ≤ 15)) = some c →
      ∃ t, exec (.ringDataWrite instr ring off data) s = .next t ∧ BreaksRule s t c ∧ t.link.buf = s.link.buf) ∧
    ∀ (s : State) (instr ring off len c : Nat), linkUp s = true → txOp instr = 3 → dataError s instr ring off (readableRing ring) = some c →
      ∃ t, exec (.ringDataRead instr ring off len) s = .next t ∧ BreaksRule s t c ∧ t.link.out = List.replicate len 0xFF

/-- RING_HEAD_WRITE, RING_TAIL_WRITE, RING_CFG_SIZE and CLR_DROP set the register of the ring that they name and no other ring's; a
RING_HEAD of a ring that the host does not produce, a RING_TAIL of a ring that it does not consume, and one that is misaligned or outside
the ring, show code 5 in PROTO_ERR and set nothing (R120 to R122, R125, R126). -/
def Obligations.RingRegistersTakeTheirWrites : Prop :=
  (∀ (s : State) (ring v : Nat), linkUp s = true → s.link.rings.length = 64 → ring ≤ 15 → v % 4 = 0 → v < 65536 →
      v < (ringAt s ring).bytes →
      ∃ t, exec (.ringHeadWrite 0x18 ring (leBytes 4 v)) s = .next t ∧ OnlyLink s t ∧ ringAt t ring = { ringAt s ring with head := v } ∧
        (∀ q, q ≠ ring → ringAt t q = ringAt s q) ∧ t.link.buf = s.link.buf) ∧
    (∀ (s : State) (ring v : Nat), linkUp s = true → s.link.rings.length = 64 → hostVisible ring = true → 15 < ring → v % 4 = 0 →
      v < 65536 → v < (ringAt s ring).bytes → s.rt.blocked = [] →
      ∃ t, exec (.ringTailWrite 0x19 ring (leBytes 4 v)) s = .next t ∧ OnlyLink s t ∧ ringAt t ring = { ringAt s ring with tail := v } ∧
        (∀ q, q ≠ ring → ringAt t q = ringAt s q) ∧ t.link.buf = s.link.buf) ∧
    (∀ (s : State) (ring size : Nat), linkUp s = true → s.link.rings.length = 64 → hostVisible ring = true → size ≤ 2 →
      size ≠ (ringAt s ring).size → (ringAt s ring).empty = true →
      totalRings s - (ringAt s ring).bytes + 4096 * 2 ^ size ≤ 262144 →
      ∃ t, exec (.ringCfgSize 0x1A ring (leBytes 4 (16 * size))) s = .next t ∧ OnlyLink s t ∧ (ringAt t ring).size = size ∧
        (ringAt t ring).head = 0 ∧ (ringAt t ring).tail = 0 ∧ ∀ q, q ≠ ring → ringAt t q = ringAt s q) ∧
    (∀ (s : State) (ring : Nat), linkUp s = true → s.link.rings.length = 64 → 36 ≤ ring → ring ≤ 43 → (ringAt s ring).size ≤ 2 →
      ∃ t, exec (.clrDrop 0x1A ring (leBytes 4 (16 * (ringAt s ring).size + 64))) s = .next t ∧ OnlyLink s t ∧
        ringAt t ring = { ringAt s ring with drop := 0 } ∧ ∀ q, q ≠ ring → ringAt t q = ringAt s q) ∧
    (∀ (s : State) (ring v : Nat), linkUp s = true → hostVisible ring = true → v < 65536 →
      (15 < ring ∨ v % 4 ≠ 0 ∨ (ringAt s ring).bytes ≤ v) →
      ∃ t, exec (.ringHeadWrite 0x18 ring (leBytes 4 v)) s = .next t ∧ BreaksRule s t 5) ∧
    ∀ (s : State) (ring v : Nat), linkUp s = true → hostVisible ring = true → v < 65536 →
      (ring ≤ 15 ∨ v % 4 ≠ 0 ∨ (ringAt s ring).bytes ≤ v) →
      ∃ t, exec (.ringTailWrite 0x19 ring (leBytes 4 v)) s = .next t ∧ BreaksRule s t 5

/-- LINK_REG_WRITE of LINK_STAT clears PROTO_ERR and RESYNC where it writes 1, and of an EVTMASK sets that mask alone; one of an index that
no register has, with a WIDTH of 3, or without four data bytes breaks one of these rules alone and shows its code in PROTO_ERR, breaks
several and shows the code of one, and sets nothing; EVT_CLEAR clears the sticky events it writes 1 in its word, but not those that occur on
the same edge, no event of another word and no level event, whose condition alone decides it (R121, R122, R139, R140). -/
def Obligations.LinkRegistersClearAsWritten : Prop :=
  (∀ (s : State) (w : Nat), linkUp s = true → w < 2 ^ 32 →
      ∃ t, exec (.linkRegWrite 0x11 0 (leBytes 4 w)) s = .next t ∧ t.link.protoErr = (s.link.protoErr && !bitOf w 3) ∧
        t.link.resync = (s.link.resync && !bitOf w 4) ∧
        { t with link := { t.link with protoErr := s.link.protoErr, resync := s.link.resync } } = s) ∧
    (∀ (s : State) (k : Fin 3) (w : Nat), linkUp s = true → w < 2 ^ 32 → s.link.masks < 2 ^ 96 →
      ∃ t, exec (.linkRegWrite (0x15 + k.val) 0 (leBytes 4 w)) s = .next t ∧ evtMask t k.val = w ∧
        (∀ j : Fin 3, j ≠ k → evtMask t j.val = evtMask s j.val) ∧ { t with link := { t.link with masks := s.link.masks } } = s) ∧
    (∀ (s : State) (instr ring c : Nat) (data : List Byte), linkUp s = true → txOp instr = 1 → 1 ≤ txIndex instr →
      (c = 1 ∧ txWidth instr = 3 ∧ txIndex instr ≤ 7 ∧ data.length = 4) ∨
        (c = 2 ∧ txWidth instr ≠ 3 ∧ 10 < txIndex instr ∧ data.length = 4) ∨
        (c = 8 ∧ txWidth instr ≠ 3 ∧ txIndex instr ≤ 7 ∧ data.length ≠ 4) →
      exec (.linkRegWrite instr ring data) s = .next (protoError s c)) ∧
    (∀ (s : State) (instr ring : Nat) (data : List Byte), linkUp s = true → txOp instr = 1 → 1 ≤ txIndex instr →
      (txWidth instr = 3 ∨ 10 < txIndex instr ∨ data.length ≠ 4) →
      ∃ c, c ∈ [1, 2, 3, 5, 7, 8] ∧ exec (.linkRegWrite instr ring data) s = .next (protoError s c)) ∧
    ∀ (s : State) (k : Fin 3) (w : Nat) (raised : List Nat), linkUp s = true → w < 2 ^ 32 →
      ∃ t, exec (.evtClear (0x12 + k.val) 0 (leBytes 4 w) raised) s = .next t ∧ OnlyLink s t ∧ t.link.buf = s.link.buf ∧
        t.link.rings = s.link.rings ∧
        (∀ i, i < 96 → isLevel i = true → evtBit t i = evtBit s i) ∧
        ∀ i, i < 96 → isLevel i = false →
          evtBit t i = ((evtBit s i && !(decide (i / 32 = k.val) && bitOf w (i % 32))) || raised.contains i)

/-- FRAME_TAKE: a frame that is whole, undamaged and well formed and that names this device is handed over as the command that it spells,
counted, remembered and taken out of its ring; a damaged one is answered with CRC_ERR, the rest of its ring is discarded and RESYNC is set.
FORWARDED_FRAME: such a request of another device is handed over in the same way, remembered under its entry device, while the device sees a
lead; a damaged one has no effect (R128, R129, R131, R137, R151, R152, R160, R161, R165, R175, R552). The model's choices in it: log entries
2 and 25. -/
def Obligations.FramesAreTakenAsCommands : Prop :=
  (∀ (s : State) (ring : Nat) (i : Instr), serves s = true → s.pwr.ready = true → s.rt.handed = none → s.link.rings.length = 64 →
      ring ≤ 15 → ((serveOrder s).filter (fun q => frameThere s q && respRoom s q)).head? = some ring →
      (headHdr s ring).length ≤ 1008 → badHeader (headHdr s ring) = false → (headHdr s ring).devSel = ringId s →
      selectionOk (headHdr s ring).opcode (headHdr s ring).axisSel (headHdr s ring).devSel = true →
      emptyGroup (reqFrom s (headHdr s ring) ring (respRingOf ring (headHdr s ring).b12) false (ringId s)) (headHdr s ring).opcode = false →
      crc32 (memBytesRing s.link.buf (ringBase ring) (ringAt s ring).bytes (ringAt s ring).tail
          (16 + ((headHdr s ring).length + 3) / 4 * 4)) =
        wordAt (memBytesRing s.link.buf (ringBase ring) (ringAt s ring).bytes (ringAt s ring).tail (frameLen (headHdr s ring).length))
          (16 + ((headHdr s ring).length + 3) / 4 * 4) →
      parseCmd (reqFrom s (headHdr s ring) ring (respRingOf ring (headHdr s ring).b12) false (ringId s)) (headHdr s ring).opcode
        (((memBytesRing s.link.buf (ringBase ring) (ringAt s ring).bytes (ringAt s ring).tail
          (frameLen (headHdr s ring).length)).drop 16).take (headHdr s ring).length) = some i →
      ∃ t, exec (.frameTake .good) s = .next t ∧ t.rt.handed = some i ∧ rg t Sig.CMD_COUNT = rg s Sig.CMD_COUNT + 1 ∧
        (ringAt t ring).tail = ((ringAt s ring).tail + frameLen (headHdr s ring).length) % (ringAt s ring).bytes ∧
        t.rt.taken.head? = some ⟨ring, (headHdr s ring).tag, (headHdr s ring).opcode, none⟩ ∧ t.link.buf = s.link.buf) ∧
    (∀ (s : State) (ring : Nat), serves s = true → s.pwr.ready = true → s.rt.handed = none → s.link.rings.length = 64 → ring ≤ 15 →
      ((serveOrder s).filter (fun q => frameThere s q && respRoom s q)).head? = some ring → (headHdr s ring).length ≤ 1008 →
      crc32 (memBytesRing s.link.buf (ringBase ring) (ringAt s ring).bytes (ringAt s ring).tail
          (16 + ((headHdr s ring).length + 3) / 4 * 4)) ≠
        wordAt (memBytesRing s.link.buf (ringBase ring) (ringAt s ring).bytes (ringAt s ring).tail (frameLen (headHdr s ring).length))
          (16 + ((headHdr s ring).length + 3) / 4 * 4) →
      ∃ t, exec (.frameTake .good) s = .next t ∧ t.rt.handed = none ∧ (ringAt t ring).tail = (ringAt s ring).head ∧
        t.link.resync = true ∧ bitOf t.link.events 90 = true ∧ rgN t Sig.CMD_COUNT = rgN s Sig.CMD_COUNT ∧
        rg t Sig.LAST_FAIL = BitVec.ofNat 32 ((headHdr s ring).tag * 65536 + (headHdr s ring).opcode * 256 + stCrcErr)) ∧
    (∀ (s : State) (src : Nat) (bs : List Byte) (i : Instr), serves s = true → s.rt.handed = none → s.emq.noLead = false →
      bs.length = frameLen (parseHdr bs).length → (parseHdr bs).length ≤ 1008 →
      crc32 (bs.take (bs.length - 4)) = wordAt bs (bs.length - 4) → bitOf (parseHdr bs).flags 5 = false →
      bitOf (parseHdr bs).flags 7 = false → knownOp (parseHdr bs).opcode = true →
      selectionOk (parseHdr bs).opcode (parseHdr bs).axisSel (parseHdr bs).devSel = true →
      emptyGroup (reqFrom s (parseHdr bs) (64 + src) (respRingOf 0 (parseHdr bs).b12) true src) (parseHdr bs).opcode = false →
      parseCmd (reqFrom s (parseHdr bs) (64 + src) (respRingOf 0 (parseHdr bs).b12) true src) (parseHdr bs).opcode
        ((bs.drop 16).take (parseHdr bs).length) = some i →
      ∃ t, exec (.forwardedFrame src bs) s = .next t ∧ t.rt.handed = some i ∧ rg t Sig.CMD_COUNT = rg s Sig.CMD_COUNT + 1 ∧
        t.rt.taken.head? = some ⟨64 + src, (parseHdr bs).tag, (parseHdr bs).opcode, none⟩ ∧ SignalsBut [Sig.CMD_COUNT] s t ∧ t.ax = s.ax) ∧
    ∀ (s : State) (src : Nat) (bs : List Byte), serves s = true → bs.length = frameLen (parseHdr bs).length →
      crc32 (bs.take (bs.length - 4)) ≠ wordAt bs (bs.length - 4) →
      exec (.forwardedFrame src bs) s = .next { s with emq := { s.emq with inbox := s.emq.inbox.erase (src, bs) } }

/-! ### Commands (chapter 6) -/

/-- SIG_READ of readable signals that a read does not change posts the present values in the order asked for and changes no signal; of any
SID that the checks of R147 refuse it answers with the first one's status and index and reads nothing (R147, R150, R154, R155). The model's
choices in it: log entry 18. -/
def Obligations.SigReadAnswersThePresentValues : Prop :=
  (∀ (s : State) (r : Req) (sids : List Word), Accepted s r opSigRead (sids.all deviceSid) → sids ≠ [] → sids.length ≤ 250 →
      (∀ w ∈ sids, readStatus s false w = stOk) → (∀ w ∈ sids, readEffect (unhand s r) (w.toNat % 0x10000) = unhand s r) →
      r.noReply = false → r.fwd = false → CanPost s r.resp (frameLen (4 + 4 * sids.length)) →
      ∃ t, exec (.sigRead r false sids) s = .next t ∧ t.regs = s.regs ∧
        Posted s t r.resp (respFrame s r opSigRead stOk
          (countPayload sids.length 0xFFFF ++ sids.flatMap (fun w => wordBytes (viewKey s (w.toNat % 0x10000)))))) ∧
    ∀ (s : State) (r : Req) (good : List Word) (bad : Word) (rest : List Word),
      Accepted s r opSigRead ((good ++ bad :: rest).all deviceSid) → (good ++ bad :: rest).length ≤ 250 →
      (∀ w ∈ good, readStatus s false w = stOk) → readStatus s false bad ≠ stOk → r.fwd = false → CanPost s r.resp (frameLen 4) →
      ∃ t, exec (.sigRead r false (good ++ bad :: rest)) s = .next t ∧ Quiet s t ∧
        Posted s t r.resp (respFrame s r opSigRead (readStatus s false bad) (countPayload 0 good.length))

/-- SIG_WRITE of one accepted pair has the effect of that pair and nothing else but its answer, of GD_LATCH with the active conditions as a
free value; of IDLE_SLEEP, that the signal holds the value; where any pair of a frame is refused, the frame writes nothing and its refusal
is counted (R147, R149, R154, R155, R175). The model's choices in it: log entry 41. -/
def Obligations.SigWriteHasTheEffectOfItsPairs : Prop :=
  (∀ (s : State) (r : Req) (sid v : Word) (key : Nat) (row : SigRow), Accepted s r opSigWrite false → sidRow s false sid = some (key, row) →
      writeStatus (unhand s r) false sid v = stOk → ¬(key < 0x8000 ∧ key % 0x1000 = 0x120) →
      ∃ t, exec (.sigWrite r [(sid, v)] [] false) s = .next t ∧
        Quiet (frameWritten (writeKey (unhand s r) key row v 0) [key] [] false) t) ∧
    (∀ (s : State) (r : Req) (sid v : Word) (key : Nat) (row : SigRow), Accepted s r opSigWrite false → sidRow s false sid = some (key, row) →
      writeStatus (unhand (drawWord s).2 r) false sid v = stOk → key < 0x8000 → key % 0x1000 = 0x120 →
      ∃ t, exec (.sigWrite r [(sid, v)] [] false) s = .next t ∧
        Quiet (frameWritten (writeKey (unhand (drawWord s).2 r) key row v (drawWord s).1.toNat) [key] [] false) t) ∧
    (∀ (s : State) (r : Req) (v : Word), WriteAccepted s r Sig.IDLE_SLEEP v →
      ∃ t, exec (.sigWrite r [(sidOf s Sig.IDLE_SLEEP, v)] [] false) s = .next t ∧ rg t Sig.IDLE_SLEEP = v ∧ t.pwr = s.pwr ∧
        ∀ k, k ≠ Sig.IDLE_SLEEP → k ∉ ledgerKeys → rg t k = rg s k) ∧
    ∀ (s : State) (r : Req) (pairs : List (Word × Word)) (straddle : List Axis) (late : Bool), Accepted s r opSigWrite false →
      pairs ≠ [] → pairs.length ≤ 125 → (writePairs (unhand s r) false 0 (unhand s r) 0 pairs).2 ≠ none →
      (pairKeys pairs).any (fun k => decide (k < 0x8000) && k % 0x1000 == 0x120) = false →
      ∃ t, exec (.sigWrite r pairs straddle late) s = .next t ∧ Quiet s t ∧ rg t Sig.CMD_FAIL_COUNT = rg s Sig.CMD_FAIL_COUNT + 1 ∧
        t.ax = s.ax

/-- SIG_SUBSCRIBE with handle 0 takes the first free handle, with the handle of a subscription replaces it, and is due one period later;
with MODE 0 it ends the subscription; SIG_LIMIT sets its slot, and with ENABLE 0 clears it; SUBSCRIPTION_PERIOD makes a subscription due
again one period later, and a periodic one captures the values in force and numbers its frame (R152, R154, R167, R168, R170, R173). The
model's choices in it: log entries 2 and 20. -/
def Obligations.SubscriptionsAndLimitsAreKept : Prop :=
  (∀ (s : State) (r : Req) (ring mode period deadband i : Nat) (sids : List Word), Accepted s r opSigSubscribe false → streamRing ring = true →
      1 ≤ mode → mode ≤ 2 → 1 ≤ period → period ≤ 1000000 → 1 ≤ sids.length → sids.length ≤ 32 → sidsStatus s sids = stOk →
      s.rt.subs.findIdx? Option.isNone = some i → i < 32 →
      subLoad (setAt s.rt.subs i (some ⟨ring, mode, period, deadband, sids, [], s.clk.us + 10 * period, 0, r.entry, r.fwd⟩)) ≤ 500000 →
      ∃ t, exec (.sigSubscribe r 0 ring mode period deadband sids) s = .next t ∧
        subOf t (i + 1) = some ⟨ring, mode, period, deadband, sids, [], s.clk.us + 10 * period, 0, r.entry, r.fwd⟩ ∧ t.regs = s.regs) ∧
    (∀ (s : State) (r : Req) (ring mode period deadband h : Nat) (sids : List Word), Accepted s r opSigSubscribe false →
      streamRing ring = true → 1 ≤ mode → mode ≤ 2 → 1 ≤ period → period ≤ 1000000 → 1 ≤ sids.length → sids.length ≤ 32 →
      sidsStatus s sids = stOk → h ≤ 32 → s.rt.subs.length = 32 → (subOf s h).isSome = true →
      subLoad (setAt s.rt.subs (h - 1) (some ⟨ring, mode, period, deadband, sids, [], s.clk.us + 10 * period, 0, r.entry, r.fwd⟩)) ≤ 500000 →
      ∃ t, exec (.sigSubscribe r h ring mode period deadband sids) s = .next t ∧
        subOf t h = some ⟨ring, mode, period, deadband, sids, [], s.clk.us + 10 * period, 0, r.entry, r.fwd⟩ ∧ t.regs = s.regs) ∧
    (∀ (s : State) (r : Req) (ring period deadband h : Nat), Accepted s r opSigSubscribe false → h ≤ 32 → (subOf s h).isSome = true →
      ∃ t, exec (.sigSubscribe r h ring 0 period deadband []) s = .next t ∧ subOf t h = none ∧ t.regs = s.regs) ∧
    (∀ (s : State) (r : Req) (slot ring qual : Nat) (sid low high hyst : Word) (key : Nat) (row : SigRow), Accepted s r opSigLimit false →
      slot < 64 → s.rt.lims.length = 64 → (ring = 0 ∨ streamRing ring = true) → 1 ≤ qual → qual ≤ 10000 →
      sidRow s false sid = some (key, row) → fuseHidden s key = false → row.ty ≠ .bits32 → row.acc ≠ .wo → slotCoded row.ty low = true →
      slotCoded row.ty high = true →
      ∃ t, exec (.sigLimit r slot true ring sid low high hyst qual) s = .next t ∧
        t.rt.lims.getD slot none = some ⟨ring, sid, low, high, hyst, qual, 0, false, 0, r.entry, r.fwd⟩ ∧ t.regs = s.regs) ∧
    (∀ (s : State) (r : Req) (slot ring qual : Nat) (sid low high hyst : Word), Accepted s r opSigLimit false → slot < 64 →
      ∃ t, exec (.sigLimit r slot false ring sid low high hyst qual) s = .next t ∧ t.rt.lims.getD slot none = none ∧
        t.regs = s.regs) ∧
    ∀ (s : State) (h : Nat) (u : Sub), subOf s h = some u → linkPowered s = true → s.dbg.haltMp = false →
      ∃ t v, exec (.subscriptionPeriod h) s = .next t ∧ subOf t h = some v ∧ v.due = u.due + 10 * u.period ∧ v.sids = u.sids ∧
        (u.mode = 1 → v.seq = u.seq + 1 ∧ v.lastVals = u.sids.map (sidValue (toUs s u.due)))

/-- SET_GAINS writes both gains of an open loop of the axis and no other signal, and refuses a closed one with LOOP_CLOSED; GROUP_SET writes
the group's mask and no other signal; MODE_SET puts the drive mode in force and, where no axis runs tasks, the pass counts with it (R156,
R274, R301, R302, R307, R494 to R496). -/
def Obligations.GainsGroupsAndModesAreSet : Prop :=
  (∀ (s : State) (r : Req) (n : Axis) (loop : Fin 4) (kp ki : Word), Accepted s r opSetGains false → r.axisSel = n.val →
      (gainsAns (unhand s r) n loop.val kp ki).2.status = stOk →
      ∃ t, exec (.setGains r loop.val kp ki) s = .next t ∧ rg t (Sig.LP_KP_D n.val + 2 * loop.val) = kp ∧
        rg t (Sig.LP_KP_D n.val + 2 * loop.val + 1) = ki ∧
        ∀ k, k ≠ Sig.LP_KP_D n.val + 2 * loop.val → k ≠ Sig.LP_KP_D n.val + 2 * loop.val + 1 → k ∉ ledgerKeys → rg t k = rg s k) ∧
    (∀ (s : State) (r : Req) (n : Axis) (loop : Fin 4) (kp ki : Word), Accepted s r opSetGains false → r.axisSel = n.val →
      gainClosed s n (0x210 + 2 * loop.val) = true → (gainsAns (unhand s r) n loop.val kp ki).2.status ≠ stRange →
      ∃ t, exec (.setGains r loop.val kp ki) s = .next t ∧ Quiet s t ∧
        rg t Sig.LAST_FAIL = BitVec.ofNat 32 (r.tag * 65536 + opSetGains * 256 + stLoopClosed)) ∧
    (∀ (s : State) (r : Req) (group : Fin 4) (mask : Nat), Accepted s r opGroupSet false → mask < 256 →
      ∃ t, exec (.groupSet r group.val mask) s = .next t ∧ rgN t (Sig.GROUP group.val) = mask ∧
        ∀ k, k ≠ Sig.GROUP group.val → k ∉ ledgerKeys → rg t k = rg s k) ∧
    ∀ (s : State) (r : Req) (mode mask : Nat) (permit : Word), Accepted s r opModeSet false → modeStatus s mode mask permit = stOk →
      (∀ n, (axSt s n).runsTasks = false) → (∀ n : Axis, (s.loop[n]).passPend = none) →
      ∃ t, exec (.modeSet r mode mask permit) s = .next t ∧ t.bisc.mode = mode ∧ t.bisc.mask = mask ∧
        ∀ n : Axis, (t.loop[n]).passes = modePasses mode mask n

/-- AXIS_STATE takes an axis from any other state to DISABLED with its loops open, its counter stopped and its request withdrawn; where the
DS grants an enable it takes an axis from DISABLED to PRECHARGE, towards the state asked for; from OPEN to POSITION it leaves the transition
to the first task whose tag falls after now; an axis that may not leave DISABLED stays there. STOP clears the references of OPEN, the
current reference of TORQUE and the speed reference of SPEED, and ends the class of the move in POSITION; in FAULT and SAFE_SHORT it is
refused with NOT_IN_STATE. A MOVE of class 0 or 1 on an axis in POSITION starts at once with its class (R153, R156, R241, R295, R296, R300,
R317, R319, R467). The model's choices in it: log entries 23 and 27. -/
def Obligations.AxisCommandsMoveTheAxis : Prop :=
  (∀ (s : State) (r : Req) (n : Axis), Accepted s r opAxisState true → r.axisSel = n.val → s.bisc.logs.getD 2 0 = 0 →
      ∃ t, exec (.axisState r 0 false Check.pass) s = .next t ∧ axSt t n = .disabled ∧
        (axSt s n ≠ .disabled → bitOf t.sup.req n.val = false ∧ (t.loop[n]).bankA = Bank.init ∧ (t.pwm[n]).running = false)) ∧
    (∀ (s : State) (r : Req) (n : Axis) (x : AxState), Accepted s r opAxisState false → r.axisSel = n.val → s.bisc.logs.getD 2 0 = 0 →
      inRun s = true → axSt s n = .disabled → (x = .opn ∨ x = .torque ∨ x = .speed ∨ x = .position) → s.emq.noLead = false →
      (enableAxis (unhand s r) n x s.clk.tb).2 = true →
      ∃ t, exec (.axisState r x.code false Check.pass) s = .next t ∧ axSt t n = .precharge ∧ (t.ax[n]).goal = x ∧
        (t.pwm[n]).startPend = true) ∧
    (∀ (s : State) (r : Req) (n : Axis) (x : AxState), Accepted s r opAxisState false → r.axisSel = n.val → s.bisc.logs.getD 2 0 = 0 →
      inRun s = true → (axSt s n = .opn ∨ axSt s n = .torque ∨ axSt s n = .speed ∨ axSt s n = .position) →
      (x = .opn ∨ x = .torque ∨ x = .speed ∨ x = .position ∨ x = .hold) → axSt s n ≠ x → closeRefused s n x = false →
      ∃ t, exec (.axisState r x.code false Check.pass) s = .next t ∧ (t.loop[n]).pend = some (x, s.clk.tb) ∧ axSt t n = axSt s n) ∧
    (∀ (s : State) (r : Req) (n : Axis), Accepted s r opAxisState false → r.axisSel = n.val → s.bisc.logs.getD 2 0 = 0 →
      inRun s = true → axSt s n = .disabled → mayEnable s n .torque = false →
      ∃ t, exec (.axisState r 3 false Check.pass) s = .next t ∧ Quiet s t ∧ axSt t n = .disabled) ∧
    (∀ (s : State) (r : Req) (n : Axis) (kind : Fin 2), Accepted s r opStop false → r.axisSel = n.val → axSt s n = .opn →
      ∃ t, exec (.stop r kind.val false) s = .next t ∧ rg t (Sig.LP_VD_OL n.val) = 0 ∧ rg t (Sig.LP_VQ_OL n.val) = 0 ∧
        axSt t n = .opn) ∧
    (∀ (s : State) (r : Req) (n : Axis) (kind : Fin 2), Accepted s r opStop false → r.axisSel = n.val → axSt s n = .speed →
      ∃ t, exec (.stop r kind.val false) s = .next t ∧ rg t (Sig.LP_SPD_REF n.val) = 0 ∧ axSt t n = .speed) ∧
    (∀ (s : State) (r : Req) (n : Axis) (kind : Fin 2), Accepted s r opStop false → r.axisSel = n.val → axSt s n = .torque →
      ∃ t, exec (.stop r kind.val false) s = .next t ∧ rg t (Sig.LP_IQ_REF n.val) = 0 ∧ axSt t n = .torque) ∧
    (∀ (s : State) (r : Req) (n : Axis) (kind : Fin 2), Accepted s r opStop false → r.axisSel = n.val → axSt s n = .position →
      ∃ t, exec (.stop r kind.val false) s = .next t ∧ (t.hcAx[n]).moveCls = none ∧ axSt t n = .position) ∧
    (∀ (s : State) (r : Req) (n : Axis) (kind : Fin 2), Accepted s r opStop false → r.axisSel = n.val →
      (axSt s n = .fault ∨ axSt s n = .safeShort) →
      ∃ t, exec (.stop r kind.val false) s = .next t ∧ Quiet s t ∧ t.ax = s.ax ∧
        rg t Sig.LAST_FAIL = BitVec.ofNat 32 (r.tag * 65536 + opStop * 256 + stNotInState)) ∧
    ∀ (s : State) (r : Req) (n : Axis) (m : MoveArgs), Accepted s r opMove false → r.axisSel = n.val → moveStatus s r m n = stOk → m.cls < 2 →
      ∃ t, exec (.move r m) s = .next t ∧ (t.hcAx[n]).moveCls = some m.cls ∧ axSt t n = .position

/-- ABORT of a frame that the device does not remember is RANGE; of one that completed no later than the ABORT was taken, DONE_BEFORE_ABORT
with its instant; of one that has not completed or completed later, the frame's deferred entries, waiting notes and pending answers are
gone, and the command handed over under it is not carried out (R165, R166). The model's choices in it: log entry 23. -/
def Obligations.AbortEndsWhatItNames : Prop :=
  (∀ (s : State) (r : Req) (tag ring : Nat), Accepted s r opAbort false → ring ≤ 15 → r.fwd = false →
      (∀ x ∈ s.rt.taken, ¬(x.ring = ring ∧ x.tag = tag)) →
      ∃ t, exec (.abort r tag ring) s = .next t ∧ Quiet s t ∧
        rg t Sig.LAST_FAIL = BitVec.ofNat 32 (r.tag * 65536 + opAbort * 256 + stRange)) ∧
    (∀ (s : State) (r : Req) (tag ring d : Nat) (x : Taken) (xs : List Taken), Accepted s r opAbort false → ring ≤ 15 → r.fwd = false →
      s.rt.taken = x :: xs → x.ring = ring → x.tag = tag → x.done = some d → usAtOrBefore d r.taken = true → r.noReply = false →
      CanPost s r.resp (frameLen 4) →
      ∃ t, exec (.abort r tag ring) s = .next t ∧ Quiet s t ∧
        Posted s t r.resp (respFrame s r opAbort stDoneBeforeAbort (leBytes 4 (d % 2 ^ 32)))) ∧
    ∀ (s : State) (r : Req) (tag ring : Nat) (x : Taken) (xs : List Taken), Accepted s r opAbort false → ring ≤ 15 → r.fwd = false →
      s.rt.taken = x :: xs → x.ring = ring → x.tag = tag → (∀ d, x.done = some d → usAtOrBefore d r.taken = false) →
      ¬(r.ring = ring ∧ r.tag = tag) →
      ∃ t, exec (.abort r tag ring) s = .next t ∧ (∀ d ∈ t.rt.defq, named ring tag d.req = false) ∧
        (∀ y ∈ t.rcd.noteWaits, named ring tag y.1 = false) ∧ (∀ w ∈ t.rt.waits, named ring tag w.req = false) ∧
        ∀ i q, t.rt.handed = some i → reqOf i = some q → named ring tag q = false

/-! ### Record, images and fuses (chapters 4, 20 and 21) -/

/-- REC_READ posts SEQ, TOTAL, OFF and the bytes of the slice that it names, and changes nothing of the record; a slice that the life cycle
closes is denied. REC_NOTE stages its note while staging holds less than 60 KiB, and otherwise lets it wait (R158, R579, R591, R592). The
model's choices in it: log entry 9. -/
def Obligations.RecordReadsAndNotes : Prop :=
  (∀ (s : State) (r : Req) (seq off maxLen fails : Nat) (next : Bool) (x : Slice), Accepted s r opRecRead false → 4 ≤ maxLen →
      maxLen ≤ 1000 → maxLen % 4 = 0 → readSlice s seq next = some x → kindOpen s x.kind = true → off < x.total → fails < 2 →
      r.noReply = false → r.fwd = false → CanPost s r.resp (frameLen (8 + ((x.bytes.drop off).take maxLen).length)) →
      ∃ t, exec (.recRead r seq off maxLen next fails) s = .next t ∧ Quiet s t ∧ t.rcd = s.rcd ∧
        Posted s t r.resp (respFrame s r opRecRead stOk
          (leBytes 4 x.seq ++ leBytes 2 x.total ++ leBytes 2 off ++ (x.bytes.drop off).take maxLen))) ∧
    (∀ (s : State) (r : Req) (seq off maxLen fails : Nat) (next : Bool) (x : Slice), Accepted s r opRecRead false → 4 ≤ maxLen →
      maxLen ≤ 1000 → maxLen % 4 = 0 → readSlice s seq next = some x → kindOpen s x.kind = false →
      ∃ t, exec (.recRead r seq off maxLen next fails) s = .next t ∧ Quiet s t ∧ t.rcd = s.rcd ∧
        rg t Sig.LAST_FAIL = BitVec.ofNat 32 (r.tag * 65536 + opRecRead * 256 + stDeniedLifecycle)) ∧
    (∀ (s : State) (r : Req) (note : List Byte), Accepted s r opRecNote false → 0 < note.length → note.length ≤ 256 →
      s.rcd.noteWaits = [] → stagedBytes s < 61440 →
      ∃ t, exec (.recNote r note) s = .next t ∧ t.rcd = { s.rcd with staged := s.rcd.staged ++ [⟨kindNote, note, false, some r, instantNow s⟩] } ∧
        t.regs = s.regs) ∧
    ∀ (s : State) (r : Req) (note : List Byte), Accepted s r opRecNote false → 0 < note.length → note.length ≤ 256 → 61440 ≤ stagedBytes s →
      ∃ t, exec (.recNote r note) s = .next t ∧ t.rcd = { s.rcd with noteWaits := s.rcd.noteWaits ++ [(r, note)] } ∧ t.regs = s.regs

/-- IMG_WRITE puts its bytes into the inactive bank, at offset 0 into a blank one, and leaves every other byte and the other bank alone;
IMG_COMMIT begins verification; IMG_VERIFY_END selects a good image as a trial, restarts where asked to, and refuses a bad one without a
record; IMG_CONFIRM ends the trial; a loss of the supply while either of these two writes its record leaves the device OFF with the record
before it (R97 to R99, R101 to R105, R107). The model's choices in it: log entries 2, 6, 17 and 39. -/
def Obligations.ImagesAreWrittenVerifiedAndConfirmed : Prop :=
  (∀ (s : State) (r : Req) (off : Nat) (data : List Byte), Accepted s r opImgWrite false → 4 ≤ data.length → data.length ≤ 1004 →
      data.length % 4 = 0 → off % 4 = 0 → off + data.length ≤ 4194304 →
      rgN s Sig.UPD_STATE = 1 ∨ (off = 0 ∧ (rgN s Sig.UPD_STATE < 2 ∨ 4 < rgN s Sig.UPD_STATE)) →
      ∃ t, exec (.imgWrite r off data) s = .next t ∧ rgN t Sig.UPD_STATE = 1 ∧
        memBytes (bankOf t (spareBank s)).bytes off data.length = data ∧
        (∀ a, (∀ i, i < data.length → a ≠ off + i) → memRead (bankOf t (spareBank s)).bytes a =
          if off = 0 then unlistedByte else memRead (bankOf s (spareBank s)).bytes a) ∧
        bankOf t (1 - spareBank s) = bankOf s (1 - spareBank s) ∧ currentRec t = currentRec s ∧
        SignalsBut [Sig.UPD_STATE, Sig.IMG_VER_A, Sig.IMG_VER_B] s t) ∧
    (∀ (s : State) (r : Req) (restart : Bool), Accepted s r opImgCommit restart → rgN s Sig.UPD_STATE = 1 →
      (restart = true → allDisabled s = true) →
      ∃ t, exec (.imgCommit r restart) s = .next t ∧ rgN t Sig.UPD_STATE = 2 ∧ t.upd = ⟨some r, restart, false⟩ ∧ t.nd = s.nd) ∧
    (∀ (s : State) (env : BootEnv) (r : Req), s.upd.commit = some r → s.upd.restart = false → imageStatus s (spareBank s) = stOk →
      ∃ t q, exec (.imgVerifyEnd ⟨env, false⟩) s = .next t ∧ rgN t Sig.UPD_STATE = 3 ∧
        currentRec t = some ⟨q, spareBank s, true, rgN s Sig.ACTIVE_BANK, true⟩ ∧ (bankOf t (spareBank s)).valid = true ∧
        t.upd.commit = none) ∧
    (∀ (s : State) (env : BootEnv) (r : Req), s.upd.commit = some r → s.upd.restart = true → allDisabled s = true →
      s.pwr.vioLow = false → s.pwr.vcoreLow = false → imageStatus s (spareBank s) = stOk →
      ∃ t, exec (.imgVerifyEnd ⟨env, false⟩) s = .next t ∧ t.pwr.booted = true ∧ t.pwr.ready = true) ∧
    (∀ (s : State) (env : BootEnv) (r : Req), s.upd.commit = some r → imageStatus s (spareBank s) = stOk →
      ∃ t, exec (.imgVerifyEnd ⟨env, true⟩) s = .next t ∧ t.pwr.st = .off ∧ currentRec t = currentRec s) ∧
    (∀ (s : State) (env : CommitEnv) (r : Req), s.upd.commit = some r → imageStatus s (spareBank s) ≠ stOk →
      ∃ t, exec (.imgVerifyEnd env) s = .next t ∧ rgN t Sig.UPD_STATE = 1 ∧ t.nd = s.nd ∧ t.upd.commit = none) ∧
    (∀ (s : State) (r : Req), Accepted s r opImgConfirm false → rgN s Sig.UPD_STATE = 4 →
      ∃ t, exec (.imgConfirm ⟨r, true⟩) s = .next t ∧ t.pwr.st = .off ∧ currentRec t = currentRec s) ∧
    ∀ (s : State) (r : Req), Accepted s r opImgConfirm false → rgN s Sig.UPD_STATE = 4 →
      ∃ t q, exec (.imgConfirm ⟨r, false⟩) s = .next t ∧ rgN t Sig.UPD_STATE = 0 ∧
        currentRec t = some ⟨q, rgN s Sig.ACTIVE_BANK, false, 1 - rgN s Sig.ACTIVE_BANK, true⟩ ∧ t.nd.bankA = s.nd.bankA ∧
        t.nd.bankB = s.nd.bankB

/-- FUSE_PROGRAM that R606 refuses blows nothing; of one word it programs that word in full, with its commit bit where it has one, and no
other, and where an ABORT wins before the commit bit without that bit; a request for FIELD in DEVELOP blows group 2 and leaves the life
cycle that the boot latched (R166, R599, R605 to R608, R615). The model's choices in it: log entry 37. -/
def Obligations.FuseProgramBlowsWhatItNames : Prop :=
  (∀ (s : State) (r : Req) (kind index : Nat) (words : List Word) (sig : List Byte) (env : FuseEnv), Accepted s r opFuseProgram false →
      fuseStatus (readFuseEnv s env) kind index words sig env ≠ stOk →
      ∃ t, exec (.fuseProgram r kind index words sig env) s = .next t ∧ t.fuse = { s.fuse with tempOk := t.fuse.tempOk } ∧
        rg t Sig.CMD_FAIL_COUNT = rg s Sig.CMD_FAIL_COUNT + 1) ∧
    (∀ (s : State) (r : Req) (index : Nat) (v : Word) (sig : List Byte) (env : FuseEnv), Accepted s r opFuseProgram false →
      ¬(16 ≤ index ∧ index < 24) → index < 252 → env.sense = [] → env.cut = none → env.abort = none → index ∉ s.fuse.marginCommit →
      s.fuse.unsensed = [] →
      fuseStatus (readFuseEnv s env) 0 index [v] sig env = stOk →
      ∃ t, exec (.fuseProgram r 0 index [v] sig env) s = .next t ∧ fuseWord t index = v ∧ fuseMarginal t index = false ∧
        (index ∈ commitWords → committed t index = true) ∧
        ∀ w, w ≠ index → fuseWord t w = fuseWord s w ∧ committed t w = committed s w) ∧
    (∀ (s : State) (r : Req) (index : Nat) (v : Word) (sig : List Byte) (env : FuseEnv), Accepted s r opFuseProgram false →
      index ∈ commitWords → env.sense = [] → env.cut = none → env.abort = some 0 → index ∉ s.fuse.marginCommit → s.fuse.unsensed = [] →
      fuseStatus (readFuseEnv s env) 0 index [v] sig env = stOk →
      ∃ t, exec (.fuseProgram r 0 index [v] sig env) s = .next t ∧ fuseWord t index = v ∧ (∀ w, committed t w = committed s w) ∧
        rg t Sig.LAST_FAIL = BitVec.ofNat 32 (r.tag * 65536 + opFuseProgram * 256 + stAborted)) ∧
    ∀ (s : State) (r : Req) (sig : List Byte) (env : FuseEnv), Accepted s r opFuseProgram false → env.sense = [] → env.cut = none →
      env.abort = none → s.fuse.unsensed = [] → fuseCycle s = .develop → env.vfsrcOk = true → (∀ c ∈ env.temps, 0 ≤ c ∧ c ≤ 85) →
      s.fuse.marginCommit = [] →
      ∃ t, exec (.fuseProgram r 0 20 [0xFFFFFFFF] sig env) s = .next t ∧ groupBlown t 2 = true ∧ fuseWord t 20 = 0xFFFFFFFF ∧
        fuseWord t 21 = 0xFFFFFFFF ∧ t.fuse.lc = s.fuse.lc

/-! ### Tests and coupling probes (chapters 8, 16 and 17) -/

/-- SELFTEST of one axis in DISABLED records the result of the protection test; its proof of Biscotti counts, or sets PROOF_FAIL and counts
an event of its source; an ABORT that wins before the first test leaves all as it was; of an axis that is not DISABLED, or under a lock-out,
the protection test is refused (R156, R157, R166, R244, R245, R247, R492, R493). The model's choices in it: log entry 28. -/
def Obligations.SelftestsRecordTheirResults : Prop :=
  (∀ (s : State) (r : Req) (n : Axis) (tests : Nat) (fails : List (Axis × Nat)) (biscOk : Bool), Accepted s r opSelftest false →
      r.axisSel = n.val → tests = 1 ∨ tests = 3 → s.ds.vdrvLock = false → axSt s n = .disabled →
      ∃ t, exec (.selftest r tests fails ⟨biscOk, none⟩) s = .next t ∧ rgN t (Sig.GD_PST_RESULT n.val) = 2 ^ 31 + testFails fails n % 64 ∧
        axSt t n = .disabled) ∧
    (∀ (s : State) (r : Req) (n : Axis) (fails : List (Axis × Nat)), Accepted s r opSelftest false → r.axisSel = n.val →
      ∃ t, exec (.selftest r 2 fails ⟨true, none⟩) s = .next t ∧ rg t Sig.BISC_PROOF_COUNT = rg s Sig.BISC_PROOF_COUNT + 1 ∧ t.ax = s.ax ∧
        SignalsBut [Sig.BISC_PROOF_COUNT] s t) ∧
    (∀ (s : State) (r : Req) (n : Axis) (fails : List (Axis × Nat)), Accepted s r opSelftest false → r.axisSel = n.val →
      ∃ t, exec (.selftest r 2 fails ⟨false, none⟩) s = .next t ∧ rgB t Sig.BISC_STAT 7 = true ∧ Counts s t (devSrc 38)) ∧
    (∀ (s : State) (r : Req) (n : Axis) (fails : List (Axis × Nat)) (biscOk : Bool), Accepted s r opSelftest false → r.axisSel = n.val →
      s.ds.vdrvLock = false → axSt s n = .disabled →
      ∃ t, exec (.selftest r 3 fails ⟨biscOk, some 0⟩) s = .next t ∧ Quiet s t ∧ t.ax = s.ax ∧
        rg t Sig.LAST_FAIL = BitVec.ofNat 32 (r.tag * 65536 + opSelftest * 256 + stAborted)) ∧
    ∀ (s : State) (r : Req) (n : Axis) (tests : Nat) (fails : List (Axis × Nat)) (biscOk : Bool), Accepted s r opSelftest false →
      r.axisSel = n.val → tests = 1 ∨ tests = 3 → s.ds.vdrvLock = true ∨ axSt s n ≠ .disabled →
      ∃ t, exec (.selftest r tests fails ⟨biscOk, none⟩) s = .next t ∧ Quiet s t ∧ t.ax = s.ax ∧
        rg t Sig.LAST_FAIL = BitVec.ofNat 32 (r.tag * 65536 + opSelftest * 256 + stNotInState)

/-- PROBE_COUPLING with NOTE_ONLY keeps its note; one that fits starts on the first rail with a probe axis; one that does not is put into
the deferral queue behind the entries of its class. PROBE_START begins the scheduled probe where it may; PROBE_RAIL_END takes over a result
that meets R454 as the rail's source resistance and voltage, and of one that does not keeps the estimates: the first time the rail is left
to be done again while other rails follow, the second time HC_STAT shows it; it ends a probe that was stopped (R163, R452 to R455, R467,
R468, R588). The model's choices in it: log entries 2, 14 and 24. -/
def Obligations.CouplingProbesMeasureTheRails : Prop :=
  (∀ (s : State) (r : Req) (note : List Byte), Accepted s r opProbe false → note.length ≤ 64 →
      ∃ t, exec (.probeCoupling r true note) s = .next t ∧ Quiet s t ∧ t.rt.defq = s.rt.defq ∧
        (s.rcd.coupling = none → t.rcd.nextNote = note) ∧ ∀ c, s.rcd.coupling = some c → t.rcd.coupling = some (c.1, note)) ∧
    (∀ (s : State) (r : Req) (note : List Byte) (m : Fin 4) (n : Axis) (ms : List (Fin 4)), Accepted s r opProbe false →
      note.length ≤ 64 → probeFits s = true → queueAhead s 4 = false → nextRail s allRails = some (m, n, ms) →
      ∃ t p, exec (.probeCoupling r false note) s = .next t ∧ t.hc.probe = some p ∧ p.rail = m ∧ p.axis = n ∧ p.todo = ms ∧
        p.start = s.clk.tb ∧ p.req = some r ∧ p.stopped = none ∧ t.ax = s.ax) ∧
    (∀ (s : State) (r : Req) (note : List Byte), Accepted s r opProbe false → note.length ≤ 64 →
      (probeFits s && !queueAhead s 4) = false → s.rt.defq.length < 64 →
      ∃ t, exec (.probeCoupling r false note) s = .next t ∧ Quiet s t ∧
        t.rt.defq = insertEntry ⟨r, none, [], [], note, s.clk.us⟩ s.rt.defq) ∧
    (∀ (s : State) (m : Fin 4) (n : Axis) (ms : List (Fin 4)), inRun s = true → s.hc.scheduled = true → s.hc.probe = none →
      nextRail s allRails = some (m, n, ms) → probeReady s = true → reserveLow s = false → needsFit s 4 (probeNeeds s) = true →
      ∃ t p, exec .probeStart s = .next t ∧ t.hc.probe = some p ∧ p.rail = m ∧ p.axis = n ∧ p.start = s.clk.tb ∧ p.req = none ∧
        t.hc.scheduled = false ∧ t.ax = s.ax) ∧
    (∀ (s : State) (p : Probe) (v1 i1 v2 i2 : Int) (steady : Bool) (r v : Rat), inRun s = true → s.hc.probe = some p →
      p.stopped = none →
      probeResult (windowMean p.win1 v1 i1).1 (windowMean p.win1 v1 i1).2 (windowMean p.win2 v2 i2).1 (windowMean p.win2 v2 i2).2
        (otherSteady p.other steady) = some (r, v) →
      ∃ t, exec (.probeRailEnd p.rail v1 i1 v2 i2 steady) s = .next t ∧ (t.hcRail[p.rail]).rsrc = some r ∧ (t.hcRail[p.rail]).voc = v ∧
        (∀ m, m ≠ p.rail → t.hcRail[m] = s.hcRail[m]) ∧ rgB t Sig.HC_STAT 6 = true ∧
        t.hc.probeAt = some (lfSeconds (toTick s (p.start + 4400000)))) ∧
    (∀ (s : State) (p : Probe) (v1 i1 v2 i2 : Int) (steady : Bool), inRun s = true → s.hc.probe = some p → p.stopped = none →
      probeResult (windowMean p.win1 v1 i1).1 (windowMean p.win1 v1 i1).2 (windowMean p.win2 v2 i2).1 (windowMean p.win2 v2 i2).2
        (otherSteady p.other steady) = none → p.retry = false →
      ∃ t, exec (.probeRailEnd p.rail v1 i1 v2 i2 steady) s = .next t ∧ t.hcRail = s.hcRail ∧ rg t Sig.HC_STAT = rg s Sig.HC_STAT ∧
        ∀ m n ms, nextRail (toTick s (p.start + 4400000)) p.todo = some (m, n, ms) → ∃ q, t.hc.probe = some q ∧ p.rail ∈ q.again) ∧
    (∀ (s : State) (p : Probe) (v1 i1 v2 i2 : Int) (steady : Bool), inRun s = true → s.hc.probe = some p → p.stopped = none →
      probeResult (windowMean p.win1 v1 i1).1 (windowMean p.win1 v1 i1).2 (windowMean p.win2 v2 i2).1 (windowMean p.win2 v2 i2).2
        (otherSteady p.other steady) = none → p.retry = true →
      ∃ t, exec (.probeRailEnd p.rail v1 i1 v2 i2 steady) s = .next t ∧ t.hcRail = s.hcRail ∧ rgB t Sig.HC_STAT 7 = true) ∧
    ∀ (s : State) (p : Probe) (v1 i1 v2 i2 : Int) (steady : Bool) (k : Nat), inRun s = true → s.hc.probe = some p → p.stopped = some k →
      ∃ t, exec (.probeRailEnd p.rail v1 i1 v2 i2 steady) s = .next t ∧ t.hcRail = s.hcRail ∧ t.hc.probe = none

/-! ### Queued, late and forwarded commands (chapters 6 and 16) -/

/-- DEFERRED_START leaves a queue whose first entry does not fit as it is, and starts an entry that fits; DEFERRED_EXPIRY takes the entry
that runs out first out of the queue with EV80 and stops no axis. DEADLINE_EXPIRY, AGG_TIMEOUT and DELIVERY_TIMEOUT end the command whose
time runs out first: it is not carried out, and nothing but its answer follows; a remote target's is EXPIRED (R160 to R163, R467, R468). The
model's choices in it: log entries 2, 23 and 26. -/
def Obligations.QueuedCommandsStartOrEnd : Prop :=
  (∀ (s : State) (d : Deferred) (ds : List Deferred), inRun s = true → s.hc.scanDue = true → s.dbg.haltMp = false →
      s.rt.defq = d :: ds → entryFits s d = false →
      exec .deferredStart s = .next { s with hc := { s.hc with scanDue := false } }) ∧
    (∀ (s : State) (d : Deferred) (m a : MoveArgs) (n : Axis), inRun s = true → s.hc.scanDue = true → s.dbg.haltMp = false →
      s.rt.defq = [d] → entryFits s d = true → d.cmd = some m → d.axes = [n] → d.lims = [a] →
      ∃ t, exec .deferredStart s = .next t ∧ t.rt.defq = [] ∧ (t.hcAx[n]).moveCls = some a.cls ∧ t.hc.scanDue = false) ∧
    (∀ (s : State) (d : Deferred), serves s = true → firstToEnd s s.rt.defq = some d →
      ∃ t, exec .deferredExpiry s = .next t ∧ t.rt.defq = s.rt.defq.erase d ∧ bitOf t.link.events 80 = true ∧ t.ax = s.ax ∧
        Quiet (toUs s (entryEnds s d)) t) ∧
    (∀ (s : State) (x : Unstarted), serves s = true → earliest (fun x => x.req.taken + x.req.deadline) (unstarted s) = some x →
      ∃ t, exec .deadlineExpiry s = .next t ∧ Quiet (toUs s (x.req.taken + x.req.deadline)) t ∧ t.ax = s.ax ∧
        match x with
        | .here _ _ => t.rt.handed = none
        | .note r => ∀ y ∈ t.rcd.noteWaits, y.1 ≠ r
        | .away d => t.rt.delivs = s.rt.delivs.erase d) ∧
    (∀ (s : State) (a : Agg), serves s = true →
      earliest (fun a => a.req.taken) (s.rt.aggs.filter (fun a => !a.req.fwd && !a.late)) = some a →
      ∃ t, exec .aggTimeout s = .next t ∧ t.rt.aggs = s.rt.aggs.erase a ∧ t.ax = s.ax ∧
        Quiet (toUs s (a.req.taken + rgN s Sig.AGG_TIMEOUT)) t) ∧
    ∀ (s : State) (d : Delivery), serves s = true → earliest (fun d => d.req.taken) (s.rt.delivs.filter (fun d => !d.sent)) = some d →
      ∃ t, exec .deliveryTimeout s = .next t ∧ t.rt.delivs = s.rt.delivs.erase d ∧ t.ax = s.ax ∧
        Quiet (toUs s (d.req.taken + rgN s Sig.AGG_TIMEOUT)) t ∧
        rg t Sig.LAST_FAIL = BitVec.ofNat 32 (d.req.tag * 65536 + d.opcode * 256 + stExpired)

/-! ### Honeycomb's budget ticks (chapter 16) -/

/-- BUDGET_TICK puts the shadow caps of an axis and a grant that does not fall in force at its boundary, lets a grant that falls wait for
the next one, and where no shadows were written leaves all in force; HONEYCOMB_LATE and GRANT_STALE are counted and change no grant (R30,
R447, R448, R464 to R466). The model's choices in it: log entries 2 and 30. -/
def Obligations.BudgetTicksPutGrantsInForce : Prop :=
  (∀ (s : State) (n : Axis), inRun s = true → s.hc.written = true → (s.hcAx[n]).lateI = none → (s.hcAx[n]).shI < 2 ^ 32 →
      (s.hcAx[n]).shV < 2 ^ 32 → (s.hcAx[n]).shA < 2 ^ 32 → (s.hcAx[n]).shD < 2 ^ 32 →
      ∃ t, exec (.budgetTick Check.pass) s = .next t ∧ rgN t (Sig.HC_VCAP n.val) = (s.hcAx[n]).shV ∧
        rgN t (Sig.HC_ACAP n.val) = (s.hcAx[n]).shA ∧ rgN t (Sig.HC_DCAP n.val) = (s.hcAx[n]).shD ∧
        (rgN s (Sig.HC_GRANT_I n.val) ≤ (s.hcAx[n]).shI →
          rgN t (Sig.HC_GRANT_I n.val) = (s.hcAx[n]).shI ∧ (t.hcAx[n]).lateI = none) ∧
        ((s.hcAx[n]).shI < rgN s (Sig.HC_GRANT_I n.val) →
          rg t (Sig.HC_GRANT_I n.val) = rg s (Sig.HC_GRANT_I n.val) ∧ (t.hcAx[n]).lateI = some (s.hcAx[n]).shI)) ∧
    (∀ (s : State) (n : Axis), inRun s = true → s.hc.written = false → (s.hcAx[n]).lateI = none →
      ∃ t, exec (.budgetTick Check.pass) s = .next t ∧ rg t (Sig.HC_GRANT_I n.val) = rg s (Sig.HC_GRANT_I n.val) ∧
        rg t (Sig.HC_VCAP n.val) = rg s (Sig.HC_VCAP n.val) ∧ rg t (Sig.HC_ACAP n.val) = rg s (Sig.HC_ACAP n.val) ∧
        rg t (Sig.HC_DCAP n.val) = rg s (Sig.HC_DCAP n.val) ∧ (t.hcAx[n]).age = (s.hcAx[n]).age + 1) ∧
    (∀ s : State, inRun s = true →
      ∃ t, exec .honeycombLate s = .next t ∧ t.hc = { s.hc with written := false, scanDue := false } ∧ rgB t Sig.HC_STAT 2 = true ∧
        rg t Sig.HC_LATE_COUNT = rg s Sig.HC_LATE_COUNT + 1 ∧ { t with regs := s.regs, hc := s.hc } = s ∧
        ∀ k, k ≠ Sig.HC_STAT → k ≠ Sig.HC_LATE_COUNT → rg t k = rg s k) ∧
    ∀ (s : State) (n : Axis), inRun s = true → 10 ≤ (s.hcAx[n]).age →
      ∃ t, exec (.grantStale n) s = .next t ∧ (t.hcAx[n]).age = 0 ∧ Counts s t (axSrc n 10) ∧ Quiet s t

/-! ### Supervision and the fault manager (chapters 17 and 18) -/

/-- HEARTBEAT_SEND and DS_STATUS_SEND put the words of R524 on the supervision link and change nothing of the other die; a heartbeat whose
checkpoint and retry fail is not sent, and the failure is counted (R489, R490, R524). The model's choices in it: log entries 2, 31 and 36.
-/
def Obligations.SupervisionWordsAreSent : Prop :=
  (∀ s : State, linkPowered s = true → s.dbg.haltMp = false →
      ∃ t, exec (.heartbeatSend Check.pass) s = .next t ∧ t.sup = { s.sup with sent := hbWord s, seq := (s.sup.seq + 1) % 256 } ∧
        t.ds = s.ds ∧ t.ax = s.ax ∧ SignalsBut [] s t) ∧
    (∀ (s : State) (k : Nat) (p : Bool), linkPowered s = true → s.dbg.haltMp = false →
      ∃ t, exec (.heartbeatSend ⟨some k, false, p⟩) s = .next t ∧ t.sup.sent = s.sup.sent ∧ t.sup.seq = s.sup.seq ∧
        rg t Sig.BISC_MP_COUNT = rg s Sig.BISC_MP_COUNT + 1 ∧ Counts s t (devSrc 37)) ∧
    ∀ s : State, linkPowered s = true →
      ∃ t, exec .dsStatusSend s = .next t ∧ t.ds.sent = dsWord s ((s.ds.seq + 1) % 256) ∧ t.ds.seq = (s.ds.seq + 1) % 256 ∧
        { t with ds := s.ds } = s

/-- CD_HEARTBEAT gives the DS its newest word, or counts a bad one, the fourth in a row as the loss; HEARTBEAT_LOSS withholds every grant,
so that on an axis that is not DISABLED no high side stays on, and with the pattern OFF no gate; DISAGREE_TIMEOUT ends a disagreement,
latched where a word received since still requests enable or no valid one came. DS_STATUS gives the CD the word of the DS: an axis that the
CD requests and the word withholds leaves the request and is DISABLED, in FAULT or in SAFE_SHORT; a word with a bad CRC-16 has no effect
(R6, R524 to R527, R529). The model's choices in it: log entries 2, 12, 36 and 40. -/
def Obligations.HeartbeatsAndGrantsAreWatched : Prop :=
  (∀ s : State, linkPowered s = true →
      ∃ t, exec (.cdHeartbeat true) s = .next t ∧ t.ds.last = s.sup.sent ∧ t.ds.hbMissed = 0 ∧ t.ds.hbLost = false ∧ t.ax = s.ax ∧
        SignalsBut (allAxes.map (fun n => Sig.GD_RISE_MAX n.val)) s t ∧ (s.ds.hbLost = true → s.sup.sent.boot = false → t.ds.hbReport = true)) ∧
    (∀ s : State, linkPowered s = true →
      ∃ t, exec (.cdHeartbeat false) s = .next t ∧ t.ax = s.ax ∧ SignalsBut (allAxes.map (fun n => Sig.GD_RISE_MAX n.val)) s t ∧
        t.ds = { s.ds with hbMissed := s.ds.hbMissed + 1, hbLost := s.ds.hbLost || decide (3 ≤ s.ds.hbMissed) }) ∧
    (∀ s : State, linkPowered s = true →
      ∃ t, exec .heartbeatLoss s = .next t ∧ t.ds.hbLost = true ∧ (∀ n, dsGrants t n = false) ∧ t.ax = s.ax ∧
        (∀ n (g : Gate), axSt s n ≠ .disabled → g.hi = true → gateOn t n g = false) ∧
        ∀ n g, axSt s n ≠ .disabled → patShort s n = false → gateOn t n g = false) ∧
    (∀ s : State, s.ds.disagree = true →
      ∃ t, exec .disagreeTimeout s = .next t ∧
        t.ds = { s.ds with disagree := false, disTimeout := s.ds.disTimeout || s.ds.disBad || !s.ds.disSeen } ∧ t.ax = s.ax ∧
        SignalsBut (allAxes.map (fun n => Sig.GD_RISE_MAX n.val)) s t) ∧
    (∀ s : State, linkPowered s = true → ∃ t, exec (.dsStatus true) s = .next t ∧ t.sup.got = s.ds.sent ∧ t.ds = s.ds) ∧
    (∀ (s : State) (n : Axis), linkPowered s = true → bitOf s.sup.req n.val = true → bitOf s.ds.sent.req n.val = true →
      bitOf s.ds.sent.grant n.val = false →
      ∃ t, exec (.dsStatus true) s = .next t ∧ t.sup.got = s.ds.sent ∧ bitOf t.sup.req n.val = false ∧
        (axSt t n = .disabled ∨ axSt t n = .fault ∨ axSt t n = .safeShort) ∧ (axSt s n = .disabled → axSt t n = .disabled)) ∧
    ∀ s : State, exec (.dsStatus false) s = .next s

/-- FAULT_EVENT counts the event with its time; the event that completes the window makes the source lasting, with the event bit of its axis
or of the device, and applies its reaction: OFF puts the axis into FAULT with every gate off, DEVICE_SAFE the device into DEVICE_SAFE with
its cause; one that does not complete it reacts on nothing (R503, R504, R506, R510, R511, R515). The model's choices in it: log entry 2. -/
def Obligations.FaultEventsCountAndReact : Prop :=
  (∀ (s : State) (code : Nat), linkPowered s = true → codeOk code = true →
      ∃ t, exec (.faultEvent code) s = .next t ∧ Counts s t code ∧ (srcOf t code).lastUs = usTime s ∧ Quiet s t) ∧
    (∀ (s : State) (code : Nat), linkPowered s = true → codeOk code = true →
      windowFull (srcOf s code) (newest 255 ((srcOf s code).hist ++ [stamp100 s])) (stamp100 s) = true → (srcOf s code).lasting = false →
      ∃ t, exec (.faultEvent code) s = .next t ∧ (srcOf t code).lasting = true ∧
        bitOf t.link.events (match codeAxis code with | some n => 32 + n.val | none => 72) = true) ∧
    (∀ (s : State) (code : Nat), linkPowered s = true → codeOk code = true →
      windowFull (srcOf s code) (newest 255 ((srcOf s code).hist ++ [stamp100 s])) (stamp100 s) = false → (srcOf s code).lasting = false →
      ∃ t, exec (.faultEvent code) s = .next t ∧ (srcOf t code).lasting = false ∧ t.ax = s.ax ∧ t.pwm = s.pwm ∧ t.sup = s.sup ∧
        t.flt.safeMode = s.flt.safeMode) ∧
    (∀ (s : State) (n : Axis) (src : Nat), linkPowered s = true → src ≤ 25 → (srcOf s (axSrc n src)).react = reOff →
      windowFull (srcOf s (axSrc n src)) (newest 255 ((srcOf s (axSrc n src)).hist ++ [stamp100 s])) (stamp100 s) = true →
      (srcOf s (axSrc n src)).lasting = false → reactBinds s (axSrc n src) = true →
      (∀ x ∈ s.flt.srcs, actsOn n x = true → x.2.applied ≤ reOff) → axSt s n ≠ .disabled →
      ∃ t, exec (.faultEvent (axSrc n src)) s = .next t ∧ axSt t n = .fault ∧ ∀ g, gateOn t n g = false) ∧
    ∀ (s : State) (code : Nat), linkPowered s = true → codeOk code = true → (srcOf s code).react = reSafe →
      windowFull (srcOf s code) (newest 255 ((srcOf s code).hist ++ [stamp100 s])) (stamp100 s) = true → (srcOf s code).lasting = false →
      reactBinds s code = true → s.flt.safeMode = false →
      ∃ t, exec (.faultEvent code) s = .next t ∧ t.flt.safeMode = true ∧ rgN t Sig.FLT_SAFE_CAUSE = code ∧ t.sup.req = 0 ∧
        t.sup.safe = true ∧ bitOf t.link.events 73 = true ∧
        ∀ n, axSt t n = .disabled ∨ axSt t n = .fault ∨ axSt t n = .safeShort

/-- FAULT_AUTO_RELEASE releases a lasting source of LOG or ADVISE and moves no axis; FAULT_RELEASE releases the sources that its word names
and R507 lets go, shows a refused one in FLT_STAT, and releases no other; SNAPSHOT_STAGE ends the collection of a source's snapshot and
stages it (R507, R508, R585, R662). The model's choices in it: log entry 2. -/
def Obligations.FaultsAreReleasedAndSnapshotsStaged : Prop :=
  (∀ (s : State) (code : Nat), linkPowered s = true → codeOk code = true → selfReleases s code = true →
      ∃ t, exec (.faultAutoRelease code) s = .next t ∧ (srcOf t code).lasting = false ∧ rgB t Sig.FLT_STAT 1 = true ∧ t.ax = s.ax ∧
        ∀ c, c ≠ code → srcOf t c = srcOf s c) ∧
    (∀ (s : State) (r : Req) (n : Axis) (value : Word), WriteAccepted s r (Sig.FLT_LASTING_AX n.val) value →
      ∃ t, exec (.faultRelease r (sidOf s (Sig.FLT_LASTING_AX n.val)) value) s = .next t ∧
        (∀ i, i ≤ 25 → bitOf value.toNat i = true → (srcOf s (axSrc n i)).lasting = true → hostReleases s (axSrc n i) = true →
          (srcOf t (axSrc n i)).lasting = false ∧ rgB t Sig.FLT_STAT 1 = true) ∧
        (∀ i, i ≤ 25 → bitOf value.toNat i = true → (srcOf s (axSrc n i)).lasting = true → hostReleases s (axSrc n i) = false →
          (srcOf t (axSrc n i)).lasting = true ∧ rgB t Sig.FLT_STAT 0 = true) ∧
        (∀ i, i ≤ 25 → bitOf value.toNat i = false → srcOf t (axSrc n i) = srcOf s (axSrc n i)) ∧ Quiet s t) ∧
    (∀ (s : State) (r : Req) (value : Word), WriteAccepted s r Sig.FLT_LASTING_DEV value →
      ∃ t, exec (.faultRelease r (sidOf s Sig.FLT_LASTING_DEV) value) s = .next t ∧
        (∀ i, i ≤ 15 → bitOf value.toNat i = true → (srcOf s (devSrc (i + 32))).lasting = true → hostReleases s (devSrc (i + 32)) = true →
          (srcOf t (devSrc (i + 32))).lasting = false ∧ rgB t Sig.FLT_STAT 1 = true) ∧
        (∀ i, i ≤ 15 → bitOf value.toNat i = true → (srcOf s (devSrc (i + 32))).lasting = true → hostReleases s (devSrc (i + 32)) = false →
          (srcOf t (devSrc (i + 32))).lasting = true ∧ rgB t Sig.FLT_STAT 0 = true) ∧
        (∀ i, i ≤ 15 → bitOf value.toNat i = false → srcOf t (devSrc (i + 32)) = srcOf s (devSrc (i + 32))) ∧ Quiet s t) ∧
    ∀ (s : State) (code : Nat) (x : Snap), s.flt.snaps.find? (fun x => x.code == code) = some x →
      ∃ t z, exec (.snapshotStage code) s = .next t ∧ (∀ y ∈ t.flt.snaps, y.code ≠ code) ∧ t.rcd.staged.getLast? = some z ∧
        z.kind = kindSnapshot ∧ z.autoPin = true ∧ t.ax = s.ax

/-- FLT_CFG_WRITE gives the selected source the N, reaction and T of the word, with its history cleared and its lasting state unchanged, and
keeps the word on the ND; an event at the same instant counts into the cleared history (R509); a source without a window stays as it is.
FLT_ROLE_WRITE sets the role with the defaults of every source of the axis, of OBS_CONT_EN and of HC_CLASS (R399, R461, R509, R517, R518,
R523, R662). -/
def Obligations.FaultSourcesAreConfigured : Prop :=
  (∀ (s : State) (r : Req) (value : Word), WriteAccepted s r Sig.FLT_CFG value → noWindow (fltCode s) = false →
      ∃ t, exec (.fltCfgWrite r value) s = .next t ∧ (srcOf t (fltCode s)).n = value.toNat / 2 ^ 24 ∧
        (srcOf t (fltCode s)).react = value.toNat / 2 ^ 21 % 8 ∧ (srcOf t (fltCode s)).t = value.toNat % 2 ^ 20 ∧
        (srcOf t (fltCode s)).hist = [] ∧ (srcOf t (fltCode s)).lasting = (srcOf s (fltCode s)).lasting ∧
        (srcOf t (fltCode s)).events = (srcOf s (fltCode s)).events ∧ cellGet t.nd.fltCfgs (fltCode s) = some value.toNat ∧
        (∀ c, c ≠ fltCode s → srcOf t c = srcOf s c) ∧ t.ax = s.ax) ∧
    (∀ (s : State) (r : Req) (value : Word), WriteAccepted s r Sig.FLT_CFG value → noWindow (fltCode s) = false → codeOk (fltCode s) = true →
      ∃ t u, exec (.fltCfgWrite r value) s = .next t ∧ exec (.faultEvent (fltCode s)) t = .next u ∧
        (srcOf u (fltCode s)).hist = [stamp100 s] ∧ (srcOf u (fltCode s)).events = (srcOf s (fltCode s)).events + 1) ∧
    (∀ (s : State) (r : Req) (value : Word), WriteAccepted s r Sig.FLT_CFG value → noWindow (fltCode s) = true →
      ∃ t, exec (.fltCfgWrite r value) s = .next t ∧ t.flt = s.flt ∧ Quiet s t) ∧
    ∀ (s : State) (r : Req) (n : Axis) (value : Word), WriteAccepted s r (Sig.FLT_ROLE_AX n.val) value →
      ∃ t, exec (.fltRoleWrite r n value) s = .next t ∧ rg t (Sig.FLT_ROLE_AX n.val) = value ∧
        (∀ i, i ≤ 25 → (srcOf t (axSrc n i)).n = (axisWindow i).1 ∧ (srcOf t (axSrc n i)).t = (axisWindow i).2 ∧
          (srcOf t (axSrc n i)).react = axisReact i value.toNat ∧ cellGet t.nd.fltCfgs (axSrc n i) = none) ∧
        rgN t (Sig.OBS_CONT_EN n.val) = (if value = 1 then 0 else 1) ∧
        rgN t (Sig.HC_CLASS n.val) = (if value = 0 then 1 else if value = 1 then 2 else 3) ∧
        SignalsBut [Sig.FLT_ROLE_AX n.val, Sig.OBS_CONT_EN n.val, Sig.HC_CLASS n.val] s t

/-- COMPARATOR_PROOF counts a proof whose 40 cases were all detected, and latches a failure with its source; CONFIGURATION_CHECK leaves the
configuration of every source as it is and counts a mismatch (R489 to R493). The model's choices in it: log entries 2 and 36. -/
def Obligations.ProofsAndChecksAreCounted : Prop :=
  (∀ (s : State) (detected : List Bool), inRun s = true → rgN s Sig.BISC_PROOF_PER ≠ 0 → 40 ≤ detected.length →
      (∀ x ∈ detected.take 40, x = true) →
      ∃ t, exec (.comparatorProof detected) s = .next t ∧ rg t Sig.BISC_PROOF_COUNT = rg s Sig.BISC_PROOF_COUNT + 1 ∧ t.flt = s.flt ∧
        t.ax = s.ax ∧ ∀ k, k ≠ Sig.BISC_PROOF_COUNT → rg t k = rg s k) ∧
    (∀ (s : State) (detected : List Bool), inRun s = true → rgN s Sig.BISC_PROOF_PER ≠ 0 → false ∈ detected.take 40 →
      ∃ t, exec (.comparatorProof detected) s = .next t ∧ rgB t Sig.BISC_STAT 7 = true ∧ rgB t Sig.BOOT_STAT 2 = true ∧
        Counts s t (devSrc 38) ∧ rg t Sig.BISC_PROOF_COUNT = rg s Sig.BISC_PROOF_COUNT) ∧
    (∀ s : State, linkPowered s = true → s.dbg.haltMp = false →
      ∃ t, exec (.configurationCheck Check.pass) s = .next t ∧ t.flt = s.flt ∧ t.ax = s.ax ∧ SignalsBut [] s t) ∧
    ∀ (s : State) (k : Nat) (retry pending : Bool), linkPowered s = true → s.dbg.haltMp = false →
      ∃ t, exec (.configurationCheck ⟨some k, retry, pending⟩) s = .next t ∧ rg t Sig.BISC_MP_COUNT = rg s Sig.BISC_MP_COUNT + 1 ∧
        Counts s t (devSrc 37) ∧ ∀ c, (srcOf t c).n = (srcOf s c).n ∧ (srcOf t c).react = (srcOf s c).react ∧ (srcOf t c).t = (srcOf s c).t

/-! ### Rows that write or read one signal (chapters 8, 9, 11, 12, 14, 15 and 20) -/

/-- COMPARE_SLOT_ARM writes its signal and arms the slot, or disarms it where DIR is 0; RSV_TURNS_WRITE sets the turns of the angle and
clears MT_SUSPECT; EXCITATION_RESTART gives every channel of the driver the value and in RUN restarts its excitation with the first-start
sequence; SMP_GAIN_WRITE sets the gain and returns both offsets to 0; FB_Z_ARM arms homing (R257, R335, R344, R348, R366, R417). The model's
choices in it: log entry 19. -/
def Obligations.MotionAndAngleSignalsAreWritten : Prop :=
  (∀ (s : State) (r : Req) (n : Axis) (slot : Fin 4) (cfg : Bool) (v : Word), (s.car[n]).slots.length = 4 →
      WriteAccepted s r (if cfg then Sig.CAR_CMP_CFG n.val slot.val else Sig.CAR_CMP_POS n.val slot.val) v →
      ∃ t, exec (.compareSlotArm r n slot cfg v) s = .next t ∧
        rg t (if cfg then Sig.CAR_CMP_CFG n.val slot.val else Sig.CAR_CMP_POS n.val slot.val) = v ∧
        ((t.car[n]).slots.getD slot.val CmpSlot.init).arming = (rgF t (Sig.CAR_CMP_CFG n.val slot.val) 0 2 != 0) ∧
        (rgF t (Sig.CAR_CMP_CFG n.val slot.val) 0 2 = 0 → ((t.car[n]).slots.getD slot.val CmpSlot.init).armed = false) ∧
        (∀ k, k ≠ slot.val → (t.car[n]).slots.getD k CmpSlot.init = (s.car[n]).slots.getD k CmpSlot.init) ∧ t.ax = s.ax ∧
        SignalsBut [if cfg then Sig.CAR_CMP_CFG n.val slot.val else Sig.CAR_CMP_POS n.val slot.val] s t) ∧
    (∀ (s : State) (r : Req) (n : Axis) (v : Word), WriteAccepted s r (Sig.RSV_TURNS n.val) v →
      ∃ t, exec (.rsvTurnsWrite r n v) s = .next t ∧ (t.rsv[n]).theta.floor = v.toInt ∧
        (t.rsv[n]).theta - (v.toInt : Rat) = (s.rsv[n]).theta - ((s.rsv[n]).theta.floor : Rat) ∧ (t.rsv[n]).mt = false ∧
        (∀ m, m ≠ n → t.rsv[m] = s.rsv[m]) ∧ SignalsBut [Sig.RSV_TURNS n.val, Sig.RSV_POS n.val] s t) ∧
    (∀ (s : State) (r : Req) (n : Axis) (amp : Bool) (v : Word),
      WriteAccepted s r (if amp then Sig.RSV_EXC_AMP n.val else Sig.RSV_EXC_FREQ n.val) v →
      ∃ t, exec (.excitationRestart r n amp v) s = .next t ∧
        (∀ m : Axis, drvOf m = drvOf n → rg t (if amp then Sig.RSV_EXC_AMP m.val else Sig.RSV_EXC_FREQ m.val) = v) ∧
        (inRun s = true → (t.exc[drvOf n]).start = s.clk.tb ∧ (t.exc[drvOf n]).periods = 0 ∧
          ∀ m : Axis, drvOf m = drvOf n → rgN s (Sig.RSV_EN m.val) = 1 →
            (t.exc[drvOf n]).on = true ∧ (t.rsv[m]).learnPhase = true ∧ (t.rsv[m]).valid = false) ∧
        ∀ m : Axis, drvOf m ≠ drvOf n → t.rsv[m] = s.rsv[m]) ∧
    (∀ (s : State) (r : Req) (n : Axis) (v : Word), WriteAccepted s r (Sig.SMP_GAIN_AX n.val) v →
      ∃ t, exec (.smpGainWrite r n v) s = .next t ∧ rg t (Sig.SMP_GAIN_AX n.val) = v ∧ rg t (Sig.SMP_OFS (2 * n.val)) = 0 ∧
        rg t (Sig.SMP_OFS (2 * n.val + 1)) = 0 ∧ (t.ofs[n]).dflt = true ∧
        (t.ofs[n]).learning = (inRun s && decide (axSt s n = .disabled)) ∧
        SignalsBut [Sig.SMP_GAIN_AX n.val, Sig.SMP_OFS (2 * n.val), Sig.SMP_OFS (2 * n.val + 1)] s t) ∧
    ∀ (s : State) (r : Req) (n : Axis), WriteAccepted s r (Sig.FB_Z_ARM n.val) 1 →
      ∃ t, exec (.fbZArm r n 1) s = .next t ∧ t.fb[n] = { s.fb[n] with armed := true } ∧ (∀ m, m ≠ n → t.fb[m] = s.fb[m]) ∧
        t.ax = s.ax ∧ SignalsBut [] s t

/-- AO_LOAD gives every configured channel its pending code where the source is enabled, and no effect where it is not; AO_SPAN_WRITE makes
an unconfigured channel wait for its first strobe with its switch open, and sends a configured one to 0 V for its new span (R431, R433,
R434, R441, R442). -/
def Obligations.AnalogueOutputsAreWritten : Prop :=
  (∀ (s : State) (r : Req) (v : Word), WriteAccepted s r Sig.AO_LOAD v → rgB s Sig.AO_LOAD_SRC 1 = true → s.aoClear = false →
      ∃ t, exec (.aoLoad r v) s = .next t ∧
        (∀ k : Fin 6, (s.ao[k]).span ≠ 0 → (s.ao[k]).changing = none → (s.ao[k]).waiting = false →
          t.ao[k] = { s.ao[k] with target := aoResolve (s.ao[k]).span (rgN s (Sig.AO_CODE k.val)) }) ∧ t.ax = s.ax ∧ SignalsBut [] s t) ∧
    (∀ (s : State) (r : Req) (v : Word), WriteAccepted s r Sig.AO_LOAD v → rgB s Sig.AO_LOAD_SRC 1 = false →
      ∃ t, exec (.aoLoad r v) s = .next t ∧ Quiet s t) ∧
    (∀ (s : State) (r : Req) (k : Fin 6) (v : Word), WriteAccepted s r (Sig.AO_SPAN k.val) v → (s.ao[k]).span = 0 →
      (s.ao[k]).changing = none → v ≠ 0 → s.aoClear = false →
      ∃ t, exec (.aoSpanWrite r k v) s = .next t ∧ rg t (Sig.AO_SPAN k.val) = v ∧
        t.ao[k] = { s.ao[k] with span := v.toNat, waiting := true, closed := false } ∧ (∀ j, j ≠ k → t.ao[j] = s.ao[j]) ∧
        SignalsBut [Sig.AO_SPAN k.val] s t) ∧
    ∀ (s : State) (r : Req) (k : Fin 6) (v : Word), WriteAccepted s r (Sig.AO_SPAN k.val) v → (s.ao[k]).span ≠ 0 →
      (s.ao[k]).changing = none → v.toNat ≠ (s.ao[k]).span →
      ∃ t, exec (.aoSpanWrite r k v) s = .next t ∧ rg t (Sig.AO_SPAN k.val) = v ∧ (t.ao[k]).span = (s.ao[k]).span ∧
        (t.ao[k]).changing = some v.toNat ∧ (t.ao[k]).target = aoZero (s.ao[k]).span ∧ (∀ j, j ≠ k → t.ao[j] = s.ao[j]) ∧
        SignalsBut [Sig.AO_SPAN k.val] s t

/-- A code of AO_CODE or AO_CLRCODE above 16 383 is refused with RANGE, but for 0xFFFF, which stands for the 0 V code of the span in force
when it is used, at a strobe or at a clear. The reaction of SC_DIDT is ADVISE at reset and in every role, and a write of FLT_CFG that names
SC_DIDT with another reaction is refused with RANGE; a refused write changes no output and no source (R431, R520). -/
def Obligations.ForbiddenCodesAndReactionsAreRefused : Prop :=
  (∀ (s : State) (r : Req) (k : Fin 6) (clr : Bool) (v : Word), Accepted s r opSigWrite false → 16383 < v.toNat → v ≠ 0xFFFF →
      ∃ t, exec (.sigWrite r [(sidOf s (if clr then Sig.AO_CLRCODE k.val else Sig.AO_CODE k.val), v)] [] false) s = .next t ∧
        Quiet s t ∧ rg t Sig.LAST_FAIL = BitVec.ofNat 32 (r.tag * 65536 + opSigWrite * 256 + stRange)) ∧
    (∀ (s : State) (k : Fin 6), rgB s Sig.AO_LOAD_SRC 0 = true → s.aoClear = false → (s.ao[k]).span ≠ 0 → (s.ao[k]).changing = none →
      (s.ao[k]).waiting = false → rgN s (Sig.AO_CODE k.val) = 0xFFFF →
      ∃ t, exec .aoldStrobe s = .next t ∧ (t.ao[k]).target = (if (s.ao[k]).span ≤ 2 then 0 else 8192)) ∧
    (∀ (s : State) (k : Fin 6), (s.ao[k]).span ≠ 0 → (s.ao[k]).changing = none → rgN s (Sig.AO_CLRCODE k.val) = 0xFFFF →
      linkPowered s = true →
      ∃ t, exec .aoclrAssert s = .next t ∧ (t.ao[k]).out = (if (s.ao[k]).span ≤ 2 then 0 else 8192)) ∧
    (∀ (s : State) (r : Req) (n : Axis) (v : Word), Accepted s r opSigWrite false → fltCode s = axSrc n 1 →
      v.toNat / 2 ^ 21 % 8 ≠ reAdvise →
      ∃ t, exec (.fltCfgWrite r v) s = .next t ∧ Quiet s t ∧ t.flt.srcs = s.flt.srcs ∧
        rg t Sig.LAST_FAIL = BitVec.ofNat 32 (r.tag * 65536 + opSigWrite * 256 + stRange)) ∧
    ∀ n : Axis, (srcOf State.reset (axSrc n 1)).react = reAdvise ∧ ∀ role, axisReact 1 role = reAdvise

/-- GD_LATCH_CLEAR clears the latches that its word names and whose condition is not active, keeps every other one, shows a refusal in
CLEAR_REFUSED and returns nothing to service; FC_PIN pins a present slice, FC_UNPIN releases its pins, and neither changes a slice (R237,
R238, R590). -/
def Obligations.LatchesAndPinsAreCleared : Prop :=
  (∀ (s : State) (r : Req) (n : Axis) (v : Word) (active : Nat), WriteAccepted s r (Sig.GD_LATCH n.val) v →
      ∃ t, exec (.gdLatchClear r n v active) s = .next t ∧
        (∀ i, i < 31 → rgB t (Sig.GD_LATCH n.val) i =
          (rgB s (Sig.GD_LATCH n.val) i && !(bitOf v.toNat i && !latchActive s n active i))) ∧
        ((∃ i, i < 31 ∧ rgB s (Sig.GD_LATCH n.val) i = true ∧ bitOf v.toNat i = true ∧ latchActive s n active i = true) →
          rgB t (Sig.GD_LATCH n.val) 31 = true) ∧
        (t.gd[n]).out = (s.gd[n]).out ∧ t.ax = s.ax ∧ SignalsBut [Sig.GD_LATCH n.val] s t) ∧
    (∀ (s : State) (r : Req) (v : Word) (x : Slice), WriteAccepted s r Sig.FC_PIN v → sliceOf s v.toNat = some x →
      ∃ t, exec (.fcPin r v) s = .next t ∧ pinned t x = true ∧ t.rcd.slices = s.rcd.slices ∧
        (∀ y, pinned s y = true → pinned t y = true) ∧ SignalsBut [] s t) ∧
    ∀ (s : State) (r : Req) (v : Word) (x : Slice), WriteAccepted s r Sig.FC_UNPIN v → sliceOf s v.toNat = some x →
      ∃ t, exec (.fcUnpin r v) s = .next t ∧ pinned t x = false ∧ t.rcd.slices = s.rcd.slices ∧
        (∀ y, y.seq ≠ x.seq → pinned t y = pinned s y) ∧ SignalsBut [] s t

/-- CMP_START arms a learning run with nothing collected, CMP_CANCEL ends it, CMP_CLEAR sets every entry of the table to 0, CMP_STORE begins
a write of the table or lets it follow the one that runs; RSV_CMP_VAL_READ posts the entry at the index and RSV_CMP_VAL_WRITE sets it, each
with the index advanced by one modulo 2 048 (R372, R377, R378). -/
def Obligations.CompensationTablesAreHandled : Prop :=
  (∀ (s : State) (r : Req) (n : Axis), WriteAccepted s r (Sig.RSV_CMP_CTRL n.val) 1 →
      ∃ t, exec (.cmpStart r n) s = .next t ∧ t.rsv[n] = { s.rsv[n] with learn := { Learn.init with armed := true } } ∧
        (∀ m, m ≠ n → t.rsv[m] = s.rsv[m]) ∧ SignalsBut [] s t) ∧
    (∀ (s : State) (r : Req) (n : Axis), WriteAccepted s r (Sig.RSV_CMP_CTRL n.val) 2 →
      ∃ t, exec (.cmpCancel r n) s = .next t ∧ t.rsv[n] = { s.rsv[n] with learn := Learn.init } ∧
        (∀ m, m ≠ n → t.rsv[m] = s.rsv[m]) ∧ SignalsBut [] s t) ∧
    (∀ (s : State) (r : Req) (n : Axis), WriteAccepted s r (Sig.RSV_CMP_CTRL n.val) 3 →
      ∃ t, exec (.cmpClear r n) s = .next t ∧ (∀ b, tableAt (t.rsv[n]).table b = 0) ∧ (t.rsv[n]).tableOk = true ∧
        ((s.rsv[n]).storing = none → (t.rsv[n]).storing = some []) ∧ (∀ m, m ≠ n → t.rsv[m] = s.rsv[m]) ∧ SignalsBut [] s t) ∧
    (∀ (s : State) (r : Req) (n : Axis), WriteAccepted s r (Sig.RSV_CMP_CTRL n.val) 4 →
      ∃ t, exec (.cmpStore r n) s = .next t ∧ (t.rsv[n]).table = (s.rsv[n]).table ∧
        ((s.rsv[n]).storing = none → (t.rsv[n]).storing = some (s.rsv[n]).table) ∧
        (∀ x, (s.rsv[n]).storing = some x → (t.rsv[n]).storing = some x ∧ (t.rsv[n]).storeNext = true) ∧
        (∀ m, m ≠ n → t.rsv[m] = s.rsv[m]) ∧ SignalsBut [] s t) ∧
    (∀ (s : State) (r : Req) (n : Axis), Accepted s r opSigRead ([sidOf s (Sig.RSV_CMP_VAL n.val)].all deviceSid) → r.noReply = false →
      r.fwd = false → CanPost s r.resp (frameLen 8) →
      ∃ t, exec (.rsvCmpValRead r n) s = .next t ∧ rgN t (Sig.RSV_CMP_IDX n.val) = (rgN s (Sig.RSV_CMP_IDX n.val) + 1) % 2048 ∧
        t.rsv = s.rsv ∧ SignalsBut [Sig.RSV_CMP_IDX n.val] s t ∧
        Posted s t r.resp (respFrame s r opSigRead stOk (countPayload 1 0xFFFF ++
          wordBytes (BitVec.ofInt 32 (tableAt (s.rsv[n]).table (rgN s (Sig.RSV_CMP_IDX n.val))))))) ∧
    ∀ (s : State) (r : Req) (n : Axis) (v : Word), WriteAccepted s r (Sig.RSV_CMP_VAL n.val) v →
      ∃ t, exec (.rsvCmpValWrite r n v) s = .next t ∧ tableAt (t.rsv[n]).table (rgN s (Sig.RSV_CMP_IDX n.val)) = v.toInt ∧
        (∀ b, b % 2048 ≠ rgN s (Sig.RSV_CMP_IDX n.val) % 2048 → tableAt (t.rsv[n]).table b = tableAt (s.rsv[n]).table b) ∧
        rgN t (Sig.RSV_CMP_IDX n.val) = (rgN s (Sig.RSV_CMP_IDX n.val) + 1) % 2048 ∧ (∀ m, m ≠ n → t.rsv[m] = s.rsv[m]) ∧
        SignalsBut [Sig.RSV_CMP_IDX n.val] s t

/-! ### PWM and gate drive (chapters 7 and 8) -/

/-- COUNTER_START sets the counter going at 0 on a valley of R179 with every shadow loaded, the compares with PWM_SRC 1, and the dither
counter at 0; CARRIER_VALLEY and CARRIER_PEAK come when the counter stands at 0 and at PER, a valley advances the dither counter, and each
is a reload point where PWM_RELOAD selects it (R176, R177, R179, R180, R188, R196, R207). The model's choices in it: log entry 2. -/
def Obligations.CountersRunFromValleyToPeak : Prop :=
  (∀ (s : State) (n : Axis), inRun s = true → (s.pwm[n]).startPend = true → 0 < perOf s n →
      ∃ t, exec (.counterStart n) s = .next t ∧ (t.pwm[n]).running = true ∧ (t.pwm[n]).startPend = false ∧ (t.pwm[n]).cnt = 0 ∧
        (t.pwm[n]).down = false ∧ (t.pwm[n]).j = 0 ∧ (t.pwm[n]).trgA = rgN s (Sig.PWM_TRGA n.val) ∧
        (t.pwm[n]).trgB = rgN s (Sig.PWM_TRGB n.val) ∧ (t.pwm[n]).slopeA = rgN s (Sig.PWM_TRGA_SLOPE n.val) ∧
        (t.pwm[n]).slopeB = rgN s (Sig.PWM_TRGB_SLOPE n.val) ∧
        (hostCompares s n = true → ∀ ph, ((t.pwm[n]).ch ph).act = cmpShadow s n ph) ∧ s.clk.tb < t.clk.tb ∧
        ((t.clk.tb : Int) - s.clk.epoch - (pwmOffset s n : Int)) % (2 * perOf s n : Int) = 0 ∧ t.ax = s.ax) ∧
    (∀ (s : State) (n : Axis), counting s n = true → 0 < perOf s n → (s.pwm[n]).cnt ≤ perOf s n →
      ((s.pwm[n]).down = true → 0 < (s.pwm[n]).cnt) →
      ∃ t, exec (.carrierValley n) s = .next t ∧ (t.pwm[n]).cnt = 0 ∧ (t.pwm[n]).down = false ∧
        (t.pwm[n]).j = ((s.pwm[n]).j + 1) % 16 ∧ s.clk.tb ≤ t.clk.tb ∧ t.ax = s.ax ∧
        (reloadsAt s n false = true → (t.pwm[n]).trgA = rgN s (Sig.PWM_TRGA n.val) ∧ (t.pwm[n]).slopeA = rgN s (Sig.PWM_TRGA_SLOPE n.val) ∧
          (t.pwm[n]).trgB = rgN s (Sig.PWM_TRGB n.val) ∧ (t.pwm[n]).slopeB = rgN s (Sig.PWM_TRGB_SLOPE n.val)) ∧
        (reloadsAt s n false = true → hostCompares s n = true → ∀ ph, ((t.pwm[n]).ch ph).act = cmpShadow s n ph) ∧
        (reloadsAt s n false = false ∨ hostCompares s n = false → ∀ ph, ((t.pwm[n]).ch ph).act = ((s.pwm[n]).ch ph).act)) ∧
    ∀ (s : State) (n : Axis), counting s n = true → 0 < perOf s n → (s.pwm[n]).cnt ≤ perOf s n →
      ((s.pwm[n]).down = true → 0 < (s.pwm[n]).cnt) → ((s.pwm[n]).down = false → (s.pwm[n]).cnt < perOf s n) →
      ∃ t, exec (.carrierPeak n) s = .next t ∧ (t.pwm[n]).cnt = perOf s n ∧ (t.pwm[n]).down = true ∧ (t.pwm[n]).j = (s.pwm[n]).j ∧
        s.clk.tb ≤ t.clk.tb ∧ t.ax = s.ax ∧
        (reloadsAt s n true = true → (t.pwm[n]).trgA = rgN s (Sig.PWM_TRGA n.val) ∧ (t.pwm[n]).slopeA = rgN s (Sig.PWM_TRGA_SLOPE n.val) ∧
          (t.pwm[n]).trgB = rgN s (Sig.PWM_TRGB n.val) ∧ (t.pwm[n]).slopeB = rgN s (Sig.PWM_TRGB_SLOPE n.val)) ∧
        (reloadsAt s n true = true → hostCompares s n = true → ∀ ph, ((t.pwm[n]).ch ph).act = cmpShadow s n ph) ∧
        (reloadsAt s n true = false ∨ hostCompares s n = false → ∀ ph, ((t.pwm[n]).ch ph).act = ((s.pwm[n]).ch ph).act)

/-- COMPARE_MATCH: at the effective compare that governs the ideal level falls on the up-slope and rises on the down-slope;
MINPW_STRETCH_END ends the stretch, shows and counts it, and issues its delayed edge, which cancels where the level has returned; in DROP a
pulse that it begins too narrow is suppressed and counted. BOOTSTRAP_REFRESH begins a refresh that is due, counted, and at its next
occurrence ends it. TAG_COMPARE writes the tag word of TRGA behind the tags that wait, or, where 16 wait, discards it: the loss is counted
for the FIFO and the axis, and as one event of LOOP_OVERRUN (R180, R186, R199, R200, R202, R204, R205, R207, R208, R262, R263, R277). The
model's choices in it: log entries 2 and 13. -/
def Obligations.PulsesAndTagsFollowTheCounter : Prop :=
  (∀ (s : State) (n : Axis) (ph : Fin 3), counting s n = true → (s.pwm[n]).live = true →
      0 < effCompare ((s.pwm[n]).ch ph).act (s.pwm[n]).j →
      effCompare ((s.pwm[n]).ch ph).act (s.pwm[n]).j < perOf s n → (s.pwm[n]).cnt ≤ perOf s n →
      ((s.pwm[n]).down = true → 0 < (s.pwm[n]).cnt) →
      ∃ t, exec (.compareMatch n ph) s = .next t ∧ (t.pwm[n]).cnt = effCompare ((s.pwm[n]).ch ph).act (s.pwm[n]).j ∧
        ((t.pwm[n]).ch ph).ideal = (t.pwm[n]).down ∧ (∀ q, q ≠ ph → (t.pwm[n]).ch q = (s.pwm[n]).ch q) ∧ t.ax = s.ax ∧
        SignalsBut [Sig.PWM_STAT n.val, Sig.PWM_FILTER_COUNT n.val] s t) ∧
    (∀ (s : State) (n : Axis) (ph : Fin 3) (e : Nat), ((s.pwm[n]).ch ph).stretch = some e →
      ∃ t, exec (.minpwStretchEnd n ph) s = .next t ∧ ((t.pwm[n]).ch ph).stretch = none ∧ rgB t (Sig.PWM_STAT n.val) 7 = true ∧
        (minpwMode s n ph ≠ 1 ∨ rgN s (Sig.PWM_MINPW n.val) ≤ predictWidth (toTick s e) n ph ((s.pwm[n]).ch ph).ideal →
          ((t.pwm[n]).ch ph).filt = ((s.pwm[n]).ch ph).ideal ∧ ((t.pwm[n]).ch ph).since = e ∧
          rg t (Sig.PWM_FILTER_COUNT n.val) = rg s (Sig.PWM_FILTER_COUNT n.val) + 1) ∧
        (minpwMode s n ph = 1 → predictWidth (toTick s e) n ph ((s.pwm[n]).ch ph).ideal < rgN s (Sig.PWM_MINPW n.val) →
          ((t.pwm[n]).ch ph).filt = !((s.pwm[n]).ch ph).ideal ∧ ((t.pwm[n]).ch ph).suppressed = true ∧ rgB t (Sig.PWM_STAT n.val) 6 = true ∧
          rg t (Sig.PWM_FILTER_COUNT n.val) = rg s (Sig.PWM_FILTER_COUNT n.val) + 2) ∧ t.ax = s.ax ∧
        SignalsBut [Sig.PWM_STAT n.val, Sig.PWM_FILTER_COUNT n.val] s t) ∧
    (∀ (s : State) (n : Axis) (ph : Fin 3), counting s n = true → ((s.pwm[n]).ch ph).bsOn = false → ((s.pwm[n]).ch ph).bsArmed = true →
      ∃ t, exec (.bootstrapRefresh n ph) s = .next t ∧ ((t.pwm[n]).ch ph).bsOn = true ∧ ((t.pwm[n]).ch ph).bsArmed = false ∧
        ((t.pwm[n]).ch ph).stage4 = false ∧ ((t.pwm[n]).ch ph).bsCount = 0 ∧ rgB t (Sig.PWM_STAT n.val) 8 = true ∧
        rg t (Sig.PWM_BSREF_COUNT n.val) = rg s (Sig.PWM_BSREF_COUNT n.val) + 1 ∧
        SignalsBut [Sig.PWM_STAT n.val, Sig.PWM_BSREF_COUNT n.val] s t) ∧
    (∀ (s : State) (n : Axis) (ph : Fin 3), counting s n = true → ((s.pwm[n]).ch ph).bsOn = true →
      ∃ t, exec (.bootstrapRefresh n ph) s = .next t ∧ ((t.pwm[n]).ch ph).bsOn = false ∧
        ((t.pwm[n]).ch ph).stage4 = ((s.pwm[n]).ch ph).filt ∧ t.regs = s.regs) ∧
    (∀ (s : State) (n : Axis), counting s n = true → 0 < perOf s n → (s.pwm[n]).cnt ≤ perOf s n →
      ((s.pwm[n]).down = true → 0 < (s.pwm[n]).cnt) → trgPos (s.pwm[n]).trgA (s.pwm[n]).slopeA (perOf s n) ≠ [] →
      trgPos (s.pwm[n]).trgB (s.pwm[n]).slopeB (perOf s n) = [] → (s.eng[engOf n]).fifo.length < 16 →
      ∃ t, exec (.tagCompare n) s = .next t ∧
        (t.eng[engOf n]).fifo = (s.eng[engOf n]).fifo ++
          [⟨tagWord t.clk.tb (t.clk.tb / 40) (t.pwm[n]).down false (slotOf n), t.clk.tb, n⟩] ∧
        (t.pwm[n]).cnt = (s.pwm[n]).trgA ∧ t.ax = s.ax ∧
        SignalsBut [Sig.SMP_FIFO_MAX (engOf n).val] s t) ∧
    ∀ (s : State) (n : Axis), counting s n = true → 0 < perOf s n → (s.pwm[n]).cnt ≤ perOf s n →
      ((s.pwm[n]).down = true → 0 < (s.pwm[n]).cnt) → trgPos (s.pwm[n]).trgA (s.pwm[n]).slopeA (perOf s n) ≠ [] →
      trgPos (s.pwm[n]).trgB (s.pwm[n]).slopeB (perOf s n) = [] → 16 ≤ (s.eng[engOf n]).fifo.length →
      ∃ t, exec (.tagCompare n) s = .next t ∧ t.eng = s.eng ∧
        rg t (Sig.SMP_TAG_LOST (engOf n).val) = rg s (Sig.SMP_TAG_LOST (engOf n).val) + 1 ∧
        rg t (Sig.LP_SKIP_COUNT n.val) = rg s (Sig.LP_SKIP_COUNT n.val) + 1 ∧ Counts s t (axSrc n 7)

/-- DEADTIME_TURN_ON turns a pending gate on once the other is confirmed off, PWM_DTMIN after its turn-off and two ticks after its report at
the earliest, and leaves the other gate's command alone; GATE_SENSE_REPORT ends a handshake and keeps its time; HS_TIMEOUT isolates the
half-bridge; a blanking window that is due opens, and one that is open closes (R191 to R193, R210, R211, R235). The model's choices in it:
log entry 2. -/
def Obligations.GatesTurnOnAfterTheHandshake : Prop :=
  (∀ (s : State) (n : Axis) (ph : Fin 3), ((s.pwm[n]).ch ph).pendH = true → ((s.pwm[n]).ch ph).cmdL = false →
      ((s.pwm[n]).ch ph).awaitL = false → ((s.pwm[n]).ch ph).belowL = true →
      ∃ t, exec (.deadtimeTurnOn n ⟨ph, true⟩) s = .next t ∧
        (t.pwm[n]).ch ph = { (s.pwm[n]).ch ph with cmdH := true, pendH := false, belowH := false, onH := ((t.pwm[n]).ch ph).onH } ∧
        (gateOn s n ⟨ph, true⟩ = false → gateOn t n ⟨ph, true⟩ = true → ((t.pwm[n]).ch ph).onH = t.clk.tb) ∧
        (inRun s = true → ((s.pwm[n]).ch ph).offL + rgN s (Sig.PWM_DTMIN n.val) ≤ t.clk.tb ∧ ((s.pwm[n]).ch ph).seenL ≤ t.clk.tb) ∧
        t.ax = s.ax ∧
        SignalsBut [Sig.GD_RISE_MAX n.val] s t) ∧
    (∀ (s : State) (n : Axis) (ph : Fin 3), ((s.pwm[n]).ch ph).pendL = true → ((s.pwm[n]).ch ph).cmdH = false →
      ((s.pwm[n]).ch ph).awaitH = false → ((s.pwm[n]).ch ph).belowH = true →
      ∃ t, exec (.deadtimeTurnOn n ⟨ph, false⟩) s = .next t ∧
        (t.pwm[n]).ch ph = { (s.pwm[n]).ch ph with cmdL := true, pendL := false, belowL := false, onL := ((t.pwm[n]).ch ph).onL } ∧
        (gateOn s n ⟨ph, false⟩ = false → gateOn t n ⟨ph, false⟩ = true → ((t.pwm[n]).ch ph).onL = t.clk.tb) ∧
        (inRun s = true → ((s.pwm[n]).ch ph).offH + rgN s (Sig.PWM_DTMIN n.val) ≤ t.clk.tb ∧ ((s.pwm[n]).ch ph).seenH ≤ t.clk.tb) ∧
        t.ax = s.ax ∧
        SignalsBut [Sig.GD_RISE_MAX n.val] s t) ∧
    (∀ (s : State) (n : Axis) (ph : Fin 3), ((s.pwm[n]).ch ph).awaitH = true → ((s.pwm[n]).ch ph).cmdH = false →
      ∃ t, exec (.gateSenseReport n ⟨ph, true⟩) s = .next t ∧
        (t.pwm[n]).ch ph = { (s.pwm[n]).ch ph with awaitH := false, belowH := true, seenH := s.clk.tb + 2 } ∧
        rgN t (Sig.PWM_DT_HS_U n.val + ph.val) = min 65535 (s.clk.tb - ((s.pwm[n]).ch ph).offH + 2) ∧
        (∀ k, k ≠ Sig.PWM_DT_HS_U n.val + ph.val → rg t k = rg s k) ∧ t.ax = s.ax) ∧
    (∀ (s : State) (n : Axis) (g : Gate),
      (if g.hi then ((s.pwm[n]).ch g.ph).awaitH else ((s.pwm[n]).ch g.ph).awaitL) = true →
      markOf s (keyTimeout n g) ≠ (if g.hi then ((s.pwm[n]).ch g.ph).offH else ((s.pwm[n]).ch g.ph).offL) + 361 →
      ∃ t, exec (.hsTimeout n g) s = .next t ∧ rgB t (Sig.GD_LATCH n.val) (8 * g.ph.val + 5) = true ∧
        rgB t (Sig.PWM_STAT n.val) (9 + g.ph.val) = true ∧ isolated t n g.ph = true ∧ (∀ hi, gateOn t n ⟨g.ph, hi⟩ = false) ∧
        Counts s t (axSrc n 4) ∧ SignalsBut [Sig.GD_LATCH n.val, Sig.PWM_STAT n.val] s t) ∧
    (∀ (s : State) (n : Axis) (x : Nat), (s.pwm[n]).atcOpenAt = some x →
      ∃ t, exec (.atcWindowOpen n) s = .next t ∧ (t.pwm[n]).atcOpen = true ∧ (t.pwm[n]).atcOpenAt = none ∧ t.regs = s.regs ∧
        t.ax = s.ax ∧ (inRun s = true → x ≤ t.clk.tb)) ∧
    ∀ (s : State) (n : Axis) (x : Nat), (s.pwm[n]).atcCloseAt = some x → (s.pwm[n]).atcOpen = true →
      ∃ t, exec (.atcWindowClose n) s = .next t ∧ (t.pwm[n]).atcOpen = false ∧ (t.pwm[n]).atcCloseAt = none ∧ t.regs = s.regs ∧ t.ax = s.ax ∧
        (inRun s = true → x ≤ t.clk.tb)

/-- SC_TRIP, GATE_WEAK, GATE_WEAK_SAG and XCMD set their latch and isolate the half-bridge, with their counts and one event of their source;
DIDT_TRIP is latched and counted and isolates nothing. None of SC_TRIP and DIDT_TRIP acts before the blank of its gate has passed, and none
of the weak gates before its time (R224 to R229, R231, R232, R235, R239). The model's choices in it: log entry 2. -/
def Obligations.BridgeLatchesIsolateTheirHalfBridge : Prop :=
  (∀ (s : State) (n : Axis) (g : Gate), rgN s (Sig.GD_SC_MODE n.val) = 0 → gateOn s n g = true →
      ∃ t, exec (.scTrip n g) s = .next t ∧ rgB t (Sig.GD_LATCH n.val) (8 * g.ph.val + if g.hi then 1 else 0) = true ∧
        isolated t n g.ph = true ∧ (∀ hi, gateOn t n ⟨g.ph, hi⟩ = false) ∧
        rg t (Sig.GD_SC_COUNT n.val) = rg s (Sig.GD_SC_COUNT n.val) + 1 ∧ Counts s t (axSrc n 0) ∧
        (inRun s = true → armedAt s n g + 10 * rgN s (Sig.GD_SC_FILT n.val) ≤ t.clk.tb) ∧
        SignalsBut [Sig.GD_LATCH n.val, Sig.GD_SC_COUNT n.val] s t) ∧
    (∀ (s : State) (n : Axis) (g : Gate), rgN s (Sig.GD_SC_MODE n.val) = 1 → gateOn s n g = true →
      bitOf (latchByte s n g.ph) (if g.hi then 7 else 6) = false →
      ∃ t, exec (.didtTrip n g) s = .next t ∧ rgB t (Sig.GD_LATCH n.val) (8 * g.ph.val + if g.hi then 7 else 6) = true ∧
        (∀ ph, isolated t n ph = isolated s n ph) ∧ rg t (Sig.GD_DIDT_COUNT n.val) = rg s (Sig.GD_DIDT_COUNT n.val) + 1 ∧
        Counts s t (axSrc n 1) ∧ (inRun s = true → armedAt s n g ≤ t.clk.tb) ∧
        SignalsBut [Sig.GD_LATCH n.val, Sig.GD_DIDT_COUNT n.val] s t) ∧
    (∀ (s : State) (n : Axis) (g : Gate) (sag : Bool), gateOn s n g = true →
      ∃ t, exec (if sag then .gateWeakSag n g else .gateWeak n g) s = .next t ∧
        rgB t (Sig.GD_LATCH n.val) (8 * g.ph.val + if g.hi then 3 else 2) = true ∧ isolated t n g.ph = true ∧
        (∀ hi, gateOn t n ⟨g.ph, hi⟩ = false) ∧ rg t (Sig.GD_WEAK_COUNT n.val) = rg s (Sig.GD_WEAK_COUNT n.val) + 1 ∧
        Counts s t (axSrc n 2) ∧ (inRun s = true → turnedOn s n g + (if sag then 100 else 760) ≤ t.clk.tb) ∧
        SignalsBut [Sig.GD_LATCH n.val, Sig.GD_WEAK_COUNT n.val] s t) ∧
    ∀ (s : State) (n : Axis) (ph : Fin 3), bitOf (latchByte s n ph) 4 = false →
      ∃ t, exec (.xcmd n ph) s = .next t ∧ rgB t (Sig.GD_LATCH n.val) (8 * ph.val + 4) = true ∧ isolated t n ph = true ∧
        (∀ hi, gateOn t n ⟨ph, hi⟩ = false) ∧ Counts s t (axSrc n 3) ∧ SignalsBut [Sig.GD_LATCH n.val] s t

/-- TRIP_IN latches TRIP, counts it, and by GD_TRIP_ACT turns every gate of the axis off or every high side off; with GD_TRIP_ACT 0 it shows
in TRIP_LEVEL alone, and inside a blanking window it has no effect. PRECHARGE_PULSE begins a pulse with the low sides on, and at its next
occurrence ends it with every command off and counts it; PRECHARGE_COMPLETE, the last gap over, brings the axis to the state that was asked
for, with its event, and no other axis (R211, R233, R234, R239, R241, R296). The model's choices in it: log entries 2, 3 and 13. -/
def Obligations.TripsAndPrechargeActOnTheBridge : Prop :=
  (∀ (s : State) (n : Axis), rgN s (Sig.GD_TRIP_ACT n.val) ≠ 0 → (s.pwm[n]).atcOpen = false → tripped s n = false →
      ∃ t, exec (.tripIn n) s = .next t ∧ tripped t n = true ∧ (t.gd[n]).tripNow = true ∧
        rg t (Sig.GD_TRIP_COUNT n.val) = rg s (Sig.GD_TRIP_COUNT n.val) + 1 ∧ Counts s t (axSrc n 5) ∧
        (rgN s (Sig.GD_TRIP_ACT n.val) = 2 → ∀ g, gateOn t n g = false) ∧
        (rgN s (Sig.GD_TRIP_ACT n.val) = 3 → ∀ g : Gate, g.hi = true → gateOn t n g = false) ∧
        SignalsBut [Sig.GD_LATCH n.val, Sig.GD_TRIP_COUNT n.val] s t) ∧
    (∀ (s : State) (n : Axis), rgN s (Sig.GD_TRIP_ACT n.val) = 0 → (s.pwm[n]).atcOpen = false →
      ∃ t, exec (.tripIn n) s = .next t ∧ (t.gd[n]).tripNow = true ∧ { t with gd := s.gd } = s) ∧
    (∀ (s : State) (n : Axis), (s.pwm[n]).atcOpen = true → exec (.tripIn n) s = .next s) ∧
    (∀ (s : State) (n : Axis), axSt s n = .precharge → (s.gd[n]).pulse = false → (s.gd[n]).precharge < rgN s (Sig.GD_PRECHG_N n.val) →
      ∃ t, exec (.prechargePulse n) s = .next t ∧ (t.gd[n]).pulse = true ∧ (t.gd[n]).precharge = (s.gd[n]).precharge ∧
        (t.gd[n]).nextAt = (s.gd[n]).nextAt + 400 * rgN s (Sig.GD_PRECHG_ON n.val) ∧
        (∀ ph, ((s.pwm[n]).ch ph).cmdH = false → ((s.pwm[n]).ch ph).awaitH = false → ((s.pwm[n]).ch ph).belowH = true →
          cmdOf t n ⟨ph, false⟩ = true) ∧
        (∀ ph, cmdOf t n ⟨ph, true⟩ = false) ∧ (inRun s = true → (s.gd[n]).nextAt ≤ t.clk.tb) ∧ t.ax = s.ax ∧
        SignalsBut [Sig.GD_RISE_MAX n.val] s t) ∧
    (∀ (s : State) (n : Axis), axSt s n = .precharge → (s.gd[n]).pulse = true →
      ∃ t, exec (.prechargePulse n) s = .next t ∧ (t.gd[n]).pulse = false ∧ (t.gd[n]).precharge = (s.gd[n]).precharge + 1 ∧
        (t.gd[n]).nextAt = (s.gd[n]).nextAt + 400 * rgN s (Sig.GD_PRECHG_OFF n.val) ∧ (∀ g, cmdOf t n g = false) ∧
        (inRun s = true → (s.gd[n]).nextAt ≤ t.clk.tb) ∧ t.ax = s.ax ∧ t.regs = s.regs) ∧
    ∀ (s : State) (n : Axis), inRun s = true → axSt s n = .precharge → (s.gd[n]).pulse = false →
      rgN s (Sig.GD_PRECHG_N n.val) ≤ (s.gd[n]).precharge → (s.ax[n]).goal ≠ .precharge →
      ∃ t, exec (.prechargeComplete n) s = .next t ∧ axSt t n = (s.ax[n]).goal ∧ (∀ m, m ≠ n → t.ax[m] = s.ax[m]) ∧
        bitOf t.link.events (40 + n.val) = true ∧ (t.loop[n]).lastTag = none ∧ (t.loop[n]).firstTask = true

/-! ### Sampling (chapter 9) -/

/-- ADC_CONVERSION writes the word of its slot, held 80 ns before the boundary, as the newest of its ring, and no other ring's;
HK_INTERVAL_END publishes the means of the interval that ends and keeps the sums of the next. OFFSET_LEARN_START begins a learn of a
DISABLED axis; OFFSET_LEARN_END adopts the result of each phase within ±64 LSB and keeps the old offset of one outside it, which counts
CUR_PLAUS; of a learn that was spoiled or had an invalid word it adopts nothing (R83, R248, R249, R254, R256, R258 to R261). The model's
choices in it: log entries 2, 4, 43 and 47. -/
def Obligations.ConversionsMeansAndOffsetsAreKept : Prop :=
  (∀ (s : State) (c : Fin 4) (code : Fin 4096), inRun s = true → (s.adc[c]).running = true →
      ∃ t, exec (.adcConversion c code) s = .next t ∧
        (t.adc[c]).words.head? = some (t.clk.tb / 40 - 1, sampleWord c (t.clk.tb / 40 - 1) code.val) ∧
        ringWord t c (t.clk.tb / 40 - 1) = sampleWord c (t.clk.tb / 40 - 1) code.val ∧ t.clk.tb % 40 = 0 ∧
        (0 < t.clk.tb → holdOf (t.clk.tb / 40 - 1) + 32 = t.clk.tb) ∧ (∀ d, d ≠ c → (t.adc[d]).words = (s.adc[d]).words) ∧
        s.clk.tb ≤ t.clk.tb ∧ SignalsBut [Sig.SMP_STAT, Sig.SMP_OVR_COUNT 0, Sig.SMP_OVR_COUNT 1] s t) ∧
    (∀ s : State, inRun s = true →
      ∃ t i, exec .hkIntervalEnd s = .next t ∧ hkEnd s = 400000 * (i + 1) ∧ t.clk.tb = max s.clk.tb (hkEnd s) ∧
        t.hk.sums = s.hk.sums.filter (fun x => decide (32 * (i + 1) ≤ x.1)) ∧
        (∀ k, k < 32 → rg t (Sig.SMP_HK k) = telWord (Sig.SMP_HK k) (hkMean s i k * 16)) ∧
        rg t Sig.VBAT_MV = telWord Sig.VBAT_MV (hkMean s i 4 * 16) ∧ rg t Sig.VDRV_MV = telWord Sig.VDRV_MV (hkMean s i 6 * 4) ∧
        t.ax = s.ax ∧ t.adc = s.adc) ∧
    (∀ (s : State) (n : Axis), inRun s = true → axSt s n = .disabled →
      ∃ t, exec (.offsetLearnStart n) s = .next t ∧ (t.ofs[n]).learning = true ∧ (t.ofs[n]).spoiled = false ∧
        (t.ofs[n]).sumU = (0, 0) ∧ (t.ofs[n]).sumV = (0, 0) ∧ t.regs = s.regs ∧
        t.ax = s.ax ∧ ∀ m, m ≠ n → t.ofs[m] = s.ofs[m]) ∧
    (∀ (s : State) (n : Axis) (u v : Int), inRun s = true → (s.ofs[n]).learning = true → (s.ofs[n]).spoiled = false →
      axSt s n = .disabled → LearnedValid s n →
      InOffsetRange (learnMean (Sig.SMP_OFS (2 * n.val)) (s.ofs[n]).sumU u) →
      InOffsetRange (learnMean (Sig.SMP_OFS (2 * n.val + 1)) (s.ofs[n]).sumV v) →
      ∃ t, exec (.offsetLearnEnd n u v) s = .next t ∧
        rgI t (Sig.SMP_OFS (2 * n.val)) = learnMean (Sig.SMP_OFS (2 * n.val)) (s.ofs[n]).sumU u ∧
        rgI t (Sig.SMP_OFS (2 * n.val + 1)) = learnMean (Sig.SMP_OFS (2 * n.val + 1)) (s.ofs[n]).sumV v ∧
        (t.ofs[n]).learning = false ∧ (t.ofs[n]).dflt = false ∧ t.ax = s.ax ∧
        ∀ k, k ≠ Sig.SMP_OFS (2 * n.val) → k ≠ Sig.SMP_OFS (2 * n.val + 1) → rg t k = rg s k) ∧
    (∀ (s : State) (n : Axis) (u v : Int), inRun s = true → (s.ofs[n]).learning = true →
      (s.ofs[n]).spoiled = true ∨ ¬LearnedValid s n →
      ∃ t, exec (.offsetLearnEnd n u v) s = .next t ∧ t.regs = s.regs ∧ (t.ofs[n]).learning = false ∧ (t.ofs[n]).dflt = (s.ofs[n]).dflt) ∧
    (∀ (s : State) (n : Axis) (u v : Int), inRun s = true → (s.ofs[n]).learning = true → (s.ofs[n]).spoiled = false →
      axSt s n = .disabled → LearnedValid s n →
      ¬InOffsetRange (learnMean (Sig.SMP_OFS (2 * n.val)) (s.ofs[n]).sumU u) →
      InOffsetRange (learnMean (Sig.SMP_OFS (2 * n.val + 1)) (s.ofs[n]).sumV v) →
      ∃ t, exec (.offsetLearnEnd n u v) s = .next t ∧ rg t (Sig.SMP_OFS (2 * n.val)) = rg s (Sig.SMP_OFS (2 * n.val)) ∧
        rgI t (Sig.SMP_OFS (2 * n.val + 1)) = learnMean (Sig.SMP_OFS (2 * n.val + 1)) (s.ofs[n]).sumV v ∧ Counts s t (axSrc n 6)) ∧
    ∀ (s : State) (n : Axis) (u v : Int), inRun s = true → (s.ofs[n]).learning = true → (s.ofs[n]).spoiled = false →
      axSt s n = .disabled → LearnedValid s n →
      InOffsetRange (learnMean (Sig.SMP_OFS (2 * n.val)) (s.ofs[n]).sumU u) →
      ¬InOffsetRange (learnMean (Sig.SMP_OFS (2 * n.val + 1)) (s.ofs[n]).sumV v) →
      ∃ t, exec (.offsetLearnEnd n u v) s = .next t ∧
        rgI t (Sig.SMP_OFS (2 * n.val)) = learnMean (Sig.SMP_OFS (2 * n.val)) (s.ofs[n]).sumU u ∧
        rg t (Sig.SMP_OFS (2 * n.val + 1)) = rg s (Sig.SMP_OFS (2 * n.val + 1)) ∧ Counts s t (axSrc n 6)

/-! ### Loops, observers and Caramel (chapters 10, 11 and 13) -/

/-- CURRENT_TASK takes the oldest tag of its axis where its window closes first on the engine, counts the task and keeps its instant; it
leaves the tag where another axis comes first; a tag too close to the last one is discarded and counted, one of more than 80 µs ago is lost;
a mismatch without a retry is counted as one event of BISC_LE, and a task that a halt held is resumed. SPEED_STEP and POSITION_STEP run the
step that is due, while no current task is pending: the speed loop sets an iq reference within the limit in force at its task, the position
loop a speed reference within LP_SPD_MAX, both banks in step, and neither changes the state of an axis (R19, R20, R263, R275, R287 to R289,
R291, R475, R480, R486, R500). The model's choices in it: log entries 2, 21, 31 and 34. -/
def Obligations.TasksAndStepsRunTheLoops : Prop :=
  (∀ (s : State) (n : Axis) (x : Tag), inRun s = true → (s.eng[engOf n]).halted = false → (s.eng[engOf n]).stopped = none →
      (axSt s n).runsTasks = true → (s.eng[engOf n]).fifo.find? (fun g => decide (g.axis = n)) = some x → s.clk.tb ≤ x.ts + 32000 →
      tagSelected s x = true → tooClose s n x.ts = false → nextTask s (engOf n) = some x → banksAgree s n = true →
      ∃ t, exec (.currentTask n Check.pass .good) s = .next t ∧ (t.eng[engOf n]).fifo = dropTag n (s.eng[engOf n]).fifo ∧
        (t.loop[n]).lastTag = some x.ts ∧ rg t (Sig.LP_TASK_COUNT n.val) = rg s (Sig.LP_TASK_COUNT n.val) + 1) ∧
    (∀ (s : State) (n : Axis) (x : Tag), inRun s = true → (s.eng[engOf n]).halted = false → (s.eng[engOf n]).stopped = none →
      (axSt s n).runsTasks = true → (s.eng[engOf n]).fifo.find? (fun g => decide (g.axis = n)) = some x → s.clk.tb ≤ x.ts + 32000 →
      tagSelected s x = true → tooClose s n x.ts = false → nextTask s (engOf n) ≠ some x →
      exec (.currentTask n Check.pass .good) s = .next (adcSettle s (engOf n))) ∧
    (∀ (s : State) (n : Axis) (x : Tag), inRun s = true → (s.eng[engOf n]).halted = false → (s.eng[engOf n]).stopped = none →
      (s.eng[engOf n]).fifo.find? (fun g => decide (g.axis = n)) = some x → x.ts + 32000 < s.clk.tb →
      ∃ t, exec (.currentTask n Check.pass .good) s = .next t ∧ (t.eng[engOf n]).fifo = dropTag n (s.eng[engOf n]).fifo ∧
        rg t (Sig.SMP_TAG_LOST (engOf n).val) = rg s (Sig.SMP_TAG_LOST (engOf n).val) + 1 ∧
        rg t (Sig.LP_SKIP_COUNT n.val) = rg s (Sig.LP_SKIP_COUNT n.val) + 1 ∧ Counts s t (axSrc n 7)) ∧
    (∀ (s : State) (n : Axis) (x : Tag), inRun s = true → (s.eng[engOf n]).halted = false → (s.eng[engOf n]).stopped = none →
      (axSt s n).runsTasks = true → (s.eng[engOf n]).fifo.find? (fun g => decide (g.axis = n)) = some x → s.clk.tb ≤ x.ts + 32000 →
      tagSelected s x = true → tooClose s n x.ts = true →
      ∃ t, exec (.currentTask n Check.pass .good) s = .next t ∧ (t.eng[engOf n]).fifo = dropTag n (s.eng[engOf n]).fifo ∧
        t.loop = s.loop ∧ t.ax = s.ax ∧ rgB t (Sig.LP_STAT n.val) 9 = true ∧
        rg t (Sig.LP_SKIP_COUNT n.val) = rg s (Sig.LP_SKIP_COUNT n.val) + 1 ∧
        SignalsBut [Sig.LP_STAT n.val, Sig.LP_SKIP_COUNT n.val, Sig.SMP_STAT, Sig.SMP_OVR_COUNT (adcOf (engOf n)).val] s t) ∧
    (∀ (s : State) (n : Axis) (y : Task) (chk : Check) (mem : MemCheck), inRun s = true → (s.eng[engOf n]).halted = false →
      (s.eng[engOf n]).stopped = some y → y.axis = n →
      ∃ t, exec (.currentTask n chk mem) s = .next t ∧ (t.eng[engOf n]).stopped = none ∧ (t.eng[engOf n]).fifo = (s.eng[engOf n]).fifo) ∧
    (∀ (s : State) (n : Axis) (x : Tag) (k : Nat) (pending : Bool), inRun s = true → (s.eng[engOf n]).halted = false →
      (s.eng[engOf n]).stopped = none → (axSt s n).runsTasks = true →
      (s.eng[engOf n]).fifo.find? (fun g => decide (g.axis = n)) = some x → s.clk.tb ≤ x.ts + 32000 → tagSelected s x = true →
      tooClose s n x.ts = false → nextTask s (engOf n) = some x → (s.loop[n]).passes = 2 → (s.loop[n]).passPend = none →
      ∃ t, exec (.currentTask n ⟨some k, false, pending⟩ .good) s = .next t ∧
        rg t (Sig.BISC_EVENT_AX n.val) = rg s (Sig.BISC_EVENT_AX n.val) + 1 ∧ Counts s t (axSrc n 9) ∧
        rg t (Sig.LP_TASK_COUNT n.val) = rg s (Sig.LP_TASK_COUNT n.val)) ∧
    (∀ (s : State) (n : Axis) (d : Due), inRun s = true → (s.loop[n]).dueSpd = some d → (s.loop[n]).duePos = none →
      (loopState s n).closesSpeed = true → (s.eng[engOf n]).halted = false → taskPending s (engOf n) = false → banksAgree s n = true →
      ∃ t iq, exec (.speedStep n Check.pass .good) s = .next t ∧ (t.loop[n]).dueSpd = none ∧ (t.loop[n]).preSpd = false ∧
        (t.loop[n]).bankA.iqRef = some iq ∧ (0 ≤ d.ilim → -d.ilim ≤ iq ∧ iq ≤ d.ilim) ∧
        ((s.loop[n]).passes = 2 → (t.loop[n]).bankB = (t.loop[n]).bankA.compl) ∧ t.ax = s.ax ∧ SignalsBut [Sig.LP_STAT n.val] s t) ∧
    ∀ (s : State) (n : Axis) (d : Due), inRun s = true → (s.loop[n]).duePos = some d → loopState s n = .position →
      (s.eng[engOf n]).halted = false → taskPending s (engOf n) = false → banksAgree s n = true → rgN s (Sig.LP_POS_ERR_MAX n.val) = 0 →
      ∃ t w, exec (.positionStep n Check.pass .good) s = .next t ∧ (t.loop[n]).duePos = none ∧ (t.loop[n]).prePos = false ∧
        ((s.loop[n]).passes = 2 → (t.loop[n]).bankB = (t.loop[n]).bankA.compl) ∧ (t.loop[n]).bankA.wRef = some w ∧
        -((rgN s (Sig.LP_SPD_MAX n.val) : Rat) / 65536) ≤ w ∧
        w ≤ (rgN s (Sig.LP_SPD_MAX n.val) : Rat) / 65536 ∧ rg t (Sig.LP_POS_REF n.val) = BitVec.ofInt 32 (t.loop[n]).bankA.pRef ∧
        t.ax = s.ax ∧ SignalsBut [Sig.LP_STAT n.val, Sig.CAR_STAT n.val, Sig.LP_POS_REF n.val] s t

/-- OBSERVER_STEP makes the step that is due, on the instant of its task, while no current task is pending; of an observer that has not
converged outside continuation it changes nothing else of the axis. OBSERVER_CONVERGED ends 20 ms of |δ| below 10°; ANGLE_DISAGREE shows in
OBS_STAT, in its count and as one event of its source; HFI_PERIOD_END begins the next injection period (R388, R390, R394, R405). The model's
choices in it: log entries 2, 16 and 35. -/
def Obligations.ObserversStepConvergeAndDisagree : Prop :=
  (∀ (s : State) (n : Axis) (tag : Nat) (ts : Rat), inRun s = true → (s.loop[n]).dueObs = some (tag, ts) → (axSt s n).runsTasks = true →
      (s.eng[engOf n]).halted = false → taskPending s (engOf n) = false → banksAgree s n = true →
      ∃ t, exec (.observerStep n Check.pass) s = .next t ∧ (t.loop[n]).dueObs = none ∧ (t.obs[n]).fresh = false ∧ (t.obs[n]).tk = tag) ∧
    (∀ (s : State) (n : Axis) (tag : Nat) (ts : Rat), inRun s = true → (s.loop[n]).dueObs = some (tag, ts) → (axSt s n).runsTasks = true →
      (s.eng[engOf n]).halted = false → taskPending s (engOf n) = false → banksAgree s n = true →
      (s.obs[n]).conv = false → (s.obs[n]).sens = false →
      ∃ t, exec (.observerStep n Check.pass) s = .next t ∧ (t.obs[n]).conv = false ∧ (∀ m, m ≠ n → t.obs[m] = s.obs[m]) ∧ t.ax = s.ax ∧
        t.flt = s.flt ∧ SignalsBut [Sig.OBS_ANGLE n.val, Sig.OBS_SPEED n.val, Sig.OBS_EMF n.val] s t) ∧
    (∀ (s : State) (n : Axis) (x : Nat), inRun s = true → (s.obs[n]).below = some x → (s.obs[n]).conv = false →
      ∃ t, exec (.observerConverged n) s = .next t ∧ t.obs[n] = { s.obs[n] with conv := true } ∧ (∀ m, m ≠ n → t.obs[m] = s.obs[m]) ∧
        t.clk.tb = max s.clk.tb (x + 8000000) ∧ t.ax = s.ax ∧ t.regs = s.regs) ∧
    (∀ (s : State) (n : Axis) (x : Nat), inRun s = true → (s.obs[n]).overSince = some x → agreeArmed s n = true →
      ∃ t, exec (.angleDisagree n) s = .next t ∧ rgB t (Sig.OBS_STAT n.val) 0 = true ∧
        rg t (Sig.OBS_DISAGREE_COUNT n.val) = rg s (Sig.OBS_DISAGREE_COUNT n.val) + 1 ∧ Counts s t (axSrc n 19) ∧
        x + 40000 * rgN s (Sig.OBS_AGREE_TIME n.val) ≤ t.clk.tb ∧
        SignalsBut [Sig.OBS_STAT n.val, Sig.OBS_DISAGREE_COUNT n.val] s t) ∧
    ∀ (s : State) (n : Axis), inRun s = true → (s.obs[n]).sens = true → (s.obs[n]).est = 2 →
      ∃ t, exec (.hfiPeriodEnd n) s = .next t ∧ (t.obs[n]).hSumQ = 0 ∧ (t.obs[n]).hSumD = 0 ∧ (t.obs[n]).hN = 0 ∧
        s.clk.tb ≤ t.clk.tb ∧ SignalsBut [Sig.OBS_HFI_ERR n.val, Sig.OBS_STAT n.val] s t

/-- PROFILE_CLOCK comes on an edge of the 10 MHz clock, moves Φ in POSITION only, and keeps the record of the edge as the newest;
REPLAN_SWITCH counts the replan and puts the command in force that it still works with after the clocks of the old plan; TARGET_REACHED
reports a target once, with its event, and ends the MOVE; STEP_PULSE raises STP for one step of the debt, and STEP_PULSE_END lets it fall
after CAR_STP_WIDTH (R310, R311, R320, R325, R326, R332). The model's choices in it: log entries 2 and 33. -/
def Obligations.ProfileClocksPlansAndStepsMoveCaramel : Prop :=
  (∀ (s : State) (n : Axis), inRun s = true →
      ∃ t, exec (.profileClock n) s = .next t ∧ t.clk.tb % 40 = 0 ∧ s.clk.tb ≤ t.clk.tb ∧
        (t.car[n]).hist.head? = some ⟨t.clk.tb, (t.car[n]).phi / 65536, (t.car[n]).v, (t.car[n]).a⟩ ∧
        (axSt s n ≠ .position → (t.car[n]).phi = (s.car[n]).phi ∧ (t.car[n]).v = (s.car[n]).v ∧ (t.car[n]).a = (s.car[n]).a) ∧
        (∀ m, m ≠ n → t.car[m] = s.car[m]) ∧ t.ax = s.ax) ∧
    (∀ (s : State) (n : Axis) (x : Nat), inRun s = true → (s.car[n]).replan = some x →
      ∃ t, exec (.replanSwitch n) s = .next t ∧
        (∀ c, ((clocksTo 21 s n x).car[n]).taking = some c → (t.car[n]).cmd = some c) ∧
        rg t (Sig.CAR_REPLAN_COUNT n.val) = rg s (Sig.CAR_REPLAN_COUNT n.val) + 1 ∧
        ((s.car[n]).held = false → (t.car[n]).replan = none ∧ (t.car[n]).taking = none) ∧ (∀ m, m ≠ n → t.car[m] = s.car[m]) ∧
        x ≤ t.clk.tb ∧ t.ax = s.ax) ∧
    (∀ (s : State) (n : Axis), (s.car[n]).arrived = true →
      ∃ t, exec (.targetReached n) s = .next t ∧ t.car[n] = { s.car[n] with arrived := false } ∧ bitOf t.link.events (48 + n.val) = true ∧
        (t.hcAx[n]).moveCls = none ∧ (∀ m, m ≠ n → t.car[m] = s.car[m]) ∧ t.ax = s.ax ∧ SignalsBut [] s t) ∧
    (∀ (s : State) (n : Axis), inRun s = true → stepAssigned s n = true → (s.car[n]).stpHigh = false →
      rgI s (Sig.CAR_STP_DEBT n.val) ≠ 0 → (s.car[n]).dirPos = decide (0 < rgI s (Sig.CAR_STP_DEBT n.val)) →
      ∃ t, exec (.stepPulse n) s = .next t ∧ t.car[n] = { s.car[n] with stpHigh := true, stpAt := t.clk.tb } ∧
        rgI t (Sig.CAR_STP_DEBT n.val) =
          rgI s (Sig.CAR_STP_DEBT n.val) - (if 0 < rgI s (Sig.CAR_STP_DEBT n.val) then 1 else -1) ∧
        rg t (Sig.CAR_STP_COUNT n.val) =
          rg s (Sig.CAR_STP_COUNT n.val) + BitVec.ofInt 32 (if 0 < rgI s (Sig.CAR_STP_DEBT n.val) then 1 else -1) ∧
        (s.car[n]).stpAt + 4 * rgN s (Sig.CAR_STP_WIDTH n.val) ≤ t.clk.tb ∧
        (s.car[n]).dirAt + 4 * rgN s (Sig.CAR_DIR_SETUP n.val) ≤ t.clk.tb ∧
        ∀ k, k ≠ Sig.CAR_STP_DEBT n.val → k ≠ Sig.CAR_STP_COUNT n.val → rg t k = rg s k) ∧
    ∀ (s : State) (n : Axis), (s.car[n]).stpHigh = true →
      ∃ t, exec (.stepPulseEnd n) s = .next t ∧ (t.car[n]).stpHigh = false ∧ (t.car[n]).stpAt = t.clk.tb ∧ t.regs = s.regs ∧
        (inRun s = true → (s.car[n]).stpAt + 4 * rgN s (Sig.CAR_STP_WIDTH n.val) ≤ t.clk.tb) ∧ ∀ m, m ≠ n → t.car[m] = s.car[m]

/-! ### Resolvers, feedback inputs and analogue outputs (chapters 12, 14 and 15) -/

/-- PHASE_LEARN_END adopts the learned phase, with the learned amplitude or the nominal one where the learned amplitude lies within its
limits, or marks the channel faulted with one event of its source; DEMOD_PERIOD_END and EXC_PERIOD_END end one period of their channel or
driver; the current limit of a driver shows at every enabled channel of it and counts where the channel is not faulted; OPEN_WIRE_PROBE
moves the bias for one excitation period; TABLE_WRITE_END completes the ND copy of the table (R109, R345 to R348, R352, R359, R367, R369,
R378). The model's choices in it: log entries 2 and 44. -/
def Obligations.ResolverPeriodsLearnsAndTablesEnd : Prop :=
  (∀ (s : State) (n : Axis), inRun s = true → (s.exc[drvOf n]).on = true → (s.rsv[n]).learnPhase = true →
      rgN s (Sig.RSV_AMP_NOM n.val) = 0 → 512 ≤ (s.rsv[n]).ampSum / ((s.rsv[n]).ampN : Rat) →
      (s.rsv[n]).ampSum / ((s.rsv[n]).ampN : Rat) ≤ 1946 →
      ∃ t, exec (.phaseLearnEnd n) s = .next t ∧
        t.rsv[n] = { s.rsv[n] with phase := (learnDone (toTick s (psiTick s (drvOf n) 50)) n).learnedPhase,
                                   aNom := (s.rsv[n]).ampSum / ((s.rsv[n]).ampN : Rat), adopted := true, faulted := false,
                                   valid := true, mt := true, learnPhase := false } ∧
        (∀ m, m ≠ n → t.rsv[m] = s.rsv[m]) ∧ t.regs = s.regs) ∧
    (∀ (s : State) (n : Axis), inRun s = true → (s.exc[drvOf n]).on = true → (s.rsv[n]).learnPhase = true →
      rgN s (Sig.RSV_AMP_NOM n.val) ≠ 0 →
      ampOut s n ((s.rsv[n]).ampSum / ((s.rsv[n]).ampN : Rat) * ((s.rsv[n]).ampSum / ((s.rsv[n]).ampN : Rat)))
        ((rgN s (Sig.RSV_AMP_NOM n.val) : Rat) / 16) = false →
      ∃ t, exec (.phaseLearnEnd n) s = .next t ∧
        t.rsv[n] = { s.rsv[n] with phase := (learnDone (toTick s (psiTick s (drvOf n) 50)) n).learnedPhase,
                                   aNom := (rgN s (Sig.RSV_AMP_NOM n.val) : Rat) / 16, adopted := true, faulted := false,
                                   valid := true, mt := true, learnPhase := false } ∧
        (∀ m, m ≠ n → t.rsv[m] = s.rsv[m]) ∧ t.regs = s.regs) ∧
    (∀ (s : State) (n : Axis), inRun s = true → (s.exc[drvOf n]).on = true → (s.rsv[n]).learnPhase = true →
      (rgN s (Sig.RSV_AMP_NOM n.val) = 0 ∧ ((s.rsv[n]).ampSum / ((s.rsv[n]).ampN : Rat) < 512 ∨
          1946 < (s.rsv[n]).ampSum / ((s.rsv[n]).ampN : Rat))) ∨
        (rgN s (Sig.RSV_AMP_NOM n.val) ≠ 0 ∧
          ampOut s n ((s.rsv[n]).ampSum / ((s.rsv[n]).ampN : Rat) * ((s.rsv[n]).ampSum / ((s.rsv[n]).ampN : Rat)))
            ((rgN s (Sig.RSV_AMP_NOM n.val) : Rat) / 16) = true) →
      ∃ t, exec (.phaseLearnEnd n) s = .next t ∧
        t.rsv[n] = { s.rsv[n] with adopted := false, faulted := true, valid := false, learnPhase := false } ∧
        (∀ m, m ≠ n → t.rsv[m] = s.rsv[m]) ∧ rgB t (Sig.RSV_STAT n.val) 0 = true ∧ Counts s t (axSrc n 11)) ∧
    (∀ (s : State) (n : Axis) (chk : Check), inRun s = true → (s.exc[drvOf n]).on = true → (s.rsv[n]).en = true →
      ∃ t, exec (.demodPeriodEnd n chk) s = .next t ∧ (t.rsv[n]).periods = (s.rsv[n]).periods + 1 ∧ (∀ m, m ≠ n → t.rsv[m] = s.rsv[m]) ∧
        s.clk.tb ≤ t.clk.tb) ∧
    (∀ (s : State) (drv : Fin 2) (limited : Bool), inRun s = true → (s.exc[drv]).on = true →
      ∃ t, exec (.excPeriodEnd drv limited) s = .next t ∧ (t.exc[drv]).periods = (s.exc[drv]).periods + 1 ∧ (t.exc[drv]).on = true ∧
        (∀ d, d ≠ drv → t.exc[d] = s.exc[d]) ∧ s.clk.tb ≤ t.clk.tb ∧
        (∀ n : Axis, drvOf n = drv → (s.rsv[n]).en = true → limited = true →
          rgB t (Sig.RSV_STAT n.val) 6 = true ∧ ((s.rsv[n]).faulted = false → Counts s t (axSrc n 17))) ∧
        ∀ n : Axis, drvOf n ≠ drv → t.rsv[n] = s.rsv[n]) ∧
    (∀ (s : State) (n : Axis), inRun s = true → (s.exc[drvOf n]).on = true → (s.rsv[n]).en = true →
      rgN s (Sig.RSV_PROBE_PER n.val) ≠ 0 →
      ∃ t, exec (.openWireProbe n) s = .next t ∧ t.rsv[n] = { s.rsv[n] with probe := true } ∧ (∀ m, m ≠ n → t.rsv[m] = s.rsv[m]) ∧
        t.regs = s.regs) ∧
    ∀ (s : State) (n : Axis) (x : Table), (s.rsv[n]).storing = some x →
      ∃ t, exec (.tableWriteEnd n) s = .next t ∧ ndTable t.rsv[n] = x ∧ (t.rsv[n]).ndNewB = !(s.rsv[n]).ndNewB ∧
        (t.rsv[n]).table = (s.rsv[n]).table ∧ (t.rsv[n]).storeNext = false ∧
        (t.rsv[n]).storing = (if (s.rsv[n]).storeNext then some (s.rsv[n]).table else none) ∧ (∀ m, m ≠ n → t.rsv[m] = s.rsv[m]) ∧
        t.regs = s.regs

/-- FB_EDGE_ACCEPT of one quadrature line counts one step, forward or back by the order of the levels and FB_INV; of both lines at once, and
of a Hall code that is none of the six, it counts no step and one event of the source. FB_STILL shows standstill. WSS_OPEN and WSS_SHORT are
counted, a short switches the sensor supply off, and WSS_RETRY switches it on again unless the short stands (R408, R412, R415, R416, R420,
R428). The model's choices in it: log entries 2 and 32. -/
def Obligations.FeedbackInputsCountTheirEdges : Prop :=
  (∀ (s : State) (n : Axis) (a b z : Bool), inRun s = true → fbMode s n = 1 → rgN s (Sig.FB_Z_EN n.val) = 0 →
      (a ≠ (s.fb[n]).a ↔ b = (s.fb[n]).b) →
      ∃ t, exec (.fbEdgeAccept n a b z) s = .next t ∧ (t.fb[n]).a = a ∧ (t.fb[n]).b = b ∧ (t.fb[n]).still = false ∧
        (t.fb[n]).count = (s.fb[n]).count +
          (if ((quadPlace a b + 4 - quadPlace (s.fb[n]).a (s.fb[n]).b) % 4 == 1) != fbInv s n then 1 else -1) ∧
        (∀ m, m ≠ n → t.fb[m] = s.fb[m]) ∧ t.regs = s.regs) ∧
    (∀ (s : State) (n : Axis) (a b z : Bool), inRun s = true → fbMode s n = 1 → rgN s (Sig.FB_Z_EN n.val) = 0 → a ≠ (s.fb[n]).a →
      b ≠ (s.fb[n]).b →
      ∃ t, exec (.fbEdgeAccept n a b z) s = .next t ∧ t.fb[n] = { s.fb[n] with a := a, b := b } ∧ rgB t (Sig.FB_STAT n.val) 0 = true ∧
        rg t (Sig.FB_ERR_COUNT n.val) = rg s (Sig.FB_ERR_COUNT n.val) + 1 ∧ Counts s t (axSrc n 21) ∧
        SignalsBut [Sig.FB_STAT n.val, Sig.FB_ERR_COUNT n.val] s t) ∧
    (∀ (s : State) (n : Axis) (a b z : Bool), inRun s = true → fbMode s n = 2 → hallSector a b z = none →
      (a, b, z) ≠ ((s.fb[n]).a, (s.fb[n]).b, (s.fb[n]).z) →
      ∃ t, exec (.fbEdgeAccept n a b z) s = .next t ∧ t.fb[n] = { s.fb[n] with a := a, b := b, z := z } ∧
        rgB t (Sig.FB_STAT n.val) 3 = true ∧ rg t (Sig.FB_ERR_COUNT n.val) = rg s (Sig.FB_ERR_COUNT n.val) + 1 ∧ Counts s t (axSrc n 22) ∧
        SignalsBut [Sig.FB_STAT n.val, Sig.FB_ERR_COUNT n.val] s t) ∧
    (∀ (s : State) (n : Axis) (e : Nat × Bool) (es : List (Nat × Bool)), inRun s = true → fbMode s n ≠ 0 → (s.fb[n]).steps = e :: es →
      (s.fb[n]).still = false →
      ∃ t, exec (.fbStill n) s = .next t ∧ t.fb[n] = { s.fb[n] with still := true } ∧
        e.1 + 400000 * rgN s (Sig.FB_STILL_TIME n.val) ≤ t.clk.tb ∧ (∀ m, m ≠ n → t.fb[m] = s.fb[m]) ∧ t.regs = s.regs) ∧
    (∀ (s : State) (n : Axis), wssPower s n = true →
      ∃ t, exec (.wssOpen n) s = .next t ∧ t.fb = s.fb ∧ rgB t (Sig.FB_STAT n.val) 5 = true ∧
        rg t (Sig.FB_ERR_COUNT n.val) = rg s (Sig.FB_ERR_COUNT n.val) + 1 ∧ Counts s t (axSrc n 24)) ∧
    (∀ (s : State) (n : Axis), wssPower s n = true →
      ∃ t, exec (.wssShort n) s = .next t ∧ t.fb[n] = { s.fb[n] with wssOff := true } ∧ rgB t (Sig.FB_STAT n.val) 6 = true ∧
        rg t (Sig.FB_ERR_COUNT n.val) = rg s (Sig.FB_ERR_COUNT n.val) + 1 ∧ Counts s t (axSrc n 24)) ∧
    (∀ (s : State) (n : Axis), inRun s = true → fbMode s n = 4 → (s.fb[n]).wssOff = true →
      ∃ t, exec (.wssRetry n false) s = .next t ∧ t.fb[n] = { s.fb[n] with wssOff := false } ∧ t.regs = s.regs) ∧
    ∀ (s : State) (n : Axis), inRun s = true → fbMode s n = 4 → (s.fb[n]).wssOff = true →
      ∃ t, exec (.wssRetry n true) s = .next t ∧ t.fb[n] = s.fb[n] ∧ rgB t (Sig.FB_STAT n.val) 6 = true ∧ Counts s t (axSrc n 24)

/-- AOLD_STROBE gives every configured channel its pending code as target, or its clear code at once where it waits for its first strobe,
and has no effect where the pin is not enabled; AO_LIMITER_TICK takes one limiter step, at the next whole microsecond and AO_SLEW_INT after
the step before at the earliest; AOCLR_ASSERT puts every configured channel at its clear code at once, in SLEEP once the device wakes,
AOCLR_RELEASE leaves the codes standing; SPAN_CHANGE_DONE puts the new span in force at its 0 V code, or ends the configuration; AO_SHORT is
counted (R433, R434, R437 to R439, R441 to R444). The model's choices in it: log entries 2 and 42. -/
def Obligations.AnalogueOutputsStepClearAndChangeSpan : Prop :=
  (∀ s : State, rgB s Sig.AO_LOAD_SRC 0 = true → s.aoClear = false →
      ∃ t, exec .aoldStrobe s = .next t ∧
        (∀ k : Fin 6, (s.ao[k]).span ≠ 0 → (s.ao[k]).changing = none → (s.ao[k]).waiting = false →
          t.ao[k] = { s.ao[k] with target := aoResolve (s.ao[k]).span (rgN s (Sig.AO_CODE k.val)) }) ∧
        (∀ k : Fin 6, (s.ao[k]).span ≠ 0 → (s.ao[k]).changing = none → (s.ao[k]).waiting = true →
          t.ao[k] = { (s.ao[k]).at_ (aoClrCode s k (s.ao[k]).span) with waiting := false, closed := true }) ∧
        (∀ k : Fin 6, (s.ao[k]).span = 0 ∨ (s.ao[k]).changing ≠ none → t.ao[k] = s.ao[k]) ∧ { t with ao := s.ao } = s) ∧
    (∀ s : State, rgB s Sig.AO_LOAD_SRC 0 = false → exec .aoldStrobe s = .next s) ∧
    (∀ (s : State) (k : Fin 6), (s.ao[k]).span ≠ 0 → (s.ao[k]).waiting = false → (s.ao[k]).openAt = false → (s.ao[k]).changing = none →
      (s.ao[k]).out ≠ (s.ao[k]).target →
      ∃ t, exec (.aoLimiterTick k) s = .next t ∧
        t.ao[k] = { s.ao[k] with out := aoStep (s.ao[k]).out (s.ao[k]).target (rgN s (Sig.AO_SLEW_STEP k.val)), tickUs := t.clk.us } ∧
        t.clk = (toUs s (aoDue s k)).clk ∧ (∀ j, j ≠ k → t.ao[j] = s.ao[j]) ∧ t.regs = s.regs ∧ t.ax = s.ax) ∧
    (∀ s : State, s.pwr.st = .sleep → exec .aoclrAssert s = .next { s with aoClear := true }) ∧
    (∀ s : State, linkPowered s = true → ∃ t, exec .aoclrAssert s = .next t ∧ t.aoClear = true ∧ rgB t Sig.AO_STAT 20 = true ∧
        (∀ k : Fin 6, (s.ao[k]).span ≠ 0 → (s.ao[k]).changing = none → t.ao[k] = (s.ao[k]).at_ (aoClrCode s k (s.ao[k]).span)) ∧
        (∀ k : Fin 6, (s.ao[k]).span = 0 ∨ (s.ao[k]).changing ≠ none → t.ao[k] = s.ao[k]) ∧
        ∀ k, k ≠ Sig.AO_STAT → rg t k = rg s k) ∧
    (∀ s : State, exec .aoclrRelease s = .next { s with aoClear := false }) ∧
    (∀ (s : State) (k : Fin 6) (v : Nat), (s.ao[k]).changing = some v → (s.ao[k]).openAt = true → v ≠ 0 → s.aoClear = false →
      ∃ t, exec (.spanChangeDone k) s = .next t ∧ t.ao[k] = ⟨v, aoZero v, aoZero v, true, false, none, false, (s.ao[k]).tickUs⟩ ∧
        t.clk = (toUs s ((s.ao[k]).tickUs + 20)).clk ∧ (∀ j, j ≠ k → t.ao[j] = s.ao[j]) ∧
        rgB t Sig.AO_STAT k.val = true ∧ ∀ j, j ≠ Sig.AO_STAT → rg t j = rg s j) ∧
    (∀ (s : State) (k : Fin 6), (s.ao[k]).changing = some 0 → (s.ao[k]).openAt = true →
      ∃ t, exec (.spanChangeDone k) s = .next t ∧ t.ao[k] = AoCh.init ∧ (∀ j, j ≠ k → t.ao[j] = s.ao[j]) ∧
        rgB t Sig.AO_STAT k.val = true) ∧
    ∀ (s : State) (k : Fin 6), (s.ao[k]).closed = true → ∃ t, exec (.aoShort k) s = .next t ∧ rgB t Sig.AO_STAT (8 + k.val) = true ∧
      rg t Sig.AO_SHORT_COUNT = rg s Sig.AO_SHORT_COUNT + 1 ∧ Counts s t (devSrc 36) ∧ t.ao = s.ao ∧
      SignalsBut [Sig.AO_STAT, Sig.AO_SHORT_COUNT] s t

/-! ### The Emquin ring (chapter 19) -/

/-- RING_CYCLE sends a SYNC with a good CRC at a cycle boundary of the originator and advances its SEQ. SYNC, RING_HEARTBEAT,
HONEYCOMB_REPORT, ALLOTMENT and STREAM_SLOT with a bad CRC are counted and have no effect; a good SYNC of a cycle that is not folded gives a
follower its position and master and passes on with its own HOP, a good heartbeat shows its member, a good report, allotment or stream frame
is kept for its reader (R542 to R547, R558 to R560, R426, R570). The model's choices in it: log entries 2 and 38. -/
def Obligations.RingSlotsAreCheckedAndTaken : Prop :=
  (∀ s : State, originates s = true → s.emq.stopAt = false →
      ∃ t, exec .ringCycle s = .next t ∧ syncOk t.emq.txSync = true ∧ t.emq.seq = (s.emq.seq + 1) % 256 ∧ tickCount t % 4000 = 0 ∧
        s.clk.tb ≤ t.clk.tb) ∧
    (∀ (s : State) (bytes : List Byte) (arrival : Nat) (own : Bool), inRun s = true → s.emq.mode ≠ 0 → syncOk bytes = false →
      ∃ t, exec (.syncSlot bytes arrival own) s = .next t ∧ t.emq = s.emq ∧ rg t Sig.RING_CRC_COUNT = rg s Sig.RING_CRC_COUNT + 1 ∧
        ∀ k, k ≠ Sig.RING_CRC_COUNT → rg t k = rg s k) ∧
    (∀ (s : State) (bytes : List Byte) (arrival : Nat) (own : Bool), inRun s = true → s.emq.mode ≠ 0 → s.emq.isMaster = false →
      syncOk bytes = true → bitOf (fieldAt bytes 1 1) 7 = false → fieldAt bytes 3 1 < 15 →
      ∃ t, exec (.syncSlot bytes arrival own) s = .next t ∧ t.emq.pos = fieldAt bytes 3 1 + 1 ∧ t.emq.mode = 2 ∧
        t.emq.master = some (fieldAt bytes 2 1 / 16) ∧ t.emq.isMaster = false ∧ t.emq.rinOk = true ∧ syncOk t.emq.txSync = true ∧
        fieldAt t.emq.txSync 3 1 = fieldAt bytes 3 1 + 1) ∧
    (∀ (s : State) (p : Fin 16) (bytes : List Byte), inRun s = true → s.emq.mode ≠ 0 →
      bytes.length ≠ 4 ∨ crc8 (bytes.take 3) ≠ bytes.getD 3 0 →
      ∃ t, exec (.ringHeartbeat p bytes) s = .next t ∧ rg t Sig.RING_CRC_COUNT = rg s Sig.RING_CRC_COUNT + 1 ∧
        OnlySignal Sig.RING_CRC_COUNT s t) ∧
    (∀ (s : State) (p : Fin 16) (bytes : List Byte), inRun s = true → s.emq.mode ≠ 0 →
      bytes.length ≠ 32 ∨ crc32 (bytes.take 28) ≠ wordAt bytes 28 →
      ∃ t, exec (.honeycombReport p bytes) s = .next t ∧ rg t Sig.RING_CRC_COUNT = rg s Sig.RING_CRC_COUNT + 1 ∧
        OnlySignal Sig.RING_CRC_COUNT s t) ∧
    (∀ (s : State) (bytes : List Byte), inRun s = true → s.emq.mode = 2 ∨ s.emq.mode = 3 →
      bytes.length ≠ 64 ∨ crc32 (bytes.take 60) ≠ wordAt bytes 60 →
      ∃ t, exec (.allotment bytes) s = .next t ∧ rg t Sig.RING_CRC_COUNT = rg s Sig.RING_CRC_COUNT + 1 ∧
        OnlySignal Sig.RING_CRC_COUNT s t) ∧
    (∀ (s : State) (slot : Fin 16) (bytes : List Byte), inRun s = true → s.emq.mode ≠ 0 → s.emq.mode ≠ 3 →
      bytes.length ≠ 10 ∨ crc8 (bytes.take 9) ≠ bytes.getD 9 0 →
      ∃ t, exec (.streamSlot slot bytes) s = .next t ∧ rg t Sig.RING_CRC_COUNT = rg s Sig.RING_CRC_COUNT + 1 ∧
        OnlySignal Sig.RING_CRC_COUNT s t) ∧
    (∀ (s : State) (p : Fin 16) (bytes : List Byte), inRun s = true → s.emq.mode ≠ 0 → p.val ≠ s.emq.pos → p.val < s.emq.members.length →
      bytes.length = 4 → crc8 (bytes.take 3) = bytes.getD 3 0 →
      (∀ x, s.emq.members.getD p.val none = some x → x.seq ≠ fieldAt bytes 0 1) →
      ∃ t, exec (.ringHeartbeat p bytes) s = .next t ∧
        t.emq.members.getD p.val none = some ⟨fieldAt bytes 1 1 / 16, fieldAt bytes 0 1, fieldAt bytes 1 1 % 16, 0⟩ ∧
        (∀ j, j ≠ p.val → t.emq.members.getD j none = s.emq.members.getD j none) ∧
        { t with emq := { t.emq with members := s.emq.members } } = s) ∧
    (∀ (s : State) (p : Fin 16) (bytes : List Byte), inRun s = true → s.emq.mode ≠ 0 → bytes.length = 32 →
      crc32 (bytes.take 28) = wordAt bytes 28 →
      ∃ t, exec (.honeycombReport p bytes) s = .next t ∧ cellGet t.hc.reports p.val = some bytes ∧
        (∀ j, j ≠ p.val → cellGet t.hc.reports j = cellGet s.hc.reports j) ∧
        { t with hc := { t.hc with reports := s.hc.reports } } = s) ∧
    (∀ (s : State) (bytes : List Byte), inRun s = true → s.emq.mode = 2 ∨ s.emq.mode = 3 → bytes.length = 64 →
      crc32 (bytes.take 60) = wordAt bytes 60 →
      ∃ t, exec (.allotment bytes) s = .next t ∧
        t.hc.allot = [((ofLe ((bytes.drop 1).take 48) / 4096 ^ (2 * s.emq.pos) % 4096 : Nat) : Rat),
          ((ofLe ((bytes.drop 1).take 48) / 4096 ^ (2 * s.emq.pos + 1) % 4096 : Nat) : Rat)] ∧
        { t with hc := { t.hc with allot := s.hc.allot, allotAge := s.hc.allotAge } } = s) ∧
    ∀ (s : State) (slot : Fin 16) (bytes : List Byte), inRun s = true → s.emq.mode = 2 → bytes.length = 10 →
      crc8 (bytes.take 9) = bytes.getD 9 0 →
      ∃ t, exec (.streamSlot slot bytes) s = .next t ∧ t.emq.streams = s.emq.streams ++ [bytes] ∧
        (∀ n : Axis, fbMode s n = 5 → streamFor s n bytes = true →
          (t.fb[n]).cOut = some (BitVec.ofNat 32 (fieldAt bytes 1 4)).toInt ∧ (t.fb[n]).missing = 0) ∧
        ∀ n : Axis, fbMode s n ≠ 5 ∨ streamFor s n bytes = false → t.fb[n] = s.fb[n]

/-- CENSUS_CHANGE puts the census in effect that the heartbeats have shown for two cycles; NO_LEAD, once the census has held for four, takes
every axis that runs to HOLD; SEARCH_TIMEOUT makes the device master with its own epoch; MASTERSHIP_CHANGE passes mastership to the lowest
LOCKED ring ID; EPOCH_ADOPT takes the ring's epoch in one step, once; BREAK makes the device line head of a fold, counted; HEAL marks its
next forward cycle (R298, R547, R549, R550, R552, R556, R565, R566, R568, R658). The model's choices in it: log entries 2 and 38. -/
def Obligations.RingMembersFollowTheRing : Prop :=
  (∀ s : State, inRun s = true → s.emq.mode ≠ 0 → (observed s).map censusKey ≠ s.emq.census.map censusKey →
      (observed s).map censusKey = s.emq.shown → 2 ≤ s.emq.steady →
      ∃ t, exec .censusChange s = .next t ∧ t.emq.census = observed s ∧ rgB t Sig.RING_STAT 3 = true ∧ bitOf t.link.events 82 = true) ∧
    (∀ s : State, inRun s = true → duplicated s = true → s.emq.noLead = false → 4 ≤ s.emq.censusAge →
      ∃ t, exec .noLead s = .next t ∧ t.emq.noLead = true ∧ rgB t Sig.RING_STAT 4 = true ∧ bitOf t.link.events 83 = true ∧
        (∀ n, (axSt s n = .opn ∨ axSt s n = .torque ∨ axSt s n = .speed ∨ axSt s n = .position) → axSt t n = .hold) ∧
        ∀ n, ¬(axSt s n = .opn ∨ axSt s n = .torque ∨ axSt s n = .speed ∨ axSt s n = .position) → axSt t n = axSt s n) ∧
    (∀ s : State, inRun s = true → s.emq.mode = 1 → s.emq.isMaster = false →
      ∃ t, exec .searchTimeout s = .next t ∧ t.emq.isMaster = true ∧ t.emq.master = some (ringId s) ∧ t.emq.pos = 0 ∧
        t.emq.epochOwn = false ∧ t.clk.tb = s.clk.tb + 8000 + 4000 * s.emq.wait ∧ t.clk.epoch = s.clk.epoch ∧ t.regs = s.regs) ∧
    (∀ (s : State) (p id : Nat), inRun s = true → s.emq.mode = 2 ∨ s.emq.mode = 3 → lowestId (lockedMembers s) = some (p, id) →
      (∃ m, s.emq.master = some m ∧ id < m ∧ 4 ≤ s.emq.usurped) ∨ (s.emq.mode = 3 ∧ 4 ≤ s.emq.sinceStamp) →
      ∃ t, exec .mastershipChange s = .next t ∧ t.emq.master = some id ∧ (t.emq.isMaster = true ↔ p = s.emq.pos) ∧
        rgB t Sig.RING_STAT 8 = true ∧ ∀ k, k ≠ Sig.RING_STAT → rg t k = rg s k) ∧
    (∀ (s : State) (b : Int) (c : Nat), inRun s = true → s.emq.mode ≠ 0 → s.emq.epochOwn = true → s.emq.bound = some (b, c) →
      (∀ n : Axis, (s.pwm[n]).running = false ∧ (s.pwm[n]).startPend = false) →
      ∃ t, exec .epochAdopt s = .next t ∧ t.clk = { s.clk with epoch := (b + 12) / 25 - 4000 * (c : Int) } ∧ t.emq.epochOwn = false ∧
        rgB t Sig.RING_STAT 9 = true) ∧
    (∀ s : State, inRun s = true → s.emq.mode = 2 ∨ s.emq.mode = 3 → s.emq.head = false →
      ∃ t, exec .breakDetected s = .next t ∧ t.emq.mode = 3 ∧ t.emq.head = true ∧ t.emq.breakPos = s.emq.pos ∧ t.emq.rinOk = false ∧
        rgB t Sig.RING_STAT 0 = true ∧ rg t Sig.RING_BREAK_COUNT = rg s Sig.RING_BREAK_COUNT + 1 ∧ bitOf t.link.events 81 = true ∧
        Counts s t (devSrc 44)) ∧
    ∀ s : State, inRun s = true → s.emq.mode = 3 → s.emq.head = true → s.emq.heal = 0 →
      exec .heal s = .next { s with emq := { s.emq with heal := 3, rinOk := true } }

/-- SEGMENT_SEND places the next segment of the frame that goes next into the empty slot; SEGMENT_RESEND begins the whole frame again and
counts it; TRANSPORT_SEGMENT marks SEEN in a segment that passes, takes a frame that names this device, counts a bad CRC, and, of the
device's own last segment seen by every census position and refused by none, ends the frame and counts it (R561 to R564, R570). The model's
choices in it: log entries 2 and 38. -/
def Obligations.SegmentsCarryForwardedFrames : Prop :=
  (∀ (s : State) (f : FwdFrame), inRun s = true → s.emq.mode = 2 ∨ s.emq.mode = 3 → s.emq.slot = [] →
      nextFrame s.emq.queues = some f → f.away = false →
      ∃ t, exec .segmentSend s = .next t ∧ t.emq.slot.length = 80 ∧ crc32 (t.emq.slot.take 76) = wordAt t.emq.slot 76 ∧
        fieldAt t.emq.slot 3 1 = f.id % 256 ∧ (∀ q ∈ t.emq.queues, q.id = f.id → q.away = true ∧ q.sending = true) ∧
        (∀ q ∈ s.emq.queues, q.id ≠ f.id → q ∈ t.emq.queues) ∧ t.regs = s.regs) ∧
    (∀ (s : State) (f : FwdFrame), inRun s = true → s.emq.queues.find? (fun f => f.sending) = some f →
      (f.away = true ∧ 4 ≤ s.emq.awayFor) ∨ f.nak = true →
      ∃ t, exec .segmentResend s = .next t ∧ t.emq.slot = [] ∧ rg t Sig.RING_RESEND_COUNT = rg s Sig.RING_RESEND_COUNT + 1 ∧
        (∀ q ∈ t.emq.queues, q.id = f.id → q.seg = 0 ∧ q.away = false ∧ q.nak = false) ∧
        (∀ q ∈ s.emq.queues, q.id ≠ f.id → q ∈ t.emq.queues) ∧ ∀ k, k ≠ Sig.RING_RESEND_COUNT → rg t k = rg s k) ∧
    (∀ (s : State) (bytes : List Byte), inRun s = true → s.emq.mode = 2 ∨ s.emq.mode = 3 → bytes.all (fun b => b == 0) = false →
      bytes.length ≠ 80 ∨ crc32 (bytes.take 76) ≠ wordAt bytes 76 →
      ∃ t, exec (.transportSegment bytes) s = .next t ∧ t.emq.slot = bytes ∧ t.emq.inbox = s.emq.inbox ∧ t.emq.queues = s.emq.queues ∧
        rg t Sig.RING_CRC_COUNT = rg s Sig.RING_CRC_COUNT + 1) ∧
    (∀ (s : State) (bytes : List Byte), inRun s = true → s.emq.mode = 2 ∨ s.emq.mode = 3 → s.emq.pos < 16 →
      bytes.all (fun b => b == 0) = false → bytes.length = 80 → crc32 (bytes.take 76) = wordAt bytes 76 →
      fieldAt bytes 0 1 / 16 ≠ s.emq.pos → fieldAt bytes 2 1 ≠ ringId s → fieldAt bytes 2 1 ≠ 0x1F →
      ∃ t, exec (.transportSegment bytes) s = .next t ∧ t.emq.inbox = s.emq.inbox ∧
        fieldAt t.emq.slot 4 2 = fieldAt bytes 4 2 ||| 2 ^ s.emq.pos ∧ (t.emq.slot.drop 8).take 68 = (bytes.drop 8).take 68 ∧
        { t with emq := { t.emq with slot := s.emq.slot } } = s) ∧
    (∀ (s : State) (bytes : List Byte), inRun s = true → s.emq.mode = 2 ∨ s.emq.mode = 3 → s.emq.pos < 16 →
      bytes.all (fun b => b == 0) = false → bytes.length = 80 → crc32 (bytes.take 76) = wordAt bytes 76 →
      fieldAt bytes 0 1 / 16 ≠ s.emq.pos → fieldAt bytes 2 1 = ringId s ∨ fieldAt bytes 2 1 = 0x1F → fieldAt bytes 0 1 % 16 = 0 →
      fieldAt bytes 1 1 / 16 = 0 → cellGet s.emq.seen (fieldAt bytes 0 1 / 16) ≠ some (fieldAt bytes 3 1) →
      ∃ t src, exec (.transportSegment bytes) s = .next t ∧
        t.emq.inbox = s.emq.inbox ++
          [(src, ((bytes.drop 8).take 68).take (frameLen (parseHdr ((bytes.drop 8).take 68)).length))] ∧
        fieldAt t.emq.slot 4 2 = fieldAt bytes 4 2 ||| 2 ^ s.emq.pos ∧ t.regs = s.regs) ∧
    ∀ (s : State) (bytes : List Byte) (f : FwdFrame), inRun s = true → s.emq.mode = 2 ∨ s.emq.mode = 3 →
      bytes.all (fun b => b == 0) = false → bytes.length = 80 → crc32 (bytes.take 76) = wordAt bytes 76 →
      fieldAt bytes 0 1 / 16 = s.emq.pos → s.emq.queues.find? (fun f => f.sending) = some f →
      positionMask s &&& fieldAt bytes 4 2 = positionMask s → lastSeg f.bytes ≤ f.seg → fieldAt bytes 6 2 &&& dstMask s f.dst = 0 →
      ∃ t, exec (.transportSegment bytes) s = .next t ∧ t.emq.slot = [] ∧ (∀ q ∈ t.emq.queues, q.id ≠ f.id) ∧
        (∀ q ∈ s.emq.queues, q.id ≠ f.id → q ∈ t.emq.queues) ∧ rg t Sig.RING_FWD_COUNT = rg s Sig.RING_FWD_COUNT + 1 ∧
        ∀ k, k ≠ Sig.RING_FWD_COUNT → rg t k = rg s k

/-! ### The record's own events (chapter 20) -/

/-- SLICE_COMMIT places the first staged slice behind the slices present, with the next number, and removes none; one that does not read
back stays staged, counted by ND_CRC (log entry 9). BLOCK_RECLAIM copies the pinned slices of the oldest block to the head and leaves every
slice; its next occurrence, with no pinned slice left there, erases the block and leaves every other slice and every pinned one;
SUMMARY_PERIOD and COUPLE_WAIT_EXPIRY stage their slice (R534, R576, R577, R583, R584, R588, R589). The model's choices in it: log entries
2, 9 and 13. -/
def Obligations.RecordSlicesAreCommittedAndReclaimed : Prop :=
  (∀ (s : State) (x : Staged) (rest : List Staged), s.pwr.st = .run ∨ s.pwr.st = .standby → s.rcd.staged = x :: rest →
      ∃ t y, exec (.sliceCommit true) s = .next t ∧ t.rcd.slices = s.rcd.slices ++ [y] ∧ y.kind = x.kind ∧ y.payload = x.payload ∧
        y.autoPin = x.autoPin ∧ y.mark = y.marker ∧ y.seq = s.rcd.maxSeq + 1 ∧ t.rcd.maxSeq = s.rcd.maxSeq + 1 ∧
        rg t Sig.FC_SLICE_COUNT = rg s Sig.FC_SLICE_COUNT + 1 ∧ t.ax = s.ax) ∧
    (∀ (s : State) (x : Staged) (rest : List Staged), s.pwr.st = .run ∨ s.pwr.st = .standby → s.rcd.staged = x :: rest →
      ∃ t, exec (.sliceCommit false) s = .next t ∧ t.rcd.slices = s.rcd.slices ∧ t.rcd.staged.head? = some x ∧
        t.rcd.maxSeq = s.rcd.maxSeq ∧ Counts s t (devSrc 47)) ∧
    (∀ s : State, erasedAhead s < 2 → s.rcd.oldestBlock ≠ s.rcd.headBlock → s.pwr.st ≠ .off → (pinnedOldest s).isEmpty = false →
      ∃ t, exec .blockReclaim s = .next t ∧ t.rcd.oldestBlock = s.rcd.oldestBlock ∧ t.nd = s.nd ∧
        (∀ x ∈ s.rcd.slices, x ∈ t.rcd.slices) ∧
        (∀ x ∈ pinnedOldest s, ∃ y ∈ t.rcd.slices, y.relocated = true ∧ y.seq = x.seq ∧ y.kind = x.kind ∧ y.payload = x.payload ∧
          y.time = x.time) ∧
        t.rcd.staged = s.rcd.staged ∧ ∀ k, k ≠ Sig.FC_STAT → rg t k = rg s k) ∧
    (∀ s : State, erasedAhead s < 2 → s.rcd.oldestBlock ≠ s.rcd.headBlock → s.pwr.st ≠ .off → (pinnedOldest s).isEmpty = true →
      ∃ t, exec .blockReclaim s = .next t ∧ t.rcd.oldestBlock = (s.rcd.oldestBlock + 1) % recBlocks ∧
        t.nd.reclaimCount = s.nd.reclaimCount + 1 ∧ (∀ x ∈ s.rcd.slices, x.block ≠ s.rcd.oldestBlock → x ∈ t.rcd.slices) ∧
        (∀ x ∈ t.rcd.slices, x.block ≠ s.rcd.oldestBlock) ∧ (∀ x ∈ pinnedSlices s, x ∈ t.rcd.slices) ∧
        t.rcd.staged = s.rcd.staged ∧ ∀ k, rg t k = rg s k) ∧
    (∀ s : State, rgN s Sig.FC_SUM_PER ≠ 0 → s.pwr.st = .run ∨ s.pwr.st = .standby →
      ∃ t, exec .summaryPeriod s = .next t ∧ t.rcd.sumSince = t.clk.us ∧ t.rcd.slices = s.rcd.slices ∧
        t.rcd.staged.getLast? =
          some ⟨kindSummary, summaryPayload (toUs s (s.rcd.sumSince + rgN s Sig.FC_SUM_PER * 1000000)) 0, false, none,
            instantNow t⟩) ∧
    ∀ (s : State) (c : Nat × List Byte), s.rcd.coupling = some c → s.hc.probe = none →
      ∃ t z, exec .coupleWaitExpiry s = .next t ∧ t.rcd.coupling = none ∧ t.rcd.slices = s.rcd.slices ∧ t.rcd.staged.getLast? = some z ∧
        z.kind = kindCoupling ∧ z.payload.take 5 = leBytes 4 s.nd.coupleCount ++ leBytes 1 2

/-! ### The Finyr debug port (chapter 22) -/

/-- A request that is carried out is answered, and opens a session where none stands. HALT and STEP halt their target where it may halt and
are DENIED where it may not; RESUME lets it run; BP_SET arms its slot and BREAKPOINT_HIT halts the target; READ of a record page answers its
bytes; READ of a core that stands still answers its memory, and WRITE changes it, but for the ROM, and is logged for its target, both
answered FAULT where a word is not mapped (log entry 22); STATUS answers DBG_STAT among its words; LINE_RESET shows in DBG_STAT (R498, R623,
R626, R629, R633, R636 to R639). The model's choices in it: log entries 2, 21 and 22. -/
def Obligations.DebugRequestsActOnTheirTargets : Prop :=
  (∀ s : State, linkPowered s = true → ∃ t, exec .lineReset s = .next t ∧ rgB t Sig.DBG_STAT 0 = true ∧ OnlySignal Sig.DBG_STAT s t) ∧
    (∀ (s : State) (q : DbgReq) (step : Bool), DbgAccepted s q (if step then 5 else 3) 0 → targetMayHalt s q.port = true →
      ∃ t, exec (if step then .dbgStep q else .dbgHalt q) s = .next t ∧ targetHalted t q.port = true ∧
        bitOf t.dbg.cause (if step then 2 else 0) = true ∧ t.dbg.answer = dbgBytes q (dbgOk []) ∧ t.dbg.session = true ∧
        ((∀ n, (axSt s n).runsTasks = false) → t.ax = s.ax)) ∧
    (∀ (s : State) (q : DbgReq) (step : Bool), DbgAccepted s q (if step then 5 else 3) 0 → targetMayHalt s q.port = false →
      ∃ t, exec (if step then .dbgStep q else .dbgHalt q) s = .next t ∧ targetHalted t q.port = targetHalted s q.port ∧
        rgB t Sig.DBG_STAT 4 = true ∧ t.dbg.answer = dbgBytes q (dbgDenied 3) ∧ t.ax = s.ax) ∧
    (∀ (s : State) (q : DbgReq), DbgAccepted s q 4 0 →
      ∃ t, exec (.dbgResume q) s = .next t ∧ targetHalted t q.port = false ∧ t.dbg.answer = dbgBytes q (dbgOk []) ∧ t.ax = s.ax) ∧
    (∀ (s : State) (q : DbgReq) (ws : List Word), DbgAccepted s q 6 ws.length → bpWordsOk q.port q.addr ws = true →
      (ws.headD 0).getLsbD 0 = true → targetMayHalt s q.port = true →
      ∃ t, exec (.dbgBpSet q ws) s = .next t ∧ (⟨q.port, q.addr, ws, none⟩ : Bp) ∈ t.dbg.slots ∧ t.dbg.answer = dbgBytes q (dbgOk []) ∧
        ∀ b ∈ s.dbg.slots, ¬(b.port = q.port ∧ b.slot = q.addr) → b ∈ t.dbg.slots) ∧
    (∀ (s : State) (port slot : Nat) (b : Bp), s.dbg.slots.find? (fun b => b.port == port && b.slot == slot) = some b → port ≠ 5 →
      targetMayHalt s port = true →
      ∃ t, exec (.breakpointHit port slot) s = .next t ∧ targetHalted t port = true ∧ bitOf t.dbg.cause 1 = true ∧
        ((∀ n, (axSt s n).runsTasks = false) →
          t.ax = s.ax ∧ SignalsBut [Sig.SMP_STAT, Sig.SMP_OVR_COUNT 0, Sig.SMP_OVR_COUNT 1] s t)) ∧
    (∀ (s : State) (slot : Nat) (b : Bp), s.dbg.slots.find? (fun b => b.port == 5 && b.slot == slot) = some b → s.dbg.haltMp = false →
      conditionHolds s b = true → conditionTargets b = [0] →
      ∃ t, exec (.breakpointHit 5 slot) s = .next t ∧ t.dbg.haltMp = true ∧ bitOf t.dbg.cause 3 = true ∧ t.regs = s.regs) ∧
    (∀ (s : State) (q : DbgReq) (x : Slice), DbgAccepted s q 1 0 → q.port = 4 → readSlice s q.addr false = some x →
      kindOpen s x.kind = true → 256 * q.page < x.total →
      ∃ t, exec (.dbgRead q) s = .next t ∧ t.dbg.answer = dbgBytes q (dbgOk ((x.bytes.drop (256 * q.page)).take (4 * q.len))) ∧
        t.rcd = s.rcd) ∧
    (∀ (s : State) (q : DbgReq), DbgAccepted s q 1 0 → q.port < 3 → dbgUnmapped q = false → targetHalted s q.port = true →
      ∃ t, exec (.dbgRead q) s = .next t ∧
        t.dbg.answer = dbgBytes q (dbgOk ((dbgAddrs q).flatMap (fun a => wordBytes (dbgCell s q.port a)))) ∧ t.ax = s.ax ∧ t.rcd = s.rcd ∧
        t.bisc = s.bisc) ∧
    (∀ (s : State) (q : DbgReq), DbgAccepted s q 1 0 → q.port ≠ 4 → dbgUnmapped q = false →
      ∃ t data, exec (.dbgRead q) s = .next t ∧ data.length = 4 * q.len ∧ t.dbg.answer = dbgBytes q (dbgOk data) ∧ t.ax = s.ax ∧
        t.rcd = s.rcd ∧ t.bisc = s.bisc) ∧
    (∀ (s : State) (q : DbgReq), DbgAccepted s q 1 0 → q.port ≠ 4 → dbgUnmapped q = true →
      ∃ t, exec (.dbgRead q) s = .next t ∧ t.dbg.answer = dbgBytes q dbgFault ∧ t.ax = s.ax ∧ t.rcd = s.rcd ∧ t.bisc = s.bisc) ∧
    (∀ (s : State) (q : DbgReq) (ws : List Word), DbgAccepted s q 2 ws.length → dbgUnmapped q = false → q.port < 3 →
      s.bisc.logs.length = 3 →
      ∃ t, exec (.dbgWrite q ws) s = .next t ∧ t.dbg.answer = dbgBytes q (dbgOk []) ∧
        (∀ i, i < q.len → dbgCell t q.port (q.addr + 4 * i) =
          (if dbgRom q.port (q.addr + 4 * i) then dbgCell s q.port (q.addr + 4 * i) else ws.getD i 0)) ∧
        t.bisc.logs.getD (logOf q.port) 0 = min 65 (s.bisc.logs.getD (logOf q.port) 0 + q.len) ∧ t.ax = s.ax ∧ t.rcd = s.rcd) ∧
    (∀ (s : State) (q : DbgReq) (ws : List Word), DbgAccepted s q 2 ws.length → dbgUnmapped q = true →
      ∃ t, exec (.dbgWrite q ws) s = .next t ∧ t.dbg.answer = dbgBytes q dbgFault ∧ t.ax = s.ax ∧ t.rcd = s.rcd ∧ t.bisc = s.bisc) ∧
    ∀ (s : State) (q : DbgReq), DbgAccepted s q 7 0 →
      ∃ t data, exec (.dbgStatus q) s = .next t ∧ data.length = 16 ∧ (data.drop 4).take 4 = wordBytes (rg t Sig.DBG_STAT) ∧
        t.dbg.answer = dbgBytes q (dbgOk data) ∧ t.dbg.session = true ∧
        (s.dbg.session = false → rgB t Sig.DBG_STAT 1 = true ∧ t.nd.sessions = s.nd.sessions + 1 ∧ bitOf t.link.events 93 = true)

/-- AUTH_CHALLENGE draws a nonce unless a lockout stands; AUTH_RESPONSE consumes it and authenticates the session, or counts the failure and
locks out for 1 s, which AUTH_LOCKOUT_END ends; RESET_REQ restarts the CD with cause bit 7; CLOSE and SESSION_TIMEOUT end the session,
disarm its breakpoints and resume what it halted; RETIRE blows the last group, answers WAIT and, to the repeated request, OK; in a life
cycle that has no RETIRE it is DENIED (R93, R615, R616, R630 to R632). The model's choices in it: log entries 2, 17, 21 and 37. -/
def Obligations.DebugSessionsAreOpenedAndEnded : Prop :=
  (∀ (s : State) (q : DbgReq), DbgAccepted s q 8 0 → authLocked s = false →
      ∃ t, exec (.authChallenge q) s = .next t ∧ t.dbg.nonce = some (fitTo 16 (Config.nonce s.dbg.draws), s.clk.us) ∧
        t.dbg.draws = s.dbg.draws + 1 ∧ t.dbg.answer = dbgBytes q (dbgOk (fitTo 16 (Config.nonce s.dbg.draws))) ∧
        t.dbg.auth = s.dbg.auth) ∧
    (∀ (s : State) (q : DbgReq), DbgAccepted s q 8 0 → authLocked s = true →
      ∃ t, exec (.authChallenge q) s = .next t ∧ t.dbg.nonce = s.dbg.nonce ∧ t.dbg.draws = s.dbg.draws ∧
        t.dbg.answer = dbgBytes q (dbgDenied 4)) ∧
    (∀ (s : State) (q : DbgReq) (mac : List Word) (us : Nat), DbgAccepted s q 9 mac.length → 40 ≤ us → macHolds s mac = true →
      ∃ t, exec (.authResponse q mac us) s = .next t ∧ t.dbg.auth = true ∧ t.dbg.nonce = none ∧ t.dbg.fails = 0 ∧
        t.dbg.answer = dbgBytes q (dbgOk [])) ∧
    (∀ (s : State) (q : DbgReq) (mac : List Word) (us : Nat), DbgAccepted s q 9 mac.length → 40 ≤ us → macHolds s mac = false →
      ∃ t, exec (.authResponse q mac us) s = .next t ∧ t.dbg.auth = s.dbg.auth ∧ t.dbg.nonce = none ∧ t.dbg.fails = s.dbg.fails + 1 ∧
        t.dbg.lockUntil = some (s.clk.us + 1000000) ∧ (7 ≤ s.dbg.fails → t.dbg.lockForever = true) ∧
        rg t Sig.DBG_AUTH_FAIL = rg s Sig.DBG_AUTH_FAIL + 1 ∧ rgB t Sig.DBG_STAT 3 = true ∧
        t.dbg.answer = dbgBytes q (dbgDenied 1)) ∧
    (∀ (s : State) (x : Nat), s.dbg.lockUntil = some x →
      ∃ t, exec .authLockoutEnd s = .next t ∧ t.dbg = { s.dbg with lockUntil := none } ∧ s.clk.us ≤ t.clk.us ∧ t.regs = s.regs) ∧
    (∀ (s : State) (q : DbgReq) (env : BootEnv), DbgAccepted s q 10 0 → s.pwr.vioLow = false → s.pwr.vcoreLow = false →
      ∃ t, exec (.resetReq q env) s = .next t ∧ t.pwr.booted = true ∧ t.pwr.ready = true ∧ rgB t Sig.RESET_CAUSE 7 = true ∧
        t.dbg.session = false ∧ t.dbg.answer = dbgBytes q (dbgOk [])) ∧
    (∀ (s : State) (q : DbgReq), DbgAccepted s q 11 0 →
      ∃ t, exec (.closeSession q) s = .next t ∧ t.dbg.session = false ∧ t.dbg.auth = false ∧ t.dbg.haltMp = false ∧ t.dbg.slots = [] ∧
        (∀ e : Fin 2, (t.eng[e]).halted = false) ∧ t.dbg.answer = dbgBytes q (dbgOk []) ∧ t.ax = s.ax) ∧
    (∀ s : State, s.dbg.session = true →
      ∃ t, exec .sessionTimeout s = .next t ∧ t.dbg.session = false ∧ t.dbg.auth = false ∧ t.dbg.haltMp = false ∧ t.dbg.slots = [] ∧
        (∀ e : Fin 2, (t.eng[e]).halted = false) ∧ rgB t Sig.DBG_STAT 2 = true ∧ t.ax = s.ax) ∧
    (∀ (s : State) (q : DbgReq) (env : FuseEnv), DbgAccepted s q 12 0 → lifeCycle s = .develop ∨ lifeCycle s = .field →
      s.dbg.retiring = none → fuseRunnable env = true → env.sense = [] → env.cut = none → s.fuse.marginCommit = [] →
      ∃ t, exec (.retire q env) s = .next t ∧ groupBlown t 3 = true ∧ t.dbg.retiring = some (q.seq, true) ∧ t.fuse.lc = s.fuse.lc ∧
        t.dbg.answer = dbgBytes q ⟨1, 0, []⟩) ∧
    (∀ (s : State) (q : DbgReq) (env : FuseEnv), DbgAccepted s q 12 0 → s.dbg.retiring = some (q.seq, true) →
      ∃ t, exec (.retire q env) s = .next t ∧ t.dbg.retiring = none ∧ t.fuse = s.fuse ∧ t.dbg.answer = dbgBytes q (dbgOk [])) ∧
    ∀ (s : State) (q : DbgReq) (env : FuseEnv), DbgAccepted s q 12 0 → lifeCycle s ≠ .develop → lifeCycle s ≠ .field →
      s.dbg.retiring = none →
      ∃ t, exec (.retire q env) s = .next t ∧ t.fuse = s.fuse ∧ t.dbg.answer = dbgBytes q (dbgDenied 2)
end

