-- ==== Sys2Proof/Laws/Cells.lean ====
section
/-! SUPPORT. Sparse cells, byte memories and register files: a read after a write gives what was written, a write leaves every other key
alone, and every operation keeps the canonical form. -/

namespace Sys2Proof.Machine

/-! ### Cells -/

theorem cellGet_put_same {β : Type} (xs : List (Nat × β)) (k : Nat) (v : β) : cellGet (cellPut xs k v) k = some v := by
  induction xs with
  | nil => simp [cellPut, cellGet]
  | cons x xs ih =>
    unfold cellPut
    split
    · simp [cellGet]
    · split
      · simp [cellGet]
      · simp only [cellGet]
        rw [if_neg (by omega), ih]

theorem cellGet_put_ne {β : Type} (xs : List (Nat × β)) {j k : Nat} (v : β) (h : j ≠ k) :
    cellGet (cellPut xs k v) j = cellGet xs j := by
  induction xs with
  | nil => simp [cellPut, cellGet, Ne.symm h]
  | cons x xs ih =>
    unfold cellPut
    split
    · simp [cellGet, Ne.symm h]
    · split
      · rename_i h2
        simp [cellGet, Ne.symm h, ← h2]
      · simp only [cellGet]
        split
        · rfl
        · exact ih

theorem cellGet_del_same {β : Type} (xs : List (Nat × β)) (k : Nat) : cellGet (cellDel xs k) k = none := by
  induction xs with
  | nil => rfl
  | cons x xs ih =>
    unfold cellDel
    split
    · exact ih
    · rename_i h
      simp only [cellGet]
      rw [if_neg h, ih]

theorem cellGet_del_ne {β : Type} (xs : List (Nat × β)) {j k : Nat} (h : j ≠ k) : cellGet (cellDel xs k) j = cellGet xs j := by
  induction xs with
  | nil => rfl
  | cons x xs ih =>
    unfold cellDel
    split
    · rename_i h2
      simp only [cellGet]
      rw [if_neg (by omega)]
      exact ih
    · simp only [cellGet]
      split
      · rfl
      · exact ih

theorem cellsAbove_weaken {β : Type} {a b : Nat} (xs : List (Nat × β)) (h : a ≤ b) (hx : cellsAbove b xs = true) :
    cellsAbove a xs = true := by
  cases xs with
  | nil => rfl
  | cons x xs =>
    simp only [cellsAbove, Bool.and_eq_true, decide_eq_true_eq] at hx ⊢
    exact ⟨by omega, hx.2⟩

theorem cellsAbove_put {β : Type} {lo k : Nat} (xs : List (Nat × β)) (v : β) (hk : lo < k) (hx : cellsAbove lo xs = true) :
    cellsAbove lo (cellPut xs k v) = true := by
  induction xs generalizing lo with
  | nil => simp [cellPut, cellsAbove, hk]
  | cons x xs ih =>
    simp only [cellsAbove, Bool.and_eq_true, decide_eq_true_eq] at hx
    unfold cellPut
    split
    · simp only [cellsAbove, Bool.and_eq_true, decide_eq_true_eq]
      exact ⟨hk, by assumption, hx.2⟩
    · split
      · rename_i h2
        simp only [cellsAbove, Bool.and_eq_true, decide_eq_true_eq]
        exact ⟨hk, h2 ▸ hx.2⟩
      · simp only [cellsAbove, Bool.and_eq_true, decide_eq_true_eq]
        exact ⟨hx.1, ih (by omega) hx.2⟩

theorem cellsAbove_del {β : Type} {lo : Nat} (xs : List (Nat × β)) (k : Nat) (hx : cellsAbove lo xs = true) :
    cellsAbove lo (cellDel xs k) = true := by
  induction xs generalizing lo with
  | nil => rfl
  | cons x xs ih =>
    simp only [cellsAbove, Bool.and_eq_true, decide_eq_true_eq] at hx
    unfold cellDel
    split
    · exact ih (cellsAbove_weaken _ (by omega) hx.2)
    · simp only [cellsAbove, Bool.and_eq_true, decide_eq_true_eq]
      exact ⟨hx.1, ih hx.2⟩

theorem cellsRise_iff {β : Type} (x : Nat × β) (xs : List (Nat × β)) : cellsRise (x :: xs) = cellsAbove x.1 xs := rfl

theorem cellsRise_of_above {β : Type} {lo : Nat} (xs : List (Nat × β)) (h : cellsAbove lo xs = true) : cellsRise xs = true := by
  cases xs with
  | nil => rfl
  | cons x xs =>
    simp only [cellsAbove, Bool.and_eq_true] at h
    exact h.2

theorem cellsRise_put {β : Type} (xs : List (Nat × β)) (k : Nat) (v : β) (h : cellsRise xs = true) :
    cellsRise (cellPut xs k v) = true := by
  cases xs with
  | nil => rfl
  | cons x xs =>
    rw [cellsRise_iff] at h
    unfold cellPut
    split
    · simp only [cellsRise, cellsAbove, Bool.and_eq_true, decide_eq_true_eq]
      exact ⟨by assumption, h⟩
    · split
      · rename_i h2
        simp only [cellsRise]
        exact h2 ▸ h
      · simp only [cellsRise]
        exact cellsAbove_put _ _ (by omega) h

theorem cellsRise_del {β : Type} (xs : List (Nat × β)) (k : Nat) (h : cellsRise xs = true) : cellsRise (cellDel xs k) = true := by
  cases xs with
  | nil => rfl
  | cons x xs =>
    rw [cellsRise_iff] at h
    unfold cellDel
    split
    · exact cellsRise_of_above _ (cellsAbove_del _ _ h)
    · simp only [cellsRise]
      exact cellsAbove_del _ _ h

theorem all_cellPut {β : Type} (p : Nat × β → Bool) (xs : List (Nat × β)) (k : Nat) (v : β) (h : xs.all p = true) (hv : p (k, v) = true) :
    (cellPut xs k v).all p = true := by
  induction xs with
  | nil => simp [cellPut, hv]
  | cons x xs ih =>
    simp only [List.all_cons, Bool.and_eq_true] at h
    unfold cellPut
    split
    · simp [hv, h.1, h.2]
    · split
      · simp [hv, h.2]
      · simp [h.1, ih h.2]

theorem all_cellDel {β : Type} (p : Nat × β → Bool) (xs : List (Nat × β)) (k : Nat) (h : xs.all p = true) :
    (cellDel xs k).all p = true := by
  induction xs with
  | nil => rfl
  | cons x xs ih =>
    simp only [List.all_cons, Bool.and_eq_true] at h
    unfold cellDel
    split
    · exact ih h.2
    · simp [h.1, ih h.2]

/-! ### Byte memories -/

theorem memRead_write_same (m : Memory) (a : Nat) (b : Byte) : memRead (memWrite m a b) a = b := by
  unfold memRead memWrite
  split
  · rename_i h
    rw [cellGet_del_same, h]
    rfl
  · rw [cellGet_put_same]
    rfl

theorem memRead_write_ne (m : Memory) {a c : Nat} (b : Byte) (h : c ≠ a) : memRead (memWrite m a b) c = memRead m c := by
  unfold memRead memWrite
  split
  · rw [cellGet_del_ne _ h]
  · rw [cellGet_put_ne _ _ h]

/-- A byte write keeps the canonical form. -/
theorem memWrite_wf (m : Memory) (a : Nat) (b : Byte) (h : m.wf = true) : (memWrite m a b).wf = true := by
  simp only [Memory.wf, Bool.and_eq_true] at h
  unfold memWrite
  split
  · simp only [Memory.wf, Bool.and_eq_true]
    exact ⟨cellsRise_del _ _ h.1, all_cellDel _ _ _ h.2⟩
  · rename_i hb
    simp only [Memory.wf, Bool.and_eq_true]
    exact ⟨cellsRise_put _ _ _ h.1, all_cellPut _ _ _ _ h.2 (by simp [hb])⟩

/-- A store of bytes keeps the canonical form. -/
theorem memStore_wf (m : Memory) (a : Nat) (bs : List Byte) (h : m.wf = true) : (memStore m a bs).wf = true := by
  induction bs generalizing m a with
  | nil => exact h
  | cons b bs ih => exact ih _ _ (memWrite_wf _ _ _ h)

/-- A store of bytes in a ring keeps the canonical form. -/
theorem memStoreRing_wf (m : Memory) (base size off : Nat) (bs : List Byte) (h : m.wf = true) :
    (memStoreRing m base size off bs).wf = true := by
  induction bs generalizing m off with
  | nil => exact h
  | cons b bs ih => exact ih _ _ (memWrite_wf _ _ _ h)

/-- A store of bytes leaves every address below it alone. -/
theorem memRead_store_below (m : Memory) {a c : Nat} (bs : List Byte) (h : c < a) : memRead (memStore m a bs) c = memRead m c := by
  induction bs generalizing m a with
  | nil => rfl
  | cons b bs ih =>
    simp only [memStore]
    rw [ih _ (by omega), memRead_write_ne _ _ (by omega)]

/-- A store of bytes leaves every address above it alone. -/
theorem memRead_store_above (m : Memory) {a c : Nat} (bs : List Byte) (h : a + bs.length ≤ c) :
    memRead (memStore m a bs) c = memRead m c := by
  induction bs generalizing m a with
  | nil => rfl
  | cons b bs ih =>
    simp only [List.length_cons] at h
    simp only [memStore]
    rw [ih _ (by omega), memRead_write_ne _ _ (by omega)]

/-- The bytes of a store read back as stored. -/
theorem memBytes_store (m : Memory) (a : Nat) (bs : List Byte) : memBytes (memStore m a bs) a bs.length = bs := by
  induction bs generalizing m a with
  | nil => rfl
  | cons b bs ih =>
    simp only [memStore, List.length_cons, memBytes]
    rw [memRead_store_below _ _ (by omega), memRead_write_same, ih]

/-! ### Register files -/

theorem regRead_write_same (f : RegFile) (k : Nat) (v : Word) : regRead (regWrite f k v) k = v := by
  unfold regRead regWrite
  split
  · rename_i h
    rw [cellGet_del_same, h]
    rfl
  · rw [cellGet_put_same]
    rfl

theorem regRead_write_ne (f : RegFile) {j k : Nat} (v : Word) (h : j ≠ k) : regRead (regWrite f k v) j = regRead f j := by
  unfold regRead regWrite
  split
  · rw [cellGet_del_ne _ h]
  · rw [cellGet_put_ne _ _ h]

/-- A register write keeps the canonical form. -/
theorem regWrite_wf (f : RegFile) (k : Nat) (v : Word) (h : f.wf = true) : (regWrite f k v).wf = true := by
  simp only [RegFile.wf, Bool.and_eq_true] at h
  unfold regWrite
  split
  · simp only [RegFile.wf, Bool.and_eq_true]
    exact ⟨cellsRise_del _ _ h.1, all_cellDel _ _ _ h.2⟩
  · rename_i hv
    simp only [RegFile.wf, Bool.and_eq_true]
    exact ⟨cellsRise_put _ _ _ h.1, all_cellPut _ _ _ _ h.2 (by simp [hv])⟩

/-! ### Signals -/

@[simp] theorem rg_setR_same (s : State) (k : Nat) (v : Word) : rg (setR s k v) k = v := regRead_write_same _ _ _

theorem rg_setR_ne (s : State) {j k : Nat} (v : Word) (h : j ≠ k) : rg (setR s k v) j = rg s j := regRead_write_ne _ _ h

@[simp] theorem rg_setN_same (s : State) (k v : Nat) : rg (setN s k v) k = BitVec.ofNat 32 v := rg_setR_same _ _ _

theorem rg_setN_ne (s : State) {j k : Nat} (v : Nat) (h : j ≠ k) : rg (setN s k v) j = rg s j := rg_setR_ne _ _ h

/-- A count that fits a slot reads back as written. -/
theorem rgN_setN (s : State) (k v : Nat) (h : v < 2 ^ 32) : rgN (setN s k v) k = v := by
  unfold rgN
  rw [rg_setN_same, BitVec.toNat_ofNat]
  omega

theorem rg_setB_ne (s : State) {j k : Nat} (i : Nat) (b : Bool) (h : j ≠ k) : rg (setB s k i b) j = rg s j := rg_setR_ne _ _ h

theorem rg_orR_ne (s : State) {j k : Nat} (m : Nat) (h : j ≠ k) : rg (orR s k m) j = rg s j := rg_setR_ne _ _ h

theorem rg_clearR_ne (s : State) {j k : Nat} (m : Nat) (h : j ≠ k) : rg (clearR s k m) j = rg s j := rg_setR_ne _ _ h

theorem rg_setF_ne (s : State) {j k : Nat} (lo w v : Nat) (h : j ≠ k) : rg (setF s k lo w v) j = rg s j := rg_setR_ne _ _ h

theorem rg_incR_same (s : State) (k : Nat) : rg (incR s k) k = rg s k + 1 := rg_setR_same _ _ _

theorem rg_incR_ne (s : State) {j k : Nat} (h : j ≠ k) : rg (incR s k) j = rg s j := rg_setR_ne _ _ h

/-- A bit of a written signal: the bit named reads as written, the others as before. -/
theorem rgB_setB (s : State) (k i j : Nat) (b : Bool) (hj : j < 32) :
    rgB (setB s k i b) k j = if j = i then b else rgB s k j := by
  have hm : (BitVec.ofNat 32 (2 ^ i)).getLsbD j = decide (j = i) := by
    rw [BitVec.getLsbD_ofNat, Nat.testBit_two_pow]
    simp [hj, eq_comm]
  unfold rgB setB
  simp only [rg_setR_same]
  cases b
  · simp only [Bool.false_eq_true, if_false, BitVec.getLsbD_and, BitVec.getLsbD_not, hm, hj, decide_true, Bool.true_and]
    by_cases h : j = i <;> simp [h]
  · simp only [if_true, BitVec.getLsbD_or, hm]
    by_cases h : j = i <;> simp [h]

theorem rgB_setB_ne (s : State) {j k : Nat} (i n : Nat) (b : Bool) (h : j ≠ k) : rgB (setB s k i b) j n = rgB s j n := by
  unfold rgB
  rw [rg_setB_ne _ _ _ h]

end Sys2Proof.Machine
end

