-- ==== Sys2Proof/Machine/PassB.lean ====
section
/-! DEFINITION. The complement forms of pass B (R475): each operation of pass A as pass B carries it out on complemented operands. The loop
variables of the model are exact numbers, so what the engine does with them stands once, in the definitions of pass A, and the complement
bank holds the complement of each result (log entry 31). -/

namespace Sys2Proof.Machine

variable {w : Nat}

/-- a + b (R475). -/
def addB (a b : BitVec w) : BitVec w := a + b + 1

/-- a − b (R475). -/
def subB (a b : BitVec w) : BitVec w := a - b - 1

/-- −a (R475). -/
def negB (a : BitVec w) : BitVec w := -a - 2

/-- a × b at full width (R475). -/
def mulB (a b : BitVec w) : BitVec (w + w) := -((a.signExtend (w + w) + 1) * (b.signExtend (w + w) + 1)) - 1

/-- a >> k, arithmetic (R475). -/
def asrB (a : BitVec w) (k : Nat) : BitVec w := a.sshiftRight k

/-- a AND b (R475). -/
def andB (a b : BitVec w) : BitVec w := a ||| b

/-- a OR b (R475). -/
def orB (a b : BitVec w) : BitVec w := a &&& b

/-- a XOR b: the second operand is brought back to true form (R475). -/
def xorB (a b : BitVec w) : BitVec w := a ^^^ ~~~b

/-- a < b (R475). -/
def ltB (a b : BitVec w) : Bool := b.slt a

/-- The lesser and the greater of two signed words. -/
def minS (a b : BitVec w) : BitVec w := if a.slt b then a else b
def maxS (a b : BitVec w) : BitVec w := if a.slt b then b else a

/-- min(a, b) (R475). -/
def minB (a b : BitVec w) : BitVec w := maxS a b

/-- max(a, b) (R475). -/
def maxB (a b : BitVec w) : BitVec w := minS a b

/-- A sum kept within bounds: of pass A. -/
def satAdd (lo hi : Int) (a b : BitVec w) : BitVec w := BitVec.ofInt w (max lo (min hi (a.toInt + b.toInt)))

/-- Saturating add: the complement form with the bounds exchanged and complemented (R475). -/
def satAddB (lo hi : Int) (a b : BitVec w) : BitVec w := BitVec.ofInt w (max (-hi - 1) (min (-lo - 1) (a.toInt + b.toInt + 1)))

/-- A table as pass B holds it: complemented entries in complemented index order (R475). -/
def tableB (t : BitVec 16 → BitVec w) : BitVec 16 → BitVec w := fun i => ~~~(t (~~~i))

end Sys2Proof.Machine
end

