-- ==== Sys2Proof/Laws/PassB.lean ====
section
/-! SUPPORT. Every complement form of pass B, on complemented operands, yields the complement of what pass A yields (R475), and the complement
of a complement is the value itself. -/

namespace Sys2Proof.Machine

variable {w : Nat}

theorem not_eq_neg_sub_one (x : BitVec w) : ~~~x = -x - 1 := by
  apply BitVec.eq_of_toInt_eq
  simp [BitVec.neg_eq_not_add]

theorem toInt_compl (a : BitVec w) (h : 0 < w) : (~~~a).toInt = -a.toInt - 1 := by
  have hp : (2 : Nat) ^ w = 2 * 2 ^ (w - 1) := by rw [← Nat.pow_succ']; congr 1; omega
  have ha := a.isLt
  rw [BitVec.toInt_eq_toNat_cond, BitVec.toInt_eq_toNat_cond, BitVec.toNat_not]
  split <;> split <;> omega

theorem addB_compl (a b : BitVec w) : addB (~~~a) (~~~b) = ~~~(a + b) := by
  simp only [addB, not_eq_neg_sub_one]
  ring

theorem subB_compl (a b : BitVec w) : subB (~~~a) (~~~b) = ~~~(a - b) := by
  simp only [subB, not_eq_neg_sub_one]
  ring

theorem negB_compl (a : BitVec w) : negB (~~~a) = ~~~(-a) := by
  simp only [negB, not_eq_neg_sub_one]
  ring

theorem mulB_compl (a b : BitVec w) (h : 0 < w) :
    mulB (~~~a) (~~~b) = ~~~(a.signExtend (w + w) * b.signExtend (w + w)) := by
  unfold mulB
  rw [BitVec.signExtend_not h, BitVec.signExtend_not h]
  simp only [not_eq_neg_sub_one]
  ring

theorem asrB_compl (a : BitVec w) (k : Nat) : asrB (~~~a) k = ~~~(a.sshiftRight k) := BitVec.not_sshiftRight.symm

theorem andB_compl (a b : BitVec w) : andB (~~~a) (~~~b) = ~~~(a &&& b) := BitVec.not_and.symm

theorem orB_compl (a b : BitVec w) : orB (~~~a) (~~~b) = ~~~(a ||| b) := BitVec.not_or.symm

theorem xorB_compl (a b : BitVec w) : xorB (~~~a) (~~~b) = ~~~(a ^^^ b) := by
  rw [xorB, BitVec.not_not, BitVec.not_xor_left]

theorem ltB_compl (a b : BitVec w) (h : 0 < w) : ltB (~~~a) (~~~b) = a.slt b := by
  simp only [ltB, BitVec.slt, toInt_compl _ h, decide_eq_decide]
  omega

theorem minB_compl (a b : BitVec w) (h : 0 < w) : minB (~~~a) (~~~b) = ~~~(minS a b) := by
  simp only [minB, maxS, minS, BitVec.slt, toInt_compl _ h, decide_eq_true_eq]
  split <;> split <;> first | rfl | omega | skip
  congr 1
  exact BitVec.eq_of_toInt_eq (by omega)

theorem maxB_compl (a b : BitVec w) (h : 0 < w) : maxB (~~~a) (~~~b) = ~~~(maxS a b) := by
  simp only [maxB, maxS, minS, BitVec.slt, toInt_compl _ h, decide_eq_true_eq]
  split <;> split <;> first | rfl | omega | skip
  congr 1
  exact BitVec.eq_of_toInt_eq (by omega)

theorem satAddB_compl (lo hi : Int) (a b : BitVec w) (h : 0 < w) (hb : lo ≤ hi) :
    satAddB lo hi (~~~a) (~~~b) = ~~~(satAdd lo hi a b) := by
  have e : max (-hi - 1) (min (-lo - 1) (-a.toInt - 1 + (-b.toInt - 1) + 1)) = -max lo (min hi (a.toInt + b.toInt)) - 1 := by omega
  unfold satAddB satAdd
  rw [toInt_compl _ h, toInt_compl _ h, e, not_eq_neg_sub_one, sub_eq_add_neg, BitVec.ofInt_add, BitVec.ofInt_neg, BitVec.ofInt_neg,
    ← sub_eq_add_neg]
  rfl

theorem tableB_compl (t : BitVec 16 → BitVec w) (i : BitVec 16) : tableB t (~~~i) = ~~~(t i) := by
  simp only [tableB, BitVec.not_not]

/-! ### Banks -/

theorem complRat_compl (x : Rat) : complRat (complRat x) = x := by
  unfold complRat
  ring

theorem Bank.compl_compl (b : Bank) : b.compl.compl = b := by
  have h : complRat ∘ complRat = id := funext complRat_compl
  simp [Bank.compl, complRat_compl, Option.map_map, h]

end Sys2Proof.Machine
end

