-- ==== Sys2Proof/Laws/State.lean ====
section
/-! SUPPORT. What each named update leaves alone: one lemma for each field and update, true by unfolding, so that no later proof unfolds a
record update. -/

namespace Sys2Proof.Machine

/-! ### setR -/

@[simp] theorem setR_pending (s : State) (k : Nat) (v : Word) : (setR s k v).pending = s.pending := rfl
@[simp] theorem setR_clk (s : State) (k : Nat) (v : Word) : (setR s k v).clk = s.clk := rfl
@[simp] theorem setR_pwr (s : State) (k : Nat) (v : Word) : (setR s k v).pwr = s.pwr := rfl
@[simp] theorem setR_ds (s : State) (k : Nat) (v : Word) : (setR s k v).ds = s.ds := rfl
@[simp] theorem setR_sup (s : State) (k : Nat) (v : Word) : (setR s k v).sup = s.sup := rfl
@[simp] theorem setR_flt (s : State) (k : Nat) (v : Word) : (setR s k v).flt = s.flt := rfl
@[simp] theorem setR_link (s : State) (k : Nat) (v : Word) : (setR s k v).link = s.link := rfl
@[simp] theorem setR_rt (s : State) (k : Nat) (v : Word) : (setR s k v).rt = s.rt := rfl
@[simp] theorem setR_ax (s : State) (k : Nat) (v : Word) : (setR s k v).ax = s.ax := rfl
@[simp] theorem setR_pwm (s : State) (k : Nat) (v : Word) : (setR s k v).pwm = s.pwm := rfl
@[simp] theorem setR_gd (s : State) (k : Nat) (v : Word) : (setR s k v).gd = s.gd := rfl
@[simp] theorem setR_loop (s : State) (k : Nat) (v : Word) : (setR s k v).loop = s.loop := rfl
@[simp] theorem setR_ofs (s : State) (k : Nat) (v : Word) : (setR s k v).ofs = s.ofs := rfl
@[simp] theorem setR_adc (s : State) (k : Nat) (v : Word) : (setR s k v).adc = s.adc := rfl
@[simp] theorem setR_hk (s : State) (k : Nat) (v : Word) : (setR s k v).hk = s.hk := rfl
@[simp] theorem setR_eng (s : State) (k : Nat) (v : Word) : (setR s k v).eng = s.eng := rfl
@[simp] theorem setR_car (s : State) (k : Nat) (v : Word) : (setR s k v).car = s.car := rfl
@[simp] theorem setR_rsv (s : State) (k : Nat) (v : Word) : (setR s k v).rsv = s.rsv := rfl
@[simp] theorem setR_exc (s : State) (k : Nat) (v : Word) : (setR s k v).exc = s.exc := rfl
@[simp] theorem setR_obs (s : State) (k : Nat) (v : Word) : (setR s k v).obs = s.obs := rfl
@[simp] theorem setR_fb (s : State) (k : Nat) (v : Word) : (setR s k v).fb = s.fb := rfl
@[simp] theorem setR_ao (s : State) (k : Nat) (v : Word) : (setR s k v).ao = s.ao := rfl
@[simp] theorem setR_aoClear (s : State) (k : Nat) (v : Word) : (setR s k v).aoClear = s.aoClear := rfl
@[simp] theorem setR_hcAx (s : State) (k : Nat) (v : Word) : (setR s k v).hcAx = s.hcAx := rfl
@[simp] theorem setR_hcRail (s : State) (k : Nat) (v : Word) : (setR s k v).hcRail = s.hcRail := rfl
@[simp] theorem setR_hc (s : State) (k : Nat) (v : Word) : (setR s k v).hc = s.hc := rfl
@[simp] theorem setR_bisc (s : State) (k : Nat) (v : Word) : (setR s k v).bisc = s.bisc := rfl
@[simp] theorem setR_emq (s : State) (k : Nat) (v : Word) : (setR s k v).emq = s.emq := rfl
@[simp] theorem setR_rcd (s : State) (k : Nat) (v : Word) : (setR s k v).rcd = s.rcd := rfl
@[simp] theorem setR_nd (s : State) (k : Nat) (v : Word) : (setR s k v).nd = s.nd := rfl
@[simp] theorem setR_upd (s : State) (k : Nat) (v : Word) : (setR s k v).upd = s.upd := rfl
@[simp] theorem setR_fuse (s : State) (k : Nat) (v : Word) : (setR s k v).fuse = s.fuse := rfl
@[simp] theorem setR_dbg (s : State) (k : Nat) (v : Word) : (setR s k v).dbg = s.dbg := rfl
@[simp] theorem setR_free (s : State) (k : Nat) (v : Word) : (setR s k v).free = s.free := rfl

/-! ### setN -/

@[simp] theorem setN_pending (s : State) (k v : Nat) : (setN s k v).pending = s.pending := rfl
@[simp] theorem setN_clk (s : State) (k v : Nat) : (setN s k v).clk = s.clk := rfl
@[simp] theorem setN_pwr (s : State) (k v : Nat) : (setN s k v).pwr = s.pwr := rfl
@[simp] theorem setN_ds (s : State) (k v : Nat) : (setN s k v).ds = s.ds := rfl
@[simp] theorem setN_sup (s : State) (k v : Nat) : (setN s k v).sup = s.sup := rfl
@[simp] theorem setN_flt (s : State) (k v : Nat) : (setN s k v).flt = s.flt := rfl
@[simp] theorem setN_link (s : State) (k v : Nat) : (setN s k v).link = s.link := rfl
@[simp] theorem setN_rt (s : State) (k v : Nat) : (setN s k v).rt = s.rt := rfl
@[simp] theorem setN_ax (s : State) (k v : Nat) : (setN s k v).ax = s.ax := rfl
@[simp] theorem setN_pwm (s : State) (k v : Nat) : (setN s k v).pwm = s.pwm := rfl
@[simp] theorem setN_gd (s : State) (k v : Nat) : (setN s k v).gd = s.gd := rfl
@[simp] theorem setN_loop (s : State) (k v : Nat) : (setN s k v).loop = s.loop := rfl
@[simp] theorem setN_ofs (s : State) (k v : Nat) : (setN s k v).ofs = s.ofs := rfl
@[simp] theorem setN_adc (s : State) (k v : Nat) : (setN s k v).adc = s.adc := rfl
@[simp] theorem setN_hk (s : State) (k v : Nat) : (setN s k v).hk = s.hk := rfl
@[simp] theorem setN_eng (s : State) (k v : Nat) : (setN s k v).eng = s.eng := rfl
@[simp] theorem setN_car (s : State) (k v : Nat) : (setN s k v).car = s.car := rfl
@[simp] theorem setN_rsv (s : State) (k v : Nat) : (setN s k v).rsv = s.rsv := rfl
@[simp] theorem setN_exc (s : State) (k v : Nat) : (setN s k v).exc = s.exc := rfl
@[simp] theorem setN_obs (s : State) (k v : Nat) : (setN s k v).obs = s.obs := rfl
@[simp] theorem setN_fb (s : State) (k v : Nat) : (setN s k v).fb = s.fb := rfl
@[simp] theorem setN_ao (s : State) (k v : Nat) : (setN s k v).ao = s.ao := rfl
@[simp] theorem setN_aoClear (s : State) (k v : Nat) : (setN s k v).aoClear = s.aoClear := rfl
@[simp] theorem setN_hcAx (s : State) (k v : Nat) : (setN s k v).hcAx = s.hcAx := rfl
@[simp] theorem setN_hcRail (s : State) (k v : Nat) : (setN s k v).hcRail = s.hcRail := rfl
@[simp] theorem setN_hc (s : State) (k v : Nat) : (setN s k v).hc = s.hc := rfl
@[simp] theorem setN_bisc (s : State) (k v : Nat) : (setN s k v).bisc = s.bisc := rfl
@[simp] theorem setN_emq (s : State) (k v : Nat) : (setN s k v).emq = s.emq := rfl
@[simp] theorem setN_rcd (s : State) (k v : Nat) : (setN s k v).rcd = s.rcd := rfl
@[simp] theorem setN_nd (s : State) (k v : Nat) : (setN s k v).nd = s.nd := rfl
@[simp] theorem setN_upd (s : State) (k v : Nat) : (setN s k v).upd = s.upd := rfl
@[simp] theorem setN_fuse (s : State) (k v : Nat) : (setN s k v).fuse = s.fuse := rfl
@[simp] theorem setN_dbg (s : State) (k v : Nat) : (setN s k v).dbg = s.dbg := rfl
@[simp] theorem setN_free (s : State) (k v : Nat) : (setN s k v).free = s.free := rfl

/-! ### setI -/

@[simp] theorem setI_pending (s : State) (k : Nat) (v : Int) : (setI s k v).pending = s.pending := rfl
@[simp] theorem setI_clk (s : State) (k : Nat) (v : Int) : (setI s k v).clk = s.clk := rfl
@[simp] theorem setI_pwr (s : State) (k : Nat) (v : Int) : (setI s k v).pwr = s.pwr := rfl
@[simp] theorem setI_ds (s : State) (k : Nat) (v : Int) : (setI s k v).ds = s.ds := rfl
@[simp] theorem setI_sup (s : State) (k : Nat) (v : Int) : (setI s k v).sup = s.sup := rfl
@[simp] theorem setI_flt (s : State) (k : Nat) (v : Int) : (setI s k v).flt = s.flt := rfl
@[simp] theorem setI_link (s : State) (k : Nat) (v : Int) : (setI s k v).link = s.link := rfl
@[simp] theorem setI_rt (s : State) (k : Nat) (v : Int) : (setI s k v).rt = s.rt := rfl
@[simp] theorem setI_ax (s : State) (k : Nat) (v : Int) : (setI s k v).ax = s.ax := rfl
@[simp] theorem setI_pwm (s : State) (k : Nat) (v : Int) : (setI s k v).pwm = s.pwm := rfl
@[simp] theorem setI_gd (s : State) (k : Nat) (v : Int) : (setI s k v).gd = s.gd := rfl
@[simp] theorem setI_loop (s : State) (k : Nat) (v : Int) : (setI s k v).loop = s.loop := rfl
@[simp] theorem setI_ofs (s : State) (k : Nat) (v : Int) : (setI s k v).ofs = s.ofs := rfl
@[simp] theorem setI_adc (s : State) (k : Nat) (v : Int) : (setI s k v).adc = s.adc := rfl
@[simp] theorem setI_hk (s : State) (k : Nat) (v : Int) : (setI s k v).hk = s.hk := rfl
@[simp] theorem setI_eng (s : State) (k : Nat) (v : Int) : (setI s k v).eng = s.eng := rfl
@[simp] theorem setI_car (s : State) (k : Nat) (v : Int) : (setI s k v).car = s.car := rfl
@[simp] theorem setI_rsv (s : State) (k : Nat) (v : Int) : (setI s k v).rsv = s.rsv := rfl
@[simp] theorem setI_exc (s : State) (k : Nat) (v : Int) : (setI s k v).exc = s.exc := rfl
@[simp] theorem setI_obs (s : State) (k : Nat) (v : Int) : (setI s k v).obs = s.obs := rfl
@[simp] theorem setI_fb (s : State) (k : Nat) (v : Int) : (setI s k v).fb = s.fb := rfl
@[simp] theorem setI_ao (s : State) (k : Nat) (v : Int) : (setI s k v).ao = s.ao := rfl
@[simp] theorem setI_aoClear (s : State) (k : Nat) (v : Int) : (setI s k v).aoClear = s.aoClear := rfl
@[simp] theorem setI_hcAx (s : State) (k : Nat) (v : Int) : (setI s k v).hcAx = s.hcAx := rfl
@[simp] theorem setI_hcRail (s : State) (k : Nat) (v : Int) : (setI s k v).hcRail = s.hcRail := rfl
@[simp] theorem setI_hc (s : State) (k : Nat) (v : Int) : (setI s k v).hc = s.hc := rfl
@[simp] theorem setI_bisc (s : State) (k : Nat) (v : Int) : (setI s k v).bisc = s.bisc := rfl
@[simp] theorem setI_emq (s : State) (k : Nat) (v : Int) : (setI s k v).emq = s.emq := rfl
@[simp] theorem setI_rcd (s : State) (k : Nat) (v : Int) : (setI s k v).rcd = s.rcd := rfl
@[simp] theorem setI_nd (s : State) (k : Nat) (v : Int) : (setI s k v).nd = s.nd := rfl
@[simp] theorem setI_upd (s : State) (k : Nat) (v : Int) : (setI s k v).upd = s.upd := rfl
@[simp] theorem setI_fuse (s : State) (k : Nat) (v : Int) : (setI s k v).fuse = s.fuse := rfl
@[simp] theorem setI_dbg (s : State) (k : Nat) (v : Int) : (setI s k v).dbg = s.dbg := rfl
@[simp] theorem setI_free (s : State) (k : Nat) (v : Int) : (setI s k v).free = s.free := rfl

/-! ### setB -/

@[simp] theorem setB_pending (s : State) (k i : Nat) (b : Bool) : (setB s k i b).pending = s.pending := rfl
@[simp] theorem setB_clk (s : State) (k i : Nat) (b : Bool) : (setB s k i b).clk = s.clk := rfl
@[simp] theorem setB_pwr (s : State) (k i : Nat) (b : Bool) : (setB s k i b).pwr = s.pwr := rfl
@[simp] theorem setB_ds (s : State) (k i : Nat) (b : Bool) : (setB s k i b).ds = s.ds := rfl
@[simp] theorem setB_sup (s : State) (k i : Nat) (b : Bool) : (setB s k i b).sup = s.sup := rfl
@[simp] theorem setB_flt (s : State) (k i : Nat) (b : Bool) : (setB s k i b).flt = s.flt := rfl
@[simp] theorem setB_link (s : State) (k i : Nat) (b : Bool) : (setB s k i b).link = s.link := rfl
@[simp] theorem setB_rt (s : State) (k i : Nat) (b : Bool) : (setB s k i b).rt = s.rt := rfl
@[simp] theorem setB_ax (s : State) (k i : Nat) (b : Bool) : (setB s k i b).ax = s.ax := rfl
@[simp] theorem setB_pwm (s : State) (k i : Nat) (b : Bool) : (setB s k i b).pwm = s.pwm := rfl
@[simp] theorem setB_gd (s : State) (k i : Nat) (b : Bool) : (setB s k i b).gd = s.gd := rfl
@[simp] theorem setB_loop (s : State) (k i : Nat) (b : Bool) : (setB s k i b).loop = s.loop := rfl
@[simp] theorem setB_ofs (s : State) (k i : Nat) (b : Bool) : (setB s k i b).ofs = s.ofs := rfl
@[simp] theorem setB_adc (s : State) (k i : Nat) (b : Bool) : (setB s k i b).adc = s.adc := rfl
@[simp] theorem setB_hk (s : State) (k i : Nat) (b : Bool) : (setB s k i b).hk = s.hk := rfl
@[simp] theorem setB_eng (s : State) (k i : Nat) (b : Bool) : (setB s k i b).eng = s.eng := rfl
@[simp] theorem setB_car (s : State) (k i : Nat) (b : Bool) : (setB s k i b).car = s.car := rfl
@[simp] theorem setB_rsv (s : State) (k i : Nat) (b : Bool) : (setB s k i b).rsv = s.rsv := rfl
@[simp] theorem setB_exc (s : State) (k i : Nat) (b : Bool) : (setB s k i b).exc = s.exc := rfl
@[simp] theorem setB_obs (s : State) (k i : Nat) (b : Bool) : (setB s k i b).obs = s.obs := rfl
@[simp] theorem setB_fb (s : State) (k i : Nat) (b : Bool) : (setB s k i b).fb = s.fb := rfl
@[simp] theorem setB_ao (s : State) (k i : Nat) (b : Bool) : (setB s k i b).ao = s.ao := rfl
@[simp] theorem setB_aoClear (s : State) (k i : Nat) (b : Bool) : (setB s k i b).aoClear = s.aoClear := rfl
@[simp] theorem setB_hcAx (s : State) (k i : Nat) (b : Bool) : (setB s k i b).hcAx = s.hcAx := rfl
@[simp] theorem setB_hcRail (s : State) (k i : Nat) (b : Bool) : (setB s k i b).hcRail = s.hcRail := rfl
@[simp] theorem setB_hc (s : State) (k i : Nat) (b : Bool) : (setB s k i b).hc = s.hc := rfl
@[simp] theorem setB_bisc (s : State) (k i : Nat) (b : Bool) : (setB s k i b).bisc = s.bisc := rfl
@[simp] theorem setB_emq (s : State) (k i : Nat) (b : Bool) : (setB s k i b).emq = s.emq := rfl
@[simp] theorem setB_rcd (s : State) (k i : Nat) (b : Bool) : (setB s k i b).rcd = s.rcd := rfl
@[simp] theorem setB_nd (s : State) (k i : Nat) (b : Bool) : (setB s k i b).nd = s.nd := rfl
@[simp] theorem setB_upd (s : State) (k i : Nat) (b : Bool) : (setB s k i b).upd = s.upd := rfl
@[simp] theorem setB_fuse (s : State) (k i : Nat) (b : Bool) : (setB s k i b).fuse = s.fuse := rfl
@[simp] theorem setB_dbg (s : State) (k i : Nat) (b : Bool) : (setB s k i b).dbg = s.dbg := rfl
@[simp] theorem setB_free (s : State) (k i : Nat) (b : Bool) : (setB s k i b).free = s.free := rfl

/-! ### orR -/

@[simp] theorem orR_pending (s : State) (k m : Nat) : (orR s k m).pending = s.pending := rfl
@[simp] theorem orR_clk (s : State) (k m : Nat) : (orR s k m).clk = s.clk := rfl
@[simp] theorem orR_pwr (s : State) (k m : Nat) : (orR s k m).pwr = s.pwr := rfl
@[simp] theorem orR_ds (s : State) (k m : Nat) : (orR s k m).ds = s.ds := rfl
@[simp] theorem orR_sup (s : State) (k m : Nat) : (orR s k m).sup = s.sup := rfl
@[simp] theorem orR_flt (s : State) (k m : Nat) : (orR s k m).flt = s.flt := rfl
@[simp] theorem orR_link (s : State) (k m : Nat) : (orR s k m).link = s.link := rfl
@[simp] theorem orR_rt (s : State) (k m : Nat) : (orR s k m).rt = s.rt := rfl
@[simp] theorem orR_ax (s : State) (k m : Nat) : (orR s k m).ax = s.ax := rfl
@[simp] theorem orR_pwm (s : State) (k m : Nat) : (orR s k m).pwm = s.pwm := rfl
@[simp] theorem orR_gd (s : State) (k m : Nat) : (orR s k m).gd = s.gd := rfl
@[simp] theorem orR_loop (s : State) (k m : Nat) : (orR s k m).loop = s.loop := rfl
@[simp] theorem orR_ofs (s : State) (k m : Nat) : (orR s k m).ofs = s.ofs := rfl
@[simp] theorem orR_adc (s : State) (k m : Nat) : (orR s k m).adc = s.adc := rfl
@[simp] theorem orR_hk (s : State) (k m : Nat) : (orR s k m).hk = s.hk := rfl
@[simp] theorem orR_eng (s : State) (k m : Nat) : (orR s k m).eng = s.eng := rfl
@[simp] theorem orR_car (s : State) (k m : Nat) : (orR s k m).car = s.car := rfl
@[simp] theorem orR_rsv (s : State) (k m : Nat) : (orR s k m).rsv = s.rsv := rfl
@[simp] theorem orR_exc (s : State) (k m : Nat) : (orR s k m).exc = s.exc := rfl
@[simp] theorem orR_obs (s : State) (k m : Nat) : (orR s k m).obs = s.obs := rfl
@[simp] theorem orR_fb (s : State) (k m : Nat) : (orR s k m).fb = s.fb := rfl
@[simp] theorem orR_ao (s : State) (k m : Nat) : (orR s k m).ao = s.ao := rfl
@[simp] theorem orR_aoClear (s : State) (k m : Nat) : (orR s k m).aoClear = s.aoClear := rfl
@[simp] theorem orR_hcAx (s : State) (k m : Nat) : (orR s k m).hcAx = s.hcAx := rfl
@[simp] theorem orR_hcRail (s : State) (k m : Nat) : (orR s k m).hcRail = s.hcRail := rfl
@[simp] theorem orR_hc (s : State) (k m : Nat) : (orR s k m).hc = s.hc := rfl
@[simp] theorem orR_bisc (s : State) (k m : Nat) : (orR s k m).bisc = s.bisc := rfl
@[simp] theorem orR_emq (s : State) (k m : Nat) : (orR s k m).emq = s.emq := rfl
@[simp] theorem orR_rcd (s : State) (k m : Nat) : (orR s k m).rcd = s.rcd := rfl
@[simp] theorem orR_nd (s : State) (k m : Nat) : (orR s k m).nd = s.nd := rfl
@[simp] theorem orR_upd (s : State) (k m : Nat) : (orR s k m).upd = s.upd := rfl
@[simp] theorem orR_fuse (s : State) (k m : Nat) : (orR s k m).fuse = s.fuse := rfl
@[simp] theorem orR_dbg (s : State) (k m : Nat) : (orR s k m).dbg = s.dbg := rfl
@[simp] theorem orR_free (s : State) (k m : Nat) : (orR s k m).free = s.free := rfl

/-! ### clearR -/

@[simp] theorem clearR_pending (s : State) (k m : Nat) : (clearR s k m).pending = s.pending := rfl
@[simp] theorem clearR_clk (s : State) (k m : Nat) : (clearR s k m).clk = s.clk := rfl
@[simp] theorem clearR_pwr (s : State) (k m : Nat) : (clearR s k m).pwr = s.pwr := rfl
@[simp] theorem clearR_ds (s : State) (k m : Nat) : (clearR s k m).ds = s.ds := rfl
@[simp] theorem clearR_sup (s : State) (k m : Nat) : (clearR s k m).sup = s.sup := rfl
@[simp] theorem clearR_flt (s : State) (k m : Nat) : (clearR s k m).flt = s.flt := rfl
@[simp] theorem clearR_link (s : State) (k m : Nat) : (clearR s k m).link = s.link := rfl
@[simp] theorem clearR_rt (s : State) (k m : Nat) : (clearR s k m).rt = s.rt := rfl
@[simp] theorem clearR_ax (s : State) (k m : Nat) : (clearR s k m).ax = s.ax := rfl
@[simp] theorem clearR_pwm (s : State) (k m : Nat) : (clearR s k m).pwm = s.pwm := rfl
@[simp] theorem clearR_gd (s : State) (k m : Nat) : (clearR s k m).gd = s.gd := rfl
@[simp] theorem clearR_loop (s : State) (k m : Nat) : (clearR s k m).loop = s.loop := rfl
@[simp] theorem clearR_ofs (s : State) (k m : Nat) : (clearR s k m).ofs = s.ofs := rfl
@[simp] theorem clearR_adc (s : State) (k m : Nat) : (clearR s k m).adc = s.adc := rfl
@[simp] theorem clearR_hk (s : State) (k m : Nat) : (clearR s k m).hk = s.hk := rfl
@[simp] theorem clearR_eng (s : State) (k m : Nat) : (clearR s k m).eng = s.eng := rfl
@[simp] theorem clearR_car (s : State) (k m : Nat) : (clearR s k m).car = s.car := rfl
@[simp] theorem clearR_rsv (s : State) (k m : Nat) : (clearR s k m).rsv = s.rsv := rfl
@[simp] theorem clearR_exc (s : State) (k m : Nat) : (clearR s k m).exc = s.exc := rfl
@[simp] theorem clearR_obs (s : State) (k m : Nat) : (clearR s k m).obs = s.obs := rfl
@[simp] theorem clearR_fb (s : State) (k m : Nat) : (clearR s k m).fb = s.fb := rfl
@[simp] theorem clearR_ao (s : State) (k m : Nat) : (clearR s k m).ao = s.ao := rfl
@[simp] theorem clearR_aoClear (s : State) (k m : Nat) : (clearR s k m).aoClear = s.aoClear := rfl
@[simp] theorem clearR_hcAx (s : State) (k m : Nat) : (clearR s k m).hcAx = s.hcAx := rfl
@[simp] theorem clearR_hcRail (s : State) (k m : Nat) : (clearR s k m).hcRail = s.hcRail := rfl
@[simp] theorem clearR_hc (s : State) (k m : Nat) : (clearR s k m).hc = s.hc := rfl
@[simp] theorem clearR_bisc (s : State) (k m : Nat) : (clearR s k m).bisc = s.bisc := rfl
@[simp] theorem clearR_emq (s : State) (k m : Nat) : (clearR s k m).emq = s.emq := rfl
@[simp] theorem clearR_rcd (s : State) (k m : Nat) : (clearR s k m).rcd = s.rcd := rfl
@[simp] theorem clearR_nd (s : State) (k m : Nat) : (clearR s k m).nd = s.nd := rfl
@[simp] theorem clearR_upd (s : State) (k m : Nat) : (clearR s k m).upd = s.upd := rfl
@[simp] theorem clearR_fuse (s : State) (k m : Nat) : (clearR s k m).fuse = s.fuse := rfl
@[simp] theorem clearR_dbg (s : State) (k m : Nat) : (clearR s k m).dbg = s.dbg := rfl
@[simp] theorem clearR_free (s : State) (k m : Nat) : (clearR s k m).free = s.free := rfl

/-! ### setF -/

@[simp] theorem setF_pending (s : State) (k lo w v : Nat) : (setF s k lo w v).pending = s.pending := rfl
@[simp] theorem setF_clk (s : State) (k lo w v : Nat) : (setF s k lo w v).clk = s.clk := rfl
@[simp] theorem setF_pwr (s : State) (k lo w v : Nat) : (setF s k lo w v).pwr = s.pwr := rfl
@[simp] theorem setF_ds (s : State) (k lo w v : Nat) : (setF s k lo w v).ds = s.ds := rfl
@[simp] theorem setF_sup (s : State) (k lo w v : Nat) : (setF s k lo w v).sup = s.sup := rfl
@[simp] theorem setF_flt (s : State) (k lo w v : Nat) : (setF s k lo w v).flt = s.flt := rfl
@[simp] theorem setF_link (s : State) (k lo w v : Nat) : (setF s k lo w v).link = s.link := rfl
@[simp] theorem setF_rt (s : State) (k lo w v : Nat) : (setF s k lo w v).rt = s.rt := rfl
@[simp] theorem setF_ax (s : State) (k lo w v : Nat) : (setF s k lo w v).ax = s.ax := rfl
@[simp] theorem setF_pwm (s : State) (k lo w v : Nat) : (setF s k lo w v).pwm = s.pwm := rfl
@[simp] theorem setF_gd (s : State) (k lo w v : Nat) : (setF s k lo w v).gd = s.gd := rfl
@[simp] theorem setF_loop (s : State) (k lo w v : Nat) : (setF s k lo w v).loop = s.loop := rfl
@[simp] theorem setF_ofs (s : State) (k lo w v : Nat) : (setF s k lo w v).ofs = s.ofs := rfl
@[simp] theorem setF_adc (s : State) (k lo w v : Nat) : (setF s k lo w v).adc = s.adc := rfl
@[simp] theorem setF_hk (s : State) (k lo w v : Nat) : (setF s k lo w v).hk = s.hk := rfl
@[simp] theorem setF_eng (s : State) (k lo w v : Nat) : (setF s k lo w v).eng = s.eng := rfl
@[simp] theorem setF_car (s : State) (k lo w v : Nat) : (setF s k lo w v).car = s.car := rfl
@[simp] theorem setF_rsv (s : State) (k lo w v : Nat) : (setF s k lo w v).rsv = s.rsv := rfl
@[simp] theorem setF_exc (s : State) (k lo w v : Nat) : (setF s k lo w v).exc = s.exc := rfl
@[simp] theorem setF_obs (s : State) (k lo w v : Nat) : (setF s k lo w v).obs = s.obs := rfl
@[simp] theorem setF_fb (s : State) (k lo w v : Nat) : (setF s k lo w v).fb = s.fb := rfl
@[simp] theorem setF_ao (s : State) (k lo w v : Nat) : (setF s k lo w v).ao = s.ao := rfl
@[simp] theorem setF_aoClear (s : State) (k lo w v : Nat) : (setF s k lo w v).aoClear = s.aoClear := rfl
@[simp] theorem setF_hcAx (s : State) (k lo w v : Nat) : (setF s k lo w v).hcAx = s.hcAx := rfl
@[simp] theorem setF_hcRail (s : State) (k lo w v : Nat) : (setF s k lo w v).hcRail = s.hcRail := rfl
@[simp] theorem setF_hc (s : State) (k lo w v : Nat) : (setF s k lo w v).hc = s.hc := rfl
@[simp] theorem setF_bisc (s : State) (k lo w v : Nat) : (setF s k lo w v).bisc = s.bisc := rfl
@[simp] theorem setF_emq (s : State) (k lo w v : Nat) : (setF s k lo w v).emq = s.emq := rfl
@[simp] theorem setF_rcd (s : State) (k lo w v : Nat) : (setF s k lo w v).rcd = s.rcd := rfl
@[simp] theorem setF_nd (s : State) (k lo w v : Nat) : (setF s k lo w v).nd = s.nd := rfl
@[simp] theorem setF_upd (s : State) (k lo w v : Nat) : (setF s k lo w v).upd = s.upd := rfl
@[simp] theorem setF_fuse (s : State) (k lo w v : Nat) : (setF s k lo w v).fuse = s.fuse := rfl
@[simp] theorem setF_dbg (s : State) (k lo w v : Nat) : (setF s k lo w v).dbg = s.dbg := rfl
@[simp] theorem setF_free (s : State) (k lo w v : Nat) : (setF s k lo w v).free = s.free := rfl

/-! ### incR -/

@[simp] theorem incR_pending (s : State) (k : Nat) : (incR s k).pending = s.pending := rfl
@[simp] theorem incR_clk (s : State) (k : Nat) : (incR s k).clk = s.clk := rfl
@[simp] theorem incR_pwr (s : State) (k : Nat) : (incR s k).pwr = s.pwr := rfl
@[simp] theorem incR_ds (s : State) (k : Nat) : (incR s k).ds = s.ds := rfl
@[simp] theorem incR_sup (s : State) (k : Nat) : (incR s k).sup = s.sup := rfl
@[simp] theorem incR_flt (s : State) (k : Nat) : (incR s k).flt = s.flt := rfl
@[simp] theorem incR_link (s : State) (k : Nat) : (incR s k).link = s.link := rfl
@[simp] theorem incR_rt (s : State) (k : Nat) : (incR s k).rt = s.rt := rfl
@[simp] theorem incR_ax (s : State) (k : Nat) : (incR s k).ax = s.ax := rfl
@[simp] theorem incR_pwm (s : State) (k : Nat) : (incR s k).pwm = s.pwm := rfl
@[simp] theorem incR_gd (s : State) (k : Nat) : (incR s k).gd = s.gd := rfl
@[simp] theorem incR_loop (s : State) (k : Nat) : (incR s k).loop = s.loop := rfl
@[simp] theorem incR_ofs (s : State) (k : Nat) : (incR s k).ofs = s.ofs := rfl
@[simp] theorem incR_adc (s : State) (k : Nat) : (incR s k).adc = s.adc := rfl
@[simp] theorem incR_hk (s : State) (k : Nat) : (incR s k).hk = s.hk := rfl
@[simp] theorem incR_eng (s : State) (k : Nat) : (incR s k).eng = s.eng := rfl
@[simp] theorem incR_car (s : State) (k : Nat) : (incR s k).car = s.car := rfl
@[simp] theorem incR_rsv (s : State) (k : Nat) : (incR s k).rsv = s.rsv := rfl
@[simp] theorem incR_exc (s : State) (k : Nat) : (incR s k).exc = s.exc := rfl
@[simp] theorem incR_obs (s : State) (k : Nat) : (incR s k).obs = s.obs := rfl
@[simp] theorem incR_fb (s : State) (k : Nat) : (incR s k).fb = s.fb := rfl
@[simp] theorem incR_ao (s : State) (k : Nat) : (incR s k).ao = s.ao := rfl
@[simp] theorem incR_aoClear (s : State) (k : Nat) : (incR s k).aoClear = s.aoClear := rfl
@[simp] theorem incR_hcAx (s : State) (k : Nat) : (incR s k).hcAx = s.hcAx := rfl
@[simp] theorem incR_hcRail (s : State) (k : Nat) : (incR s k).hcRail = s.hcRail := rfl
@[simp] theorem incR_hc (s : State) (k : Nat) : (incR s k).hc = s.hc := rfl
@[simp] theorem incR_bisc (s : State) (k : Nat) : (incR s k).bisc = s.bisc := rfl
@[simp] theorem incR_emq (s : State) (k : Nat) : (incR s k).emq = s.emq := rfl
@[simp] theorem incR_rcd (s : State) (k : Nat) : (incR s k).rcd = s.rcd := rfl
@[simp] theorem incR_nd (s : State) (k : Nat) : (incR s k).nd = s.nd := rfl
@[simp] theorem incR_upd (s : State) (k : Nat) : (incR s k).upd = s.upd := rfl
@[simp] theorem incR_fuse (s : State) (k : Nat) : (incR s k).fuse = s.fuse := rfl
@[simp] theorem incR_dbg (s : State) (k : Nat) : (incR s k).dbg = s.dbg := rfl
@[simp] theorem incR_free (s : State) (k : Nat) : (incR s k).free = s.free := rfl

/-! ### modAx -/

@[simp] theorem modAx_pending (s : State) (n : Axis) (f : AxBase → AxBase) : (modAx s n f).pending = s.pending := rfl
@[simp] theorem modAx_regs (s : State) (n : Axis) (f : AxBase → AxBase) : (modAx s n f).regs = s.regs := rfl
@[simp] theorem modAx_clk (s : State) (n : Axis) (f : AxBase → AxBase) : (modAx s n f).clk = s.clk := rfl
@[simp] theorem modAx_pwr (s : State) (n : Axis) (f : AxBase → AxBase) : (modAx s n f).pwr = s.pwr := rfl
@[simp] theorem modAx_ds (s : State) (n : Axis) (f : AxBase → AxBase) : (modAx s n f).ds = s.ds := rfl
@[simp] theorem modAx_sup (s : State) (n : Axis) (f : AxBase → AxBase) : (modAx s n f).sup = s.sup := rfl
@[simp] theorem modAx_flt (s : State) (n : Axis) (f : AxBase → AxBase) : (modAx s n f).flt = s.flt := rfl
@[simp] theorem modAx_link (s : State) (n : Axis) (f : AxBase → AxBase) : (modAx s n f).link = s.link := rfl
@[simp] theorem modAx_rt (s : State) (n : Axis) (f : AxBase → AxBase) : (modAx s n f).rt = s.rt := rfl
@[simp] theorem modAx_pwm (s : State) (n : Axis) (f : AxBase → AxBase) : (modAx s n f).pwm = s.pwm := rfl
@[simp] theorem modAx_gd (s : State) (n : Axis) (f : AxBase → AxBase) : (modAx s n f).gd = s.gd := rfl
@[simp] theorem modAx_loop (s : State) (n : Axis) (f : AxBase → AxBase) : (modAx s n f).loop = s.loop := rfl
@[simp] theorem modAx_ofs (s : State) (n : Axis) (f : AxBase → AxBase) : (modAx s n f).ofs = s.ofs := rfl
@[simp] theorem modAx_adc (s : State) (n : Axis) (f : AxBase → AxBase) : (modAx s n f).adc = s.adc := rfl
@[simp] theorem modAx_hk (s : State) (n : Axis) (f : AxBase → AxBase) : (modAx s n f).hk = s.hk := rfl
@[simp] theorem modAx_eng (s : State) (n : Axis) (f : AxBase → AxBase) : (modAx s n f).eng = s.eng := rfl
@[simp] theorem modAx_car (s : State) (n : Axis) (f : AxBase → AxBase) : (modAx s n f).car = s.car := rfl
@[simp] theorem modAx_rsv (s : State) (n : Axis) (f : AxBase → AxBase) : (modAx s n f).rsv = s.rsv := rfl
@[simp] theorem modAx_exc (s : State) (n : Axis) (f : AxBase → AxBase) : (modAx s n f).exc = s.exc := rfl
@[simp] theorem modAx_obs (s : State) (n : Axis) (f : AxBase → AxBase) : (modAx s n f).obs = s.obs := rfl
@[simp] theorem modAx_fb (s : State) (n : Axis) (f : AxBase → AxBase) : (modAx s n f).fb = s.fb := rfl
@[simp] theorem modAx_ao (s : State) (n : Axis) (f : AxBase → AxBase) : (modAx s n f).ao = s.ao := rfl
@[simp] theorem modAx_aoClear (s : State) (n : Axis) (f : AxBase → AxBase) : (modAx s n f).aoClear = s.aoClear := rfl
@[simp] theorem modAx_hcAx (s : State) (n : Axis) (f : AxBase → AxBase) : (modAx s n f).hcAx = s.hcAx := rfl
@[simp] theorem modAx_hcRail (s : State) (n : Axis) (f : AxBase → AxBase) : (modAx s n f).hcRail = s.hcRail := rfl
@[simp] theorem modAx_hc (s : State) (n : Axis) (f : AxBase → AxBase) : (modAx s n f).hc = s.hc := rfl
@[simp] theorem modAx_bisc (s : State) (n : Axis) (f : AxBase → AxBase) : (modAx s n f).bisc = s.bisc := rfl
@[simp] theorem modAx_emq (s : State) (n : Axis) (f : AxBase → AxBase) : (modAx s n f).emq = s.emq := rfl
@[simp] theorem modAx_rcd (s : State) (n : Axis) (f : AxBase → AxBase) : (modAx s n f).rcd = s.rcd := rfl
@[simp] theorem modAx_nd (s : State) (n : Axis) (f : AxBase → AxBase) : (modAx s n f).nd = s.nd := rfl
@[simp] theorem modAx_upd (s : State) (n : Axis) (f : AxBase → AxBase) : (modAx s n f).upd = s.upd := rfl
@[simp] theorem modAx_fuse (s : State) (n : Axis) (f : AxBase → AxBase) : (modAx s n f).fuse = s.fuse := rfl
@[simp] theorem modAx_dbg (s : State) (n : Axis) (f : AxBase → AxBase) : (modAx s n f).dbg = s.dbg := rfl
@[simp] theorem modAx_free (s : State) (n : Axis) (f : AxBase → AxBase) : (modAx s n f).free = s.free := rfl
@[simp] theorem modAx_rg (s : State) (n : Axis) (f : AxBase → AxBase) (k : Nat) : rg (modAx s n f) k = rg s k := rfl

/-! ### modPwm -/

@[simp] theorem modPwm_pending (s : State) (n : Axis) (f : PwmAx → PwmAx) : (modPwm s n f).pending = s.pending := rfl
@[simp] theorem modPwm_regs (s : State) (n : Axis) (f : PwmAx → PwmAx) : (modPwm s n f).regs = s.regs := rfl
@[simp] theorem modPwm_clk (s : State) (n : Axis) (f : PwmAx → PwmAx) : (modPwm s n f).clk = s.clk := rfl
@[simp] theorem modPwm_pwr (s : State) (n : Axis) (f : PwmAx → PwmAx) : (modPwm s n f).pwr = s.pwr := rfl
@[simp] theorem modPwm_ds (s : State) (n : Axis) (f : PwmAx → PwmAx) : (modPwm s n f).ds = s.ds := rfl
@[simp] theorem modPwm_sup (s : State) (n : Axis) (f : PwmAx → PwmAx) : (modPwm s n f).sup = s.sup := rfl
@[simp] theorem modPwm_flt (s : State) (n : Axis) (f : PwmAx → PwmAx) : (modPwm s n f).flt = s.flt := rfl
@[simp] theorem modPwm_link (s : State) (n : Axis) (f : PwmAx → PwmAx) : (modPwm s n f).link = s.link := rfl
@[simp] theorem modPwm_rt (s : State) (n : Axis) (f : PwmAx → PwmAx) : (modPwm s n f).rt = s.rt := rfl
@[simp] theorem modPwm_ax (s : State) (n : Axis) (f : PwmAx → PwmAx) : (modPwm s n f).ax = s.ax := rfl
@[simp] theorem modPwm_gd (s : State) (n : Axis) (f : PwmAx → PwmAx) : (modPwm s n f).gd = s.gd := rfl
@[simp] theorem modPwm_loop (s : State) (n : Axis) (f : PwmAx → PwmAx) : (modPwm s n f).loop = s.loop := rfl
@[simp] theorem modPwm_ofs (s : State) (n : Axis) (f : PwmAx → PwmAx) : (modPwm s n f).ofs = s.ofs := rfl
@[simp] theorem modPwm_adc (s : State) (n : Axis) (f : PwmAx → PwmAx) : (modPwm s n f).adc = s.adc := rfl
@[simp] theorem modPwm_hk (s : State) (n : Axis) (f : PwmAx → PwmAx) : (modPwm s n f).hk = s.hk := rfl
@[simp] theorem modPwm_eng (s : State) (n : Axis) (f : PwmAx → PwmAx) : (modPwm s n f).eng = s.eng := rfl
@[simp] theorem modPwm_car (s : State) (n : Axis) (f : PwmAx → PwmAx) : (modPwm s n f).car = s.car := rfl
@[simp] theorem modPwm_rsv (s : State) (n : Axis) (f : PwmAx → PwmAx) : (modPwm s n f).rsv = s.rsv := rfl
@[simp] theorem modPwm_exc (s : State) (n : Axis) (f : PwmAx → PwmAx) : (modPwm s n f).exc = s.exc := rfl
@[simp] theorem modPwm_obs (s : State) (n : Axis) (f : PwmAx → PwmAx) : (modPwm s n f).obs = s.obs := rfl
@[simp] theorem modPwm_fb (s : State) (n : Axis) (f : PwmAx → PwmAx) : (modPwm s n f).fb = s.fb := rfl
@[simp] theorem modPwm_ao (s : State) (n : Axis) (f : PwmAx → PwmAx) : (modPwm s n f).ao = s.ao := rfl
@[simp] theorem modPwm_aoClear (s : State) (n : Axis) (f : PwmAx → PwmAx) : (modPwm s n f).aoClear = s.aoClear := rfl
@[simp] theorem modPwm_hcAx (s : State) (n : Axis) (f : PwmAx → PwmAx) : (modPwm s n f).hcAx = s.hcAx := rfl
@[simp] theorem modPwm_hcRail (s : State) (n : Axis) (f : PwmAx → PwmAx) : (modPwm s n f).hcRail = s.hcRail := rfl
@[simp] theorem modPwm_hc (s : State) (n : Axis) (f : PwmAx → PwmAx) : (modPwm s n f).hc = s.hc := rfl
@[simp] theorem modPwm_bisc (s : State) (n : Axis) (f : PwmAx → PwmAx) : (modPwm s n f).bisc = s.bisc := rfl
@[simp] theorem modPwm_emq (s : State) (n : Axis) (f : PwmAx → PwmAx) : (modPwm s n f).emq = s.emq := rfl
@[simp] theorem modPwm_rcd (s : State) (n : Axis) (f : PwmAx → PwmAx) : (modPwm s n f).rcd = s.rcd := rfl
@[simp] theorem modPwm_nd (s : State) (n : Axis) (f : PwmAx → PwmAx) : (modPwm s n f).nd = s.nd := rfl
@[simp] theorem modPwm_upd (s : State) (n : Axis) (f : PwmAx → PwmAx) : (modPwm s n f).upd = s.upd := rfl
@[simp] theorem modPwm_fuse (s : State) (n : Axis) (f : PwmAx → PwmAx) : (modPwm s n f).fuse = s.fuse := rfl
@[simp] theorem modPwm_dbg (s : State) (n : Axis) (f : PwmAx → PwmAx) : (modPwm s n f).dbg = s.dbg := rfl
@[simp] theorem modPwm_free (s : State) (n : Axis) (f : PwmAx → PwmAx) : (modPwm s n f).free = s.free := rfl
@[simp] theorem modPwm_rg (s : State) (n : Axis) (f : PwmAx → PwmAx) (k : Nat) : rg (modPwm s n f) k = rg s k := rfl

/-! ### modGd -/

@[simp] theorem modGd_pending (s : State) (n : Axis) (f : GdAx → GdAx) : (modGd s n f).pending = s.pending := rfl
@[simp] theorem modGd_regs (s : State) (n : Axis) (f : GdAx → GdAx) : (modGd s n f).regs = s.regs := rfl
@[simp] theorem modGd_clk (s : State) (n : Axis) (f : GdAx → GdAx) : (modGd s n f).clk = s.clk := rfl
@[simp] theorem modGd_pwr (s : State) (n : Axis) (f : GdAx → GdAx) : (modGd s n f).pwr = s.pwr := rfl
@[simp] theorem modGd_ds (s : State) (n : Axis) (f : GdAx → GdAx) : (modGd s n f).ds = s.ds := rfl
@[simp] theorem modGd_sup (s : State) (n : Axis) (f : GdAx → GdAx) : (modGd s n f).sup = s.sup := rfl
@[simp] theorem modGd_flt (s : State) (n : Axis) (f : GdAx → GdAx) : (modGd s n f).flt = s.flt := rfl
@[simp] theorem modGd_link (s : State) (n : Axis) (f : GdAx → GdAx) : (modGd s n f).link = s.link := rfl
@[simp] theorem modGd_rt (s : State) (n : Axis) (f : GdAx → GdAx) : (modGd s n f).rt = s.rt := rfl
@[simp] theorem modGd_ax (s : State) (n : Axis) (f : GdAx → GdAx) : (modGd s n f).ax = s.ax := rfl
@[simp] theorem modGd_pwm (s : State) (n : Axis) (f : GdAx → GdAx) : (modGd s n f).pwm = s.pwm := rfl
@[simp] theorem modGd_loop (s : State) (n : Axis) (f : GdAx → GdAx) : (modGd s n f).loop = s.loop := rfl
@[simp] theorem modGd_ofs (s : State) (n : Axis) (f : GdAx → GdAx) : (modGd s n f).ofs = s.ofs := rfl
@[simp] theorem modGd_adc (s : State) (n : Axis) (f : GdAx → GdAx) : (modGd s n f).adc = s.adc := rfl
@[simp] theorem modGd_hk (s : State) (n : Axis) (f : GdAx → GdAx) : (modGd s n f).hk = s.hk := rfl
@[simp] theorem modGd_eng (s : State) (n : Axis) (f : GdAx → GdAx) : (modGd s n f).eng = s.eng := rfl
@[simp] theorem modGd_car (s : State) (n : Axis) (f : GdAx → GdAx) : (modGd s n f).car = s.car := rfl
@[simp] theorem modGd_rsv (s : State) (n : Axis) (f : GdAx → GdAx) : (modGd s n f).rsv = s.rsv := rfl
@[simp] theorem modGd_exc (s : State) (n : Axis) (f : GdAx → GdAx) : (modGd s n f).exc = s.exc := rfl
@[simp] theorem modGd_obs (s : State) (n : Axis) (f : GdAx → GdAx) : (modGd s n f).obs = s.obs := rfl
@[simp] theorem modGd_fb (s : State) (n : Axis) (f : GdAx → GdAx) : (modGd s n f).fb = s.fb := rfl
@[simp] theorem modGd_ao (s : State) (n : Axis) (f : GdAx → GdAx) : (modGd s n f).ao = s.ao := rfl
@[simp] theorem modGd_aoClear (s : State) (n : Axis) (f : GdAx → GdAx) : (modGd s n f).aoClear = s.aoClear := rfl
@[simp] theorem modGd_hcAx (s : State) (n : Axis) (f : GdAx → GdAx) : (modGd s n f).hcAx = s.hcAx := rfl
@[simp] theorem modGd_hcRail (s : State) (n : Axis) (f : GdAx → GdAx) : (modGd s n f).hcRail = s.hcRail := rfl
@[simp] theorem modGd_hc (s : State) (n : Axis) (f : GdAx → GdAx) : (modGd s n f).hc = s.hc := rfl
@[simp] theorem modGd_bisc (s : State) (n : Axis) (f : GdAx → GdAx) : (modGd s n f).bisc = s.bisc := rfl
@[simp] theorem modGd_emq (s : State) (n : Axis) (f : GdAx → GdAx) : (modGd s n f).emq = s.emq := rfl
@[simp] theorem modGd_rcd (s : State) (n : Axis) (f : GdAx → GdAx) : (modGd s n f).rcd = s.rcd := rfl
@[simp] theorem modGd_nd (s : State) (n : Axis) (f : GdAx → GdAx) : (modGd s n f).nd = s.nd := rfl
@[simp] theorem modGd_upd (s : State) (n : Axis) (f : GdAx → GdAx) : (modGd s n f).upd = s.upd := rfl
@[simp] theorem modGd_fuse (s : State) (n : Axis) (f : GdAx → GdAx) : (modGd s n f).fuse = s.fuse := rfl
@[simp] theorem modGd_dbg (s : State) (n : Axis) (f : GdAx → GdAx) : (modGd s n f).dbg = s.dbg := rfl
@[simp] theorem modGd_free (s : State) (n : Axis) (f : GdAx → GdAx) : (modGd s n f).free = s.free := rfl
@[simp] theorem modGd_rg (s : State) (n : Axis) (f : GdAx → GdAx) (k : Nat) : rg (modGd s n f) k = rg s k := rfl

/-! ### modLoop -/

@[simp] theorem modLoop_pending (s : State) (n : Axis) (f : LoopAx → LoopAx) : (modLoop s n f).pending = s.pending := rfl
@[simp] theorem modLoop_regs (s : State) (n : Axis) (f : LoopAx → LoopAx) : (modLoop s n f).regs = s.regs := rfl
@[simp] theorem modLoop_clk (s : State) (n : Axis) (f : LoopAx → LoopAx) : (modLoop s n f).clk = s.clk := rfl
@[simp] theorem modLoop_pwr (s : State) (n : Axis) (f : LoopAx → LoopAx) : (modLoop s n f).pwr = s.pwr := rfl
@[simp] theorem modLoop_ds (s : State) (n : Axis) (f : LoopAx → LoopAx) : (modLoop s n f).ds = s.ds := rfl
@[simp] theorem modLoop_sup (s : State) (n : Axis) (f : LoopAx → LoopAx) : (modLoop s n f).sup = s.sup := rfl
@[simp] theorem modLoop_flt (s : State) (n : Axis) (f : LoopAx → LoopAx) : (modLoop s n f).flt = s.flt := rfl
@[simp] theorem modLoop_link (s : State) (n : Axis) (f : LoopAx → LoopAx) : (modLoop s n f).link = s.link := rfl
@[simp] theorem modLoop_rt (s : State) (n : Axis) (f : LoopAx → LoopAx) : (modLoop s n f).rt = s.rt := rfl
@[simp] theorem modLoop_ax (s : State) (n : Axis) (f : LoopAx → LoopAx) : (modLoop s n f).ax = s.ax := rfl
@[simp] theorem modLoop_pwm (s : State) (n : Axis) (f : LoopAx → LoopAx) : (modLoop s n f).pwm = s.pwm := rfl
@[simp] theorem modLoop_gd (s : State) (n : Axis) (f : LoopAx → LoopAx) : (modLoop s n f).gd = s.gd := rfl
@[simp] theorem modLoop_ofs (s : State) (n : Axis) (f : LoopAx → LoopAx) : (modLoop s n f).ofs = s.ofs := rfl
@[simp] theorem modLoop_adc (s : State) (n : Axis) (f : LoopAx → LoopAx) : (modLoop s n f).adc = s.adc := rfl
@[simp] theorem modLoop_hk (s : State) (n : Axis) (f : LoopAx → LoopAx) : (modLoop s n f).hk = s.hk := rfl
@[simp] theorem modLoop_eng (s : State) (n : Axis) (f : LoopAx → LoopAx) : (modLoop s n f).eng = s.eng := rfl
@[simp] theorem modLoop_car (s : State) (n : Axis) (f : LoopAx → LoopAx) : (modLoop s n f).car = s.car := rfl
@[simp] theorem modLoop_rsv (s : State) (n : Axis) (f : LoopAx → LoopAx) : (modLoop s n f).rsv = s.rsv := rfl
@[simp] theorem modLoop_exc (s : State) (n : Axis) (f : LoopAx → LoopAx) : (modLoop s n f).exc = s.exc := rfl
@[simp] theorem modLoop_obs (s : State) (n : Axis) (f : LoopAx → LoopAx) : (modLoop s n f).obs = s.obs := rfl
@[simp] theorem modLoop_fb (s : State) (n : Axis) (f : LoopAx → LoopAx) : (modLoop s n f).fb = s.fb := rfl
@[simp] theorem modLoop_ao (s : State) (n : Axis) (f : LoopAx → LoopAx) : (modLoop s n f).ao = s.ao := rfl
@[simp] theorem modLoop_aoClear (s : State) (n : Axis) (f : LoopAx → LoopAx) : (modLoop s n f).aoClear = s.aoClear := rfl
@[simp] theorem modLoop_hcAx (s : State) (n : Axis) (f : LoopAx → LoopAx) : (modLoop s n f).hcAx = s.hcAx := rfl
@[simp] theorem modLoop_hcRail (s : State) (n : Axis) (f : LoopAx → LoopAx) : (modLoop s n f).hcRail = s.hcRail := rfl
@[simp] theorem modLoop_hc (s : State) (n : Axis) (f : LoopAx → LoopAx) : (modLoop s n f).hc = s.hc := rfl
@[simp] theorem modLoop_bisc (s : State) (n : Axis) (f : LoopAx → LoopAx) : (modLoop s n f).bisc = s.bisc := rfl
@[simp] theorem modLoop_emq (s : State) (n : Axis) (f : LoopAx → LoopAx) : (modLoop s n f).emq = s.emq := rfl
@[simp] theorem modLoop_rcd (s : State) (n : Axis) (f : LoopAx → LoopAx) : (modLoop s n f).rcd = s.rcd := rfl
@[simp] theorem modLoop_nd (s : State) (n : Axis) (f : LoopAx → LoopAx) : (modLoop s n f).nd = s.nd := rfl
@[simp] theorem modLoop_upd (s : State) (n : Axis) (f : LoopAx → LoopAx) : (modLoop s n f).upd = s.upd := rfl
@[simp] theorem modLoop_fuse (s : State) (n : Axis) (f : LoopAx → LoopAx) : (modLoop s n f).fuse = s.fuse := rfl
@[simp] theorem modLoop_dbg (s : State) (n : Axis) (f : LoopAx → LoopAx) : (modLoop s n f).dbg = s.dbg := rfl
@[simp] theorem modLoop_free (s : State) (n : Axis) (f : LoopAx → LoopAx) : (modLoop s n f).free = s.free := rfl
@[simp] theorem modLoop_rg (s : State) (n : Axis) (f : LoopAx → LoopAx) (k : Nat) : rg (modLoop s n f) k = rg s k := rfl

/-! ### modOfs -/

@[simp] theorem modOfs_pending (s : State) (n : Axis) (f : OfsAx → OfsAx) : (modOfs s n f).pending = s.pending := rfl
@[simp] theorem modOfs_regs (s : State) (n : Axis) (f : OfsAx → OfsAx) : (modOfs s n f).regs = s.regs := rfl
@[simp] theorem modOfs_clk (s : State) (n : Axis) (f : OfsAx → OfsAx) : (modOfs s n f).clk = s.clk := rfl
@[simp] theorem modOfs_pwr (s : State) (n : Axis) (f : OfsAx → OfsAx) : (modOfs s n f).pwr = s.pwr := rfl
@[simp] theorem modOfs_ds (s : State) (n : Axis) (f : OfsAx → OfsAx) : (modOfs s n f).ds = s.ds := rfl
@[simp] theorem modOfs_sup (s : State) (n : Axis) (f : OfsAx → OfsAx) : (modOfs s n f).sup = s.sup := rfl
@[simp] theorem modOfs_flt (s : State) (n : Axis) (f : OfsAx → OfsAx) : (modOfs s n f).flt = s.flt := rfl
@[simp] theorem modOfs_link (s : State) (n : Axis) (f : OfsAx → OfsAx) : (modOfs s n f).link = s.link := rfl
@[simp] theorem modOfs_rt (s : State) (n : Axis) (f : OfsAx → OfsAx) : (modOfs s n f).rt = s.rt := rfl
@[simp] theorem modOfs_ax (s : State) (n : Axis) (f : OfsAx → OfsAx) : (modOfs s n f).ax = s.ax := rfl
@[simp] theorem modOfs_pwm (s : State) (n : Axis) (f : OfsAx → OfsAx) : (modOfs s n f).pwm = s.pwm := rfl
@[simp] theorem modOfs_gd (s : State) (n : Axis) (f : OfsAx → OfsAx) : (modOfs s n f).gd = s.gd := rfl
@[simp] theorem modOfs_loop (s : State) (n : Axis) (f : OfsAx → OfsAx) : (modOfs s n f).loop = s.loop := rfl
@[simp] theorem modOfs_adc (s : State) (n : Axis) (f : OfsAx → OfsAx) : (modOfs s n f).adc = s.adc := rfl
@[simp] theorem modOfs_hk (s : State) (n : Axis) (f : OfsAx → OfsAx) : (modOfs s n f).hk = s.hk := rfl
@[simp] theorem modOfs_eng (s : State) (n : Axis) (f : OfsAx → OfsAx) : (modOfs s n f).eng = s.eng := rfl
@[simp] theorem modOfs_car (s : State) (n : Axis) (f : OfsAx → OfsAx) : (modOfs s n f).car = s.car := rfl
@[simp] theorem modOfs_rsv (s : State) (n : Axis) (f : OfsAx → OfsAx) : (modOfs s n f).rsv = s.rsv := rfl
@[simp] theorem modOfs_exc (s : State) (n : Axis) (f : OfsAx → OfsAx) : (modOfs s n f).exc = s.exc := rfl
@[simp] theorem modOfs_obs (s : State) (n : Axis) (f : OfsAx → OfsAx) : (modOfs s n f).obs = s.obs := rfl
@[simp] theorem modOfs_fb (s : State) (n : Axis) (f : OfsAx → OfsAx) : (modOfs s n f).fb = s.fb := rfl
@[simp] theorem modOfs_ao (s : State) (n : Axis) (f : OfsAx → OfsAx) : (modOfs s n f).ao = s.ao := rfl
@[simp] theorem modOfs_aoClear (s : State) (n : Axis) (f : OfsAx → OfsAx) : (modOfs s n f).aoClear = s.aoClear := rfl
@[simp] theorem modOfs_hcAx (s : State) (n : Axis) (f : OfsAx → OfsAx) : (modOfs s n f).hcAx = s.hcAx := rfl
@[simp] theorem modOfs_hcRail (s : State) (n : Axis) (f : OfsAx → OfsAx) : (modOfs s n f).hcRail = s.hcRail := rfl
@[simp] theorem modOfs_hc (s : State) (n : Axis) (f : OfsAx → OfsAx) : (modOfs s n f).hc = s.hc := rfl
@[simp] theorem modOfs_bisc (s : State) (n : Axis) (f : OfsAx → OfsAx) : (modOfs s n f).bisc = s.bisc := rfl
@[simp] theorem modOfs_emq (s : State) (n : Axis) (f : OfsAx → OfsAx) : (modOfs s n f).emq = s.emq := rfl
@[simp] theorem modOfs_rcd (s : State) (n : Axis) (f : OfsAx → OfsAx) : (modOfs s n f).rcd = s.rcd := rfl
@[simp] theorem modOfs_nd (s : State) (n : Axis) (f : OfsAx → OfsAx) : (modOfs s n f).nd = s.nd := rfl
@[simp] theorem modOfs_upd (s : State) (n : Axis) (f : OfsAx → OfsAx) : (modOfs s n f).upd = s.upd := rfl
@[simp] theorem modOfs_fuse (s : State) (n : Axis) (f : OfsAx → OfsAx) : (modOfs s n f).fuse = s.fuse := rfl
@[simp] theorem modOfs_dbg (s : State) (n : Axis) (f : OfsAx → OfsAx) : (modOfs s n f).dbg = s.dbg := rfl
@[simp] theorem modOfs_free (s : State) (n : Axis) (f : OfsAx → OfsAx) : (modOfs s n f).free = s.free := rfl
@[simp] theorem modOfs_rg (s : State) (n : Axis) (f : OfsAx → OfsAx) (k : Nat) : rg (modOfs s n f) k = rg s k := rfl

/-! ### modAdc -/

@[simp] theorem modAdc_pending (s : State) (n : Fin 4) (f : Adc → Adc) : (modAdc s n f).pending = s.pending := rfl
@[simp] theorem modAdc_regs (s : State) (n : Fin 4) (f : Adc → Adc) : (modAdc s n f).regs = s.regs := rfl
@[simp] theorem modAdc_clk (s : State) (n : Fin 4) (f : Adc → Adc) : (modAdc s n f).clk = s.clk := rfl
@[simp] theorem modAdc_pwr (s : State) (n : Fin 4) (f : Adc → Adc) : (modAdc s n f).pwr = s.pwr := rfl
@[simp] theorem modAdc_ds (s : State) (n : Fin 4) (f : Adc → Adc) : (modAdc s n f).ds = s.ds := rfl
@[simp] theorem modAdc_sup (s : State) (n : Fin 4) (f : Adc → Adc) : (modAdc s n f).sup = s.sup := rfl
@[simp] theorem modAdc_flt (s : State) (n : Fin 4) (f : Adc → Adc) : (modAdc s n f).flt = s.flt := rfl
@[simp] theorem modAdc_link (s : State) (n : Fin 4) (f : Adc → Adc) : (modAdc s n f).link = s.link := rfl
@[simp] theorem modAdc_rt (s : State) (n : Fin 4) (f : Adc → Adc) : (modAdc s n f).rt = s.rt := rfl
@[simp] theorem modAdc_ax (s : State) (n : Fin 4) (f : Adc → Adc) : (modAdc s n f).ax = s.ax := rfl
@[simp] theorem modAdc_pwm (s : State) (n : Fin 4) (f : Adc → Adc) : (modAdc s n f).pwm = s.pwm := rfl
@[simp] theorem modAdc_gd (s : State) (n : Fin 4) (f : Adc → Adc) : (modAdc s n f).gd = s.gd := rfl
@[simp] theorem modAdc_loop (s : State) (n : Fin 4) (f : Adc → Adc) : (modAdc s n f).loop = s.loop := rfl
@[simp] theorem modAdc_ofs (s : State) (n : Fin 4) (f : Adc → Adc) : (modAdc s n f).ofs = s.ofs := rfl
@[simp] theorem modAdc_hk (s : State) (n : Fin 4) (f : Adc → Adc) : (modAdc s n f).hk = s.hk := rfl
@[simp] theorem modAdc_eng (s : State) (n : Fin 4) (f : Adc → Adc) : (modAdc s n f).eng = s.eng := rfl
@[simp] theorem modAdc_car (s : State) (n : Fin 4) (f : Adc → Adc) : (modAdc s n f).car = s.car := rfl
@[simp] theorem modAdc_rsv (s : State) (n : Fin 4) (f : Adc → Adc) : (modAdc s n f).rsv = s.rsv := rfl
@[simp] theorem modAdc_exc (s : State) (n : Fin 4) (f : Adc → Adc) : (modAdc s n f).exc = s.exc := rfl
@[simp] theorem modAdc_obs (s : State) (n : Fin 4) (f : Adc → Adc) : (modAdc s n f).obs = s.obs := rfl
@[simp] theorem modAdc_fb (s : State) (n : Fin 4) (f : Adc → Adc) : (modAdc s n f).fb = s.fb := rfl
@[simp] theorem modAdc_ao (s : State) (n : Fin 4) (f : Adc → Adc) : (modAdc s n f).ao = s.ao := rfl
@[simp] theorem modAdc_aoClear (s : State) (n : Fin 4) (f : Adc → Adc) : (modAdc s n f).aoClear = s.aoClear := rfl
@[simp] theorem modAdc_hcAx (s : State) (n : Fin 4) (f : Adc → Adc) : (modAdc s n f).hcAx = s.hcAx := rfl
@[simp] theorem modAdc_hcRail (s : State) (n : Fin 4) (f : Adc → Adc) : (modAdc s n f).hcRail = s.hcRail := rfl
@[simp] theorem modAdc_hc (s : State) (n : Fin 4) (f : Adc → Adc) : (modAdc s n f).hc = s.hc := rfl
@[simp] theorem modAdc_bisc (s : State) (n : Fin 4) (f : Adc → Adc) : (modAdc s n f).bisc = s.bisc := rfl
@[simp] theorem modAdc_emq (s : State) (n : Fin 4) (f : Adc → Adc) : (modAdc s n f).emq = s.emq := rfl
@[simp] theorem modAdc_rcd (s : State) (n : Fin 4) (f : Adc → Adc) : (modAdc s n f).rcd = s.rcd := rfl
@[simp] theorem modAdc_nd (s : State) (n : Fin 4) (f : Adc → Adc) : (modAdc s n f).nd = s.nd := rfl
@[simp] theorem modAdc_upd (s : State) (n : Fin 4) (f : Adc → Adc) : (modAdc s n f).upd = s.upd := rfl
@[simp] theorem modAdc_fuse (s : State) (n : Fin 4) (f : Adc → Adc) : (modAdc s n f).fuse = s.fuse := rfl
@[simp] theorem modAdc_dbg (s : State) (n : Fin 4) (f : Adc → Adc) : (modAdc s n f).dbg = s.dbg := rfl
@[simp] theorem modAdc_free (s : State) (n : Fin 4) (f : Adc → Adc) : (modAdc s n f).free = s.free := rfl
@[simp] theorem modAdc_rg (s : State) (n : Fin 4) (f : Adc → Adc) (k : Nat) : rg (modAdc s n f) k = rg s k := rfl

/-! ### modEng -/

@[simp] theorem modEng_pending (s : State) (n : Fin 2) (f : Engine → Engine) : (modEng s n f).pending = s.pending := rfl
@[simp] theorem modEng_regs (s : State) (n : Fin 2) (f : Engine → Engine) : (modEng s n f).regs = s.regs := rfl
@[simp] theorem modEng_clk (s : State) (n : Fin 2) (f : Engine → Engine) : (modEng s n f).clk = s.clk := rfl
@[simp] theorem modEng_pwr (s : State) (n : Fin 2) (f : Engine → Engine) : (modEng s n f).pwr = s.pwr := rfl
@[simp] theorem modEng_ds (s : State) (n : Fin 2) (f : Engine → Engine) : (modEng s n f).ds = s.ds := rfl
@[simp] theorem modEng_sup (s : State) (n : Fin 2) (f : Engine → Engine) : (modEng s n f).sup = s.sup := rfl
@[simp] theorem modEng_flt (s : State) (n : Fin 2) (f : Engine → Engine) : (modEng s n f).flt = s.flt := rfl
@[simp] theorem modEng_link (s : State) (n : Fin 2) (f : Engine → Engine) : (modEng s n f).link = s.link := rfl
@[simp] theorem modEng_rt (s : State) (n : Fin 2) (f : Engine → Engine) : (modEng s n f).rt = s.rt := rfl
@[simp] theorem modEng_ax (s : State) (n : Fin 2) (f : Engine → Engine) : (modEng s n f).ax = s.ax := rfl
@[simp] theorem modEng_pwm (s : State) (n : Fin 2) (f : Engine → Engine) : (modEng s n f).pwm = s.pwm := rfl
@[simp] theorem modEng_gd (s : State) (n : Fin 2) (f : Engine → Engine) : (modEng s n f).gd = s.gd := rfl
@[simp] theorem modEng_loop (s : State) (n : Fin 2) (f : Engine → Engine) : (modEng s n f).loop = s.loop := rfl
@[simp] theorem modEng_ofs (s : State) (n : Fin 2) (f : Engine → Engine) : (modEng s n f).ofs = s.ofs := rfl
@[simp] theorem modEng_adc (s : State) (n : Fin 2) (f : Engine → Engine) : (modEng s n f).adc = s.adc := rfl
@[simp] theorem modEng_hk (s : State) (n : Fin 2) (f : Engine → Engine) : (modEng s n f).hk = s.hk := rfl
@[simp] theorem modEng_car (s : State) (n : Fin 2) (f : Engine → Engine) : (modEng s n f).car = s.car := rfl
@[simp] theorem modEng_rsv (s : State) (n : Fin 2) (f : Engine → Engine) : (modEng s n f).rsv = s.rsv := rfl
@[simp] theorem modEng_exc (s : State) (n : Fin 2) (f : Engine → Engine) : (modEng s n f).exc = s.exc := rfl
@[simp] theorem modEng_obs (s : State) (n : Fin 2) (f : Engine → Engine) : (modEng s n f).obs = s.obs := rfl
@[simp] theorem modEng_fb (s : State) (n : Fin 2) (f : Engine → Engine) : (modEng s n f).fb = s.fb := rfl
@[simp] theorem modEng_ao (s : State) (n : Fin 2) (f : Engine → Engine) : (modEng s n f).ao = s.ao := rfl
@[simp] theorem modEng_aoClear (s : State) (n : Fin 2) (f : Engine → Engine) : (modEng s n f).aoClear = s.aoClear := rfl
@[simp] theorem modEng_hcAx (s : State) (n : Fin 2) (f : Engine → Engine) : (modEng s n f).hcAx = s.hcAx := rfl
@[simp] theorem modEng_hcRail (s : State) (n : Fin 2) (f : Engine → Engine) : (modEng s n f).hcRail = s.hcRail := rfl
@[simp] theorem modEng_hc (s : State) (n : Fin 2) (f : Engine → Engine) : (modEng s n f).hc = s.hc := rfl
@[simp] theorem modEng_bisc (s : State) (n : Fin 2) (f : Engine → Engine) : (modEng s n f).bisc = s.bisc := rfl
@[simp] theorem modEng_emq (s : State) (n : Fin 2) (f : Engine → Engine) : (modEng s n f).emq = s.emq := rfl
@[simp] theorem modEng_rcd (s : State) (n : Fin 2) (f : Engine → Engine) : (modEng s n f).rcd = s.rcd := rfl
@[simp] theorem modEng_nd (s : State) (n : Fin 2) (f : Engine → Engine) : (modEng s n f).nd = s.nd := rfl
@[simp] theorem modEng_upd (s : State) (n : Fin 2) (f : Engine → Engine) : (modEng s n f).upd = s.upd := rfl
@[simp] theorem modEng_fuse (s : State) (n : Fin 2) (f : Engine → Engine) : (modEng s n f).fuse = s.fuse := rfl
@[simp] theorem modEng_dbg (s : State) (n : Fin 2) (f : Engine → Engine) : (modEng s n f).dbg = s.dbg := rfl
@[simp] theorem modEng_free (s : State) (n : Fin 2) (f : Engine → Engine) : (modEng s n f).free = s.free := rfl
@[simp] theorem modEng_rg (s : State) (n : Fin 2) (f : Engine → Engine) (k : Nat) : rg (modEng s n f) k = rg s k := rfl

/-! ### modCar -/

@[simp] theorem modCar_pending (s : State) (n : Axis) (f : CarAx → CarAx) : (modCar s n f).pending = s.pending := rfl
@[simp] theorem modCar_regs (s : State) (n : Axis) (f : CarAx → CarAx) : (modCar s n f).regs = s.regs := rfl
@[simp] theorem modCar_clk (s : State) (n : Axis) (f : CarAx → CarAx) : (modCar s n f).clk = s.clk := rfl
@[simp] theorem modCar_pwr (s : State) (n : Axis) (f : CarAx → CarAx) : (modCar s n f).pwr = s.pwr := rfl
@[simp] theorem modCar_ds (s : State) (n : Axis) (f : CarAx → CarAx) : (modCar s n f).ds = s.ds := rfl
@[simp] theorem modCar_sup (s : State) (n : Axis) (f : CarAx → CarAx) : (modCar s n f).sup = s.sup := rfl
@[simp] theorem modCar_flt (s : State) (n : Axis) (f : CarAx → CarAx) : (modCar s n f).flt = s.flt := rfl
@[simp] theorem modCar_link (s : State) (n : Axis) (f : CarAx → CarAx) : (modCar s n f).link = s.link := rfl
@[simp] theorem modCar_rt (s : State) (n : Axis) (f : CarAx → CarAx) : (modCar s n f).rt = s.rt := rfl
@[simp] theorem modCar_ax (s : State) (n : Axis) (f : CarAx → CarAx) : (modCar s n f).ax = s.ax := rfl
@[simp] theorem modCar_pwm (s : State) (n : Axis) (f : CarAx → CarAx) : (modCar s n f).pwm = s.pwm := rfl
@[simp] theorem modCar_gd (s : State) (n : Axis) (f : CarAx → CarAx) : (modCar s n f).gd = s.gd := rfl
@[simp] theorem modCar_loop (s : State) (n : Axis) (f : CarAx → CarAx) : (modCar s n f).loop = s.loop := rfl
@[simp] theorem modCar_ofs (s : State) (n : Axis) (f : CarAx → CarAx) : (modCar s n f).ofs = s.ofs := rfl
@[simp] theorem modCar_adc (s : State) (n : Axis) (f : CarAx → CarAx) : (modCar s n f).adc = s.adc := rfl
@[simp] theorem modCar_hk (s : State) (n : Axis) (f : CarAx → CarAx) : (modCar s n f).hk = s.hk := rfl
@[simp] theorem modCar_eng (s : State) (n : Axis) (f : CarAx → CarAx) : (modCar s n f).eng = s.eng := rfl
@[simp] theorem modCar_rsv (s : State) (n : Axis) (f : CarAx → CarAx) : (modCar s n f).rsv = s.rsv := rfl
@[simp] theorem modCar_exc (s : State) (n : Axis) (f : CarAx → CarAx) : (modCar s n f).exc = s.exc := rfl
@[simp] theorem modCar_obs (s : State) (n : Axis) (f : CarAx → CarAx) : (modCar s n f).obs = s.obs := rfl
@[simp] theorem modCar_fb (s : State) (n : Axis) (f : CarAx → CarAx) : (modCar s n f).fb = s.fb := rfl
@[simp] theorem modCar_ao (s : State) (n : Axis) (f : CarAx → CarAx) : (modCar s n f).ao = s.ao := rfl
@[simp] theorem modCar_aoClear (s : State) (n : Axis) (f : CarAx → CarAx) : (modCar s n f).aoClear = s.aoClear := rfl
@[simp] theorem modCar_hcAx (s : State) (n : Axis) (f : CarAx → CarAx) : (modCar s n f).hcAx = s.hcAx := rfl
@[simp] theorem modCar_hcRail (s : State) (n : Axis) (f : CarAx → CarAx) : (modCar s n f).hcRail = s.hcRail := rfl
@[simp] theorem modCar_hc (s : State) (n : Axis) (f : CarAx → CarAx) : (modCar s n f).hc = s.hc := rfl
@[simp] theorem modCar_bisc (s : State) (n : Axis) (f : CarAx → CarAx) : (modCar s n f).bisc = s.bisc := rfl
@[simp] theorem modCar_emq (s : State) (n : Axis) (f : CarAx → CarAx) : (modCar s n f).emq = s.emq := rfl
@[simp] theorem modCar_rcd (s : State) (n : Axis) (f : CarAx → CarAx) : (modCar s n f).rcd = s.rcd := rfl
@[simp] theorem modCar_nd (s : State) (n : Axis) (f : CarAx → CarAx) : (modCar s n f).nd = s.nd := rfl
@[simp] theorem modCar_upd (s : State) (n : Axis) (f : CarAx → CarAx) : (modCar s n f).upd = s.upd := rfl
@[simp] theorem modCar_fuse (s : State) (n : Axis) (f : CarAx → CarAx) : (modCar s n f).fuse = s.fuse := rfl
@[simp] theorem modCar_dbg (s : State) (n : Axis) (f : CarAx → CarAx) : (modCar s n f).dbg = s.dbg := rfl
@[simp] theorem modCar_free (s : State) (n : Axis) (f : CarAx → CarAx) : (modCar s n f).free = s.free := rfl
@[simp] theorem modCar_rg (s : State) (n : Axis) (f : CarAx → CarAx) (k : Nat) : rg (modCar s n f) k = rg s k := rfl

/-! ### modRsv -/

@[simp] theorem modRsv_pending (s : State) (n : Axis) (f : RsvAx → RsvAx) : (modRsv s n f).pending = s.pending := rfl
@[simp] theorem modRsv_regs (s : State) (n : Axis) (f : RsvAx → RsvAx) : (modRsv s n f).regs = s.regs := rfl
@[simp] theorem modRsv_clk (s : State) (n : Axis) (f : RsvAx → RsvAx) : (modRsv s n f).clk = s.clk := rfl
@[simp] theorem modRsv_pwr (s : State) (n : Axis) (f : RsvAx → RsvAx) : (modRsv s n f).pwr = s.pwr := rfl
@[simp] theorem modRsv_ds (s : State) (n : Axis) (f : RsvAx → RsvAx) : (modRsv s n f).ds = s.ds := rfl
@[simp] theorem modRsv_sup (s : State) (n : Axis) (f : RsvAx → RsvAx) : (modRsv s n f).sup = s.sup := rfl
@[simp] theorem modRsv_flt (s : State) (n : Axis) (f : RsvAx → RsvAx) : (modRsv s n f).flt = s.flt := rfl
@[simp] theorem modRsv_link (s : State) (n : Axis) (f : RsvAx → RsvAx) : (modRsv s n f).link = s.link := rfl
@[simp] theorem modRsv_rt (s : State) (n : Axis) (f : RsvAx → RsvAx) : (modRsv s n f).rt = s.rt := rfl
@[simp] theorem modRsv_ax (s : State) (n : Axis) (f : RsvAx → RsvAx) : (modRsv s n f).ax = s.ax := rfl
@[simp] theorem modRsv_pwm (s : State) (n : Axis) (f : RsvAx → RsvAx) : (modRsv s n f).pwm = s.pwm := rfl
@[simp] theorem modRsv_gd (s : State) (n : Axis) (f : RsvAx → RsvAx) : (modRsv s n f).gd = s.gd := rfl
@[simp] theorem modRsv_loop (s : State) (n : Axis) (f : RsvAx → RsvAx) : (modRsv s n f).loop = s.loop := rfl
@[simp] theorem modRsv_ofs (s : State) (n : Axis) (f : RsvAx → RsvAx) : (modRsv s n f).ofs = s.ofs := rfl
@[simp] theorem modRsv_adc (s : State) (n : Axis) (f : RsvAx → RsvAx) : (modRsv s n f).adc = s.adc := rfl
@[simp] theorem modRsv_hk (s : State) (n : Axis) (f : RsvAx → RsvAx) : (modRsv s n f).hk = s.hk := rfl
@[simp] theorem modRsv_eng (s : State) (n : Axis) (f : RsvAx → RsvAx) : (modRsv s n f).eng = s.eng := rfl
@[simp] theorem modRsv_car (s : State) (n : Axis) (f : RsvAx → RsvAx) : (modRsv s n f).car = s.car := rfl
@[simp] theorem modRsv_exc (s : State) (n : Axis) (f : RsvAx → RsvAx) : (modRsv s n f).exc = s.exc := rfl
@[simp] theorem modRsv_obs (s : State) (n : Axis) (f : RsvAx → RsvAx) : (modRsv s n f).obs = s.obs := rfl
@[simp] theorem modRsv_fb (s : State) (n : Axis) (f : RsvAx → RsvAx) : (modRsv s n f).fb = s.fb := rfl
@[simp] theorem modRsv_ao (s : State) (n : Axis) (f : RsvAx → RsvAx) : (modRsv s n f).ao = s.ao := rfl
@[simp] theorem modRsv_aoClear (s : State) (n : Axis) (f : RsvAx → RsvAx) : (modRsv s n f).aoClear = s.aoClear := rfl
@[simp] theorem modRsv_hcAx (s : State) (n : Axis) (f : RsvAx → RsvAx) : (modRsv s n f).hcAx = s.hcAx := rfl
@[simp] theorem modRsv_hcRail (s : State) (n : Axis) (f : RsvAx → RsvAx) : (modRsv s n f).hcRail = s.hcRail := rfl
@[simp] theorem modRsv_hc (s : State) (n : Axis) (f : RsvAx → RsvAx) : (modRsv s n f).hc = s.hc := rfl
@[simp] theorem modRsv_bisc (s : State) (n : Axis) (f : RsvAx → RsvAx) : (modRsv s n f).bisc = s.bisc := rfl
@[simp] theorem modRsv_emq (s : State) (n : Axis) (f : RsvAx → RsvAx) : (modRsv s n f).emq = s.emq := rfl
@[simp] theorem modRsv_rcd (s : State) (n : Axis) (f : RsvAx → RsvAx) : (modRsv s n f).rcd = s.rcd := rfl
@[simp] theorem modRsv_nd (s : State) (n : Axis) (f : RsvAx → RsvAx) : (modRsv s n f).nd = s.nd := rfl
@[simp] theorem modRsv_upd (s : State) (n : Axis) (f : RsvAx → RsvAx) : (modRsv s n f).upd = s.upd := rfl
@[simp] theorem modRsv_fuse (s : State) (n : Axis) (f : RsvAx → RsvAx) : (modRsv s n f).fuse = s.fuse := rfl
@[simp] theorem modRsv_dbg (s : State) (n : Axis) (f : RsvAx → RsvAx) : (modRsv s n f).dbg = s.dbg := rfl
@[simp] theorem modRsv_free (s : State) (n : Axis) (f : RsvAx → RsvAx) : (modRsv s n f).free = s.free := rfl
@[simp] theorem modRsv_rg (s : State) (n : Axis) (f : RsvAx → RsvAx) (k : Nat) : rg (modRsv s n f) k = rg s k := rfl

/-! ### modExc -/

@[simp] theorem modExc_pending (s : State) (n : Fin 2) (f : Exc → Exc) : (modExc s n f).pending = s.pending := rfl
@[simp] theorem modExc_regs (s : State) (n : Fin 2) (f : Exc → Exc) : (modExc s n f).regs = s.regs := rfl
@[simp] theorem modExc_clk (s : State) (n : Fin 2) (f : Exc → Exc) : (modExc s n f).clk = s.clk := rfl
@[simp] theorem modExc_pwr (s : State) (n : Fin 2) (f : Exc → Exc) : (modExc s n f).pwr = s.pwr := rfl
@[simp] theorem modExc_ds (s : State) (n : Fin 2) (f : Exc → Exc) : (modExc s n f).ds = s.ds := rfl
@[simp] theorem modExc_sup (s : State) (n : Fin 2) (f : Exc → Exc) : (modExc s n f).sup = s.sup := rfl
@[simp] theorem modExc_flt (s : State) (n : Fin 2) (f : Exc → Exc) : (modExc s n f).flt = s.flt := rfl
@[simp] theorem modExc_link (s : State) (n : Fin 2) (f : Exc → Exc) : (modExc s n f).link = s.link := rfl
@[simp] theorem modExc_rt (s : State) (n : Fin 2) (f : Exc → Exc) : (modExc s n f).rt = s.rt := rfl
@[simp] theorem modExc_ax (s : State) (n : Fin 2) (f : Exc → Exc) : (modExc s n f).ax = s.ax := rfl
@[simp] theorem modExc_pwm (s : State) (n : Fin 2) (f : Exc → Exc) : (modExc s n f).pwm = s.pwm := rfl
@[simp] theorem modExc_gd (s : State) (n : Fin 2) (f : Exc → Exc) : (modExc s n f).gd = s.gd := rfl
@[simp] theorem modExc_loop (s : State) (n : Fin 2) (f : Exc → Exc) : (modExc s n f).loop = s.loop := rfl
@[simp] theorem modExc_ofs (s : State) (n : Fin 2) (f : Exc → Exc) : (modExc s n f).ofs = s.ofs := rfl
@[simp] theorem modExc_adc (s : State) (n : Fin 2) (f : Exc → Exc) : (modExc s n f).adc = s.adc := rfl
@[simp] theorem modExc_hk (s : State) (n : Fin 2) (f : Exc → Exc) : (modExc s n f).hk = s.hk := rfl
@[simp] theorem modExc_eng (s : State) (n : Fin 2) (f : Exc → Exc) : (modExc s n f).eng = s.eng := rfl
@[simp] theorem modExc_car (s : State) (n : Fin 2) (f : Exc → Exc) : (modExc s n f).car = s.car := rfl
@[simp] theorem modExc_rsv (s : State) (n : Fin 2) (f : Exc → Exc) : (modExc s n f).rsv = s.rsv := rfl
@[simp] theorem modExc_obs (s : State) (n : Fin 2) (f : Exc → Exc) : (modExc s n f).obs = s.obs := rfl
@[simp] theorem modExc_fb (s : State) (n : Fin 2) (f : Exc → Exc) : (modExc s n f).fb = s.fb := rfl
@[simp] theorem modExc_ao (s : State) (n : Fin 2) (f : Exc → Exc) : (modExc s n f).ao = s.ao := rfl
@[simp] theorem modExc_aoClear (s : State) (n : Fin 2) (f : Exc → Exc) : (modExc s n f).aoClear = s.aoClear := rfl
@[simp] theorem modExc_hcAx (s : State) (n : Fin 2) (f : Exc → Exc) : (modExc s n f).hcAx = s.hcAx := rfl
@[simp] theorem modExc_hcRail (s : State) (n : Fin 2) (f : Exc → Exc) : (modExc s n f).hcRail = s.hcRail := rfl
@[simp] theorem modExc_hc (s : State) (n : Fin 2) (f : Exc → Exc) : (modExc s n f).hc = s.hc := rfl
@[simp] theorem modExc_bisc (s : State) (n : Fin 2) (f : Exc → Exc) : (modExc s n f).bisc = s.bisc := rfl
@[simp] theorem modExc_emq (s : State) (n : Fin 2) (f : Exc → Exc) : (modExc s n f).emq = s.emq := rfl
@[simp] theorem modExc_rcd (s : State) (n : Fin 2) (f : Exc → Exc) : (modExc s n f).rcd = s.rcd := rfl
@[simp] theorem modExc_nd (s : State) (n : Fin 2) (f : Exc → Exc) : (modExc s n f).nd = s.nd := rfl
@[simp] theorem modExc_upd (s : State) (n : Fin 2) (f : Exc → Exc) : (modExc s n f).upd = s.upd := rfl
@[simp] theorem modExc_fuse (s : State) (n : Fin 2) (f : Exc → Exc) : (modExc s n f).fuse = s.fuse := rfl
@[simp] theorem modExc_dbg (s : State) (n : Fin 2) (f : Exc → Exc) : (modExc s n f).dbg = s.dbg := rfl
@[simp] theorem modExc_free (s : State) (n : Fin 2) (f : Exc → Exc) : (modExc s n f).free = s.free := rfl
@[simp] theorem modExc_rg (s : State) (n : Fin 2) (f : Exc → Exc) (k : Nat) : rg (modExc s n f) k = rg s k := rfl

/-! ### modObs -/

@[simp] theorem modObs_pending (s : State) (n : Axis) (f : ObsAx → ObsAx) : (modObs s n f).pending = s.pending := rfl
@[simp] theorem modObs_regs (s : State) (n : Axis) (f : ObsAx → ObsAx) : (modObs s n f).regs = s.regs := rfl
@[simp] theorem modObs_clk (s : State) (n : Axis) (f : ObsAx → ObsAx) : (modObs s n f).clk = s.clk := rfl
@[simp] theorem modObs_pwr (s : State) (n : Axis) (f : ObsAx → ObsAx) : (modObs s n f).pwr = s.pwr := rfl
@[simp] theorem modObs_ds (s : State) (n : Axis) (f : ObsAx → ObsAx) : (modObs s n f).ds = s.ds := rfl
@[simp] theorem modObs_sup (s : State) (n : Axis) (f : ObsAx → ObsAx) : (modObs s n f).sup = s.sup := rfl
@[simp] theorem modObs_flt (s : State) (n : Axis) (f : ObsAx → ObsAx) : (modObs s n f).flt = s.flt := rfl
@[simp] theorem modObs_link (s : State) (n : Axis) (f : ObsAx → ObsAx) : (modObs s n f).link = s.link := rfl
@[simp] theorem modObs_rt (s : State) (n : Axis) (f : ObsAx → ObsAx) : (modObs s n f).rt = s.rt := rfl
@[simp] theorem modObs_ax (s : State) (n : Axis) (f : ObsAx → ObsAx) : (modObs s n f).ax = s.ax := rfl
@[simp] theorem modObs_pwm (s : State) (n : Axis) (f : ObsAx → ObsAx) : (modObs s n f).pwm = s.pwm := rfl
@[simp] theorem modObs_gd (s : State) (n : Axis) (f : ObsAx → ObsAx) : (modObs s n f).gd = s.gd := rfl
@[simp] theorem modObs_loop (s : State) (n : Axis) (f : ObsAx → ObsAx) : (modObs s n f).loop = s.loop := rfl
@[simp] theorem modObs_ofs (s : State) (n : Axis) (f : ObsAx → ObsAx) : (modObs s n f).ofs = s.ofs := rfl
@[simp] theorem modObs_adc (s : State) (n : Axis) (f : ObsAx → ObsAx) : (modObs s n f).adc = s.adc := rfl
@[simp] theorem modObs_hk (s : State) (n : Axis) (f : ObsAx → ObsAx) : (modObs s n f).hk = s.hk := rfl
@[simp] theorem modObs_eng (s : State) (n : Axis) (f : ObsAx → ObsAx) : (modObs s n f).eng = s.eng := rfl
@[simp] theorem modObs_car (s : State) (n : Axis) (f : ObsAx → ObsAx) : (modObs s n f).car = s.car := rfl
@[simp] theorem modObs_rsv (s : State) (n : Axis) (f : ObsAx → ObsAx) : (modObs s n f).rsv = s.rsv := rfl
@[simp] theorem modObs_exc (s : State) (n : Axis) (f : ObsAx → ObsAx) : (modObs s n f).exc = s.exc := rfl
@[simp] theorem modObs_fb (s : State) (n : Axis) (f : ObsAx → ObsAx) : (modObs s n f).fb = s.fb := rfl
@[simp] theorem modObs_ao (s : State) (n : Axis) (f : ObsAx → ObsAx) : (modObs s n f).ao = s.ao := rfl
@[simp] theorem modObs_aoClear (s : State) (n : Axis) (f : ObsAx → ObsAx) : (modObs s n f).aoClear = s.aoClear := rfl
@[simp] theorem modObs_hcAx (s : State) (n : Axis) (f : ObsAx → ObsAx) : (modObs s n f).hcAx = s.hcAx := rfl
@[simp] theorem modObs_hcRail (s : State) (n : Axis) (f : ObsAx → ObsAx) : (modObs s n f).hcRail = s.hcRail := rfl
@[simp] theorem modObs_hc (s : State) (n : Axis) (f : ObsAx → ObsAx) : (modObs s n f).hc = s.hc := rfl
@[simp] theorem modObs_bisc (s : State) (n : Axis) (f : ObsAx → ObsAx) : (modObs s n f).bisc = s.bisc := rfl
@[simp] theorem modObs_emq (s : State) (n : Axis) (f : ObsAx → ObsAx) : (modObs s n f).emq = s.emq := rfl
@[simp] theorem modObs_rcd (s : State) (n : Axis) (f : ObsAx → ObsAx) : (modObs s n f).rcd = s.rcd := rfl
@[simp] theorem modObs_nd (s : State) (n : Axis) (f : ObsAx → ObsAx) : (modObs s n f).nd = s.nd := rfl
@[simp] theorem modObs_upd (s : State) (n : Axis) (f : ObsAx → ObsAx) : (modObs s n f).upd = s.upd := rfl
@[simp] theorem modObs_fuse (s : State) (n : Axis) (f : ObsAx → ObsAx) : (modObs s n f).fuse = s.fuse := rfl
@[simp] theorem modObs_dbg (s : State) (n : Axis) (f : ObsAx → ObsAx) : (modObs s n f).dbg = s.dbg := rfl
@[simp] theorem modObs_free (s : State) (n : Axis) (f : ObsAx → ObsAx) : (modObs s n f).free = s.free := rfl
@[simp] theorem modObs_rg (s : State) (n : Axis) (f : ObsAx → ObsAx) (k : Nat) : rg (modObs s n f) k = rg s k := rfl

/-! ### modFb -/

@[simp] theorem modFb_pending (s : State) (n : Axis) (f : FbAx → FbAx) : (modFb s n f).pending = s.pending := rfl
@[simp] theorem modFb_regs (s : State) (n : Axis) (f : FbAx → FbAx) : (modFb s n f).regs = s.regs := rfl
@[simp] theorem modFb_clk (s : State) (n : Axis) (f : FbAx → FbAx) : (modFb s n f).clk = s.clk := rfl
@[simp] theorem modFb_pwr (s : State) (n : Axis) (f : FbAx → FbAx) : (modFb s n f).pwr = s.pwr := rfl
@[simp] theorem modFb_ds (s : State) (n : Axis) (f : FbAx → FbAx) : (modFb s n f).ds = s.ds := rfl
@[simp] theorem modFb_sup (s : State) (n : Axis) (f : FbAx → FbAx) : (modFb s n f).sup = s.sup := rfl
@[simp] theorem modFb_flt (s : State) (n : Axis) (f : FbAx → FbAx) : (modFb s n f).flt = s.flt := rfl
@[simp] theorem modFb_link (s : State) (n : Axis) (f : FbAx → FbAx) : (modFb s n f).link = s.link := rfl
@[simp] theorem modFb_rt (s : State) (n : Axis) (f : FbAx → FbAx) : (modFb s n f).rt = s.rt := rfl
@[simp] theorem modFb_ax (s : State) (n : Axis) (f : FbAx → FbAx) : (modFb s n f).ax = s.ax := rfl
@[simp] theorem modFb_pwm (s : State) (n : Axis) (f : FbAx → FbAx) : (modFb s n f).pwm = s.pwm := rfl
@[simp] theorem modFb_gd (s : State) (n : Axis) (f : FbAx → FbAx) : (modFb s n f).gd = s.gd := rfl
@[simp] theorem modFb_loop (s : State) (n : Axis) (f : FbAx → FbAx) : (modFb s n f).loop = s.loop := rfl
@[simp] theorem modFb_ofs (s : State) (n : Axis) (f : FbAx → FbAx) : (modFb s n f).ofs = s.ofs := rfl
@[simp] theorem modFb_adc (s : State) (n : Axis) (f : FbAx → FbAx) : (modFb s n f).adc = s.adc := rfl
@[simp] theorem modFb_hk (s : State) (n : Axis) (f : FbAx → FbAx) : (modFb s n f).hk = s.hk := rfl
@[simp] theorem modFb_eng (s : State) (n : Axis) (f : FbAx → FbAx) : (modFb s n f).eng = s.eng := rfl
@[simp] theorem modFb_car (s : State) (n : Axis) (f : FbAx → FbAx) : (modFb s n f).car = s.car := rfl
@[simp] theorem modFb_rsv (s : State) (n : Axis) (f : FbAx → FbAx) : (modFb s n f).rsv = s.rsv := rfl
@[simp] theorem modFb_exc (s : State) (n : Axis) (f : FbAx → FbAx) : (modFb s n f).exc = s.exc := rfl
@[simp] theorem modFb_obs (s : State) (n : Axis) (f : FbAx → FbAx) : (modFb s n f).obs = s.obs := rfl
@[simp] theorem modFb_ao (s : State) (n : Axis) (f : FbAx → FbAx) : (modFb s n f).ao = s.ao := rfl
@[simp] theorem modFb_aoClear (s : State) (n : Axis) (f : FbAx → FbAx) : (modFb s n f).aoClear = s.aoClear := rfl
@[simp] theorem modFb_hcAx (s : State) (n : Axis) (f : FbAx → FbAx) : (modFb s n f).hcAx = s.hcAx := rfl
@[simp] theorem modFb_hcRail (s : State) (n : Axis) (f : FbAx → FbAx) : (modFb s n f).hcRail = s.hcRail := rfl
@[simp] theorem modFb_hc (s : State) (n : Axis) (f : FbAx → FbAx) : (modFb s n f).hc = s.hc := rfl
@[simp] theorem modFb_bisc (s : State) (n : Axis) (f : FbAx → FbAx) : (modFb s n f).bisc = s.bisc := rfl
@[simp] theorem modFb_emq (s : State) (n : Axis) (f : FbAx → FbAx) : (modFb s n f).emq = s.emq := rfl
@[simp] theorem modFb_rcd (s : State) (n : Axis) (f : FbAx → FbAx) : (modFb s n f).rcd = s.rcd := rfl
@[simp] theorem modFb_nd (s : State) (n : Axis) (f : FbAx → FbAx) : (modFb s n f).nd = s.nd := rfl
@[simp] theorem modFb_upd (s : State) (n : Axis) (f : FbAx → FbAx) : (modFb s n f).upd = s.upd := rfl
@[simp] theorem modFb_fuse (s : State) (n : Axis) (f : FbAx → FbAx) : (modFb s n f).fuse = s.fuse := rfl
@[simp] theorem modFb_dbg (s : State) (n : Axis) (f : FbAx → FbAx) : (modFb s n f).dbg = s.dbg := rfl
@[simp] theorem modFb_free (s : State) (n : Axis) (f : FbAx → FbAx) : (modFb s n f).free = s.free := rfl
@[simp] theorem modFb_rg (s : State) (n : Axis) (f : FbAx → FbAx) (k : Nat) : rg (modFb s n f) k = rg s k := rfl

/-! ### modAo -/

@[simp] theorem modAo_pending (s : State) (n : Fin 6) (f : AoCh → AoCh) : (modAo s n f).pending = s.pending := rfl
@[simp] theorem modAo_regs (s : State) (n : Fin 6) (f : AoCh → AoCh) : (modAo s n f).regs = s.regs := rfl
@[simp] theorem modAo_clk (s : State) (n : Fin 6) (f : AoCh → AoCh) : (modAo s n f).clk = s.clk := rfl
@[simp] theorem modAo_pwr (s : State) (n : Fin 6) (f : AoCh → AoCh) : (modAo s n f).pwr = s.pwr := rfl
@[simp] theorem modAo_ds (s : State) (n : Fin 6) (f : AoCh → AoCh) : (modAo s n f).ds = s.ds := rfl
@[simp] theorem modAo_sup (s : State) (n : Fin 6) (f : AoCh → AoCh) : (modAo s n f).sup = s.sup := rfl
@[simp] theorem modAo_flt (s : State) (n : Fin 6) (f : AoCh → AoCh) : (modAo s n f).flt = s.flt := rfl
@[simp] theorem modAo_link (s : State) (n : Fin 6) (f : AoCh → AoCh) : (modAo s n f).link = s.link := rfl
@[simp] theorem modAo_rt (s : State) (n : Fin 6) (f : AoCh → AoCh) : (modAo s n f).rt = s.rt := rfl
@[simp] theorem modAo_ax (s : State) (n : Fin 6) (f : AoCh → AoCh) : (modAo s n f).ax = s.ax := rfl
@[simp] theorem modAo_pwm (s : State) (n : Fin 6) (f : AoCh → AoCh) : (modAo s n f).pwm = s.pwm := rfl
@[simp] theorem modAo_gd (s : State) (n : Fin 6) (f : AoCh → AoCh) : (modAo s n f).gd = s.gd := rfl
@[simp] theorem modAo_loop (s : State) (n : Fin 6) (f : AoCh → AoCh) : (modAo s n f).loop = s.loop := rfl
@[simp] theorem modAo_ofs (s : State) (n : Fin 6) (f : AoCh → AoCh) : (modAo s n f).ofs = s.ofs := rfl
@[simp] theorem modAo_adc (s : State) (n : Fin 6) (f : AoCh → AoCh) : (modAo s n f).adc = s.adc := rfl
@[simp] theorem modAo_hk (s : State) (n : Fin 6) (f : AoCh → AoCh) : (modAo s n f).hk = s.hk := rfl
@[simp] theorem modAo_eng (s : State) (n : Fin 6) (f : AoCh → AoCh) : (modAo s n f).eng = s.eng := rfl
@[simp] theorem modAo_car (s : State) (n : Fin 6) (f : AoCh → AoCh) : (modAo s n f).car = s.car := rfl
@[simp] theorem modAo_rsv (s : State) (n : Fin 6) (f : AoCh → AoCh) : (modAo s n f).rsv = s.rsv := rfl
@[simp] theorem modAo_exc (s : State) (n : Fin 6) (f : AoCh → AoCh) : (modAo s n f).exc = s.exc := rfl
@[simp] theorem modAo_obs (s : State) (n : Fin 6) (f : AoCh → AoCh) : (modAo s n f).obs = s.obs := rfl
@[simp] theorem modAo_fb (s : State) (n : Fin 6) (f : AoCh → AoCh) : (modAo s n f).fb = s.fb := rfl
@[simp] theorem modAo_aoClear (s : State) (n : Fin 6) (f : AoCh → AoCh) : (modAo s n f).aoClear = s.aoClear := rfl
@[simp] theorem modAo_hcAx (s : State) (n : Fin 6) (f : AoCh → AoCh) : (modAo s n f).hcAx = s.hcAx := rfl
@[simp] theorem modAo_hcRail (s : State) (n : Fin 6) (f : AoCh → AoCh) : (modAo s n f).hcRail = s.hcRail := rfl
@[simp] theorem modAo_hc (s : State) (n : Fin 6) (f : AoCh → AoCh) : (modAo s n f).hc = s.hc := rfl
@[simp] theorem modAo_bisc (s : State) (n : Fin 6) (f : AoCh → AoCh) : (modAo s n f).bisc = s.bisc := rfl
@[simp] theorem modAo_emq (s : State) (n : Fin 6) (f : AoCh → AoCh) : (modAo s n f).emq = s.emq := rfl
@[simp] theorem modAo_rcd (s : State) (n : Fin 6) (f : AoCh → AoCh) : (modAo s n f).rcd = s.rcd := rfl
@[simp] theorem modAo_nd (s : State) (n : Fin 6) (f : AoCh → AoCh) : (modAo s n f).nd = s.nd := rfl
@[simp] theorem modAo_upd (s : State) (n : Fin 6) (f : AoCh → AoCh) : (modAo s n f).upd = s.upd := rfl
@[simp] theorem modAo_fuse (s : State) (n : Fin 6) (f : AoCh → AoCh) : (modAo s n f).fuse = s.fuse := rfl
@[simp] theorem modAo_dbg (s : State) (n : Fin 6) (f : AoCh → AoCh) : (modAo s n f).dbg = s.dbg := rfl
@[simp] theorem modAo_free (s : State) (n : Fin 6) (f : AoCh → AoCh) : (modAo s n f).free = s.free := rfl
@[simp] theorem modAo_rg (s : State) (n : Fin 6) (f : AoCh → AoCh) (k : Nat) : rg (modAo s n f) k = rg s k := rfl

/-! ### modHcAx -/

@[simp] theorem modHcAx_pending (s : State) (n : Axis) (f : HcAx → HcAx) : (modHcAx s n f).pending = s.pending := rfl
@[simp] theorem modHcAx_regs (s : State) (n : Axis) (f : HcAx → HcAx) : (modHcAx s n f).regs = s.regs := rfl
@[simp] theorem modHcAx_clk (s : State) (n : Axis) (f : HcAx → HcAx) : (modHcAx s n f).clk = s.clk := rfl
@[simp] theorem modHcAx_pwr (s : State) (n : Axis) (f : HcAx → HcAx) : (modHcAx s n f).pwr = s.pwr := rfl
@[simp] theorem modHcAx_ds (s : State) (n : Axis) (f : HcAx → HcAx) : (modHcAx s n f).ds = s.ds := rfl
@[simp] theorem modHcAx_sup (s : State) (n : Axis) (f : HcAx → HcAx) : (modHcAx s n f).sup = s.sup := rfl
@[simp] theorem modHcAx_flt (s : State) (n : Axis) (f : HcAx → HcAx) : (modHcAx s n f).flt = s.flt := rfl
@[simp] theorem modHcAx_link (s : State) (n : Axis) (f : HcAx → HcAx) : (modHcAx s n f).link = s.link := rfl
@[simp] theorem modHcAx_rt (s : State) (n : Axis) (f : HcAx → HcAx) : (modHcAx s n f).rt = s.rt := rfl
@[simp] theorem modHcAx_ax (s : State) (n : Axis) (f : HcAx → HcAx) : (modHcAx s n f).ax = s.ax := rfl
@[simp] theorem modHcAx_pwm (s : State) (n : Axis) (f : HcAx → HcAx) : (modHcAx s n f).pwm = s.pwm := rfl
@[simp] theorem modHcAx_gd (s : State) (n : Axis) (f : HcAx → HcAx) : (modHcAx s n f).gd = s.gd := rfl
@[simp] theorem modHcAx_loop (s : State) (n : Axis) (f : HcAx → HcAx) : (modHcAx s n f).loop = s.loop := rfl
@[simp] theorem modHcAx_ofs (s : State) (n : Axis) (f : HcAx → HcAx) : (modHcAx s n f).ofs = s.ofs := rfl
@[simp] theorem modHcAx_adc (s : State) (n : Axis) (f : HcAx → HcAx) : (modHcAx s n f).adc = s.adc := rfl
@[simp] theorem modHcAx_hk (s : State) (n : Axis) (f : HcAx → HcAx) : (modHcAx s n f).hk = s.hk := rfl
@[simp] theorem modHcAx_eng (s : State) (n : Axis) (f : HcAx → HcAx) : (modHcAx s n f).eng = s.eng := rfl
@[simp] theorem modHcAx_car (s : State) (n : Axis) (f : HcAx → HcAx) : (modHcAx s n f).car = s.car := rfl
@[simp] theorem modHcAx_rsv (s : State) (n : Axis) (f : HcAx → HcAx) : (modHcAx s n f).rsv = s.rsv := rfl
@[simp] theorem modHcAx_exc (s : State) (n : Axis) (f : HcAx → HcAx) : (modHcAx s n f).exc = s.exc := rfl
@[simp] theorem modHcAx_obs (s : State) (n : Axis) (f : HcAx → HcAx) : (modHcAx s n f).obs = s.obs := rfl
@[simp] theorem modHcAx_fb (s : State) (n : Axis) (f : HcAx → HcAx) : (modHcAx s n f).fb = s.fb := rfl
@[simp] theorem modHcAx_ao (s : State) (n : Axis) (f : HcAx → HcAx) : (modHcAx s n f).ao = s.ao := rfl
@[simp] theorem modHcAx_aoClear (s : State) (n : Axis) (f : HcAx → HcAx) : (modHcAx s n f).aoClear = s.aoClear := rfl
@[simp] theorem modHcAx_hcRail (s : State) (n : Axis) (f : HcAx → HcAx) : (modHcAx s n f).hcRail = s.hcRail := rfl
@[simp] theorem modHcAx_hc (s : State) (n : Axis) (f : HcAx → HcAx) : (modHcAx s n f).hc = s.hc := rfl
@[simp] theorem modHcAx_bisc (s : State) (n : Axis) (f : HcAx → HcAx) : (modHcAx s n f).bisc = s.bisc := rfl
@[simp] theorem modHcAx_emq (s : State) (n : Axis) (f : HcAx → HcAx) : (modHcAx s n f).emq = s.emq := rfl
@[simp] theorem modHcAx_rcd (s : State) (n : Axis) (f : HcAx → HcAx) : (modHcAx s n f).rcd = s.rcd := rfl
@[simp] theorem modHcAx_nd (s : State) (n : Axis) (f : HcAx → HcAx) : (modHcAx s n f).nd = s.nd := rfl
@[simp] theorem modHcAx_upd (s : State) (n : Axis) (f : HcAx → HcAx) : (modHcAx s n f).upd = s.upd := rfl
@[simp] theorem modHcAx_fuse (s : State) (n : Axis) (f : HcAx → HcAx) : (modHcAx s n f).fuse = s.fuse := rfl
@[simp] theorem modHcAx_dbg (s : State) (n : Axis) (f : HcAx → HcAx) : (modHcAx s n f).dbg = s.dbg := rfl
@[simp] theorem modHcAx_free (s : State) (n : Axis) (f : HcAx → HcAx) : (modHcAx s n f).free = s.free := rfl
@[simp] theorem modHcAx_rg (s : State) (n : Axis) (f : HcAx → HcAx) (k : Nat) : rg (modHcAx s n f) k = rg s k := rfl

/-! ### modHcRail -/

@[simp] theorem modHcRail_pending (s : State) (n : Fin 4) (f : HcRail → HcRail) : (modHcRail s n f).pending = s.pending := rfl
@[simp] theorem modHcRail_regs (s : State) (n : Fin 4) (f : HcRail → HcRail) : (modHcRail s n f).regs = s.regs := rfl
@[simp] theorem modHcRail_clk (s : State) (n : Fin 4) (f : HcRail → HcRail) : (modHcRail s n f).clk = s.clk := rfl
@[simp] theorem modHcRail_pwr (s : State) (n : Fin 4) (f : HcRail → HcRail) : (modHcRail s n f).pwr = s.pwr := rfl
@[simp] theorem modHcRail_ds (s : State) (n : Fin 4) (f : HcRail → HcRail) : (modHcRail s n f).ds = s.ds := rfl
@[simp] theorem modHcRail_sup (s : State) (n : Fin 4) (f : HcRail → HcRail) : (modHcRail s n f).sup = s.sup := rfl
@[simp] theorem modHcRail_flt (s : State) (n : Fin 4) (f : HcRail → HcRail) : (modHcRail s n f).flt = s.flt := rfl
@[simp] theorem modHcRail_link (s : State) (n : Fin 4) (f : HcRail → HcRail) : (modHcRail s n f).link = s.link := rfl
@[simp] theorem modHcRail_rt (s : State) (n : Fin 4) (f : HcRail → HcRail) : (modHcRail s n f).rt = s.rt := rfl
@[simp] theorem modHcRail_ax (s : State) (n : Fin 4) (f : HcRail → HcRail) : (modHcRail s n f).ax = s.ax := rfl
@[simp] theorem modHcRail_pwm (s : State) (n : Fin 4) (f : HcRail → HcRail) : (modHcRail s n f).pwm = s.pwm := rfl
@[simp] theorem modHcRail_gd (s : State) (n : Fin 4) (f : HcRail → HcRail) : (modHcRail s n f).gd = s.gd := rfl
@[simp] theorem modHcRail_loop (s : State) (n : Fin 4) (f : HcRail → HcRail) : (modHcRail s n f).loop = s.loop := rfl
@[simp] theorem modHcRail_ofs (s : State) (n : Fin 4) (f : HcRail → HcRail) : (modHcRail s n f).ofs = s.ofs := rfl
@[simp] theorem modHcRail_adc (s : State) (n : Fin 4) (f : HcRail → HcRail) : (modHcRail s n f).adc = s.adc := rfl
@[simp] theorem modHcRail_hk (s : State) (n : Fin 4) (f : HcRail → HcRail) : (modHcRail s n f).hk = s.hk := rfl
@[simp] theorem modHcRail_eng (s : State) (n : Fin 4) (f : HcRail → HcRail) : (modHcRail s n f).eng = s.eng := rfl
@[simp] theorem modHcRail_car (s : State) (n : Fin 4) (f : HcRail → HcRail) : (modHcRail s n f).car = s.car := rfl
@[simp] theorem modHcRail_rsv (s : State) (n : Fin 4) (f : HcRail → HcRail) : (modHcRail s n f).rsv = s.rsv := rfl
@[simp] theorem modHcRail_exc (s : State) (n : Fin 4) (f : HcRail → HcRail) : (modHcRail s n f).exc = s.exc := rfl
@[simp] theorem modHcRail_obs (s : State) (n : Fin 4) (f : HcRail → HcRail) : (modHcRail s n f).obs = s.obs := rfl
@[simp] theorem modHcRail_fb (s : State) (n : Fin 4) (f : HcRail → HcRail) : (modHcRail s n f).fb = s.fb := rfl
@[simp] theorem modHcRail_ao (s : State) (n : Fin 4) (f : HcRail → HcRail) : (modHcRail s n f).ao = s.ao := rfl
@[simp] theorem modHcRail_aoClear (s : State) (n : Fin 4) (f : HcRail → HcRail) : (modHcRail s n f).aoClear = s.aoClear := rfl
@[simp] theorem modHcRail_hcAx (s : State) (n : Fin 4) (f : HcRail → HcRail) : (modHcRail s n f).hcAx = s.hcAx := rfl
@[simp] theorem modHcRail_hc (s : State) (n : Fin 4) (f : HcRail → HcRail) : (modHcRail s n f).hc = s.hc := rfl
@[simp] theorem modHcRail_bisc (s : State) (n : Fin 4) (f : HcRail → HcRail) : (modHcRail s n f).bisc = s.bisc := rfl
@[simp] theorem modHcRail_emq (s : State) (n : Fin 4) (f : HcRail → HcRail) : (modHcRail s n f).emq = s.emq := rfl
@[simp] theorem modHcRail_rcd (s : State) (n : Fin 4) (f : HcRail → HcRail) : (modHcRail s n f).rcd = s.rcd := rfl
@[simp] theorem modHcRail_nd (s : State) (n : Fin 4) (f : HcRail → HcRail) : (modHcRail s n f).nd = s.nd := rfl
@[simp] theorem modHcRail_upd (s : State) (n : Fin 4) (f : HcRail → HcRail) : (modHcRail s n f).upd = s.upd := rfl
@[simp] theorem modHcRail_fuse (s : State) (n : Fin 4) (f : HcRail → HcRail) : (modHcRail s n f).fuse = s.fuse := rfl
@[simp] theorem modHcRail_dbg (s : State) (n : Fin 4) (f : HcRail → HcRail) : (modHcRail s n f).dbg = s.dbg := rfl
@[simp] theorem modHcRail_free (s : State) (n : Fin 4) (f : HcRail → HcRail) : (modHcRail s n f).free = s.free := rfl
@[simp] theorem modHcRail_rg (s : State) (n : Fin 4) (f : HcRail → HcRail) (k : Nat) : rg (modHcRail s n f) k = rg s k := rfl

/-! ### evt -/

@[simp] theorem evt_pending (s : State) (i : Nat) : (evt s i).pending = s.pending := rfl
@[simp] theorem evt_regs (s : State) (i : Nat) : (evt s i).regs = s.regs := rfl
@[simp] theorem evt_clk (s : State) (i : Nat) : (evt s i).clk = s.clk := rfl
@[simp] theorem evt_pwr (s : State) (i : Nat) : (evt s i).pwr = s.pwr := rfl
@[simp] theorem evt_ds (s : State) (i : Nat) : (evt s i).ds = s.ds := rfl
@[simp] theorem evt_sup (s : State) (i : Nat) : (evt s i).sup = s.sup := rfl
@[simp] theorem evt_flt (s : State) (i : Nat) : (evt s i).flt = s.flt := rfl
@[simp] theorem evt_rt (s : State) (i : Nat) : (evt s i).rt = s.rt := rfl
@[simp] theorem evt_ax (s : State) (i : Nat) : (evt s i).ax = s.ax := rfl
@[simp] theorem evt_pwm (s : State) (i : Nat) : (evt s i).pwm = s.pwm := rfl
@[simp] theorem evt_gd (s : State) (i : Nat) : (evt s i).gd = s.gd := rfl
@[simp] theorem evt_loop (s : State) (i : Nat) : (evt s i).loop = s.loop := rfl
@[simp] theorem evt_ofs (s : State) (i : Nat) : (evt s i).ofs = s.ofs := rfl
@[simp] theorem evt_adc (s : State) (i : Nat) : (evt s i).adc = s.adc := rfl
@[simp] theorem evt_hk (s : State) (i : Nat) : (evt s i).hk = s.hk := rfl
@[simp] theorem evt_eng (s : State) (i : Nat) : (evt s i).eng = s.eng := rfl
@[simp] theorem evt_car (s : State) (i : Nat) : (evt s i).car = s.car := rfl
@[simp] theorem evt_rsv (s : State) (i : Nat) : (evt s i).rsv = s.rsv := rfl
@[simp] theorem evt_exc (s : State) (i : Nat) : (evt s i).exc = s.exc := rfl
@[simp] theorem evt_obs (s : State) (i : Nat) : (evt s i).obs = s.obs := rfl
@[simp] theorem evt_fb (s : State) (i : Nat) : (evt s i).fb = s.fb := rfl
@[simp] theorem evt_ao (s : State) (i : Nat) : (evt s i).ao = s.ao := rfl
@[simp] theorem evt_aoClear (s : State) (i : Nat) : (evt s i).aoClear = s.aoClear := rfl
@[simp] theorem evt_hcAx (s : State) (i : Nat) : (evt s i).hcAx = s.hcAx := rfl
@[simp] theorem evt_hcRail (s : State) (i : Nat) : (evt s i).hcRail = s.hcRail := rfl
@[simp] theorem evt_hc (s : State) (i : Nat) : (evt s i).hc = s.hc := rfl
@[simp] theorem evt_bisc (s : State) (i : Nat) : (evt s i).bisc = s.bisc := rfl
@[simp] theorem evt_emq (s : State) (i : Nat) : (evt s i).emq = s.emq := rfl
@[simp] theorem evt_rcd (s : State) (i : Nat) : (evt s i).rcd = s.rcd := rfl
@[simp] theorem evt_nd (s : State) (i : Nat) : (evt s i).nd = s.nd := rfl
@[simp] theorem evt_upd (s : State) (i : Nat) : (evt s i).upd = s.upd := rfl
@[simp] theorem evt_fuse (s : State) (i : Nat) : (evt s i).fuse = s.fuse := rfl
@[simp] theorem evt_dbg (s : State) (i : Nat) : (evt s i).dbg = s.dbg := rfl
@[simp] theorem evt_free (s : State) (i : Nat) : (evt s i).free = s.free := rfl
@[simp] theorem evt_rg (s : State) (i : Nat) (k : Nat) : rg (evt s i) k = rg s k := rfl

/-! ### modRing -/

@[simp] theorem modRing_pending (s : State) (r : Nat) (f : Ring → Ring) : (modRing s r f).pending = s.pending := rfl
@[simp] theorem modRing_regs (s : State) (r : Nat) (f : Ring → Ring) : (modRing s r f).regs = s.regs := rfl
@[simp] theorem modRing_clk (s : State) (r : Nat) (f : Ring → Ring) : (modRing s r f).clk = s.clk := rfl
@[simp] theorem modRing_pwr (s : State) (r : Nat) (f : Ring → Ring) : (modRing s r f).pwr = s.pwr := rfl
@[simp] theorem modRing_ds (s : State) (r : Nat) (f : Ring → Ring) : (modRing s r f).ds = s.ds := rfl
@[simp] theorem modRing_sup (s : State) (r : Nat) (f : Ring → Ring) : (modRing s r f).sup = s.sup := rfl
@[simp] theorem modRing_flt (s : State) (r : Nat) (f : Ring → Ring) : (modRing s r f).flt = s.flt := rfl
@[simp] theorem modRing_rt (s : State) (r : Nat) (f : Ring → Ring) : (modRing s r f).rt = s.rt := rfl
@[simp] theorem modRing_ax (s : State) (r : Nat) (f : Ring → Ring) : (modRing s r f).ax = s.ax := rfl
@[simp] theorem modRing_pwm (s : State) (r : Nat) (f : Ring → Ring) : (modRing s r f).pwm = s.pwm := rfl
@[simp] theorem modRing_gd (s : State) (r : Nat) (f : Ring → Ring) : (modRing s r f).gd = s.gd := rfl
@[simp] theorem modRing_loop (s : State) (r : Nat) (f : Ring → Ring) : (modRing s r f).loop = s.loop := rfl
@[simp] theorem modRing_ofs (s : State) (r : Nat) (f : Ring → Ring) : (modRing s r f).ofs = s.ofs := rfl
@[simp] theorem modRing_adc (s : State) (r : Nat) (f : Ring → Ring) : (modRing s r f).adc = s.adc := rfl
@[simp] theorem modRing_hk (s : State) (r : Nat) (f : Ring → Ring) : (modRing s r f).hk = s.hk := rfl
@[simp] theorem modRing_eng (s : State) (r : Nat) (f : Ring → Ring) : (modRing s r f).eng = s.eng := rfl
@[simp] theorem modRing_car (s : State) (r : Nat) (f : Ring → Ring) : (modRing s r f).car = s.car := rfl
@[simp] theorem modRing_rsv (s : State) (r : Nat) (f : Ring → Ring) : (modRing s r f).rsv = s.rsv := rfl
@[simp] theorem modRing_exc (s : State) (r : Nat) (f : Ring → Ring) : (modRing s r f).exc = s.exc := rfl
@[simp] theorem modRing_obs (s : State) (r : Nat) (f : Ring → Ring) : (modRing s r f).obs = s.obs := rfl
@[simp] theorem modRing_fb (s : State) (r : Nat) (f : Ring → Ring) : (modRing s r f).fb = s.fb := rfl
@[simp] theorem modRing_ao (s : State) (r : Nat) (f : Ring → Ring) : (modRing s r f).ao = s.ao := rfl
@[simp] theorem modRing_aoClear (s : State) (r : Nat) (f : Ring → Ring) : (modRing s r f).aoClear = s.aoClear := rfl
@[simp] theorem modRing_hcAx (s : State) (r : Nat) (f : Ring → Ring) : (modRing s r f).hcAx = s.hcAx := rfl
@[simp] theorem modRing_hcRail (s : State) (r : Nat) (f : Ring → Ring) : (modRing s r f).hcRail = s.hcRail := rfl
@[simp] theorem modRing_hc (s : State) (r : Nat) (f : Ring → Ring) : (modRing s r f).hc = s.hc := rfl
@[simp] theorem modRing_bisc (s : State) (r : Nat) (f : Ring → Ring) : (modRing s r f).bisc = s.bisc := rfl
@[simp] theorem modRing_emq (s : State) (r : Nat) (f : Ring → Ring) : (modRing s r f).emq = s.emq := rfl
@[simp] theorem modRing_rcd (s : State) (r : Nat) (f : Ring → Ring) : (modRing s r f).rcd = s.rcd := rfl
@[simp] theorem modRing_nd (s : State) (r : Nat) (f : Ring → Ring) : (modRing s r f).nd = s.nd := rfl
@[simp] theorem modRing_upd (s : State) (r : Nat) (f : Ring → Ring) : (modRing s r f).upd = s.upd := rfl
@[simp] theorem modRing_fuse (s : State) (r : Nat) (f : Ring → Ring) : (modRing s r f).fuse = s.fuse := rfl
@[simp] theorem modRing_dbg (s : State) (r : Nat) (f : Ring → Ring) : (modRing s r f).dbg = s.dbg := rfl
@[simp] theorem modRing_free (s : State) (r : Nat) (f : Ring → Ring) : (modRing s r f).free = s.free := rfl
@[simp] theorem modRing_rg (s : State) (r : Nat) (f : Ring → Ring) (k : Nat) : rg (modRing s r f) k = rg s k := rfl

/-! ### setMark -/

@[simp] theorem setMark_pending (s : State) (j t : Nat) : (setMark s j t).pending = s.pending := rfl
@[simp] theorem setMark_regs (s : State) (j t : Nat) : (setMark s j t).regs = s.regs := rfl
@[simp] theorem setMark_pwr (s : State) (j t : Nat) : (setMark s j t).pwr = s.pwr := rfl
@[simp] theorem setMark_ds (s : State) (j t : Nat) : (setMark s j t).ds = s.ds := rfl
@[simp] theorem setMark_sup (s : State) (j t : Nat) : (setMark s j t).sup = s.sup := rfl
@[simp] theorem setMark_flt (s : State) (j t : Nat) : (setMark s j t).flt = s.flt := rfl
@[simp] theorem setMark_link (s : State) (j t : Nat) : (setMark s j t).link = s.link := rfl
@[simp] theorem setMark_rt (s : State) (j t : Nat) : (setMark s j t).rt = s.rt := rfl
@[simp] theorem setMark_ax (s : State) (j t : Nat) : (setMark s j t).ax = s.ax := rfl
@[simp] theorem setMark_pwm (s : State) (j t : Nat) : (setMark s j t).pwm = s.pwm := rfl
@[simp] theorem setMark_gd (s : State) (j t : Nat) : (setMark s j t).gd = s.gd := rfl
@[simp] theorem setMark_loop (s : State) (j t : Nat) : (setMark s j t).loop = s.loop := rfl
@[simp] theorem setMark_ofs (s : State) (j t : Nat) : (setMark s j t).ofs = s.ofs := rfl
@[simp] theorem setMark_adc (s : State) (j t : Nat) : (setMark s j t).adc = s.adc := rfl
@[simp] theorem setMark_hk (s : State) (j t : Nat) : (setMark s j t).hk = s.hk := rfl
@[simp] theorem setMark_eng (s : State) (j t : Nat) : (setMark s j t).eng = s.eng := rfl
@[simp] theorem setMark_car (s : State) (j t : Nat) : (setMark s j t).car = s.car := rfl
@[simp] theorem setMark_rsv (s : State) (j t : Nat) : (setMark s j t).rsv = s.rsv := rfl
@[simp] theorem setMark_exc (s : State) (j t : Nat) : (setMark s j t).exc = s.exc := rfl
@[simp] theorem setMark_obs (s : State) (j t : Nat) : (setMark s j t).obs = s.obs := rfl
@[simp] theorem setMark_fb (s : State) (j t : Nat) : (setMark s j t).fb = s.fb := rfl
@[simp] theorem setMark_ao (s : State) (j t : Nat) : (setMark s j t).ao = s.ao := rfl
@[simp] theorem setMark_aoClear (s : State) (j t : Nat) : (setMark s j t).aoClear = s.aoClear := rfl
@[simp] theorem setMark_hcAx (s : State) (j t : Nat) : (setMark s j t).hcAx = s.hcAx := rfl
@[simp] theorem setMark_hcRail (s : State) (j t : Nat) : (setMark s j t).hcRail = s.hcRail := rfl
@[simp] theorem setMark_hc (s : State) (j t : Nat) : (setMark s j t).hc = s.hc := rfl
@[simp] theorem setMark_bisc (s : State) (j t : Nat) : (setMark s j t).bisc = s.bisc := rfl
@[simp] theorem setMark_emq (s : State) (j t : Nat) : (setMark s j t).emq = s.emq := rfl
@[simp] theorem setMark_rcd (s : State) (j t : Nat) : (setMark s j t).rcd = s.rcd := rfl
@[simp] theorem setMark_nd (s : State) (j t : Nat) : (setMark s j t).nd = s.nd := rfl
@[simp] theorem setMark_upd (s : State) (j t : Nat) : (setMark s j t).upd = s.upd := rfl
@[simp] theorem setMark_fuse (s : State) (j t : Nat) : (setMark s j t).fuse = s.fuse := rfl
@[simp] theorem setMark_dbg (s : State) (j t : Nat) : (setMark s j t).dbg = s.dbg := rfl
@[simp] theorem setMark_free (s : State) (j t : Nat) : (setMark s j t).free = s.free := rfl
@[simp] theorem setMark_rg (s : State) (j t : Nat) (k : Nat) : rg (setMark s j t) k = rg s k := rfl

/-! ### Vectors of blocks -/

@[simp] theorem modV_same {α : Type} {n : Nat} (v : Vector α n) (i : Fin n) (f : α → α) : (modV v i f)[i] = f v[i] := by
  simp [modV]

theorem modV_ne {α : Type} {n : Nat} (v : Vector α n) {i j : Fin n} (f : α → α) (h : i ≠ j) : (modV v i f)[j] = v[j] := by
  simp only [modV, Fin.getElem_fin]
  rw [Vector.getElem_set_ne]
  intro h2
  exact h (Fin.ext h2)

/-! ### The event word -/

@[simp] theorem evt_buf (s : State) (i : Nat) : (evt s i).link.buf = s.link.buf := rfl

@[simp] theorem evt_rings (s : State) (i : Nat) : (evt s i).link.rings = s.link.rings := rfl

/-- A sticky event is set by its occurrence and stays set by any other. -/
theorem evt_bit (s : State) (i j : Nat) : bitOf (evt s i).link.events j = (decide (j = i) || bitOf s.link.events j) := by
  unfold bitOf evt
  rw [Nat.testBit_or, Nat.testBit_two_pow, Bool.or_comm]
  congr 1
  exact decide_eq_decide.mpr eq_comm

@[simp] theorem modRing_buf (s : State) (r : Nat) (f : Ring → Ring) : (modRing s r f).link.buf = s.link.buf := rfl

@[simp] theorem modRing_events (s : State) (r : Nat) (f : Ring → Ring) : (modRing s r f).link.events = s.link.events := rfl

end Sys2Proof.Machine
end

