-- ==== Sys2Proof/Laws/Quiet.lean ====
section
/-! SUPPORT. What posting a frame, staging a slice, changing an axis's state and an event of the fault manager leave alone, said once for
all of them. -/

namespace Sys2Proof.Machine

namespace Quiet

theorem refl (s : State) : Quiet s s :=
  ⟨rfl, rfl, rfl, rfl, rfl, rfl, rfl, rfl, rfl, rfl, rfl, rfl, rfl, rfl, rfl, rfl, rfl, rfl, rfl, rfl, rfl, id, fun _ _ => rfl⟩

theorem trans {s t u : State} (h : Quiet s t) (g : Quiet t u) : Quiet s u where
  pending := g.pending.trans h.pending
  pwr := (congrArg (fun p : Pwr => { p with idleUs := s.pwr.idleUs }) g.pwr).trans h.pwr
  ds := g.ds.trans h.ds
  adc := g.adc.trans h.adc
  hk := g.hk.trans h.hk
  eng := g.eng.trans h.eng
  rsv := g.rsv.trans h.rsv
  exc := g.exc.trans h.exc
  fb := g.fb.trans h.fb
  ao := g.ao.trans h.ao
  aoClear := g.aoClear.trans h.aoClear
  hcRail := g.hcRail.trans h.hcRail
  hc := g.hc.trans h.hc
  bisc := g.bisc.trans h.bisc
  nd := g.nd.trans h.nd
  upd := g.upd.trans h.upd
  fuse := g.fuse.trans h.fuse
  dbg := g.dbg.trans h.dbg
  free := g.free.trans h.free
  tb := g.tb.trans h.tb
  us := g.us.trans h.us
  safe := fun e => g.safe (h.safe e)
  keys := fun k hk => (g.keys k hk).trans (h.keys k hk)

theorem ite {c : Prop} [Decidable c] {s a b : State} (ha : Quiet s a) (hb : Quiet s b) : Quiet s (if c then a else b) := by
  split
  · exact ha
  · exact hb

/-- An update of the parts that the relation leaves open. -/
theorem upd_open (s : State) (rt : Rt) (link : Link) (emq : Emq) (rcd : Rec) (sup : Sup) :
    Quiet s { s with rt := rt, link := link, emq := emq, rcd := rcd, sup := sup } :=
  ⟨rfl, rfl, rfl, rfl, rfl, rfl, rfl, rfl, rfl, rfl, rfl, rfl, rfl, rfl, rfl, rfl, rfl, rfl, rfl, rfl, rfl, id, fun _ _ => rfl⟩

/-- An update of the fault manager that does not leave DEVICE_SAFE. -/
theorem upd_flt (s : State) (flt : Flt) (h : s.flt.safeMode = true → flt.safeMode = true) : Quiet s { s with flt := flt } :=
  ⟨rfl, rfl, rfl, rfl, rfl, rfl, rfl, rfl, rfl, rfl, rfl, rfl, rfl, rfl, rfl, rfl, rfl, rfl, rfl, rfl, rfl, h, fun _ _ => rfl⟩

theorem upd_snaps (s : State) (xs : List Snap) : Quiet s { s with flt := { s.flt with snaps := xs } } := upd_flt s _ id

theorem setR {s : State} {k : Nat} (v : Word) (h : k ∈ ledgerKeys) : Quiet s (setR s k v) where
  pending := rfl
  pwr := rfl
  ds := rfl
  adc := rfl
  hk := rfl
  eng := rfl
  rsv := rfl
  exc := rfl
  fb := rfl
  ao := rfl
  aoClear := rfl
  hcRail := rfl
  hc := rfl
  bisc := rfl
  nd := rfl
  upd := rfl
  fuse := rfl
  dbg := rfl
  free := rfl
  tb := rfl
  us := rfl
  safe := id
  keys := fun _ hj => rg_setR_ne s v (fun e => hj (e ▸ h))

theorem foldl {α : Type} (xs : List α) (f : State → α → State) (hf : ∀ s x, Quiet s (f s x)) (s : State) : Quiet s (xs.foldl f s) := by
  induction xs generalizing s with
  | nil => exact refl s
  | cons x xs ih => exact (hf s x).trans (ih (f s x))

theorem each {α : Type} (xs : List α) (f : State → α → State) (hf : ∀ s x, Quiet s (f s x)) (s : State) : Quiet s (forEach xs s f) :=
  foldl xs f hf s

end Quiet

/-! ### Posting -/

theorem modRing_quiet (s : State) (r : Nat) (f : Ring → Ring) : Quiet s (modRing s r f) :=
  Quiet.upd_open s _ _ _ _ _

theorem evt_quiet (s : State) (i : Nat) : Quiet s (evt s i) := Quiet.upd_open s _ _ _ _ _

theorem ringPut_quiet (s : State) (r : Nat) (bs : List Byte) : Quiet s (ringPut s r bs) := Quiet.upd_open s _ _ _ _ _

theorem postBytes_quiet (s : State) (r : Nat) (bs : List Byte) : Quiet s (postBytes s r bs) :=
  Quiet.ite (ringPut_quiet s r bs) (Quiet.upd_open s _ _ _ _ _)

theorem streamBytes_quiet (s : State) (r : Nat) (bs : List Byte) : Quiet s (streamBytes s r bs) :=
  Quiet.ite (ringPut_quiet s r bs) ((modRing_quiet s _ _).trans (evt_quiet _ _))

theorem forwardBytes_quiet (s : State) (hi re : Bool) (d : Nat) (due : Option Nat) (key : Option (Nat × Nat)) (bs : List Byte) :
    Quiet s (forwardBytes s hi re d due key bs) := Quiet.upd_open s _ _ _ _ _

theorem sendResp_quiet (s : State) (r : Req) (op st : Nat) (p : List Byte) : Quiet s (sendResp s r op st p) :=
  Quiet.ite (forwardBytes_quiet s _ _ _ _ _ _) (postBytes_quiet s _ _)

theorem countFail_quiet (s : State) (r : Req) (op st : Nat) : Quiet s (countFail s r op st) :=
  Quiet.ite (Quiet.refl s) ((Quiet.setR _ (by decide)).trans (Quiet.setR _ (by decide)))

theorem answer_quiet (s : State) (r : Req) (op st : Nat) (p : List Byte) : Quiet s (answer s r op st p) :=
  (countFail_quiet s r op st).trans (Quiet.ite (Quiet.refl _) (sendResp_quiet _ _ _ _ _))

theorem latch_quiet (s : State) (r : Req) : Quiet s (latch s r) := Quiet.upd_open s _ _ _ _ _

theorem answerAgg_quiet (s : State) (r : Req) (op : Nat) (got : List TRes) (late : Bool) : Quiet s (answerAgg s r op got late) := by
  unfold answerAgg
  refine (countFail_quiet s r op _).trans (Quiet.ite (Quiet.refl _) (Quiet.ite ?_ ?_))
  · exact forwardBytes_quiet _ _ _ _ _ _ _
  · exact postBytes_quiet _ _ _

theorem aggOpen_quiet (s : State) (r : Req) (op : Nat) : Quiet s (aggOpen s r op) :=
  Quiet.ite (Quiet.refl s) (Quiet.upd_open s _ _ _ _ _)

theorem aggAdd_quiet (s : State) (r : Req) (got : List TRes) : Quiet s (aggAdd s r got) :=
  (Quiet.upd_open s _ _ _ _ _).trans (Quiet.each _ _ (fun s _ => answerAgg_quiet s _ _ _ _) _)

theorem latchAns_quiet (s : State) (r : Req) (a : Ans) : Quiet s (latchAns s r a) := Quiet.ite (Quiet.refl s) (latch_quiet s r)

theorem finishDev_quiet (s : State) (r : Req) (op st : Nat) (p : List Byte) : Quiet s (finishDev s r op st p) :=
  Quiet.ite ((latch_quiet s r).trans (aggAdd_quiet _ _ _)) ((latch_quiet s r).trans (answer_quiet _ _ _ _ _))

theorem addWait_quiet (s : State) (w : Wait) : Quiet s (addWait s w) := Quiet.upd_open s _ _ _ _ _

theorem finishWait_quiet (s : State) (w : Wait) (st : Nat) (p : List Byte) : Quiet s (finishWait s w st p) := by
  unfold finishWait
  split
  · exact Quiet.ite ((Quiet.ite (Quiet.refl s) (latch_quiet s _)).trans (aggAdd_quiet _ _ _))
      ((latch_quiet s _).trans (answer_quiet _ _ _ _ _))
  · exact finishDev_quiet s _ _ _ _

theorem endWaits_quiet (s : State) (p : Wait → Bool) (f : State → Wait → Nat × List Byte) : Quiet s (endWaits s p f) :=
  (Quiet.upd_open s _ _ _ _ _).trans (Quiet.each _ _ (fun s w => finishWait_quiet s w _ _) _)

/-! ### Staging -/

theorem dropEvent_quiet (s : State) : Quiet s (dropEvent s) := (Quiet.setR _ (by decide)).trans (Quiet.setR _ (by decide))

theorem pushStaged_quiet (s : State) (x : Staged) : Quiet s (pushStaged s x) := Quiet.upd_open s _ _ _ _ _

theorem makeRoom_quiet (need fuel : Nat) (s : State) : Quiet s (makeRoom need fuel s) := by
  induction fuel generalizing s with
  | zero => exact Quiet.refl s
  | succ fuel ih =>
    unfold makeRoom
    split
    · exact Quiet.refl s
    · split
      · exact ((Quiet.upd_open s _ _ _ _ _).trans (dropEvent_quiet _)).trans (ih _)
      · exact Quiet.refl s

theorem stageSlice_quiet (s : State) (kind : Nat) (p : List Byte) (pin : Bool) : Quiet s (stageSlice s kind p pin) :=
  (makeRoom_quiet _ _ s).trans (pushStaged_quiet _ _)

theorem stageEvent_quiet (s : State) (code idx count : Nat) (data : List Byte) : Quiet s (stageEvent s code idx count data) :=
  Quiet.ite (pushStaged_quiet s _) (dropEvent_quiet s)

/-! ### Axes -/

theorem modAx_quiet (s : State) (n : Axis) (f : AxBase → AxBase) : Quiet s (modAx s n f) := by
  constructor <;> first | rfl | exact id | exact fun _ _ => rfl
theorem modPwm_quiet (s : State) (n : Axis) (f : PwmAx → PwmAx) : Quiet s (modPwm s n f) := by
  constructor <;> first | rfl | exact id | exact fun _ _ => rfl
theorem modGd_quiet (s : State) (n : Axis) (f : GdAx → GdAx) : Quiet s (modGd s n f) := by
  constructor <;> first | rfl | exact id | exact fun _ _ => rfl
theorem modLoop_quiet (s : State) (n : Axis) (f : LoopAx → LoopAx) : Quiet s (modLoop s n f) := by
  constructor <;> first | rfl | exact id | exact fun _ _ => rfl
theorem modOfs_quiet (s : State) (n : Axis) (f : OfsAx → OfsAx) : Quiet s (modOfs s n f) := by
  constructor <;> first | rfl | exact id | exact fun _ _ => rfl
theorem modCar_quiet (s : State) (n : Axis) (f : CarAx → CarAx) : Quiet s (modCar s n f) := by
  constructor <;> first | rfl | exact id | exact fun _ _ => rfl
theorem modObs_quiet (s : State) (n : Axis) (f : ObsAx → ObsAx) : Quiet s (modObs s n f) := by
  constructor <;> first | rfl | exact id | exact fun _ _ => rfl
theorem modHcAx_quiet (s : State) (n : Axis) (f : HcAx → HcAx) : Quiet s (modHcAx s n f) := by
  constructor <;> first | rfl | exact id | exact fun _ _ => rfl
theorem setMark_quiet (s : State) (k t : Nat) : Quiet s (setMark s k t) := by
  constructor <;> first | rfl | exact id | exact fun _ _ => rfl

theorem atcRestart_quiet (s : State) (m : Axis) : Quiet s (atcRestart s m) := modPwm_quiet s m _

theorem withLines_quiet (s : State) (n : Axis) (f : State → State) (hf : Quiet s (f s)) : Quiet s (withLines s n f) :=
  Quiet.ite hf (hf.trans (modPwm_quiet _ _ _))

theorem withEdges_quiet (s : State) (n : Axis) (f : State → State) (hf : Quiet s (f s)) : Quiet s (withEdges s n f) := by
  have h := withLines_quiet s n f hf
  exact Quiet.ite h (h.trans (Quiet.each _ _ (fun s m => atcRestart_quiet s m) _))

theorem gatesOff_quiet (s : State) (n : Axis) : Quiet s (gatesOff s n) := withEdges_quiet s n _ (modPwm_quiet s n _)
theorem gatesShort_quiet (s : State) (n : Axis) : Quiet s (gatesShort s n) := withEdges_quiet s n _ (modPwm_quiet s n _)
theorem gatesModule_quiet (s : State) (n : Axis) : Quiet s (gatesModule s n) := withEdges_quiet s n _ (modPwm_quiet s n _)

theorem gatesFault_quiet (s : State) (n : Axis) (b : Bool) : Quiet s (gatesFault s n b) := withLines_quiet s n _ (modPwm_quiet s n _)

theorem idleAgain_quiet (s : State) : Quiet s (idleAgain s) := by
  constructor <;> first | rfl | exact id | exact fun _ _ => rfl

theorem discardPlan_quiet (s : State) (n : Axis) : Quiet s (discardPlan s n) := (modCar_quiet s n _).trans (modHcAx_quiet _ n _)

theorem answerDeferred_quiet (s : State) (d : Deferred) (st : Nat) (p : List Byte) : Quiet s (answerDeferred s d st p) :=
  Quiet.ite ((latch_quiet s _).trans (answerAgg_quiet _ _ _ _ _)) ((latch_quiet s _).trans (answer_quiet _ _ _ _ _))

theorem dropDeferred_quiet (s : State) (p : Deferred → Bool) (st : Nat) : Quiet s (dropDeferred s p st) :=
  (Quiet.upd_open s _ _ _ _ _).trans (Quiet.each _ _ (fun s d => answerDeferred_quiet s d _ _) _)

theorem leavePosition_quiet (s : State) (n : Axis) : Quiet s (leavePosition s n) :=
  ((discardPlan_quiet s n).trans (endWaits_quiet _ _ _)).trans (dropDeferred_quiet _ _ _)

theorem axisTo_quiet (s : State) (n : Axis) (st : AxState) : Quiet s (axisTo s n st) := by
  unfold axisTo
  refine Quiet.ite (Quiet.refl s) (Quiet.trans ?_ (endWaits_quiet _ _ _))
  exact Quiet.ite (((modAx_quiet s n _).trans (evt_quiet _ _)).trans (leavePosition_quiet _ n)) ((modAx_quiet s n _).trans (evt_quiet _ _))

theorem openLoops_quiet (s : State) (n : Axis) : Quiet s (openLoops s n) := modLoop_quiet s n _

theorem setReq_quiet (s : State) (n : Axis) (on : Bool) : Quiet s (setReq s n on) := Quiet.upd_open s _ _ _ _ _

theorem beginLearn_quiet (s : State) (n : Axis) : Quiet s (beginLearn s n) := (modOfs_quiet s n _).trans (setMark_quiet _ _ _)

theorem passes_ledger (n : Axis) : Sig.LP_PASSES n.val ∈ ledgerKeys := by
  revert n
  decide

theorem setPasses_quiet (s : State) (n : Axis) (p : Nat) : Quiet s (setPasses s n p) :=
  (modLoop_quiet s n _).trans (Quiet.setR _ (passes_ledger n))

theorem modeDone_quiet (s : State) : Quiet s (modeDone s) := Quiet.ite (endWaits_quiet s _ _) (Quiet.refl s)

theorem passSettle_quiet (s : State) (n : Axis) : Quiet s (passSettle s n) := by
  unfold passSettle
  split
  · exact (setPasses_quiet s n _).trans (modeDone_quiet _)
  · exact Quiet.refl s

theorem toDisabled_quiet (s : State) (n : Axis) : Quiet s (toDisabled s n) := by
  unfold toDisabled
  refine Quiet.ite (Quiet.refl s) ?_
  have h := ((((((gatesOff_quiet s n).trans (modPwm_quiet _ n PwmAx.stop)).trans (openLoops_quiet _ n)).trans (passSettle_quiet _ n)).trans
    (modGd_quiet _ n GdAx.noPulses)).trans (setReq_quiet _ n false)).trans
    (modObs_quiet _ n (fun o => { o with sens := false, est := 0, enter := none }))
  have h2 := (h.trans (axisTo_quiet _ n .disabled)).trans (idleAgain_quiet _)
  exact Quiet.ite (h2.trans (beginLearn_quiet _ n)) h2

theorem toFault_quiet (s : State) (n : Axis) (serve : Bool) : Quiet s (toFault s n serve) := by
  unfold toFault
  refine Quiet.ite (Quiet.refl s) ?_
  have h := ((openLoops_quiet s n).trans (modGd_quiet _ n GdAx.noPulses)).trans (modPwm_quiet _ n
    (fun p => { p.mapCh (fun c => { c with act := halfCompare (modGd (openLoops s n) n GdAx.noPulses) n }) with live := true }))
  exact (h.trans (withLines_quiet _ n (fun s => modAx (axisTo s n .fault) n (fun b => { b with serve := serve }))
    ((axisTo_quiet _ n .fault).trans (modAx_quiet _ n _)))).trans (gatesFault_quiet _ n serve)

theorem toShort_quiet (s : State) (n : Axis) : Quiet s (toShort s n) := by
  unfold toShort
  refine Quiet.ite (Quiet.refl s) ?_
  exact (((openLoops_quiet s n).trans (modGd_quiet _ n GdAx.noPulses)).trans
    (withEdges_quiet _ n (fun s => axisTo s n .safeShort) (axisTo_quiet _ n .safeShort))).trans (gatesShort_quiet _ n)

theorem toPattern_quiet (s : State) (n : Axis) : Quiet s (toPattern s n) := Quiet.ite (toShort_quiet s n) (toFault_quiet s n false)

theorem toHold_quiet (s : State) (n : Axis) (b : Bool) : Quiet s (toHold s n b) := by
  unfold toHold
  split
  all_goals first
    | exact (((modCar_quiet s n _).trans (modLoop_quiet _ n _)).trans (axisTo_quiet _ n .hold)).trans (modAx_quiet _ n _)
    | exact (modLoop_quiet s n _).trans (modAx_quiet _ n _)
    | exact Quiet.ite (toDisabled_quiet s n) (Quiet.refl s)
    | exact Quiet.refl s

/-! ### The fault manager -/

theorem setSrc_quiet (s : State) (code : Nat) (f : FltSrc) : Quiet s (setSrc s code f) := Quiet.upd_flt s _ id

theorem stageSnaps_quiet (s : State) (p : Snap → Bool) : Quiet s (stageSnaps s p) :=
  (Quiet.upd_snaps s _).trans (Quiet.each _ _ (fun s _ => stageSlice_quiet s _ _ _) _)

theorem openSnap_quiet (s : State) (code react prior : Nat) : Quiet s (openSnap s code react prior) := by
  unfold openSnap
  dsimp only
  split
  · exact stageEvent_quiet s _ _ _ _
  · exact (Quiet.upd_snaps s _).trans (stageSnaps_quiet _ _)

theorem emptyDeferred_quiet (s : State) : Quiet s (emptyDeferred s) := dropDeferred_quiet s _ _

theorem enterSafe_quiet (s : State) (code : Nat) : Quiet s (enterSafe s code) := by
  unfold enterSafe
  refine Quiet.ite (Quiet.refl s) ?_
  have h1 : Quiet s (setN { s with flt := { s.flt with safeMode := true } } Sig.FLT_SAFE_CAUSE code) :=
    (Quiet.upd_flt s _ (fun _ => rfl)).trans (Quiet.setR _ (by decide))
  have h2 := h1.trans (Quiet.each allAxes toPattern toPattern_quiet _)
  have h3 := h2.trans (Quiet.each allAxes discardPlan discardPlan_quiet _)
  refine (((h3.trans (Quiet.upd_open _ _ _ _ _ _)).trans (Quiet.setR _ ?_)).trans (evt_quiet _ 73)).trans (emptyDeferred_quiet _)
  decide

/-- Entering DEVICE_SAFE leaves the device in it. -/
theorem enterSafe_safe (s : State) (code : Nat) : (enterSafe s code).flt.safeMode = true := by
  unfold enterSafe
  split
  · assumption
  · refine Quiet.safe (s := setN { s with flt := { s.flt with safeMode := true } } Sig.FLT_SAFE_CAUSE code) ?_ rfl
    have h2 := Quiet.each allAxes toPattern toPattern_quiet
      (setN { s with flt := { s.flt with safeMode := true } } Sig.FLT_SAFE_CAUSE code)
    have h3 := h2.trans (Quiet.each allAxes discardPlan discardPlan_quiet _)
    refine (((h3.trans (Quiet.upd_open _ _ _ _ _ _)).trans (Quiet.setR _ ?_)).trans (evt_quiet _ 73)).trans (emptyDeferred_quiet _)
    decide

theorem reactAxis_quiet (s : State) (n : Axis) (r : Nat) : Quiet s (reactAxis s n r) := by
  unfold reactAxis
  dsimp only
  split
  · exact modAx_quiet s n _
  · exact toHold_quiet s n true
  · exact Quiet.ite (toFault_quiet s n true) (Quiet.refl s)
  · exact Quiet.ite (toFault_quiet s n false) (Quiet.refl s)
  · exact Quiet.ite (toShort_quiet s n) (Quiet.refl s)
  · exact Quiet.refl s

theorem applyReact_quiet (s : State) (code r : Nat) : Quiet s (applyReact s code r) := by
  unfold applyReact
  split
  · exact enterSafe_quiet s code
  · split
    · exact reactAxis_quiet s _ r
    · exact Quiet.each _ _ (fun s n => reactAxis_quiet s n r) s

theorem transientSlice_quiet (s : State) (code : Nat) : Quiet s (transientSlice s code) :=
  Quiet.ite ((setSrc_quiet s code _).trans (stageEvent_quiet _ _ _ _ _)) (Quiet.refl s)

theorem countLasting_quiet (s : State) (code : Nat) : Quiet s (countLasting s code) := by
  unfold countLasting
  split
  · exact Quiet.upd_open s _ _ _ _ _
  · exact Quiet.refl s

/-- An event of a fault source leaves alone all that the relation names. -/
theorem faultEvtB_quiet (s : State) (code : Nat) (bind : Bool) : Quiet s (faultEvtB s code bind) := by
  unfold faultEvtB
  dsimp only
  split
  · exact setSrc_quiet s code _
  · split
    · refine Quiet.trans ?_ (applyReact_quiet _ code _)
      refine Quiet.trans ?_ (openSnap_quiet _ code _ _)
      have h := (setSrc_quiet s code { srcOf s code with
        events := (srcOf s code).events + 1, since := (srcOf s code).since + 1, last := some (stamp100 s), lastUs := usTime s,
        hist := newest 255 ((srcOf s code).hist ++ [stamp100 s]), lasting := true,
        applied := if (bind || decide ((srcOf s code).react ≤ reAdvise)) = true then (srcOf s code).react else reAdvise }).trans
        (countLasting_quiet _ code)
      split <;> exact h.trans (evt_quiet _ _)
    · exact (setSrc_quiet s code _).trans (transientSlice_quiet _ code)

theorem faultEvt_quiet (s : State) (code : Nat) : Quiet s (faultEvt s code) := faultEvtB_quiet s code _

theorem axFault_quiet (s : State) (n : Axis) (src : Nat) : Quiet s (axFault s n src) := faultEvt_quiet s _

theorem devFault_quiet (s : State) (src : Nat) : Quiet s (devFault s src) := faultEvt_quiet s _

theorem beginStop_quiet_fields (s : State) : (beginStop s).pwr.stopping = true ∧ (beginStop s).clk.us = s.clk.us := by
  unfold beginStop
  split
  · exact ⟨by assumption, rfl⟩
  · have h := ((((Quiet.each allAxes toPattern toPattern_quiet s).trans (Quiet.each allAxes discardPlan discardPlan_quiet _)).trans
      (emptyDeferred_quiet _)).trans (stageSnaps_quiet _ (fun _ => true)))
    exact ⟨rfl, h.us⟩

end Sys2Proof.Machine
end

