-- ==== Sys2Proof/Tests/Slice0.lean ====
section
/-! SUPPORT. Own tests: the well-formedness check refuses an ill-formed term for each of its parts, a few single steps on small states with
their expected results taken from the spec, and, for every statement with hypotheses, a state and operands that meet them clause by
clause (`witness_` and the statement's name). -/

namespace Sys2Proof.Tests

set_option Elab.async false

open Sys2Proof Sys2Proof.Machine

/-! ### Small states -/

/-- A booted device in RUN. -/
def up : State := { State.reset with pwr := { State.reset.pwr with st := .run, booted := true, ready := true } }

/-- A booted device in STANDBY. -/
def sby : State := { State.reset with pwr := { State.reset.pwr with booted := true, ready := true } }

/-- A request of ring 0 to this device, its answer in ring 16, for an axis. -/
def rq (axis : Nat) : Req := ⟨0, 7, false, 0, axis, 0, 16, 0, false, 0, 0⟩

/-- A boot that finds nothing wrong. -/
def env0 : BootEnv := ⟨0, true, true, true, true, [], [], true, [], true, true, false, true, [], [], false, 1000⟩

/-- A fuse request that finds nothing wrong. -/
def fenv : FuseEnv := ⟨true, [0, 85], [], none, none⟩

/-- An axis put into a state. -/
def axIn (s : State) (n : Axis) (x : AxState) : State := modAx s n (fun b => { b with st := x })

/-- The CD held by a low VIO. -/
def vioDown : State := { State.reset with pwr := { State.reset.pwr with vioLow := true } }

/-- The CD held by a low VCORE, and by both. -/
def vcoreDown : State := { State.reset with pwr := { State.reset.pwr with vcoreLow := true } }
def bothDown : State := { State.reset with pwr := { State.reset.pwr with vioLow := true, vcoreLow := true } }

/-- Bytes with their CRC-32 behind them. -/
def sealed (body : List Byte) : List Byte := body ++ wordBytes (crc32 body)

/-! ### Conditions of commands -/

theorem accepted_of {s : State} {r : Req} {op : Nat} {special : Bool}
    (h : (serves s && !lateReq s r && decide (commandBar s op special = stOk) && !aggregated r op) = true) : Accepted s r op special := by
  simp only [Bool.and_eq_true, Bool.not_eq_true', decide_eq_true_eq] at h
  exact ⟨h.1.1.1, h.1.1.2, h.1.2, h.2⟩

theorem writeAccepted_of {s : State} {r : Req} {key : Nat} {v : Word}
    (h : (serves s && !lateReq s r && decide (commandBar s opSigWrite false = stOk) && !aggregated r opSigWrite) = true)
    (hv : writeStatus (unhand s r) false (sidOf s key) v = stOk) : WriteAccepted s r key v := ⟨accepted_of h, hv⟩

theorem canPost_of {s : State} {ring len : Nat}
    (h : (decide (ring < s.link.rings.length) && !s.dbg.haltMp && !(s.rt.blocked.any (fun b => b.1 == ring)) &&
      (ringAt s ring).room len) = true) : CanPost s ring len := by
  simp only [Bool.and_eq_true, Bool.not_eq_true', decide_eq_true_eq] at h
  exact ⟨h.1.1.1, h.1.1.2, h.1.2, h.2⟩

theorem dbgAccepted_of {s : State} {q : DbgReq} {op data : Nat}
    (h : (linkPowered s && s.pwr.booted && q.crcOk && decide (s.dbg.lastSeq ≠ some q.seq) && dbgValid q op data &&
      !dbgBarred s op) = true) : DbgAccepted s q op data := by
  simp only [Bool.and_eq_true, Bool.not_eq_true', decide_eq_true_eq] at h
  exact ⟨h.1.1.1.1.1, h.1.1.1.1.2, h.1.1.1.2, h.1.1.2, h.1.2, h.2⟩

theorem readOk_of {s : State} {w : Word}
    (h : (match sidRow s false w with | some (k, row) => decide (row.acc ≠ .wo) && !fuseHidden s k | none => false) = true) :
    readStatus s false w = stOk := by
  unfold readStatus
  split at h
  · rename_i k row hk
    rw [hk]
    simp only [Bool.and_eq_true, decide_eq_true_eq, Bool.not_eq_true'] at h
    simp [h.1, h.2]
  · cases h

theorem readEffect_of_dev {s : State} {w : Word}
    (h : (decide (8 ≤ w.toNat % 0x10000 / 0x1000) && !decide (w.toNat % 0x10000 = Sig.SMP_FIFO_MAX 0 ∨ w.toNat % 0x10000 = Sig.SMP_FIFO_MAX 1)) = true) :
    readEffect s (w.toNat % 0x10000) = s := by
  simp only [Bool.and_eq_true, Bool.not_eq_true', decide_eq_true_eq, decide_eq_false_iff_not] at h
  unfold readEffect
  rw [dif_neg (by omega), if_neg h.2]

/-! ### Witnesses: the block as a whole, resets, power -/

theorem witness_StepRunsTheFrontCommand : up.pending = [] := rfl

/-- A command waits, and the step answers a next state. -/
theorem witness_StepsKeepTheCanonicalForm : Canonical up ∧ ∃ t, step { up with pending := [.hardShutdown] } = .next t :=
  ⟨⟨by decide +kernel, by decide +kernel, by decide +kernel, by decide +kernel, by decide +kernel⟩, _, rfl⟩

theorem witness_StepsServeTheQueueInOrder : ∃ t, step { up with pending := [.hardShutdown, .coupling] } = .next t := ⟨_, rfl⟩

theorem witness_StepsKeepBlownFuses : (∃ t, step up = .next t) ∧ blownIn up.fuse.copyA 16 0 = true := ⟨⟨_, rfl⟩, by decide +kernel⟩

/-- The same device asleep, its wake sources 0 to 5 enabled at the entry, an alarm set. -/
def asleep : State := setN { sby with pwr := { sby.pwr with st := .sleep, ready := false, armed := 0x3F } } Sig.ALARM 1

theorem witness_BrownOutsHoldTheCdInReset : asleep.pwr.st ≠ .off ∧ sby.pwr.st = .standby ∧ up.pwr.st = .run := by decide +kernel

theorem witness_BootsEndWithReady :
    (State.reset.pwr.booted = false ∧ env0.vioOk = true) ∧
    (up.pwr.st ≠ .off ∧ up.pwr.vioLow = false ∧ up.pwr.vcoreLow = false ∧ 1000 ≤ 1000) ∧ 99 < 100 ∧ (100 ≤ 100 ∧ 999 < 1000) ∧ serves up = true ∧
    (linkPowered (setN up Sig.UPD_STATE 4) = true ∧ rgN (setN up Sig.UPD_STATE 4) Sig.UPD_STATE = 4 ∧
      (setN up Sig.UPD_STATE 4).pwr.vioLow = false) ∧ (vioDown.pwr.vioLow = true ∧ vioDown.pwr.vcoreLow = false) ∧
    (vcoreDown.pwr.vioLow = false ∧ vcoreDown.pwr.vcoreLow = true) ∧ (bothDown.pwr.vioLow = true ∧ bothDown.pwr.vcoreLow = true) := by
  decide +kernel

theorem witness_SuppliesStopTheDeviceAndShowInSupStat :
    (linkPowered up = true ∧ up.pwr.booted = true ∧ up.pwr.stopping = false) ∧ ({ up with pwr := { up.pwr with stopping := true } }).pwr.stopping = true ∧
    up.pwr.vanaLow = false := by decide +kernel

theorem witness_LockOutAndHardShutdownTurnEveryGateOff :
    up.ds.vdrvLock = false ∧ ({ up with ds := { up.ds with vdrvLock := true } }).ds.vdrvLock = true ∧ linkPowered up = true ∧
    ({ up with ds := { up.ds with hot := true } }).ds.hot = true := by decide +kernel

/-- A device in STANDBY on its way to RUN. -/
def toRun : State := { sby with pwr := { sby.pwr with toRun := true } }

theorem witness_ClockEventsShowInClkStat :
    (linkPowered up = true ∧ 3 < 4 ∧ (srcOf up (devSrc 33)).lasting = false ∧ (srcOf up (devSrc 33)).react = reSafe ∧
      (srcOf up (devSrc 33)).t = 0) ∧
    (toRun.pwr.st = .standby ∧ toRun.pwr.toRun = true) ∧
    (up.pwr.st ≠ .off ∧ rgN (setN up Sig.LFCLK_SRC 1) Sig.LFCLK_SRC = 1) := by decide +kernel

theorem witness_PowerRequestsMoveThePowerState :
    (sby.pwr.st = .standby ∧ sby.pwr.clkBlocked = false ∧ WriteAccepted sby (rq 0) Sig.PWR_REQ 2) ∧
    WriteAccepted up (rq 0) Sig.PWR_REQ 1 ∧ (WriteAccepted sby (rq 0) Sig.PWR_REQ 0 ∧ WriteAccepted up (rq 0) Sig.PWR_REQ 0) ∧
    (linkPowered up = true ∧ up.pwr.booted = true ∧ allDisabled up = true ∧ ndWork up = false ∧ up.rt.handed = none ∧ rgN (setN up Sig.IDLE_SLEEP 1) Sig.IDLE_SLEEP ≠ 0) ∧
    (1 < 2 ∧ inRun (axIn up 7 .opn) = true ∧ allDisabled (axIn up 7 .opn) = false) := by
  refine ⟨⟨rfl, rfl, ?_⟩, ?_, ⟨?_, ?_⟩, ?_, ?_⟩ <;>
    first | decide +kernel | exact writeAccepted_of (by decide +kernel) (by decide +kernel)

/-- A device on its way to SLEEP. -/
def toSleep : State := { sby with pwr := { sby.pwr with toSleep := true } }

/-- A device asleep that watches feedback input 7, two of its three edges counted in the newest window. -/
def parked : State :=
  let s := setN (setN asleep (Sig.FB_MODE 7) 4) Sig.PW_MASK 128
  { s with pwr := { s.pwr with pwFirst := false, pwLevels := 127, pwCounts := List.replicate 7 [] ++ [[0, 1]] } }

theorem witness_SleepAndWakeFollowTheirSources :
    (toSleep.pwr.st = .standby ∧ toSleep.pwr.toSleep = true ∧ ndWork toSleep = false ∧ toSleep.rt.blocked = [] ∧
      ∀ i, i < 16 → (ringAt toSleep (16 + i)).empty = true) ∧
    (asleep.pwr.st = .sleep ∧ (∀ k : Fin 4, bitOf asleep.pwr.armed k.val = true) ∧ rgB asleep Sig.SUP_STAT 0 = false) ∧
    (sby.pwr.st ≠ .off ∧ rgB (setB sby Sig.SUP_STAT 0 true) Sig.SUP_STAT 0 = true) ∧
    (bitOf asleep.pwr.armed 4 = true ∧ rgN asleep Sig.ALARM ≠ 0xFFFFFFFF ∧ asleep.clk.lf ≤ rgN asleep Sig.ALARM * 32768) ∧
    (parked.pwr.st = .sleep ∧ bitOf parked.pwr.armed 5 = true ∧ bitOf (rgN parked Sig.PW_MASK) 7 = true ∧ fbMode parked 7 = 4 ∧
      parked.pwr.pwFirst = false ∧ bitOf 255 7 ≠ bitOf parked.pwr.pwLevels 7 ∧
      rgN parked Sig.PW_EDGES ≤ (watchInput (parked.pwr.pwCounts.getD 7 []) true (rgN parked Sig.PW_WINDOW)).length) := by
  decide +kernel

theorem witness_CouplingsAreDeclaredAndEnded :
    (sby.pwr.booted = true ∧ linkPowered sby = true ∧ rgN sby Sig.COUPLED = 0 ∧ sby.pwr.st = .standby ∧ sby.pwr.clkBlocked = false) ∧
    (rgN (setN asleep Sig.COUPLED 1) Sig.COUPLED = 1 ∧ (setN asleep Sig.COUPLED 1).pwr.booted = true ∧
      (setN asleep Sig.COUPLED 1).pwr.st ≠ .off ∧ (setN asleep Sig.COUPLED 1).hc.probe = none) := by
  decide +kernel

/-! ### Witnesses: the host link -/

theorem witness_RingDataOperationsMoveBytes :
    (linkUp up = true ∧ txOp 0x20 = 2 ∧ dataError up 0x20 15 4092 (decide (15 ≤ 15)) = none ∧
      ([1, 2, 3, 4, 5, 6, 7, 8] : List Byte).length % 4 = 0 ∧ ([1, 2, 3, 4, 5, 6, 7, 8] : List Byte).length ≤ (ringAt up 15).bytes) ∧
    (([1, 2, 3, 4, 5, 6] : List Byte).length % 4 ≠ 0 ∧ ([1, 2, 3, 4, 5, 6] : List Byte).length / 4 * 4 ≤ (ringAt up 15).bytes) ∧
    (txOp 0x0A = 0 ∧ regReadError 0x0A 43 = none) ∧ (linkUp State.reset = false ∧ txOp 0x00 = 0 ∧ txOp 0x30 = 3) ∧
    regReadError 0x0A 44 = some 3 ∧
    (txOp 0x30 = 3 ∧ dataError up 0x30 43 0 (readableRing 43) = none) ∧
    (dataError up 0x20 16 0 (decide (16 ≤ 15)) = some 3) ∧ dataError up 0x30 32 0 (readableRing 32) = some 3 := by decide +kernel

theorem witness_RingRegistersTakeTheirWrites :
    (linkUp up = true ∧ up.link.rings.length = 64 ∧ 15 ≤ 15 ∧ 4092 % 4 = 0 ∧ 4092 < (ringAt up 15).bytes) ∧
    (hostVisible 16 = true ∧ 4092 < (ringAt up 16).bytes ∧ up.rt.blocked = []) ∧
    (2 ≠ (ringAt up 43).size ∧ (ringAt up 43).empty = true ∧ totalRings up - (ringAt up 43).bytes + 4096 * 2 ^ 2 ≤ 262144) ∧
    (36 ≤ 43 ∧ (ringAt up 43).size ≤ 2) ∧ (hostVisible 16 = true ∧ 15 < 16 ∧ hostVisible 15 = true ∧ 15 ≤ 15) := by
  decide +kernel

theorem witness_LinkRegistersClearAsWritten : linkUp up = true ∧ 2 ^ 32 - 1 < 2 ^ 32 ∧ up.link.masks < 2 ^ 96 ∧
    (txOp 0xD1 = 1 ∧ 1 ≤ txIndex 0xD1 ∧ txWidth 0xD1 = 3 ∧ txIndex 0xD1 ≤ 7) ∧
    (txOp 0x1B = 1 ∧ txWidth 0x1B ≠ 3 ∧ 10 < txIndex 0x1B ∧ (zeros 4).length = 4) ∧
    (txOp 0x17 = 1 ∧ txWidth 0x17 ≠ 3 ∧ txIndex 0x17 ≤ 7 ∧ (zeros 5).length ≠ 4) := by decide +kernel

/-- A GROUP_SET of group 1 with mask 3 waits in request ring 0. -/
def groupHdr : Hdr := ⟨7, 0x14, 0, 0, 0xFF, 4, 0, 0, 0, 0⟩
def withFrame : State := ringPut up 0 (frameBytes groupHdr [1, 3, 0, 0])
/-- The same frame with a damaged last byte. -/
def withDamage : State :=
  { withFrame with link := { withFrame.link with buf := memWrite withFrame.link.buf 23 (memRead withFrame.link.buf 23 + 1) } }
/-- The request that entry device 2 forwards. -/
def fwdBytes : List Byte := frameBytes groupHdr [1, 3, 0, 0]

theorem witness_FramesAreTakenAsCommands :
    (serves withFrame = true ∧ withFrame.pwr.ready = true ∧ withFrame.rt.handed = none ∧ withFrame.link.rings.length = 64 ∧
      ((serveOrder withFrame).filter (fun q => frameThere withFrame q && respRoom withFrame q)).head? = some 0 ∧
      (headHdr withFrame 0).length ≤ 1008 ∧ badHeader (headHdr withFrame 0) = false ∧ (headHdr withFrame 0).devSel = ringId withFrame ∧
      selectionOk (headHdr withFrame 0).opcode (headHdr withFrame 0).axisSel (headHdr withFrame 0).devSel = true ∧
      emptyGroup (reqFrom withFrame (headHdr withFrame 0) 0 16 false 0) (headHdr withFrame 0).opcode = false ∧
      crc32 (memBytesRing withFrame.link.buf (ringBase 0) (ringAt withFrame 0).bytes (ringAt withFrame 0).tail 20) =
        wordAt (memBytesRing withFrame.link.buf (ringBase 0) (ringAt withFrame 0).bytes (ringAt withFrame 0).tail 24) 20 ∧
      parseCmd (reqFrom withFrame (headHdr withFrame 0) 0 16 false 0) 0x14
        (((memBytesRing withFrame.link.buf (ringBase 0) (ringAt withFrame 0).bytes (ringAt withFrame 0).tail 24).drop 16).take 4) =
          some (.groupSet (reqFrom withFrame (headHdr withFrame 0) 0 16 false 0) 1 3)) ∧
    (((serveOrder withDamage).filter (fun q => frameThere withDamage q && respRoom withDamage q)).head? = some 0 ∧
      (headHdr withDamage 0).length = 4 ∧
      crc32 (memBytesRing withDamage.link.buf (ringBase 0) (ringAt withDamage 0).bytes (ringAt withDamage 0).tail 20) ≠
        wordAt (memBytesRing withDamage.link.buf (ringBase 0) (ringAt withDamage 0).bytes (ringAt withDamage 0).tail 24) 20) ∧
    (up.emq.noLead = false ∧ fwdBytes.length = frameLen (parseHdr fwdBytes).length ∧
      crc32 (fwdBytes.take (fwdBytes.length - 4)) = wordAt fwdBytes (fwdBytes.length - 4) ∧ bitOf (parseHdr fwdBytes).flags 5 = false ∧
      bitOf (parseHdr fwdBytes).flags 7 = false ∧ knownOp (parseHdr fwdBytes).opcode = true ∧
      parseCmd (reqFrom up (parseHdr fwdBytes) 66 16 true 2) (parseHdr fwdBytes).opcode ((fwdBytes.drop 16).take 4) =
        some (.groupSet (reqFrom up (parseHdr fwdBytes) 66 16 true 2) 1 3)) ∧
    crc32 (zeros 20) ≠ wordAt (zeros 24) 20 := by
  decide +kernel

/-! ### Witnesses: commands -/

theorem witness_SigReadAnswersThePresentValues :
    (Accepted up (rq 0xFF) opSigRead ([sidOf up Sig.CMD_COUNT].all deviceSid) ∧
      (∀ w ∈ [sidOf up Sig.CMD_COUNT], readStatus up false w = stOk) ∧
      (∀ w ∈ [sidOf up Sig.CMD_COUNT], readEffect (unhand up (rq 0xFF)) (w.toNat % 0x10000) = unhand up (rq 0xFF)) ∧
      (rq 0xFF).noReply = false ∧ (rq 0xFF).fwd = false ∧ CanPost up (rq 0xFF).resp (frameLen 8)) ∧
    (Accepted up (rq 0xFF) opSigRead (([] ++ (0xFFFFFFFF : Word) :: []).all deviceSid) ∧ readStatus up false 0xFFFFFFFF ≠ stOk ∧
      CanPost up (rq 0xFF).resp (frameLen 4)) := by
  refine ⟨⟨accepted_of (by decide +kernel), fun w hw => ?_, fun w hw => ?_, rfl, rfl, canPost_of (by decide +kernel)⟩,
    accepted_of (by decide +kernel), by decide +kernel, canPost_of (by decide +kernel)⟩ <;> rw [List.mem_singleton.mp hw]
  · exact readOk_of (by decide +kernel)
  · exact readEffect_of_dev (by decide +kernel)

theorem witness_SigWriteHasTheEffectOfItsPairs :
    (Accepted up (rq 0xFF) opSigWrite false ∧ (sidRow up false (sidOf up Sig.AGG_TIMEOUT)).isSome = true ∧
      writeStatus (unhand up (rq 0xFF)) false (sidOf up Sig.AGG_TIMEOUT) 2000 = stOk ∧
      ¬(Sig.AGG_TIMEOUT < 0x8000 ∧ Sig.AGG_TIMEOUT % 0x1000 = 0x120)) ∧
    ((sidRow up false (sidOf up (Sig.GD_LATCH 7))).isSome = true ∧
      writeStatus (unhand (drawWord up).2 (rq 0xFF)) false (sidOf up (Sig.GD_LATCH 7)) 1 = stOk ∧ Sig.GD_LATCH 7 < 0x8000 ∧
      Sig.GD_LATCH 7 % 0x1000 = 0x120) ∧
    WriteAccepted up (rq 0xFF) Sig.IDLE_SLEEP 5 ∧
    ((writePairs (unhand up (rq 0xFF)) false 0 (unhand up (rq 0xFF)) 0 [(sidOf up Sig.CMD_COUNT, 0)]).2 ≠ none ∧
      (pairKeys [(sidOf up Sig.CMD_COUNT, 0)]).any (fun k => decide (k < 0x8000) && k % 0x1000 == 0x120) = false) := by
  refine ⟨⟨accepted_of (by decide +kernel), by decide +kernel, by decide +kernel, by decide +kernel⟩, by decide +kernel,
    writeAccepted_of (by decide +kernel) (by decide +kernel), by decide +kernel⟩

/-- A device that may enable axis 7 into OPEN with the forced angle. -/
def enabling : State :=
  let s := setN (setN up (Sig.LP_OL_ANG 7) 1) (Sig.GD_PST_RESULT 7) 0
  { s with ds := { s.ds with locked := true }, sup := { s.sup with boot := false } }

/-- A device with a subscription of CMD_COUNT every 1 ms at handle 32. -/
def subscribed : State :=
  { up with rt := { up.rt with subs := setAt up.rt.subs 31 (some ⟨43, 1, 1000, 0, [sidOf up Sig.CMD_COUNT], [], 10000, 0, 0, false⟩) } }

theorem witness_SubscriptionsAndLimitsAreKept :
    (Accepted up (rq 0xFF) opSigSubscribe false ∧ streamRing 43 = true ∧ sidsStatus up [sidOf up Sig.CMD_COUNT] = stOk ∧
      up.rt.subs.findIdx? Option.isNone = some 0 ∧
      subLoad (setAt up.rt.subs 0 (some ⟨43, 2, 1000000, 0, [sidOf up Sig.CMD_COUNT], [], 10000000, 0, 0, false⟩)) ≤ 500000) ∧
    (Accepted up (rq 0xFF) opSigLimit false ∧ up.rt.lims.length = 64 ∧ (sidRow up false (sidOf up Sig.CMD_COUNT)).isSome = true ∧
      fuseHidden up Sig.CMD_COUNT = false ∧
      (∀ row, sidRow up false (sidOf up Sig.CMD_COUNT) = some row → row.2.ty ≠ .bits32 ∧ row.2.acc ≠ .wo ∧
        slotCoded row.2.ty 0 = true ∧ slotCoded row.2.ty 9 = true)) ∧
    (Accepted subscribed (rq 0xFF) opSigSubscribe false ∧ subscribed.rt.subs.length = 32 ∧ (subOf subscribed 32).isSome = true ∧
      subLoad (setAt subscribed.rt.subs 31 (some ⟨43, 2, 1000000, 0, [sidOf up Sig.CMD_COUNT], [], 10000000, 0, 0, false⟩)) ≤ 500000) ∧
    (subOf subscribed 32 ≠ none ∧ linkPowered subscribed = true ∧ subscribed.dbg.haltMp = false) := by
  refine ⟨⟨accepted_of (by decide +kernel), by decide +kernel, by decide +kernel, by decide +kernel, by decide +kernel⟩,
    ⟨accepted_of (by decide +kernel), by decide +kernel, by decide +kernel, by decide +kernel, ?_⟩,
    ⟨accepted_of (by decide +kernel), by decide +kernel, by decide +kernel, by decide +kernel⟩, by decide +kernel⟩
  have h : (match sidRow up false (sidOf up Sig.CMD_COUNT) with
      | some row => decide (row.2.ty ≠ .bits32) && decide (row.2.acc ≠ .wo) && slotCoded row.2.ty 0 && slotCoded row.2.ty 9
      | none => false) = true := by decide +kernel
  intro row hr
  rw [hr] at h
  simpa [and_assoc] using h

theorem witness_GainsGroupsAndModesAreSet :
    (Accepted up (rq 7) opSetGains false ∧ (rq 7).axisSel = 7 ∧ (gainsAns (unhand up (rq 7)) 7 3 0x10000 5).2.status = stOk) ∧
    (Accepted (axIn up 7 .torque) (rq 7) opSetGains false ∧ gainClosed (axIn up 7 .torque) 7 0x210 = true ∧
      (gainsAns (unhand (axIn up 7 .torque) (rq 7)) 7 0 0x10000 5).2.status ≠ stRange) ∧
    (Accepted up (rq 0xFF) opGroupSet false ∧ 255 < 256) ∧
    (Accepted up (rq 0xFF) opModeSet false ∧ modeStatus up 0 0 0 = stOk ∧ (∀ n, (axSt up n).runsTasks = false) ∧
      ∀ n : Axis, (up.loop[n]).passPend = none) := by
  refine ⟨⟨accepted_of (by decide +kernel), rfl, by decide +kernel⟩, ⟨accepted_of (by decide +kernel), by decide +kernel, by decide +kernel⟩,
    ⟨accepted_of (by decide +kernel), by decide⟩, accepted_of (by decide +kernel), by decide +kernel, by decide +kernel, by decide +kernel⟩

/-- A MOVE of class 1 to count 1 000. -/
def mv : MoveArgs := ⟨1, 1, false, 1000, 100, 200, 200, 0, 0, 0⟩

/-- Axis 7 in POSITION with the role EMB. -/
def posAxis : State := setN (axIn up 7 .position) (Sig.FLT_ROLE_AX 7) 0

theorem witness_AxisCommandsMoveTheAxis :
    (Accepted (axIn up 7 .torque) (rq 7) opAxisState true ∧ up.bisc.logs.getD 2 0 = 0) ∧
    (Accepted enabling (rq 7) opAxisState false ∧ inRun enabling = true ∧ axSt enabling 7 = .disabled ∧ enabling.emq.noLead = false ∧
      (enableAxis (unhand enabling (rq 7)) 7 .opn enabling.clk.tb).2 = true) ∧
    (Accepted (axIn up 7 .torque) (rq 7) opAxisState false ∧ inRun up = true ∧ closeRefused (axIn up 7 .torque) 7 .opn = false) ∧
    (Accepted up (rq 7) opAxisState false ∧ axSt up 7 = .disabled ∧ mayEnable up 7 .torque = false) ∧
    (Accepted (axIn up 7 .opn) (rq 7) opStop false ∧ axSt (axIn up 7 .opn) 7 = .opn) ∧
    (Accepted (axIn up 7 .speed) (rq 7) opStop false ∧ axSt (axIn up 7 .speed) 7 = .speed) ∧
    (Accepted (axIn up 7 .torque) (rq 7) opStop false ∧ axSt (axIn up 7 .torque) 7 = .torque) ∧
    (Accepted posAxis (rq 7) opStop false ∧ axSt posAxis 7 = .position) ∧
    (Accepted (axIn up 7 .fault) (rq 7) opStop false ∧ axSt (axIn up 7 .fault) 7 = .fault) ∧
    (Accepted (axIn up 7 .safeShort) (rq 7) opStop false ∧ axSt (axIn up 7 .safeShort) 7 = .safeShort) ∧
    (Accepted posAxis (rq 7) opMove false ∧ moveStatus posAxis (rq 7) mv 7 = stOk ∧ mv.cls < 2) := by
  refine ⟨⟨accepted_of ?_, ?_⟩, ⟨accepted_of ?_, ?_, ?_, ?_, ?_⟩, ⟨accepted_of ?_, ?_, ?_⟩, ⟨accepted_of ?_, ?_, ?_⟩,
    ⟨accepted_of ?_, ?_⟩, ⟨accepted_of ?_, ?_⟩, ⟨accepted_of ?_, ?_⟩, ⟨accepted_of ?_, ?_⟩, ⟨accepted_of ?_, ?_⟩, ⟨accepted_of ?_, ?_⟩,
    accepted_of ?_, ?_, ?_⟩ <;> decide +kernel

/-- The device remembers a frame of ring 3 with TAG 9, completed at 5 µs or not yet. -/
def remembering (d : Option Nat) : State := { up with rt := { up.rt with taken := [⟨3, 9, 0x12, d⟩] } }

theorem witness_AbortEndsWhatItNames :
    (Accepted up (rq 0xFF) opAbort false ∧ 15 ≤ 15 ∧ (rq 0xFF).fwd = false ∧ ∀ x ∈ up.rt.taken, ¬(x.ring = 15 ∧ x.tag = 9)) ∧
    (Accepted (remembering (some 5)) (rq 0xFF) opAbort false ∧ (remembering (some 5)).rt.taken = [⟨3, 9, 0x12, some 5⟩] ∧
      usAtOrBefore 5 { rq 0xFF with taken := 5 }.taken = true ∧ usAtOrBefore 5 (rq 0xFF).taken = false ∧
      CanPost (remembering (some 5)) (rq 0xFF).resp (frameLen 4)) ∧
    (Accepted (remembering none) (rq 0xFF) opAbort false ∧ (remembering none).rt.taken = [⟨3, 9, 0x12, none⟩] ∧
      ¬((rq 0xFF).ring = 3 ∧ (rq 0xFF).tag = 9)) := by
  refine ⟨⟨accepted_of ?_, ?_, ?_, ?_⟩, ⟨accepted_of ?_, ?_, ?_, ?_, canPost_of ?_⟩, accepted_of ?_, ?_, ?_⟩ <;> decide +kernel

/-! ### Witnesses: record, images, fuses, tests, probes, queues -/

/-- A snapshot slice of 8 bytes with its marker. -/
def slice5 : Slice := Slice.close ⟨3, false, false, 5, 0, 0, 1, [1, 2, 3, 4, 5, 6, 7, 8], 0, 0, []⟩

/-- A device with that slice. -/
def recorded : State :=
  { up with rcd := { up.rcd with slices := [slice5], maxSeq := 5 } }

/-- The same device in FIELD. -/
def recordedField : State := { recorded with fuse := { recorded.fuse with lc := .field, lcNow := .field } }

/-- Staging holds more than 60 KiB. -/
def stagedFull : State := { up with rcd := { up.rcd with staged := [⟨2, zeros 61440, false, none, (0, 0)⟩] } }

theorem witness_RecordReadsAndNotes :
    (Accepted recorded (rq 0xFF) opRecRead false ∧ 1000 % 4 = 0 ∧
      readSlice recorded 5 false = some slice5 ∧ 1000 ≤ 1000 ∧ kindOpen recorded 3 = true ∧
      27 < slice5.total ∧ 1 < 2 ∧
      CanPost recorded (rq 0xFF).resp (frameLen (8 +
        ((slice5.bytes.drop 27).take 1000).length))) ∧
    (Accepted recordedField (rq 0xFF) opRecRead false ∧ readSlice recordedField 5 false ≠ none ∧ kindOpen recordedField kindSnapshot = false) ∧
    (Accepted up (rq 0xFF) opRecNote false ∧ (zeros 256).length ≤ 256 ∧ up.rcd.noteWaits = [] ∧ stagedBytes up < 61440) ∧
    Accepted stagedFull (rq 0xFF) opRecNote false ∧ 61440 ≤ stagedBytes stagedFull := by
  refine ⟨⟨accepted_of ?_, ?_, ?_, ?_, ?_, ?_, ?_, canPost_of ?_⟩, ⟨accepted_of ?_, ?_, ?_⟩, ⟨accepted_of ?_, ?_, ?_, ?_⟩, accepted_of ?_, ?_⟩ <;>
    decide +kernel

/-- A device with a key hash in slot 0 and the delivered image in both banks, where an update is in a stage. -/
def updating (stage : Nat) (u : Upd) : State :=
  setN { up with
    fuse := { up.fuse with copyA := (keyWords 0).map (fun w => (w, 5)), copyB := (keyWords 0).map (fun w => (w, 5)) }
    nd := { up.nd with bankB := up.nd.bankA }
    upd := u } Sig.UPD_STATE stage

theorem witness_ImagesAreWrittenVerifiedAndConfirmed :
    (Accepted up (rq 0xFF) opImgWrite false ∧ 0 % 4 = 0 ∧ 0 + (zeros 1004).length ≤ 4194304 ∧ rgN up Sig.UPD_STATE < 2) ∧
    (Accepted (updating 1 ⟨none, false, false⟩) (rq 0xFF) opImgWrite false ∧ 4193300 % 4 = 0 ∧ 4193300 + (zeros 1004).length ≤ 4194304) ∧
    (Accepted (updating 1 ⟨none, false, false⟩) (rq 0xFF) opImgCommit true ∧ rgN (updating 1 ⟨none, false, false⟩) Sig.UPD_STATE = 1 ∧
      allDisabled (updating 1 ⟨none, false, false⟩) = true) ∧
    imageStatus (updating 2 ⟨some (rq 0xFF), false, false⟩) (spareBank (updating 2 ⟨some (rq 0xFF), false, false⟩)) = stOk ∧
    (imageStatus (updating 2 ⟨some (rq 0xFF), true, false⟩) (spareBank (updating 2 ⟨some (rq 0xFF), true, false⟩)) = stOk ∧
      allDisabled (updating 2 ⟨some (rq 0xFF), true, false⟩) = true ∧ (updating 2 ⟨some (rq 0xFF), true, false⟩).pwr.vioLow = false ∧
      (updating 2 ⟨some (rq 0xFF), true, false⟩).pwr.vcoreLow = false) ∧
    imageStatus { up with upd := ⟨some (rq 0xFF), true, false⟩ } (spareBank up) ≠ stOk ∧
    (Accepted (setN up Sig.UPD_STATE 4) (rq 0xFF) opImgConfirm false ∧ rgN (setN up Sig.UPD_STATE 4) Sig.UPD_STATE = 4) := by
  refine ⟨⟨accepted_of ?_, ?_, ?_, ?_⟩, ⟨accepted_of ?_, ?_, ?_⟩, ⟨accepted_of ?_, ?_, ?_⟩, ?_, ?_, ?_, accepted_of ?_, ?_⟩ <;>
    decide +kernel

theorem witness_FuseProgramBlowsWhatItNames :
    (Accepted up (rq 0xFF) opFuseProgram false ∧ fuseStatus (readFuseEnv up fenv) 0 254 [1] [] fenv ≠ stOk) ∧
    (Accepted up (rq 0xFF) opFuseProgram false ∧ ¬(16 ≤ 251 ∧ 251 < 24) ∧ 251 ∉ up.fuse.marginCommit ∧
      fuseStatus (readFuseEnv up fenv) 0 251 [7] [] fenv = stOk) ∧
    (fuseStatus (readFuseEnv up fenv) 0 32 [7] [] fenv = stOk ∧ 32 ∈ commitWords ∧ up.fuse.unsensed = []) ∧
    (fuseStatus (readFuseEnv up { fenv with abort := some 0 }) 0 32 [7] [] { fenv with abort := some 0 } = stOk ∧ 32 ∉ up.fuse.marginCommit) ∧
    (Accepted up (rq 0xFF) opFuseProgram false ∧ fuseCycle up = .develop ∧ fenv.vfsrcOk = true ∧ (∀ c ∈ fenv.temps, 0 ≤ c ∧ c ≤ 85) ∧
      up.fuse.marginCommit = []) := by
  refine ⟨⟨accepted_of ?_, ?_⟩, ⟨accepted_of ?_, ?_, ?_, ?_⟩, ?_, ?_, accepted_of ?_, ?_, ?_, ?_, ?_⟩ <;> decide +kernel

theorem witness_SelftestsRecordTheirResults :
    (Accepted up (rq 7) opSelftest false ∧ up.ds.vdrvLock = false ∧ axSt up 7 = .disabled) ∧
    (Accepted (axIn up 7 .torque) (rq 7) opSelftest false ∧ axSt (axIn up 7 .torque) 7 ≠ .disabled) ∧
    (Accepted { up with ds := { up.ds with vdrvLock := true } } (rq 7) opSelftest false ∧
      ({ up with ds := { up.ds with vdrvLock := true } }).ds.vdrvLock = true) := by
  refine ⟨⟨accepted_of ?_, ?_, ?_⟩, ⟨accepted_of ?_, ?_⟩, accepted_of ?_, ?_⟩ <;> decide +kernel

/-- A device in which axis 7 may probe rail 3 and no other axis can. -/
def mayProbe : State :=
  let s := setN (axIn up 7 .hold) Sig.HC_START_K 0
  let s := modLoop s 7 (fun l => { l with ilim := 20, iq := 0 })
  { s with hcAx := s.hcAx.set 7 { s.hcAx[7] with still := 1000 }, hc := { s.hc with scheduled := true } }

/-- The same device while it probes rail 3. -/
def probeOf (again : Bool) (stopped : Option Nat) : Probe :=
  ⟨3, 7, 0, 20, [], [], again, [0, 0, 0, 0], false, none, stopped, [], [], []⟩
def probing (again : Bool) : State :=
  { mayProbe with hc := { mayProbe.hc with probe := some (probeOf again none) } }
def stoppedProbe : State := { mayProbe with hc := { mayProbe.hc with probe := some (probeOf false (some 9)) } }

theorem needsFit_of_zero {s : State} {c : Nat} {xs : List (Fin 4 × Rat)} (h : rgN s Sig.HC_START_K = 0)
    (hr : ∀ m, 0 ≤ roomFor s m c) : needsFit s c xs = true := by
  simp [needsFit, h, hr]

theorem mayProbe_needsFit (c : Nat) (xs : List (Fin 4 × Rat)) (h : c = 4) : needsFit mayProbe c xs = true :=
  needsFit_of_zero (by decide +kernel) (by subst h; decide +kernel)

theorem witness_CouplingProbesMeasureTheRails :
    (Accepted up (rq 0xFF) opProbe false ∧ (zeros 64).length ≤ 64) ∧
    (Accepted mayProbe (rq 0xFF) opProbe false ∧ probeFits mayProbe = true ∧ queueAhead mayProbe 4 = false ∧
      nextRail mayProbe allRails = some (3, 7, [])) ∧
    (Accepted (probing false) (rq 0xFF) opProbe false ∧ (probeFits (probing false) && !queueAhead (probing false) 4) = false ∧
      (probing false).rt.defq.length < 64) ∧
    (inRun mayProbe = true ∧ mayProbe.hc.scheduled = true ∧ mayProbe.hc.probe = none ∧ nextRail mayProbe allRails = some (3, 7, []) ∧ probeReady mayProbe = true ∧
      reserveLow mayProbe = false ∧ needsFit mayProbe 4 (probeNeeds mayProbe) = true) ∧
    (inRun (probing false) = true ∧ (probing false).hc.probe = some (probeOf false none) ∧
      probeResult (windowMean (probeOf false none).win1 48000000 1000000).1 (windowMean (probeOf false none).win1 48000000 1000000).2
        (windowMean (probeOf false none).win2 47000000 2000000).1 (windowMean (probeOf false none).win2 47000000 2000000).2
        (otherSteady (probeOf false none).other true) = some (1, 49)) ∧
    ((probing true).hc.probe = some (probeOf true none) ∧
      probeResult (windowMean [] 48000000 1000000).1 (windowMean [] 48000000 1000000).2 (windowMean [] 47000000 1999999).1
        (windowMean [] 47000000 1999999).2 (otherSteady [] true) = none) ∧
    (inRun stoppedProbe = true ∧ stoppedProbe.hc.probe = some (probeOf false (some 9))) := by
  refine ⟨⟨accepted_of ?_, ?_⟩, ⟨accepted_of ?_, ?_, ?_, ?_⟩, ⟨accepted_of ?_, ?_, ?_⟩, ⟨?_, ?_, ?_, ?_, ?_, ?_, ?_⟩, ?_, ?_, ?_⟩
  case refine_4 =>
    have h1 : (mayProbe.hc.probe.isNone && !reserveLow mayProbe && probeReady mayProbe) = true := by decide +kernel
    unfold probeFits
    rw [h1, mayProbe_needsFit 4 _ rfl]
    rfl
  case refine_16 => exact mayProbe_needsFit 4 _ rfl
  all_goals decide +kernel

/-- A MOVE of class 1 that waits in the deferral queue. -/
def waiting : Deferred := ⟨rq 7, some mv, [7], [mv], [], 0⟩
def queued (s : State) : State := { s with rt := { s.rt with defq := [waiting] }, hc := { s.hc with scanDue := true } }

/-- A request with a DEADLINE, and commands that wait. -/
def hurried : Req := { rq 7 with deadline := 100 }
def delivery : Delivery := ⟨hurried, opStop, 3, false, 0⟩
def collecting : State := { up with rt := { up.rt with aggs := [⟨rq 0xFF, opStop, [0, 1], [], false⟩], delivs := [delivery] } }

theorem witness_QueuedCommandsStartOrEnd :
    (inRun (queued (probing false)) = true ∧ entryFits { queued (probing false) with rt := { (queued (probing false)).rt with
      defq := [⟨rq 0xFF, none, [], [], [], 0⟩] } } ⟨rq 0xFF, none, [], [], [], 0⟩ = false) ∧
    (inRun (queued (mayProbe)) = true ∧ (queued mayProbe).hc.scanDue = true ∧ (queued mayProbe).dbg.haltMp = false ∧ entryFits (queued mayProbe) waiting = true) ∧
    (serves (queued up) = true ∧ firstToEnd (queued up) (queued up).rt.defq = some waiting) ∧
    (∃ x, earliest (fun x => x.req.taken + x.req.deadline)
      (unstarted { up with rt := { up.rt with handed := some (.stop hurried 0 false) } }) = some x) ∧
    (∃ a, earliest (fun a => a.req.taken) (collecting.rt.aggs.filter (fun a => !a.req.fwd && !a.late)) = some a) ∧
    earliest (fun d => d.req.taken) (collecting.rt.delivs.filter (fun d => !d.sent)) = some delivery := by
  refine ⟨⟨?_, ?_⟩, ⟨?_, ?_, ?_, ?_⟩, ⟨?_, ?_⟩, ⟨.here (.stop hurried 0 false) hurried, ?_⟩, ⟨⟨rq 0xFF, opStop, [0, 1], [], false⟩, ?_⟩, ?_⟩
  case refine_6 =>
    have h1 : reserveLow (queued mayProbe) = false := by decide +kernel
    have h2 : needsFit (queued mayProbe) mv.cls (moveNeeds (queued mayProbe) ([7].zip [mv])) = true :=
      needsFit_of_zero (by decide +kernel) (by decide +kernel)
    simp only [entryFits, waiting, h1, h2, Bool.not_false, Bool.and_true]
  all_goals decide +kernel

/-! ### Witnesses: budget ticks, supervision, faults, signal rows -/

/-- Shadows written for axis 7: a grant that falls and one that stays. -/
def shadowed (i : Nat) : State :=
  setN { up with hc := { up.hc with written := true }, hcAx := up.hcAx.set 7 { up.hcAx[7] with shI := i, shV := 2 ^ 32 - 1, age := 10 } }
    (Sig.HC_GRANT_I 7) 5

theorem witness_BudgetTicksPutGrantsInForce :
    (inRun (shadowed 0) = true ∧ ((shadowed 0).hcAx[(7 : Axis)]).lateI = none ∧ ((shadowed 0).hcAx[(7 : Axis)]).shV < 2 ^ 32 ∧
      ((shadowed 0).hcAx[(7 : Axis)]).shI < 2 ^ 32 ∧ ((shadowed 0).hcAx[(7 : Axis)]).shA < 2 ^ 32 ∧ ((shadowed 0).hcAx[(7 : Axis)]).shD < 2 ^ 32 ∧
      ((shadowed 0).hcAx[(7 : Axis)]).shI < rgN (shadowed 0) (Sig.HC_GRANT_I 7)) ∧
    rgN (shadowed (2 ^ 32 - 1)) (Sig.HC_GRANT_I 7) ≤ ((shadowed (2 ^ 32 - 1)).hcAx[(7 : Axis)]).shI ∧
    (inRun up = true ∧ up.hc.written = false ∧ (up.hcAx[(7 : Axis)]).lateI = none) ∧
    10 ≤ ((shadowed 0).hcAx[(7 : Axis)]).age := by decide +kernel

/-- Axis 7 is requested and granted no more: its DS status word withholds the grant. -/
def refusedGrant : State :=
  let s := axIn up 7 .torque
  { s with sup := { s.sup with req := 128 }, ds := { s.ds with sent := { s.ds.sent with req := 128, grant := 0 } } }

theorem witness_SupervisionWordsAreSent : linkPowered up = true ∧ up.dbg.haltMp = false := by decide +kernel

theorem witness_HeartbeatsAndGrantsAreWatched :
    linkPowered up = true ∧ ({ up with ds := { up.ds with hbLost := true } }).ds.hbLost = true ∧
    (axSt refusedGrant 7 ≠ .disabled ∧ patShort refusedGrant 7 = false) ∧
    ({ up with ds := { up.ds with disagree := true } }).ds.disagree = true ∧
    (bitOf refusedGrant.sup.req 7 = true ∧ bitOf refusedGrant.ds.sent.req 7 = true ∧ bitOf refusedGrant.ds.sent.grant 7 = false) := by decide +kernel

/-- Axis 7 in TORQUE with its source 25 set to a number, a reaction and a time, last seen to have an event or not. -/
def withSrc (s : State) (code n re tm : Nat) : State := setSrc s code { srcOf s code with n := n, react := re, t := tm }
def offSrc : State := withSrc (axIn up 7 .torque) (axSrc 7 0) 1 reOff 1000
def safeSrc : State := withSrc up (devSrc 47) 1 reSafe 0
def slowSrc : State := withSrc up (axSrc 7 25) 2 reOff 1000
/-- A lasting source of an axis. -/
def lastingSrc (re : Nat) : State :=
  setSrc up (axSrc 7 0) { srcOf up (axSrc 7 0) with lasting := true, applied := re, react := re, last := none }

theorem witness_FaultEventsCountAndReact :
    (linkPowered up = true ∧ codeOk (axSrc 7 25) = true ∧ codeOk (devSrc 47) = true) ∧
    (windowFull (srcOf offSrc (axSrc 7 0)) (newest 255 ((srcOf offSrc (axSrc 7 0)).hist ++ [stamp100 offSrc])) (stamp100 offSrc) = true ∧
      (srcOf offSrc (axSrc 7 0)).lasting = false ∧ (srcOf offSrc (axSrc 7 0)).react = reOff ∧ reactBinds offSrc (axSrc 7 0) = true ∧
      (∀ x ∈ offSrc.flt.srcs, actsOn 7 x = true → x.2.applied ≤ reOff) ∧ axSt offSrc 7 ≠ .disabled) ∧
    (windowFull (srcOf slowSrc (axSrc 7 25)) (newest 255 ((srcOf slowSrc (axSrc 7 25)).hist ++ [stamp100 slowSrc])) (stamp100 slowSrc) =
      false ∧ (srcOf slowSrc (axSrc 7 25)).lasting = false) ∧
    (windowFull (srcOf safeSrc (devSrc 47)) (newest 255 ((srcOf safeSrc (devSrc 47)).hist ++ [stamp100 safeSrc])) (stamp100 safeSrc) =
      true ∧ (srcOf safeSrc (devSrc 47)).react = reSafe ∧ (srcOf safeSrc (devSrc 47)).lasting = false ∧
      reactBinds safeSrc (devSrc 47) = true ∧ safeSrc.flt.safeMode = false) := by decide +kernel

/-- A lasting source of the device. -/
def lastingDev (re : Nat) : State :=
  setSrc up (devSrc 47) { srcOf up (devSrc 47) with lasting := true, applied := re, react := re, last := none }

/-- The snapshot of a source collects. -/
def snapping : State := { up with flt := { up.flt with snaps := [⟨axSrc 7 0, 5, 0, 0, [], [], []⟩] } }

theorem witness_FaultsAreReleasedAndSnapshotsStaged :
    (linkPowered (lastingSrc reLog) = true ∧ codeOk (axSrc 7 0) = true ∧ selfReleases (lastingSrc reLog) (axSrc 7 0) = true) ∧
    WriteAccepted (lastingSrc reOff) (rq 0) (Sig.FLT_LASTING_AX 7) 1 ∧
    ((srcOf (lastingSrc reOff) (axSrc 7 0)).lasting = true ∧ hostReleases (lastingSrc reOff) (axSrc 7 0) = true ∧
      hostReleases (lastingSrc reLog) (axSrc 7 0) = false) ∧
    WriteAccepted (lastingDev reOff) (rq 0) Sig.FLT_LASTING_DEV 0x8000 ∧
    ((srcOf (lastingDev reOff) (devSrc 47)).lasting = true ∧ hostReleases (lastingDev reOff) (devSrc 47) = true ∧
      hostReleases (lastingDev reLog) (devSrc 47) = false ∧ bitOf 0x8000 15 = true) ∧
    snapping.flt.snaps.find? (fun x => x.code == axSrc 7 0) = some ⟨axSrc 7 0, 5, 0, 0, [], [], []⟩ := by
  refine ⟨?_, writeAccepted_of ?_ ?_, ?_, writeAccepted_of ?_ ?_, ?_⟩ <;> decide +kernel

theorem witness_FaultSourcesAreConfigured :
    (WriteAccepted up (rq 0) Sig.FLT_CFG 0x01A00001 ∧ noWindow (fltCode up) = false ∧ codeOk (fltCode up) = true) ∧
    noWindow (fltCode (setN up Sig.FLT_IDX (devSrc 32))) = true ∧
    WriteAccepted (setN up Sig.FLT_IDX (devSrc 32)) (rq 0) Sig.FLT_CFG 0x01A00000 ∧ WriteAccepted up (rq 0) (Sig.FLT_ROLE_AX 7) 1 := by
  refine ⟨⟨writeAccepted_of ?_ ?_, ?_, ?_⟩, ?_, writeAccepted_of ?_ ?_, writeAccepted_of ?_ ?_⟩ <;> decide +kernel

theorem witness_ProofsAndChecksAreCounted :
    (inRun up = true ∧ rgN up Sig.BISC_PROOF_PER ≠ 0 ∧ 40 ≤ (List.replicate 40 true).length ∧
      ∀ x ∈ (List.replicate 40 true).take 40, x = true) ∧
    false ∈ (List.replicate 39 true ++ [false]).take 40 ∧ (linkPowered up = true ∧ up.dbg.haltMp = false) := by decide +kernel

theorem witness_MotionAndAngleSignalsAreWritten :
    ((up.car[(7 : Axis)]).slots.length = 4 ∧ WriteAccepted up (rq 0) (Sig.CAR_CMP_CFG 7 3) 1 ∧ WriteAccepted up (rq 0) (Sig.CAR_CMP_POS 7 3) 5) ∧
    WriteAccepted up (rq 0) (Sig.RSV_TURNS 7) 0xFFFFFFFF ∧
    (WriteAccepted (setN up Sig.VEXC_MV 12000) (rq 0) (Sig.RSV_EXC_AMP 7) 700 ∧ WriteAccepted up (rq 0) (Sig.RSV_EXC_FREQ 7) 10000) ∧
    WriteAccepted up (rq 0) (Sig.SMP_GAIN_AX 7) 1 ∧ WriteAccepted up (rq 0) (Sig.FB_Z_ARM 7) 1 := by
  refine ⟨⟨by decide +kernel, ?_, ?_⟩, ?_, ⟨?_, ?_⟩, ?_, ?_⟩ <;> exact writeAccepted_of (by decide +kernel) (by decide +kernel)

/-- Analogue output 5 with a span and its load source enabled. -/
def aoSpanned : State :=
  let s := setN up Sig.AO_LOAD_SRC 2
  { s with ao := s.ao.set 5 { s.ao[5] with span := 1 } }

theorem witness_AnalogueOutputsAreWritten :
    (WriteAccepted aoSpanned (rq 0) Sig.AO_LOAD 1 ∧ rgB aoSpanned Sig.AO_LOAD_SRC 1 = true ∧ aoSpanned.aoClear = false ∧
      (aoSpanned.ao[(5 : Fin 6)]).span ≠ 0 ∧ (aoSpanned.ao[(5 : Fin 6)]).changing = none ∧ (aoSpanned.ao[(5 : Fin 6)]).waiting = false) ∧
    (WriteAccepted (setN up Sig.AO_LOAD_SRC 0) (rq 0) Sig.AO_LOAD 1 ∧ rgB (setN up Sig.AO_LOAD_SRC 0) Sig.AO_LOAD_SRC 1 = false) ∧
    (WriteAccepted up (rq 0) (Sig.AO_SPAN 5) 3 ∧ (up.ao[(5 : Fin 6)]).span = 0 ∧ (up.ao[(5 : Fin 6)]).changing = none ∧
      up.aoClear = false) ∧
    (WriteAccepted aoSpanned (rq 0) (Sig.AO_SPAN 5) 3 ∧ (3 : Word).toNat ≠ (aoSpanned.ao[(5 : Fin 6)]).span) := by
  refine ⟨⟨writeAccepted_of ?_ ?_, ?_⟩, ⟨writeAccepted_of ?_ ?_, ?_⟩, ⟨writeAccepted_of ?_ ?_, ?_⟩, writeAccepted_of ?_ ?_, ?_⟩ <;>
    decide +kernel

theorem witness_LatchesAndPinsAreCleared :
    WriteAccepted up (rq 0) (Sig.GD_LATCH 7) 0xC0FFFFFF ∧
    (WriteAccepted recorded (rq 0) Sig.FC_PIN 5 ∧ WriteAccepted recorded (rq 0) Sig.FC_UNPIN 5 ∧
      sliceOf recorded (5 : Word).toNat ≠ none) := by
  refine ⟨writeAccepted_of ?_ ?_, writeAccepted_of ?_ ?_, writeAccepted_of ?_ ?_, ?_⟩ <;> decide +kernel

theorem witness_CompensationTablesAreHandled :
    (∀ v ∈ ([1, 2, 3, 4] : List Word), WriteAccepted up (rq 0) (Sig.RSV_CMP_CTRL 7) v) ∧
    (Accepted up (rq 0xFF) opSigRead ([sidOf up (Sig.RSV_CMP_VAL 7)].all deviceSid) ∧ (rq 0xFF).noReply = false ∧ (rq 0xFF).fwd = false ∧
      CanPost up (rq 0xFF).resp (frameLen 8)) ∧
    WriteAccepted (setN up (Sig.RSV_CMP_IDX 7) 2047) (rq 0) (Sig.RSV_CMP_VAL 7) 0xFFFFFFFB := by
  refine ⟨?_, ⟨accepted_of ?_, ?_, ?_, canPost_of ?_⟩, writeAccepted_of ?_ ?_⟩
  · simp only [List.forall_mem_cons, List.not_mem_nil, false_imp_iff, implies_true, and_true]
    refine ⟨?_, ?_, ?_, ?_⟩ <;> exact writeAccepted_of (by decide +kernel) (by decide +kernel)
  all_goals decide +kernel

/-! ### Witnesses: PWM and gate drive -/

/-- Axis 7 in an axis state with its counter at a value of the up-slope, after a change to channel U. -/
def pwmRun (x : AxState) (f : Chan → Chan) : State :=
  modPwm (axIn up 7 x) 7 (fun p =>
    { p with running := true, live := true, cnt := 10, chU := f p.chU, trgA := 20, slopeA := 1, atcOpen := true, atcOpenAt := some 5, atcCloseAt := some 9 })

theorem witness_CountersRunFromValleyToPeak :
    (inRun (modPwm up 7 (fun p => { p with startPend := true })) = true ∧ 0 < perOf up 7) ∧
    (counting (pwmRun .torque id) 7 = true ∧ 0 < perOf (pwmRun .torque id) 7 ∧
      ((pwmRun .torque id).pwm[(7 : Axis)]).cnt < perOf (pwmRun .torque id) 7 ∧ ((pwmRun .torque id).pwm[(7 : Axis)]).down = false) ∧
    (reloadsAt (pwmRun .torque id) 7 false = true ∧ hostCompares (setN (pwmRun .torque id) (Sig.PWM_SRC 7) 1) 7 = true) ∧
    reloadsAt (setN up (Sig.PWM_RELOAD 7) 1) 7 true = true := by decide +kernel

/-- Sixteen tags wait in the FIFO of engine 1. -/
def fifoFull : State := modEng (pwmRun .torque id) 1 (fun e => { e with fifo := List.replicate 16 ⟨0, 0, 7⟩ })

/-- A pulse whose end is stretched, in a MINPW mode. -/
def stretched (mode : Nat) : State :=
  setN (setN (pwmRun .torque (fun c => { c with stretch := some 40, ideal := true, act := 480 })) (Sig.PWM_MINPW_MODE 7) mode) (Sig.PWM_MINPW 7) 0xFFFF

theorem witness_PulsesAndTagsFollowTheCounter :
    ((pwmRun .torque id).pwm[(7 : Axis)]).live = true ∧
    (effCompare (((pwmRun .torque (fun c => { c with act := 480 })).pwm[(7 : Axis)]).ch 0).act 0 = 30 ∧ 30 < perOf up 7) ∧
    (((stretched 0).pwm[(7 : Axis)]).ch 0).stretch = some 40 ∧ minpwMode (stretched 0) 7 0 ≠ 1 ∧
    (minpwMode (stretched 1) 7 0 = 1 ∧ predictWidth (toTick (stretched 1) 40) 7 0 (((stretched 1).pwm[(7 : Axis)]).ch 0).ideal <
      rgN (stretched 1) (Sig.PWM_MINPW 7)) ∧
    (((pwmRun .torque (fun c => { c with bsArmed := true })).pwm[(7 : Axis)]).ch 0).bsArmed = true ∧
    (((pwmRun .torque (fun c => { c with bsOn := true })).pwm[(7 : Axis)]).ch 0).bsOn = true ∧
    (trgPos 20 1 (perOf up 7) ≠ [] ∧ trgPos ((pwmRun .torque id).pwm[(7 : Axis)]).trgB ((pwmRun .torque id).pwm[(7 : Axis)]).slopeB
      (perOf up 7) = [] ∧ ((pwmRun .torque id).eng[engOf 7]).fifo.length < 16) ∧
    16 ≤ (fifoFull.eng[engOf 7]).fifo.length := by decide +kernel

theorem witness_GatesTurnOnAfterTheHandshake :
    (((pwmRun .torque (fun c => { c with pendH := true, belowL := true })).pwm[(7 : Axis)]).ch 0).pendH = true ∧
    ((((pwmRun .torque id).pwm[(7 : Axis)]).ch 0).cmdL = false ∧ (((pwmRun .torque id).pwm[(7 : Axis)]).ch 0).awaitL = false ∧
      (((pwmRun .torque id).pwm[(7 : Axis)]).ch 0).cmdH = false ∧ (((pwmRun .torque id).pwm[(7 : Axis)]).ch 0).awaitH = false) ∧
    (((pwmRun .torque (fun c => { c with pendL := true, belowH := true })).pwm[(7 : Axis)]).ch 0).pendL = true ∧
    ((((pwmRun .torque (fun c => { c with awaitH := true })).pwm[(7 : Axis)]).ch 0).awaitH = true ∧
      (((pwmRun .torque (fun c => { c with awaitH := true })).pwm[(7 : Axis)]).ch 0).cmdH = false ∧
      markOf (pwmRun .torque (fun c => { c with awaitH := true })) (keyTimeout 7 ⟨0, true⟩) ≠
        (((pwmRun .torque (fun c => { c with awaitH := true })).pwm[(7 : Axis)]).ch 0).offH + 361) ∧
    ((pwmRun .torque id).pwm[(7 : Axis)]).atcOpenAt = some 5 ∧ ((pwmRun .torque id).pwm[(7 : Axis)]).atcCloseAt = some 9 := by
  decide +kernel

/-- The high side of U is on. -/
def gateHigh : State :=
  let s := setN (pwmRun .torque (fun c => { c with cmdH := true })) (Sig.GD_SC_MODE 7) 0
  { s with ds := { s.ds with locked := true, last := { s.ds.last with req := 128 }, sent := { s.ds.sent with req := 128, grant := 128 } },
           sup := { s.sup with req := 128 } }

theorem witness_BridgeLatchesIsolateTheirHalfBridge :
    (gateOn gateHigh 7 ⟨0, true⟩ = true ∧ rgN gateHigh (Sig.GD_SC_MODE 7) = 0) ∧
    (rgN (setN gateHigh (Sig.GD_SC_MODE 7) 1) (Sig.GD_SC_MODE 7) = 1 ∧ gateOn (setN gateHigh (Sig.GD_SC_MODE 7) 1) 7 ⟨0, true⟩ = true ∧
      bitOf (latchByte (setN gateHigh (Sig.GD_SC_MODE 7) 1) 7 0) 7 = false) ∧
    bitOf (latchByte up 7 2) 4 = false := by decide +kernel

/-- Axis 7 in PRECHARGE on its way to TORQUE. -/
def precharging : State := modAx (axIn up 7 .precharge) 7 (fun a => { a with goal := .torque })

/-- The same axis with its last gap over. -/
def precharged : State := modGd precharging 7 (fun g => { g with precharge := 31 })

theorem witness_TripsAndPrechargeActOnTheBridge :
    (rgN (setN up (Sig.GD_TRIP_ACT 7) 3) (Sig.GD_TRIP_ACT 7) = 3 ∧ (up.pwm[(7 : Axis)]).atcOpen = false ∧ tripped up 7 = false) ∧
    ((pwmRun .torque id).pwm[(7 : Axis)]).atcOpen = true ∧
    (rgN (setN up (Sig.GD_TRIP_ACT 7) 0) (Sig.GD_TRIP_ACT 7) = 0 ∧ (up.pwm[(7 : Axis)]).atcOpen = false) ∧
    (axSt precharging 7 = .precharge ∧ (precharging.gd[(7 : Axis)]).pulse = false ∧
      (precharging.gd[(7 : Axis)]).precharge < rgN precharging (Sig.GD_PRECHG_N 7)) ∧
    (axSt (modGd precharging 7 (fun g => { g with pulse := true })) 7 = .precharge ∧
      ((modGd precharging 7 (fun g => { g with pulse := true })).gd[(7 : Axis)]).pulse = true) ∧
    (inRun precharging = true ∧ rgN precharged (Sig.GD_PRECHG_N 7) ≤ (precharged.gd[(7 : Axis)]).precharge ∧
      (precharged.gd[(7 : Axis)]).pulse = false ∧ axSt precharged 7 = .precharge ∧ (precharged.ax[(7 : Axis)]).goal ≠ .precharge) := by
  decide +kernel

/-! ### Witnesses: sampling, loops, observers, Caramel -/

/-- An offset learn of axis 7 runs. -/
def learning (bad : Bool) : State := modOfs up 7 (fun o => { o with learning := true, spoiled := bad })

theorem witness_ConversionsMeansAndOffsetsAreKept :
    (inRun up = true ∧ ((modAdc up 3 (fun a => { a with running := true })).adc[(3 : Fin 4)]).running = true) ∧
    axSt up 7 = .disabled ∧
    (((learning false).ofs[(7 : Axis)]).learning = true ∧ ((learning false).ofs[(7 : Axis)]).spoiled = false ∧
      axSt (learning false) 7 = .disabled ∧ LearnedValid (learning false) 7) ∧
    (InOffsetRange (learnMean (Sig.SMP_OFS 14) ((learning false).ofs[(7 : Axis)]).sumU 1024) ∧
      InOffsetRange (learnMean (Sig.SMP_OFS 15) ((learning false).ofs[(7 : Axis)]).sumV (-1024)) ∧
      ¬InOffsetRange (learnMean (Sig.SMP_OFS 14) ((learning false).ofs[(7 : Axis)]).sumU (-1025)) ∧
      ¬InOffsetRange (learnMean (Sig.SMP_OFS 15) ((learning false).ofs[(7 : Axis)]).sumV 1025)) ∧
    ((learning true).ofs[(7 : Axis)]).spoiled = true := by
  refine ⟨?_, ?_, ⟨?_, ?_, ?_, fun v => ?_⟩, ⟨⟨?_, ?_⟩, ⟨?_, ?_⟩, fun h => absurd h.1 ?_, fun h => absurd h.2 ?_⟩, ?_⟩ <;>
    (try revert v) <;> decide +kernel

/-- A tag of axis 7 from TRGA. -/
def tag7 (ts : Nat) : Tag := ⟨tagWord ts (ts / 40) false false (slotOf 7), ts, 7⟩

/-- Axis 7 in TORQUE with a tag whose sample window has closed. -/
def taskReady (prev : Option Nat) : State :=
  let s := modEng (axIn up 7 .torque) 1 (fun e => { e with fifo := [tag7 95000] })
  let s := modAdc s 1 (fun a => { a with running := true })
  modLoop { s with clk := { s.clk with tb := 100040 } } 7 (fun l => { l with lastTag := prev, passes := 2 })

/-- What an outer step works on. -/
def due9 : Due := ⟨9, 0, 0, 20, 1 / 1000⟩

/-- Axis 7 with an outer step due. -/
def stepDue (x : AxState) : State :=
  modLoop (axIn (setN up (Sig.LP_POS_ERR_MAX 7) 0) 7 x) 7 (fun l =>
    { l with
      dueSpd := if x = .speed then some due9 else none
      duePos := if x = .position then some due9 else none
      dueObs := some (9, 1) })

/-- A task of axis 7 that a halt held. -/
def heldTask : Task := takeSnapshot up 7 95000 (1 / 20000)

/-- The same axis while a task of axis 6 comes first, and with its task held. -/
def otherFirst : State := modEng (axIn (taskReady none) 6 .torque) 1 (fun e => { e with fifo := [tag7 95000, ⟨0, 90000, 6⟩] })
def holding : State := modEng (taskReady none) 1 (fun e => { e with stopped := some heldTask })

theorem witness_TasksAndStepsRunTheLoops :
    (inRun (taskReady none) = true ∧ ((taskReady none).eng[engOf 7]).halted = false ∧ ((taskReady none).eng[engOf 7]).stopped = none ∧
      (axSt (taskReady none) 7).runsTasks = true ∧
      ((taskReady none).eng[engOf 7]).fifo.find? (fun g => decide (g.axis = 7)) = some (tag7 95000) ∧
      (taskReady none).clk.tb ≤ 95000 + 32000 ∧ tagSelected (taskReady none) (tag7 95000) = true ∧
      tooClose (taskReady none) 7 95000 = false ∧ nextTask (taskReady none) (engOf 7) = some (tag7 95000) ∧
      banksAgree (taskReady none) 7 = true ∧ ((taskReady none).loop[(7 : Axis)]).passes = 2 ∧
      ((taskReady none).loop[(7 : Axis)]).passPend = none) ∧
    ((otherFirst.eng[engOf 7]).fifo.find? (fun g => decide (g.axis = 7)) = some (tag7 95000) ∧ inRun otherFirst = true ∧
      (otherFirst.eng[engOf 7]).halted = false ∧ (otherFirst.eng[engOf 7]).stopped = none ∧ (axSt otherFirst 7).runsTasks = true ∧
      tagSelected otherFirst (tag7 95000) = true ∧ tooClose otherFirst 7 95000 = false ∧
      nextTask otherFirst (engOf 7) ≠ some (tag7 95000)) ∧
    95000 + 32000 < ({ taskReady none with clk := { (taskReady none).clk with tb := 127001 } }).clk.tb ∧
    tooClose (taskReady (some 94999)) 7 95000 = true ∧
    ((holding.eng[engOf 7]).stopped = some heldTask ∧ heldTask.axis = 7) ∧
    (inRun (stepDue .speed) = true ∧ ((stepDue .speed).loop[(7 : Axis)]).dueSpd = some due9 ∧
      ((stepDue .speed).loop[(7 : Axis)]).duePos = none ∧ (loopState (stepDue .speed) 7).closesSpeed = true ∧
      ((stepDue .speed).eng[engOf 7]).halted = false ∧ taskPending (stepDue .speed) (engOf 7) = false ∧
      banksAgree (stepDue .speed) 7 = true) ∧
    (inRun (stepDue .position) = true ∧ ((stepDue .position).loop[(7 : Axis)]).duePos = some due9 ∧
      loopState (stepDue .position) 7 = .position ∧ ((stepDue .position).eng[engOf 7]).halted = false ∧
      taskPending (stepDue .position) (engOf 7) = false ∧ banksAgree (stepDue .position) 7 = true ∧
      rgN (stepDue .position) (Sig.LP_POS_ERR_MAX 7) = 0) := by
  refine ⟨?_, ?_, ?_, ?_, ⟨rfl, rfl⟩, ?_, ?_⟩ <;> decide +kernel

/-- Axis 7 in TORQUE whose observer has converged, whose resolver is valid and whose angles disagree, or which runs on continuation. -/
def observing (sens : Bool) : State :=
  modRsv (modObs (stepDue .torque) 7 (fun o => { o with conv := !sens, sens := sens, est := 2, below := some 3, overSince := some 8000 })) 7
    (fun r => { r with valid := true })

theorem witness_ObserversStepConvergeAndDisagree :
    (inRun (observing true) = true ∧ ((observing true).loop[(7 : Axis)]).dueObs = some (9, 1) ∧
      (axSt (observing true) 7).runsTasks = true ∧ ((observing true).eng[engOf 7]).halted = false ∧
      taskPending (observing true) (engOf 7) = false ∧ banksAgree (observing true) 7 = true) ∧
    (((stepDue .torque).obs[(7 : Axis)]).conv = false ∧ ((stepDue .torque).obs[(7 : Axis)]).sens = false) ∧
    (((observing true).obs[(7 : Axis)]).below = some 3 ∧ ((observing true).obs[(7 : Axis)]).conv = false) ∧
    (((observing false).obs[(7 : Axis)]).overSince = some 8000 ∧ agreeArmed (observing false) 7 = true) ∧
    (((observing true).obs[(7 : Axis)]).sens = true ∧ ((observing true).obs[(7 : Axis)]).est = 2) := by decide +kernel

/-- Caramel of axis 7 while a replan runs and a step pulse is owed. -/
def stepping (high : Bool) : State :=
  let s := setI (setN posAxis (Sig.CAR_STP_SET 7) 3) (Sig.CAR_STP_DEBT 7) (-1)
  modCar s 7 (fun c => { c with replan := some 80, taking := some (moveCmd posAxis 7 mv 1), arrived := true, stpHigh := high, dirPos := false })

theorem witness_ProfileClocksPlansAndStepsMoveCaramel :
    (inRun (stepping true) = true ∧ axSt (stepping true) 7 = .position ∧ axSt up 7 ≠ .position) ∧
    (((stepping true).car[(7 : Axis)]).replan = some 80 ∧ ((stepping true).car[(7 : Axis)]).taking = some (moveCmd posAxis 7 mv 1)) ∧
    ((stepping true).car[(7 : Axis)]).arrived = true ∧
    (stepAssigned (stepping false) 7 = true ∧ ((stepping false).car[(7 : Axis)]).stpHigh = false ∧
      rgI (stepping false) (Sig.CAR_STP_DEBT 7) ≠ 0 ∧
      ((stepping false).car[(7 : Axis)]).dirPos = decide (0 < rgI (stepping false) (Sig.CAR_STP_DEBT 7))) ∧
    ((stepping true).car[(7 : Axis)]).stpHigh = true := by
  refine ⟨?_, ⟨?_, rfl⟩, ?_, ?_, ?_⟩ <;> decide +kernel

/-! ### Witnesses: resolvers, feedback inputs, analogue outputs -/

/-- Driver 1 excites, and channel 7 learns its phase with a sum of amplitudes. -/
def excited (sum : Rat) (next : Bool) : State :=
  modRsv (modExc up 1 (fun e => { e with on := true })) 7 (fun r =>
    { r with en := true, learnPhase := true, ampSum := sum, ampN := 40, storing := some [1], storeNext := next })

theorem witness_ResolverPeriodsLearnsAndTablesEnd :
    (inRun (excited 77840 true) = true ∧ ((excited 77840 true).exc[drvOf 7]).on = true ∧ ((excited 77840 true).rsv[(7 : Axis)]).learnPhase = true ∧
      rgN (excited 77840 true) (Sig.RSV_AMP_NOM 7) = 0 ∧
      512 ≤ ((excited 77840 true).rsv[(7 : Axis)]).ampSum / (((excited 77840 true).rsv[(7 : Axis)]).ampN : Rat) ∧
      ((excited 77840 true).rsv[(7 : Axis)]).ampSum / (((excited 77840 true).rsv[(7 : Axis)]).ampN : Rat) ≤ 1946) ∧
    (rgN (setN (excited 40000 true) (Sig.RSV_AMP_NOM 7) 16000) (Sig.RSV_AMP_NOM 7) ≠ 0 ∧
      ampOut (excited 40000 true) 7 (1000 * 1000) (16000 / 16) = false ∧ ampOut (excited 0 true) 7 0 (16000 / 16) = true) ∧
    ((excited 20479 true).rsv[(7 : Axis)]).ampSum / (((excited 20479 true).rsv[(7 : Axis)]).ampN : Rat) < 512 ∧
    (((excited 0 true).rsv[(7 : Axis)]).en = true ∧ rgN (excited 0 true) (Sig.RSV_PROBE_PER 7) ≠ 0) ∧
    ((excited 0 true).rsv[(7 : Axis)]).storing = some [1] := by decide +kernel

/-- Feedback input 7 in a mode, its last step at tick 10. -/
def fbIn (mode : Nat) (off : Bool) : State :=
  modFb (setN up (Sig.FB_MODE 7) mode) 7 (fun f => { f with a := false, b := false, z := false, steps := [(10, true)], wssOff := off })

theorem witness_FeedbackInputsCountTheirEdges :
    (inRun (fbIn 1 false) = true ∧ fbMode (fbIn 1 false) 7 = 1 ∧ rgN (fbIn 1 false) (Sig.FB_Z_EN 7) = 0 ∧
      (true ≠ ((fbIn 1 false).fb[(7 : Axis)]).a ↔ false = ((fbIn 1 false).fb[(7 : Axis)]).b) ∧ true ≠ ((fbIn 1 false).fb[(7 : Axis)]).b) ∧
    (fbMode (fbIn 2 false) 7 = 2 ∧ hallSector true true true = none ∧ ((fbIn 2 false).fb[(7 : Axis)]).a = false) ∧
    (fbMode (fbIn 1 false) 7 ≠ 0 ∧ ((fbIn 1 false).fb[(7 : Axis)]).steps = [(10, true)] ∧
      ((modFb (fbIn 1 false) 7 (fun f => { f with still := false })).fb[(7 : Axis)]).still = false) ∧
    wssPower (fbIn 4 false) 7 = true ∧ (fbMode (fbIn 4 true) 7 = 4 ∧ ((fbIn 4 true).fb[(7 : Axis)]).wssOff = true) := by decide +kernel

/-- Analogue output 5 after a change. -/
def aoIn (f : AoCh → AoCh) : State := modAo (setN up Sig.AO_LOAD_SRC 1) 5 f

theorem witness_AnalogueOutputsStepClearAndChangeSpan :
    (rgB (aoIn id) Sig.AO_LOAD_SRC 0 = true ∧ (aoIn id).aoClear = false ∧ rgB (setN up Sig.AO_LOAD_SRC 2) Sig.AO_LOAD_SRC 0 = false) ∧
    (((aoIn (fun a => { a with span := 1 })).ao[(5 : Fin 6)]).span ≠ 0 ∧ ((aoIn (fun a => { a with span := 1 })).ao[(5 : Fin 6)]).waiting = false ∧
      ((aoIn (fun a => { a with span := 1 })).ao[(5 : Fin 6)]).openAt = false ∧
      ((aoIn (fun a => { a with span := 1 })).ao[(5 : Fin 6)]).changing = none ∧
      ((aoIn (fun a => { a with span := 1, out := 5 })).ao[(5 : Fin 6)]).out ≠
        ((aoIn (fun a => { a with span := 1, out := 5 })).ao[(5 : Fin 6)]).target) ∧
    (asleep.pwr.st = .sleep ∧ linkPowered (aoIn id) = true) ∧
    ((aoIn (fun a => { a with closed := true })).ao[(5 : Fin 6)]).closed = true ∧
    ((aoIn (fun a => { a with span := 1, waiting := true })).ao[(5 : Fin 6)]).waiting = true ∧
    (((aoIn (fun a => { a with changing := some 4, openAt := true })).ao[(5 : Fin 6)]).changing = some 4 ∧
      ((aoIn (fun a => { a with changing := some 4, openAt := true })).ao[(5 : Fin 6)]).openAt = true) ∧
    ((aoIn (fun a => { a with changing := some 0, openAt := true })).ao[(5 : Fin 6)]).changing = some 0 := by decide +kernel

/-! ### Witnesses: the ring, the record, the debug port -/

/-- A device on the ring in a mode, at position 1, with a member at position 0. -/
def onRing (mode id flags : Nat) (f : Emq → Emq) : State :=
  { up with emq := f { up.emq with mode := mode, pos := 1, master := some 5, census := setAt up.emq.census 0 (some (id, flags)) } }

/-- A SYNC frame of a master with ring ID 5 at HOP 14. -/
def syncBytes : List Byte :=
  let body : List Byte := [0, 0x50, 14, 0, 0, 0, 0, 0, 0, 0, 0, 0, 0]
  0x55 :: body ++ leBytes 2 (crc16 body).toNat

/-- A heartbeat of ring ID 3, SEQ 9, RUN and LOCKED. -/
def hbBytes : List Byte := [9, 0x33, 0, crc8 [9, 0x33, 0]]

/-- A stream frame of ring ID 3, channel 1. -/
def strmBytes : List Byte := [0x34, 5, 0, 0, 0, 0, 0, 0, 0] ++ [crc8 [0x34, 5, 0, 0, 0, 0, 0, 0, 0]]

theorem witness_RingSlotsAreCheckedAndTaken :
    (originates (onRing 1 5 0 (fun e => { e with isMaster := true })) = true ∧
      (onRing 1 5 0 (fun e => { e with isMaster := true })).emq.stopAt = false) ∧
    syncOk (zeros 15) = false ∧
    (inRun (onRing 2 5 0 id) = true ∧ (onRing 2 5 0 id).emq.isMaster = false ∧ syncOk syncBytes = true ∧
      bitOf (fieldAt syncBytes 1 1) 7 = false ∧ fieldAt syncBytes 3 1 < 15) ∧
    (hbBytes.length = 4 ∧ crc8 (hbBytes.take 3) = hbBytes.getD 3 0 ∧ 15 ≠ (onRing 2 5 0 id).emq.pos ∧
      15 < (onRing 2 5 0 id).emq.members.length ∧ (onRing 2 5 0 id).emq.members.getD 15 none = none) ∧
    ((sealed (zeros 28)).length = 32 ∧ crc32 ((sealed (zeros 28)).take 28) = wordAt (sealed (zeros 28)) 28) ∧
    ((sealed (zeros 60)).length = 64 ∧ crc32 ((sealed (zeros 60)).take 60) = wordAt (sealed (zeros 60)) 60) ∧
    (strmBytes.length = 10 ∧ crc8 (strmBytes.take 9) = strmBytes.getD 9 0 ∧
      streamFor (setN (onRing 2 5 0 id) (Sig.FB_RING_SRC 7) 0x31) 7 strmBytes = true) := by decide +kernel

/-- A census that the heartbeats have changed for two cycles. -/
def changing : State :=
  let s := onRing 2 5 4 id
  { s with emq := { s.emq with shown := (observed s).map censusKey, steady := 2 } }

theorem witness_RingMembersFollowTheRing :
    ((observed changing).map censusKey ≠ changing.emq.census.map censusKey ∧ (observed changing).map censusKey = changing.emq.shown ∧
      2 ≤ changing.emq.steady ∧ inRun changing = true ∧ changing.emq.mode ≠ 0) ∧
    (4 ≤ (onRing 2 0 0 (fun e => { e with censusAge := 4 })).emq.censusAge ∧ duplicated (onRing 2 0 0 (fun e => { e with censusAge := 4 })) = true) ∧
    ((onRing 2 3 2 (fun e => { e with usurped := 4 })).emq.usurped = 4 ∧ (onRing 2 3 2 id).emq.master = some 5 ∧
      (onRing 3 3 2 (fun e => { e with sinceStamp := 4 })).emq.sinceStamp = 4) ∧
    (duplicated (onRing 2 0 0 id) = true ∧ (onRing 2 0 0 id).emq.noLead = false ∧ ringId up = 0) ∧
    ((onRing 1 5 0 id).emq.mode = 1 ∧ (onRing 1 5 0 id).emq.isMaster = false) ∧
    (lowestId (lockedMembers (onRing 2 3 2 (fun e => { e with epochOwn := true }))) = some (0, 3) ∧ 3 < 5) ∧
    ((onRing 2 5 0 (fun e => { e with epochOwn := true, bound := some (1000000, 3) })).emq.epochOwn = true ∧
      ∀ n : Axis, ((onRing 2 5 0 id).pwm[n]).running = false ∧ ((onRing 2 5 0 id).pwm[n]).startPend = false) ∧
    (onRing 3 5 0 id).emq.head = false ∧
    ((onRing 3 5 0 (fun e => { e with head := true })).emq.head = true ∧ (onRing 3 5 0 (fun e => { e with head := true })).emq.heal = 0) := by
  decide +kernel

/-- A frame in the forward queue, and a segment of it. -/
def queuedFrame (sending away : Bool) : FwdFrame := ⟨44, 3, false, fwdBytes, none, 7, 0, sending, away, false, none⟩
def segBytes (writer dst seen : Byte) (crc : Word) : List Byte :=
  [16 * writer, 8, dst, 7, seen, 0, 0, 0, 7, 0, 20, 0, 0, 255, 4, 0, 0, 0, 0, 0, 0, 0, 0, 0, 1, 3, 0, 0, 173, 9, 159, 116] ++ zeros 44 ++ wordBytes crc

/-- Segments with a good CRC: one that passes, one for this device, and one that returns seen by both positions. -/
def segPass : List Byte := segBytes 0 3 0 3573735944
def segHere : List Byte := segBytes 0 0 0 665044900
def segBack : List Byte := segBytes 1 3 3 1970810456


/-- The CRC-32 of bytes in two halves. -/
theorem crc32_halves {bs : List Byte} {x y : Word} (h : (bs.take 40).foldl crc32Byte 0xFFFFFFFF = x)
    (k : (bs.drop 40).foldl crc32Byte x ^^^ 0xFFFFFFFF = y) : crc32 bs = y := by
  unfold crc32
  rw [← List.take_append_drop 40 bs, List.foldl_append, h, k]

theorem segs_sound :
    crc32 (segPass.take 76) = wordAt segPass 76 ∧ crc32 (segHere.take 76) = wordAt segHere 76 ∧ crc32 (segBack.take 76) = wordAt segBack 76 :=
  ⟨crc32_halves (x := 349007807) (by decide +kernel) (by decide +kernel), crc32_halves (x := 1495625688) (by decide +kernel) (by decide +kernel),
    crc32_halves (x := 2227836863) (by decide +kernel) (by decide +kernel)⟩

theorem witness_SegmentsCarryForwardedFrames :
    (nextFrame (onRing 3 5 0 (fun e => { e with queues := [queuedFrame false false] })).emq.queues = some (queuedFrame false false) ∧
      (onRing 3 5 0 id).emq.slot = []) ∧
    ((onRing 3 5 0 (fun e => { e with queues := [queuedFrame true true], awayFor := 4 })).emq.queues.find? (fun f => f.sending) =
        some (queuedFrame true true) ∧ (queuedFrame true true).away = true ∧
      4 ≤ (onRing 3 5 0 (fun e => { e with queues := [queuedFrame true true], awayFor := 4 })).emq.awayFor) ∧
    ([1, 2] : List Byte).length ≠ 80 ∧
    (segPass.all (fun b => b == 0) = false ∧ segPass.length = 80 ∧ crc32 (segPass.take 76) = wordAt segPass 76 ∧
      fieldAt segPass 0 1 / 16 ≠ (onRing 2 5 0 id).emq.pos ∧ fieldAt segPass 2 1 ≠ ringId (onRing 2 5 0 id) ∧ fieldAt segPass 2 1 ≠ 0x1F) ∧
    (crc32 (segHere.take 76) = wordAt segHere 76 ∧ fieldAt segHere 2 1 = ringId (onRing 2 5 0 id) ∧ fieldAt segHere 0 1 % 16 = 0 ∧
      fieldAt segHere 1 1 / 16 = 0 ∧ cellGet (onRing 2 5 0 id).emq.seen 0 = none) ∧
    (crc32 (segBack.take 76) = wordAt segBack 76 ∧ fieldAt segBack 0 1 / 16 = (onRing 2 5 0 id).emq.pos ∧
      positionMask (onRing 2 5 0 id) = 3 ∧ positionMask (onRing 2 5 0 id) &&& fieldAt segBack 4 2 = positionMask (onRing 2 5 0 id) ∧
      lastSeg fwdBytes ≤ 0 ∧ fieldAt segBack 6 2 &&& dstMask (onRing 2 5 0 id) 3 = 0) := by
  refine ⟨?_, ?_, ?_, ⟨?_, ?_, segs_sound.1, ?_⟩, ⟨segs_sound.2.1, ?_⟩, segs_sound.2.2, ?_⟩ <;> decide +kernel

/-- The record with its head one block behind the oldest block, where a pinned slice stands. -/
def fullRecord : State :=
  { recorded with rcd := { recorded.rcd with slices := recorded.rcd.slices.map (fun x => { x with block := 1, autoPin := true }),
                                             headBlock := 0, oldestBlock := 1 } }

theorem witness_RecordSlicesAreCommittedAndReclaimed :
    (stagedFull.pwr.st = .run ∧ stagedFull.rcd.staged = [⟨2, zeros 61440, false, none, (0, 0)⟩]) ∧
    (erasedAhead fullRecord < 2 ∧ fullRecord.rcd.oldestBlock ≠ fullRecord.rcd.headBlock ∧ fullRecord.pwr.st ≠ .off ∧
      (pinnedOldest fullRecord).isEmpty = false) ∧
    (erasedAhead (reclaim fullRecord) < 2 ∧ (reclaim fullRecord).rcd.oldestBlock ≠ (reclaim fullRecord).rcd.headBlock ∧
      (reclaim fullRecord).pwr.st ≠ .off ∧ (pinnedOldest (reclaim fullRecord)).isEmpty = true) ∧
    rgN (setN up Sig.FC_SUM_PER 60) Sig.FC_SUM_PER ≠ 0 ∧
    (({ up with rcd := { up.rcd with coupling := some (5, []) } }).rcd.coupling = some (5, []) ∧ up.hc.probe = none) := by
  refine ⟨⟨rfl, rfl⟩, ?_, ?_, ?_, ?_⟩ <;> decide +kernel

/-- The pinned slice of the oldest block has its copy in the head's block before the block is erased (R589). -/
theorem test_reclaim_copies_then_erases :
    (reclaim fullRecord).rcd.slices.map (fun x => (x.block, x.relocated)) = [(1, false), (0, true)] ∧
    (reclaim (reclaim fullRecord)).rcd.slices.map (fun x => (x.block, x.relocated)) = [(0, true)] ∧
    (reclaim (reclaim fullRecord)).rcd.oldestBlock = 2 := by decide +kernel

/-- A Finyr request with its header good. -/
def dq (port len page addr : Nat) : DbgReq := ⟨port, 9, len, page, addr, true⟩

/-- A signal condition on CMD_COUNT that holds, and a breakpoint of the MP, both armed. -/
def armed : State :=
  { up with dbg := { up.dbg with slots := [⟨5, 3, [1, sidOf up Sig.CMD_COUNT, 0, 0], none⟩, ⟨0, 11, [1, 0, 0, 0], none⟩] } }

theorem armed_holds : conditionHolds armed ⟨5, 3, [1, sidOf up Sig.CMD_COUNT, 0, 0], none⟩ = true := by
  have h : readStatus armed false (sidOf up Sig.CMD_COUNT) = stOk := readOk_of (by decide +kernel)
  unfold conditionHolds
  simp only [List.getD_cons_succ, List.getD_cons_zero, h]
  decide +kernel

theorem witness_DebugRequestsActOnTheirTargets :
    linkPowered up = true ∧
    (DbgAccepted up (dq 2 0 0 0) 3 0 ∧ DbgAccepted up (dq 2 0 0 65535) 5 0 ∧ targetMayHalt up 2 = true) ∧
    (DbgAccepted (axIn up 7 .torque) (dq 2 0 0 0) 3 0 ∧ targetMayHalt (axIn up 7 .torque) 2 = false) ∧
    DbgAccepted up (dq 0 0 0 0) 4 0 ∧
    (DbgAccepted up (dq 0 4 0 11) 6 ([1, 0, 0, 0] : List Word).length ∧ bpWordsOk 0 11 [1, 0, 0, 0] = true ∧
      (([1, 0, 0, 0] : List Word).headD 0).getLsbD 0 = true) ∧
    (armed.dbg.slots.find? (fun b => b.port == 0 && b.slot == 11) = some ⟨0, 11, [1, 0, 0, 0], none⟩ ∧ targetMayHalt armed 0 = true) ∧
    (armed.dbg.slots.find? (fun b => b.port == 5 && b.slot == 3) = some ⟨5, 3, [1, sidOf up Sig.CMD_COUNT, 0, 0], none⟩ ∧
      conditionHolds armed ⟨5, 3, [1, sidOf up Sig.CMD_COUNT, 0, 0], none⟩ = true ∧
      conditionTargets ⟨5, 3, [1, sidOf up Sig.CMD_COUNT, 0, 0], none⟩ = [0]) ∧
    (DbgAccepted recorded (dq 4 64 0 5) 1 0 ∧ readSlice recorded 5 false ≠ none ∧ kindOpen recorded 3 = true) ∧
    (DbgAccepted up (dq 2 0 0 0) 1 0 ∧ dbgUnmapped (dq 2 0 0 0) = false ∧ targetHalted { up with eng := up.eng.set 1 { up.eng[1] with halted := true } } 2 = true) ∧
    (DbgAccepted up (dq 3 64 0 0xFFFFFFFD) 1 0 ∧ dbgUnmapped (dq 3 64 0 0xFFFFFFFD) = true) ∧
    (DbgAccepted up (dq 2 0 0 0) 2 ([] : List Word).length ∧ up.bisc.logs.length = 3) ∧
    (DbgAccepted up (dq 2 64 0 1) 2 (List.replicate 64 (0 : Word)).length ∧ dbgUnmapped (dq 2 64 0 1) = true) ∧ DbgAccepted up (dq 5 0 0 0) 7 0 := by
  refine ⟨?_, ⟨dbgAccepted_of ?_, dbgAccepted_of ?_, ?_⟩, ⟨dbgAccepted_of ?_, ?_⟩, dbgAccepted_of ?_, ⟨dbgAccepted_of ?_, ?_⟩, ?_, ⟨?_, armed_holds, ?_⟩,
    ⟨dbgAccepted_of ?_, ?_⟩, ⟨dbgAccepted_of ?_, ?_, ?_⟩, ⟨dbgAccepted_of ?_, ?_⟩, ⟨dbgAccepted_of ?_, ?_⟩, ⟨dbgAccepted_of ?_, ?_⟩, dbgAccepted_of ?_⟩ <;>
    decide +kernel

theorem leBytes_ofLe4 (a b c d : Byte) : leBytes 4 (BitVec.ofNat 32 (ofLe [a, b, c, d])).toNat = [a, b, c, d] := by
  have ha := a.isLt
  have hb := b.isLt
  have hc := c.isLt
  have hd := d.isLt
  simp only [leBytes, ofLe, BitVec.toNat_ofNat, List.cons.injEq, and_true, ← BitVec.toNat_inj]
  omega

/-- Thirty-two bytes are the bytes of eight words. -/
theorem words_of_bytes : ∀ (k : Nat) (bs : List Byte), bs.length = 4 * k → ∃ ws : List Word, ws.length = k ∧ wordsBytes ws = bs
  | 0, bs, h => ⟨[], rfl, (List.length_eq_zero_iff.mp h).symm⟩
  | k + 1, a :: b :: c :: d :: bs, h => by
    obtain ⟨ws, hl, hw⟩ := words_of_bytes k bs (by simp at h; omega)
    refine ⟨BitVec.ofNat 32 (ofLe [a, b, c, d]) :: ws, by simp [hl], ?_⟩
    have h4 := leBytes_ofLe4 a b c d
    simp only [wordsBytes, List.flatMap_cons, wordBytes, h4]
    simpa [wordsBytes] using hw

/-- A session with a nonce. -/
def challenged : State := { up with dbg := { up.dbg with session := true, nonce := some (zeros 16, 0), fails := 7 } }
def locked : State := { up with dbg := { up.dbg with lockUntil := some 1000000 } }
def retiring : State := { up with dbg := { up.dbg with retiring := some (9, true) } }
def retired : State := { up with fuse := { up.fuse with lc := .retired, lcNow := .retired } }

theorem witness_macHolds : ∃ mac : List Word, mac.length = 8 ∧ macHolds challenged mac = true := by
  obtain ⟨ws, hl, hw⟩ := words_of_bytes 8 (expectedMac challenged (zeros 16)) (by simp [expectedMac, fitTo, zeros]; omega)
  refine ⟨ws, hl, ?_⟩
  have hn : challenged.dbg.nonce = some (zeros 16, 0) := rfl
  have hu : challenged.clk.us ≤ 0 + 10000000 := by decide +kernel
  simp [macHolds, hn, hw, hu]

theorem witness_DebugSessionsAreOpenedAndEnded :
    (DbgAccepted up (dq 5 0 0 0) 8 0 ∧ authLocked up = false) ∧ (DbgAccepted locked (dq 5 0 0 0) 8 0 ∧ authLocked locked = true) ∧
    DbgAccepted challenged (dq 5 8 0 0) 9 8 ∧ macHolds up (List.replicate 8 0) = false ∧ locked.dbg.lockUntil = some 1000000 ∧
    (DbgAccepted up (dq 5 0 0 0x52455354) 10 0 ∧ up.pwr.vioLow = false ∧ up.pwr.vcoreLow = false) ∧ DbgAccepted up (dq 5 0 0 0) 11 0 ∧
    challenged.dbg.session = true ∧
    (DbgAccepted up (dq 5 0 0 0x52455449) 12 0 ∧ lifeCycle up = .develop ∧ up.dbg.retiring = none ∧ fuseRunnable fenv = true) ∧
    (DbgAccepted retiring (dq 5 0 0 0x52455449) 12 0 ∧ retiring.dbg.retiring = some ((dq 5 0 0 0x52455449).seq, true)) ∧
    (DbgAccepted retired (dq 5 0 0 0x52455449) 12 0 ∧ lifeCycle retired ≠ .develop ∧ lifeCycle retired ≠ .field) := by
  refine ⟨⟨dbgAccepted_of ?_, ?_⟩, ⟨dbgAccepted_of ?_, ?_⟩, dbgAccepted_of ?_, ?_, ?_, ⟨dbgAccepted_of ?_, ?_⟩, dbgAccepted_of ?_, ?_,
    ⟨dbgAccepted_of ?_, ?_⟩, ⟨dbgAccepted_of ?_, ?_⟩, dbgAccepted_of ?_, ?_⟩ <;> decide +kernel

/-! ### The well-formedness check refuses an ill-formed term for each of its parts -/

theorem wf_accepts : (Instr.axisState (rq 7) 3 false Check.pass).wf = true ∧ (Instr.powerOnReset env0).wf = true ∧
    (Instr.fuseProgram (rq 0xFF) 0 20 [0xFFFFFFFF] [] fenv).wf = true ∧ (Instr.dbgHalt (dq 1 0 0 0)).wf = true := by decide +kernel

theorem wf_refuses_requests : ∀ r ∈ ([{ rq 0 with tag := 2 ^ 16 }, { rq 0 with devSel := 0x10 }, rq 8, rq 0x14, { rq 0 with deadline := 2 ^ 32 },
    { rq 0 with resp := 15 }, { rq 0 with resp := 32 }, { rq 0 with mask := 256 }, { rq 0 with ring := 16 },
    { rq 0 with fwd := true, entry := 2, ring := 2 }, { rq 0 with fwd := true, entry := 16, ring := 80 }] : List Req),
    (Instr.recNote r []).wf = false := by decide +kernel

theorem wf_refuses_moves : ∀ m ∈ ([⟨256, 0, false, 0, 0, 0, 0, 0, 0, 0⟩, ⟨0, 256, false, 0, 0, 0, 0, 0, 0, 0⟩,
    ⟨0, 0, false, 2 ^ 63, 0, 0, 0, 0, 0, 0⟩, ⟨0, 0, false, -(2 ^ 63) - 1, 0, 0, 0, 0, 0, 0⟩, ⟨0, 0, false, 0, 2 ^ 32, 0, 0, 0, 0, 0⟩,
    ⟨0, 0, false, 0, 0, 0, 0, 0, 0, 2 ^ 32⟩] : List MoveArgs), (Instr.move (rq 7) m).wf = false := by decide +kernel

theorem wf_refuses_surroundings : ∀ i ∈ ([.powerOnReset { env0 with straps := 16 }, .powerOnReset { env0 with weakFuses := [(256, 0)] },
    .powerOnReset { env0 with weakCommits := [256] }, .powerOnReset { env0 with pstFail := [(0, 64)] },
    .powerOnReset { env0 with learned := [⟨0, 0, 0, 0⟩, ⟨0, 1, 1, 1⟩] }, .fuseProgram (rq 0xFF) 0 20 [0] [] { fenv with temps := [] },
    .fuseProgram (rq 0xFF) 0 20 [0] [] { fenv with sense := [(256, 0, 0)] }, .vdrvLockRelease [(0, 64)], .clkFail 4,
    .parkingWatchWindow 256 false] : List Instr), i.wf = false := by decide +kernel

theorem wf_refuses_link : ∀ i ∈ ([.ringDataWrite 256 0 0 [], .ringDataWrite 0x20 256 0 [], .ringDataRead 0x30 0 65536 0,
    .ringDataRead 0x30 0 0 65536, .linkRegWrite 256 0 [], .evtClear 0x12 0 [] [96], .forwardedFrame 16 [], .forwardedFrame 0 (zeros 1029)] :
    List Instr), i.wf = false := by decide +kernel

theorem wf_refuses_commands : ∀ i ∈ ([.sigRead (rq 0) false (List.replicate 251 0), .sigWrite (rq 0) (List.replicate 126 (0, 0)) [] false,
    .sigSubscribe (rq 0) 256 0 0 0 0 [], .sigSubscribe (rq 0) 0 0 0 (2 ^ 32) 0 [], .sigSubscribe (rq 0) 0 0 0 0 0 (List.replicate 33 0),
    .sigLimit (rq 0) 256 true 0 0 0 0 0 0, .sigLimit (rq 0) 0 true 0 0 0 0 0 65536, .axisState (rq 0) 256 false Check.pass,
    .axisState (rq 0) 0 false ⟨some 0, false, false⟩, .stop (rq 0) 256 false, .setGains (rq 0) 256 0 0, .groupSet (rq 0) 0 256,
    .modeSet (rq 0) 256 0 0, .abort (rq 0) 65536 0, .recRead (rq 0) (2 ^ 32) 0 0 false 0, .recNote (rq 0) (zeros 1005),
    .imgWrite (rq 0) (2 ^ 32) [], .imgWrite (rq 0) 0 (zeros 1005), .fuseProgram (rq 0) 0 256 [] [] fenv,
    .fuseProgram (rq 0) 0 0 (List.replicate 5 0) [] fenv, .selftest (rq 0) 256 [] ⟨true, none⟩, .probeCoupling (rq 0) true (zeros 65),
    .subscriptionPeriod 0, .subscriptionPeriod 33, .gdLatchClear (rq 0) 0 0 (2 ^ 32)] : List Instr), i.wf = false := by decide +kernel

theorem wf_refuses_events : ∀ i ∈ ([.faultEvent 65536, .heartbeatSend ⟨some 8, false, false⟩, .currentTask 0 ⟨some 0, false, false⟩ .good,
    .comparatorProof (List.replicate 65 true), .syncSlot (zeros 2049) 0 false, .ringHeartbeat 0 (zeros 2049), .breakpointHit 6 0,
    .breakpointHit 0 12, .dbgRead (dq 256 0 0 0), .dbgRead (dq 0 256 0 0), .dbgRead (dq 0 0 256 0), .dbgRead (dq 0 0 0 (2 ^ 32)),
    .dbgRead { dq 0 0 0 0 with seq := 256 }, .dbgWrite (dq 0 0 0 0) (List.replicate 65 0), .authResponse (dq 0 0 0 0) (List.replicate 65 0) 0] :
    List Instr), i.wf = false := by decide +kernel

/-! ### Worked examples -/

def ascii : List Byte := [0x31, 0x32, 0x33, 0x34, 0x35, 0x36, 0x37, 0x38, 0x39]

/-- The published check values of the three CRCs (R138, R543, R544) over the characters 1 to 9. -/
theorem test_crcs : crc32 ascii = 0xCBF43926 ∧ crc16 ascii = 0x29B1 ∧ crc8 ascii = 0xF4 := by decide +kernel

/-- The descriptor that R146 gives for DEV:VBAT_MV: TYPE 1, ACCESS 1, UNIT 0x01, SCALE 0.001. -/
theorem test_descriptor : (sigFind Sig.VBAT_MV).map (descriptorBytes Sig.VBAT_MV) = some [1, 1, 1, 0, 0x6F, 0x12, 0x83, 0x3A] := by
  decide +kernel

/-- The response of chapter 6's example: 24 targets, target 21 NOT_IN_STATE with DETAIL 7. -/
theorem test_aggregated :
    let got : List TRes := (List.range 24).map (fun t => if t = 21 then ⟨t, stNotInState, 7⟩ else ⟨t, stOk, 0⟩)
    aggStatus got = 0x0C ∧ aggPayload got =
      [0x18, 0x01, 0, 0, 0xFF, 0xFF, 0xFF] ++ zeros 13 ++ [0xFF, 0xFF, 0xDF] ++ zeros 13 ++ [0x15, 0x06, 0x07, 0] := by decide +kernel

/-- Chapter 5's example: 40 bytes from 0x0FF0 of ring 2 wrap to 0x0017, and the new RING_HEAD is 0x0018. -/
theorem test_ring_example :
    (match exec (.ringDataWrite 0xA0 2 0x0FF0 (List.replicate 40 7)) up with
      | .next t => [memRead t.link.buf (ringBase 2 + 0x0FEF), memRead t.link.buf (ringBase 2 + 0x0FF0), memRead t.link.buf (ringBase 2 + 0x17),
          memRead t.link.buf (ringBase 2 + 0x18)]
      | _ => []) = [memRead up.link.buf (ringBase 2 + 0x0FEF), 7, 7, memRead up.link.buf (ringBase 2 + 0x18)] ∧
    (match exec (.ringHeadWrite 0x98 2 [0x18, 0, 0, 0]) up with
      | .next t => some (ringAt t 2).head
      | _ => none) = some 0x18 := by decide +kernel

/-- Chapter 4's example: IMG_COMMIT with the restart option while an axis is in TORQUE is NOT_IN_STATE, and UPD_STATE stays WRITING. -/
theorem test_commit_example :
    (match exec (.imgCommit (rq 0xFF) true) (axIn (setN up Sig.UPD_STATE 1) 0 .torque) with
      | .next t => some (rgN t Sig.UPD_STATE, rgN t Sig.LAST_FAIL % 256)
      | _ => none) = some (1, stNotInState) := by decide +kernel

/-- Chapter 9's example: the four words around tag 20 000, with the offsets +16 and −24, give 679.6 and −355.1 LSB. The numbers of the words are
those that R259 gives their instants; the example's own indices do not fit that rule. -/
def sampled : State :=
  let s := { up with clk := { up.clk with tb := 20100 } }
  let s := setI (setI (setN (setN s (Sig.SMP_AVG_W_AX 2) 0) (Sig.SMP_SETTLE_AX 2) 60) (Sig.SMP_OFS 4) 16) (Sig.SMP_OFS 5) (-24)
  modAdc s 0 (fun a => { a with
    running := true
    words := [(501, sampleWord 0 501 1689), (500, sampleWord 0 500 2729), (493, sampleWord 0 493 1705), (492, sampleWord 0 492 2713)] })
theorem test_sampling_example : phaseAt sampled 2 false 20000 = some (roundHalfUp (6796 * 16 / 10), false, false) ∧
    phaseAt sampled 2 true 20000 = some (roundHalfUp (-3551 * 16 / 10), false, false) := by decide +kernel

/-- Chapter 15's example: steps of 64 from 8 192 to 12 288, span 4 left at 0 V, and the clear code 3 277. -/
theorem test_output_example : aoStep 8192 12288 64 = 8256 ∧ aoStep 12224 12288 64 = 12288 ∧ aoStep 12288 (aoZero 4) 64 = 12224 ∧
    aoZero 2 = 0 ∧ aoClrCode (setN up (Sig.AO_CLRCODE 2) 3277) 2 2 = 3277 := by decide +kernel

/-- Chapter 16's example: R_s 66.57 mΩ and V_oc 26.823 V. -/
theorem test_probe_example :
    (match probeResult (268 / 10) (3429 / 10000) (2665 / 100) (25962 / 10000) true with
      | some (r, v) => decide (0.066565 < r ∧ r < 0.066575 ∧ 26.8225 < v ∧ v < 26.8235)
      | none => false) = true := by decide +kernel

/-- Chapter 18's example: FLT_CFG of BISC_LE on an axis with role EMB reads 0x04A0_0064; its fourth event within 10 ms completes the window,
the one at 10.4 ms does not. -/
theorem test_fault_example :
    (let s := setN up (Sig.FLT_ROLE_AX 3) 0
     let f := srcDefault s 0x0309
     srcCfg s 0x0309 = 0x04A00064 ∧ windowFull f [0, 32000, 79000, 96000] 96000 = true ∧
      windowFull f [0, 32000, 79000, 104000] 104000 = false) := by decide +kernel

/-- Chapter 20's example: TOTAL and footprint of the summary, the event slice and the snapshot. -/
theorem test_record_example : sliceFootprint 336 = 384 ∧ sliceTotal 64 = 84 ∧ sliceFootprint 64 = 112 ∧ sliceTotal 2752 = 2772 ∧
    sliceFootprint 2752 = 2800 := by decide +kernel

/-- Chapter 21's example: with KEY1 blown by mistake a request for word 38 is LOCKED. -/
theorem test_fuse_example :
    fuseStatus { up with fuse := { up.fuse with copyA := [(252, 4)], copyB := [(252, 4)] } } 0 38 [1] [] fenv = stLocked := by decide +kernel

/-- Chapter 22's example: LE0 halts while AX0 to AX3 are DISABLED; LE1 is denied with INFO 3 while AX4 is in TORQUE. -/
theorem test_debug_example :
    (match exec (.dbgHalt (dq 1 0 0 0)) (axIn up 4 .torque), exec (.dbgHalt (dq 2 0 0 0)) (axIn up 4 .torque) with
      | .next t, .next u => (targetHalted t 1, targetHalted u 2, u.dbg.answer.take 4)
      | _, _ => (false, true, [])) = (true, false, [3, 9, 0, 3]) := by decide +kernel

/-- An empty queue is one tick of the timebase in RUN (log entry 1). -/
theorem test_tick : (match step up with | .next t => t.clk.tb | _ => 0) = up.clk.tb + 1 := by decide +kernel

theorem witness_ForbiddenCodesAndReactionsAreRefused :
    (Accepted up (rq 0) opSigWrite false ∧ 16383 < (16384 : Word).toNat ∧ (16384 : Word) ≠ 0xFFFF) ∧
    (let s := aoIn (fun a => { a with span := 3 })
     rgB s Sig.AO_LOAD_SRC 0 = true ∧ s.aoClear = false ∧ (s.ao[(5 : Fin 6)]).span ≠ 0 ∧ (s.ao[(5 : Fin 6)]).changing = none ∧
      (s.ao[(5 : Fin 6)]).waiting = false ∧ rgN s (Sig.AO_CODE 5) = 0xFFFF ∧ rgN s (Sig.AO_CLRCODE 5) = 0xFFFF) ∧
    fltCode (setN up Sig.FLT_IDX (axSrc 7 1)) = axSrc 7 1 ∧ (0x01A00001 : Word).toNat / 2 ^ 21 % 8 ≠ reAdvise ∧
    Accepted (setN up Sig.FLT_IDX (axSrc 7 1)) (rq 0) opSigWrite false := by
  refine ⟨⟨accepted_of (by decide +kernel), by decide, by decide⟩, by decide +kernel, by decide +kernel, by decide +kernel,
    accepted_of (by decide +kernel)⟩

end Sys2Proof.Tests
end

section
/-! What posting, staging, changes of axis state and the fault manager keep, said once for every relation between a state and a later one
that the elementary updates keep. Laws/Quiet says it for one such relation; an obligation names the relation that it needs. -/

namespace Sys2Proof.Machine

/-- A relation between a state and a later one that posting frames and staging slices keep. -/
structure PostFrame (R : State → State → Prop) : Prop where
  refl : ∀ s, R s s
  trans : ∀ {s t u}, R s t → R t u → R s u
  posts : ∀ (s : State) (rt : Rt) (link : Link) (emq : Emq) (rcd : Rec), R s { s with rt := rt, link := link, emq := emq, rcd := rcd }
  ledger : ∀ (s : State) (k : Nat) (v : Word), k ∈ ledgerKeys → R s (setR s k v)

/-- The changes of axis state that a reaction or a withdrawn grant can make: out of a state other than DISABLED, into DISABLED, FAULT or
SAFE_SHORT, or from an enabled state into HOLD (R297, R510, R512). -/
def Falls (a b : AxState) : Prop :=
  a ≠ .disabled ∧ (b = .disabled ∨ b = .fault ∨ b = .safeShort ∨ (b = .hold ∧ a.serving = true))

/-- A relation between a state and a later one that changes of a bridge, a loop, an observer or the requests keep. -/
structure BridgeFrame (R : State → State → Prop) : Prop extends PostFrame R where
  pwm : ∀ (s : State) (n : Axis) (f : PwmAx → PwmAx), R s (modPwm s n f)
  gd : ∀ (s : State) (n : Axis) (f : GdAx → GdAx), R s (modGd s n f)
  loop : ∀ (s : State) (n : Axis) (f : LoopAx → LoopAx), (∀ l, (f l).lastTag = l.lastTag) → R s (modLoop s n f)
  obs : ∀ (s : State) (n : Axis) (f : ObsAx → ObsAx), R s (modObs s n f)
  sup : ∀ (s : State) (x : Sup), x.got = s.sup.got → (∀ i, bitOf s.sup.req i = false → bitOf x.req i = false) → R s { s with sup := x }

/-- A relation between a state and a later one that the fault manager keeps, the write of a source apart. -/
structure FaultFrame (R : State → State → Prop) : Prop extends BridgeFrame R where
  flt : ∀ (s : State) (f : Flt), f.srcs = s.flt.srcs → R s { s with flt := f }
  axSame : ∀ (s : State) (n : Axis) (f : AxBase → AxBase), (∀ b, (f b).st = b.st) → R s (modAx s n f)
  axFall : ∀ (s : State) (n : Axis) (b : AxBase), Falls (axSt s n) b.st → R s (modAx s n (fun _ => b))
  ofs : ∀ (s : State) (n : Axis) (f : OfsAx → OfsAx), R s (modOfs s n f)
  car : ∀ (s : State) (n : Axis) (f : CarAx → CarAx), R s (modCar s n f)
  moveCls : ∀ (s : State) (n : Axis), R s (modHcAx s n (fun h => { h with moveCls := none }))
  mark : ∀ (s : State) (k t : Nat), R s (setMark s k t)
  idle : ∀ s : State, R s (idleAgain s)

/-- The axis states left as they are. -/
def SameAx (s t : State) : Prop := t.ax = s.ax

theorem sameAx_frame : BridgeFrame SameAx where
  refl _ := rfl
  trans h g := Eq.trans g h
  posts _ _ _ _ _ := rfl
  ledger _ _ _ _ := rfl
  pwm _ _ _ := rfl
  gd _ _ _ := rfl
  loop _ _ _ _ := rfl
  obs _ _ _ := rfl
  sup _ _ _ _ := rfl

theorem SameAx.axSt {s t : State} (h : SameAx s t) (n : Axis) : axSt t n = axSt s n := congrArg (fun v => (v[n]).st) h

theorem mem_allAxes (n : Axis) : n ∈ allAxes := by
  revert n
  decide

variable {R : State → State → Prop}

/-! ### Composition -/

theorem PostFrame.ite (_h : PostFrame R) {c : Prop} [Decidable c] {s a b : State} (ha : R s a) (hb : R s b) : R s (if c then a else b) := by
  split
  · exact ha
  · exact hb

theorem PostFrame.each (h : PostFrame R) {α : Type} (xs : List α) (f : State → α → State) (hf : ∀ s, ∀ x ∈ xs, R s (f s x)) (s : State) :
    R s (forEach xs s f) := by
  induction xs generalizing s with
  | nil => exact h.refl s
  | cons x xs ih => exact h.trans (hf s x List.mem_cons_self) (ih (fun s y hy => hf s y (List.mem_cons_of_mem x hy)) (f s x))

/-! ### Posting -/

theorem rt_keeps (h : PostFrame R) (s : State) (rt : Rt) : R s { s with rt := rt } := h.posts s rt s.link s.emq s.rcd

theorem rcd_keeps (h : PostFrame R) (s : State) (rcd : Rec) : R s { s with rcd := rcd } := h.posts s s.rt s.link s.emq rcd

theorem evt_keeps (h : PostFrame R) (s : State) (i : Nat) : R s (evt s i) := h.posts s s.rt _ s.emq s.rcd

theorem modRing_keeps (h : PostFrame R) (s : State) (r : Nat) (f : Ring → Ring) : R s (modRing s r f) := h.posts s s.rt _ s.emq s.rcd

theorem ringPut_keeps (h : PostFrame R) (s : State) (r : Nat) (bs : List Byte) : R s (ringPut s r bs) := h.posts s s.rt _ s.emq s.rcd

theorem postBytes_keeps (h : PostFrame R) (s : State) (r : Nat) (bs : List Byte) : R s (postBytes s r bs) :=
  h.ite (ringPut_keeps h s r bs) (rt_keeps h s _)

theorem streamBytes_keeps (h : PostFrame R) (s : State) (r : Nat) (bs : List Byte) : R s (streamBytes s r bs) :=
  h.ite (ringPut_keeps h s r bs) (h.trans (modRing_keeps h s _ _) (evt_keeps h _ _))

theorem forwardBytes_keeps (h : PostFrame R) (s : State) (hi re : Bool) (d : Nat) (due : Option Nat) (key : Option (Nat × Nat))
    (bs : List Byte) : R s (forwardBytes s hi re d due key bs) := h.posts s s.rt s.link _ s.rcd

theorem countFail_keeps (h : PostFrame R) (s : State) (r : Req) (op st : Nat) : R s (countFail s r op st) :=
  h.ite (h.refl s) (h.trans (h.ledger s _ _ (by decide)) (h.ledger _ _ _ (by decide)))

theorem answer_keeps (h : PostFrame R) (s : State) (r : Req) (op st : Nat) (p : List Byte) : R s (answer s r op st p) := by
  refine h.trans (countFail_keeps h s r op st) (h.ite (h.refl _) (h.ite ?_ ?_))
  · exact forwardBytes_keeps h _ _ _ _ _ _ _
  · exact postBytes_keeps h _ _ _

theorem answerAgg_keeps (h : PostFrame R) (s : State) (r : Req) (op : Nat) (got : List TRes) (late : Bool) :
    R s (answerAgg s r op got late) := by
  unfold answerAgg
  refine h.trans (countFail_keeps h s r op _) (h.ite (h.refl _) (h.ite ?_ ?_))
  · exact forwardBytes_keeps h _ _ _ _ _ _ _
  · exact postBytes_keeps h _ _ _

theorem latch_keeps (h : PostFrame R) (s : State) (r : Req) : R s (latch s r) := rt_keeps h s _

theorem aggOpen_keeps (h : PostFrame R) (s : State) (r : Req) (op : Nat) : R s (aggOpen s r op) := h.ite (h.refl s) (rt_keeps h s _)

theorem aggAdd_keeps (h : PostFrame R) (s : State) (r : Req) (got : List TRes) : R s (aggAdd s r got) :=
  h.trans (rt_keeps h s _) (h.each _ _ (fun s _ _ => answerAgg_keeps h s _ _ _ _) _)

theorem latchAns_keeps (h : PostFrame R) (s : State) (r : Req) (a : Ans) : R s (latchAns s r a) := h.ite (h.refl s) (latch_keeps h s r)

theorem finishDev_keeps (h : PostFrame R) (s : State) (r : Req) (op st : Nat) (p : List Byte) : R s (finishDev s r op st p) :=
  h.ite (h.trans (latch_keeps h s r) (aggAdd_keeps h _ _ _)) (h.trans (latch_keeps h s r) (answer_keeps h _ _ _ _ _))

theorem finishWait_keeps (h : PostFrame R) (s : State) (w : Wait) (st : Nat) (p : List Byte) : R s (finishWait s w st p) := by
  unfold finishWait
  split
  · exact h.ite (h.trans (h.ite (h.refl s) (latch_keeps h s _)) (aggAdd_keeps h _ _ _))
      (h.trans (latch_keeps h s _) (answer_keeps h _ _ _ _ _))
  · exact finishDev_keeps h s _ _ _ _

theorem endWaits_keeps (h : PostFrame R) (s : State) (p : Wait → Bool) (f : State → Wait → Nat × List Byte) : R s (endWaits s p f) :=
  h.trans (rt_keeps h s _) (h.each _ _ (fun s w _ => finishWait_keeps h s w _ _) _)

/-- The answers of an axis command whose meaning leaves the state as it is. -/
theorem runAxes_of_answers (f : State → Axis → Ans) (s : State) (ns : List Axis) : (runAxes (fun s n => (s, f s n)) s ns).1 = s := by
  induction ns with
  | nil => rfl
  | cons n ns ih => exact ih

theorem runAx_keeps (h : PostFrame R) (s : State) (r : Req) (op : Nat) (f : State → Axis → Ans) :
    R s (runAx s r op (fun s n => (s, f s n))) := by
  unfold runAx
  split
  · refine h.trans (aggOpen_keeps h s r op) (h.trans (t := if _ then _ else _) ?_ (aggAdd_keeps h _ _ _))
    rw [runAxes_of_answers]
    exact h.ite (latch_keeps h _ _) (h.refl _)
  · split
    · exact h.ite (h.refl s) (h.trans (latchAns_keeps h s r _) (answer_keeps h _ _ _ _ _))
    · exact h.trans (latch_keeps h s r) (answer_keeps h _ _ _ _ _)

/-! ### Staging -/

theorem dropEvent_keeps (h : PostFrame R) (s : State) : R s (dropEvent s) :=
  h.trans (h.ledger s _ _ (by decide)) (h.ledger _ _ _ (by decide))

theorem pushStaged_keeps (h : PostFrame R) (s : State) (x : Staged) : R s (pushStaged s x) := rcd_keeps h s _

theorem makeRoom_keeps (h : PostFrame R) (need fuel : Nat) (s : State) : R s (makeRoom need fuel s) := by
  induction fuel generalizing s with
  | zero => exact h.refl s
  | succ fuel ih =>
    unfold makeRoom
    split
    · exact h.refl s
    · split
      · exact h.trans (h.trans (rcd_keeps h s _) (dropEvent_keeps h _)) (ih _)
      · exact h.refl s

theorem stageSlice_keeps (h : PostFrame R) (s : State) (kind : Nat) (p : List Byte) (pin : Bool) : R s (stageSlice s kind p pin) :=
  h.trans (makeRoom_keeps h _ _ s) (pushStaged_keeps h _ _)

theorem stageEvent_keeps (h : PostFrame R) (s : State) (code idx count : Nat) (data : List Byte) : R s (stageEvent s code idx count data) :=
  h.ite (pushStaged_keeps h s _) (dropEvent_keeps h s)

/-! ### The gates and the bridge -/

theorem withLines_keeps (h : BridgeFrame R) (s : State) (n : Axis) (f : State → State) (hf : R s (f s)) : R s (withLines s n f) :=
  h.ite hf (h.trans hf (h.pwm _ _ _))

theorem withEdges_keeps (h : BridgeFrame R) (s : State) (n : Axis) (f : State → State) (hf : R s (f s)) : R s (withEdges s n f) :=
  have hl := withLines_keeps h s n f hf
  h.ite hl (h.trans hl (h.each _ _ (fun s m _ => h.pwm s m _) _))

theorem gatesOff_keeps (h : BridgeFrame R) (s : State) (n : Axis) : R s (gatesOff s n) := withEdges_keeps h s n _ (h.pwm s n _)
theorem gatesShort_keeps (h : BridgeFrame R) (s : State) (n : Axis) : R s (gatesShort s n) := withEdges_keeps h s n _ (h.pwm s n _)
theorem gatesFault_keeps (h : BridgeFrame R) (s : State) (n : Axis) (b : Bool) : R s (gatesFault s n b) :=
  withLines_keeps h s n _ (h.pwm s n _)

/-! ### Axis states -/

/-- The bits of a number without one that it has. -/
theorem testBit_sub_two_pow {r n : Nat} (h : r.testBit n = true) (j : Nat) :
    (r - 2 ^ n).testBit j = (r.testBit j && decide (j ≠ n)) := by
  have hlt : r % 2 ^ n < 2 ^ n := Nat.mod_lt _ (Nat.two_pow_pos n)
  have hodd : r / 2 ^ n = 2 * (r / 2 ^ n / 2) + 1 := by
    have := Nat.testBit_div_two_pow (n := n) r 0
    simp only [Nat.testBit_zero, Nat.zero_add, h, decide_eq_true_eq] at this
    omega
  have hr : r = 2 ^ n * (2 * (r / 2 ^ n / 2) + 1) + r % 2 ^ n := by
    rw [← hodd]
    exact (Nat.div_add_mod r (2 ^ n)).symm
  generalize r / 2 ^ n / 2 = q at hr
  generalize r % 2 ^ n = b at hr hlt
  subst hr
  have hs : 2 ^ n * (2 * q + 1) + b - 2 ^ n = 2 ^ n * (2 * q) + b := by
    rw [Nat.mul_add, Nat.mul_one]
    omega
  rw [hs, Nat.testBit_two_pow_mul_add _ hlt, Nat.testBit_two_pow_mul_add _ hlt]
  rcases Nat.lt_trichotomy j n with hj | rfl | hj
  · simp [hj, Nat.ne_of_lt hj]
  · simp
  · obtain ⟨k, rfl⟩ := Nat.exists_eq_add_of_lt hj
    have e : n + k + 1 - n = k + 1 := by omega
    have hge : ¬ n + k + 1 < n := by omega
    have hne : n + k + 1 ≠ n := by omega
    simp only [hge, if_false, e, Nat.testBit_succ]
    have : (2 * q + 1) / 2 = 2 * q / 2 := by omega
    simp [this, hne]

theorem discardPlan_keeps (h : FaultFrame R) (s : State) (n : Axis) : R s (discardPlan s n) := h.trans (h.car s n _) (h.moveCls _ n)

theorem answerDeferred_keeps (h : PostFrame R) (s : State) (d : Deferred) (st : Nat) (p : List Byte) : R s (answerDeferred s d st p) :=
  h.ite (h.trans (latch_keeps h s _) (answerAgg_keeps h _ _ _ _ _)) (h.trans (latch_keeps h s _) (answer_keeps h _ _ _ _ _))

theorem dropDeferred_keeps (h : PostFrame R) (s : State) (p : Deferred → Bool) (st : Nat) : R s (dropDeferred s p st) :=
  h.trans (rt_keeps h s _) (h.each _ _ (fun s d _ => answerDeferred_keeps h s d _ _) _)

theorem leavePosition_keeps (h : FaultFrame R) (s : State) (n : Axis) : R s (leavePosition s n) :=
  h.trans (h.trans (discardPlan_keeps h s n) (endWaits_keeps h.toPostFrame _ _ _)) (dropDeferred_keeps h.toPostFrame _ _ _)

/-- A change of axis state, by a relation that keeps the bare change. -/
theorem axisTo_keeps (h : FaultFrame R) (s : State) (n : Axis) (st : AxState)
    (ha : axSt s n ≠ st → ∀ b : AxBase, b.st = st → R s (modAx s n (fun _ => b))) : R s (axisTo s n st) := by
  unfold axisTo
  dsimp only
  by_cases hne : (s.ax[n]).st = st
  · rw [if_pos hne]
    exact h.refl s
  · rw [if_neg hne]
    refine h.trans ?_ (endWaits_keeps h.toPostFrame _ _ _)
    have hev (b : AxBase) (hb : b.st = st) : R s (evt (modAx s n (fun _ => b)) (40 + n.val)) :=
      h.trans (ha hne b hb) (evt_keeps h.toPostFrame _ _)
    exact h.ite (h.trans (hev _ rfl) (leavePosition_keeps h _ n)) (hev _ rfl)

theorem axisTo_fall_keeps (h : FaultFrame R) (s : State) (n : Axis) (st : AxState) (hf : Falls (axSt s n) st) : R s (axisTo s n st) :=
  axisTo_keeps h s n st (fun _ b hb => h.axFall s n b (hb ▸ hf))

theorem openLoops_keeps (h : BridgeFrame R) (s : State) (n : Axis) : R s (openLoops s n) := h.loop s n _ (fun _ => rfl)

/-- The enable requests once that of one axis is withdrawn. -/
theorem setReq_off_bit (s : State) (n : Axis) (i : Nat) :
    bitOf (setReq s n false).sup.req i = (bitOf s.sup.req i && decide (i ≠ n.val)) := by
  unfold setReq bitOf
  by_cases hb : s.sup.req.testBit n.val = true
  · simp only [Bool.false_eq_true, if_false, hb, if_true, testBit_sub_two_pow hb]
  · simp only [Bool.false_eq_true, if_false, hb]
    by_cases e : i = n.val
    · simp [e, hb]
    · simp [e]

theorem setReq_off_keeps (h : BridgeFrame R) (s : State) (n : Axis) : R s (setReq s n false) :=
  h.sup s _ rfl (fun i hi => by
    have := setReq_off_bit s n i
    rw [hi, Bool.false_and] at this
    exact this)

theorem setPasses_keeps (h : BridgeFrame R) (s : State) (n : Axis) (p : Nat) : R s (setPasses s n p) :=
  h.trans (h.loop s n _ (by exact fun _ => rfl)) (h.ledger _ _ _ (passes_ledger n))

theorem modeDone_keeps (h : PostFrame R) (s : State) : R s (modeDone s) := h.ite (endWaits_keeps h s _ _) (h.refl s)

theorem passSettle_keeps (h : BridgeFrame R) (s : State) (n : Axis) : R s (passSettle s n) := by
  unfold passSettle
  split
  · exact h.trans (setPasses_keeps h s n _) (modeDone_keeps h.toPostFrame _)
  · exact h.refl s

theorem beginLearn_keeps (h : FaultFrame R) (s : State) (n : Axis) : R s (beginLearn s n) := h.trans (h.ofs s n _) (h.mark _ _ _)

/-- The steps of an axis into DISABLED before its state changes (R295, R296, R403). -/
theorem toDisabled_keeps (h : FaultFrame R) (s : State) (n : Axis) : R s (toDisabled s n) := by
  unfold toDisabled
  by_cases hd : axSt s n = .disabled
  · rw [if_pos hd]
    exact h.refl s
  · rw [if_neg hd]
    dsimp only
    have hpre {Q : State → State → Prop} (g : BridgeFrame Q) :
        Q s (modObs (setReq (modGd (passSettle (openLoops (modPwm (gatesOff s n) n PwmAx.stop) n) n) n GdAx.noPulses) n false) n
          (fun o => { o with sens := false, est := 0, enter := none })) :=
      g.trans (g.trans (g.trans (g.trans (g.trans (g.trans (gatesOff_keeps g s n) (g.pwm _ n _)) (openLoops_keeps g _ n))
        (passSettle_keeps g _ n)) (g.gd _ n _)) (setReq_off_keeps g _ n)) (g.obs _ n _)
    have hax := (hpre sameAx_frame).axSt n
    have hto := h.trans (hpre h.toBridgeFrame) (axisTo_fall_keeps h _ n .disabled ⟨hax ▸ hd, .inl rfl⟩)
    have hidle := h.trans hto (h.idle _)
    exact h.ite (h.trans hidle (beginLearn_keeps h _ n)) hidle

theorem toFault_keeps (h : FaultFrame R) (s : State) (n : Axis) (serve : Bool) : R s (toFault s n serve) := by
  unfold toFault
  by_cases hd : axSt s n = .disabled
  · rw [if_pos hd]
    exact h.refl s
  · rw [if_neg hd]
    refine h.trans ?_ (gatesFault_keeps h.toBridgeFrame _ n serve)
    refine h.trans ?_ (withLines_keeps h.toBridgeFrame _ n _ ?_)
    · exact h.trans (h.trans (openLoops_keeps h.toBridgeFrame s n) (h.gd _ n _)) (h.pwm _ n _)
    · refine h.trans (axisTo_fall_keeps h _ n .fault ?_) (h.axSame _ n _ (fun _ => rfl))
      exact ⟨hd, .inr (.inl rfl)⟩

theorem toShort_keeps (h : FaultFrame R) (s : State) (n : Axis) : R s (toShort s n) := by
  unfold toShort
  by_cases hd : axSt s n = .disabled
  · rw [if_pos hd]
    exact h.refl s
  · rw [if_neg hd]
    refine h.trans ?_ (gatesShort_keeps h.toBridgeFrame _ n)
    refine h.trans ?_ (withEdges_keeps h.toBridgeFrame _ n _ ?_)
    · exact h.trans (openLoops_keeps h.toBridgeFrame s n) (h.gd _ n _)
    · refine axisTo_fall_keeps h _ n .safeShort ?_
      exact ⟨hd, .inr (.inr (.inl rfl))⟩

theorem toPattern_keeps (h : FaultFrame R) (s : State) (n : Axis) : R s (toPattern s n) :=
  h.ite (toShort_keeps h s n) (toFault_keeps h s n false)

theorem toHold_keeps (h : FaultFrame R) (s : State) (n : Axis) (byFault : Bool) : R s (toHold s n byFault) := by
  have hserve (hs : (axSt s n).serving = true) (hne : axSt s n ≠ .hold) :
      R s (modAx (axisTo (modLoop (modCar s n (fun c =>
        { c with v := 0, a := 0, next := c.next.or (if c.fresh then c.taking else none), taking := none, fresh := false })) n
        (fun l => { l with stopRate := none, pend := if byFault then none else l.pend })) n .hold) n
        (fun b => { b with holdByFault := byFault })) := by
    have hd : axSt s n ≠ .disabled := fun e => by rw [e] at hs; exact absurd hs (by decide)
    exact h.trans (h.trans (h.trans (h.car s n _) (h.loop _ n _ (by exact fun _ => rfl)))
      (axisTo_fall_keeps h _ n .hold ⟨hd, .inr (.inr (.inr ⟨rfl, hs⟩))⟩)) (h.axSame _ n _ (by exact fun _ => rfl))
  unfold toHold
  split
  case h_1 e | h_2 e | h_3 e | h_4 e => exact hserve (by rw [e]; rfl) (by rw [e]; decide)
  case h_5 => exact h.trans (h.loop s n _ (by exact fun _ => rfl)) (h.axSame _ n _ (by exact fun _ => rfl))
  case h_6 => exact h.ite (toDisabled_keeps h s n) (h.refl s)
  case h_7 => exact h.refl s

/-! ### The fault manager -/

theorem stageSnaps_keeps (h : FaultFrame R) (s : State) (p : Snap → Bool) : R s (stageSnaps s p) :=
  h.trans (h.flt s _ (by exact rfl)) (h.each _ _ (fun s _ _ => stageSlice_keeps h.toPostFrame s _ _ _) _)

theorem openSnap_keeps (h : FaultFrame R) (s : State) (code react prior : Nat) : R s (openSnap s code react prior) := by
  unfold openSnap
  dsimp only
  split
  · exact stageEvent_keeps h.toPostFrame s _ _ _ _
  · exact h.trans (h.flt s _ (by exact rfl)) (stageSnaps_keeps h _ _)

theorem enterSafe_keeps (h : FaultFrame R) (s : State) (code : Nat) : R s (enterSafe s code) := by
  unfold enterSafe
  refine h.ite (h.refl s) ?_
  refine h.trans (h.trans (h.trans (h.trans (h.trans (h.trans (h.trans (h.flt s _ (by exact rfl)) (h.ledger _ _ _ (by decide)))
    (h.each _ _ (fun s n _ => toPattern_keeps h s n) _)) (h.each _ _ (fun s n _ => discardPlan_keeps h s n) _))
    (h.sup _ _ (by exact rfl) ?_)) (h.ledger _ _ _ (by decide))) (evt_keeps h.toPostFrame _ 73)) (dropDeferred_keeps h.toPostFrame _ _ _)
  exact fun i _ => Nat.zero_testBit i

theorem reactAxis_keeps (h : FaultFrame R) (s : State) (n : Axis) (r : Nat) : R s (reactAxis s n r) := by
  unfold reactAxis
  dsimp only
  split
  · exact h.axSame s n _ (by exact fun _ => rfl)
  · exact toHold_keeps h s n true
  · exact h.ite (toFault_keeps h s n true) (h.refl s)
  · exact h.ite (toFault_keeps h s n false) (h.refl s)
  · exact h.ite (toShort_keeps h s n) (h.refl s)
  · exact h.refl s

theorem applyReact_keeps (h : FaultFrame R) (s : State) (code r : Nat) : R s (applyReact s code r) := by
  unfold applyReact
  split
  · exact enterSafe_keeps h s code
  · split
    · exact reactAxis_keeps h s _ r
    · exact h.each _ _ (fun s n _ => reactAxis_keeps h s n r) s

theorem countLasting_keeps (h : PostFrame R) (s : State) (code : Nat) : R s (countLasting s code) := by
  unfold countLasting
  split
  · exact rcd_keeps h s _
  · exact h.refl s

theorem transientSlice_keeps (h : PostFrame R) (s : State) (code : Nat)
    (hs : ∀ f, f.events = (srcOf s code).events → R s (setSrc s code f)) : R s (transientSlice s code) :=
  h.ite (h.trans (hs _ (by exact rfl)) (stageEvent_keeps h _ _ _ _ _)) (h.refl s)

/-- An event of a source writes the source with one event more; the rest of it every relation of the fault manager keeps (R504 to
R506). -/
theorem faultEvtB_after_write (h : FaultFrame R) (s : State) (code : Nat) (bind : Bool)
    (hsame : ∀ t f, f.events = (srcOf t code).events → R t (setSrc t code f)) :
    ∃ f : FltSrc, f.events = (srcOf s code).events + 1 ∧ R (setSrc s code f) (faultEvtB s code bind) := by
  unfold faultEvtB
  dsimp only
  split
  · exact ⟨_, rfl, h.refl _⟩
  · split
    · have hc (f : FltSrc) : R (setSrc s code f) (countLasting (setSrc s code f) code) := countLasting_keeps h.toPostFrame _ code
      have hevt (f : FltSrc) : R (setSrc s code f) (match codeAxis code with
          | some n => evt (countLasting (setSrc s code f) code) (32 + n.val)
          | none => evt (countLasting (setSrc s code f) code) 72) := by
        split <;> exact h.trans (hc f) (evt_keeps h.toPostFrame _ _)
      exact ⟨_, by exact rfl, h.trans (h.trans (hevt _) (openSnap_keeps h _ code _ _)) (applyReact_keeps h _ code _)⟩
    · exact ⟨_, rfl, transientSlice_keeps h.toPostFrame _ code (hsame _)⟩

theorem faultEvtB_keeps (h : FaultFrame R) (s : State) (code : Nat) (bind : Bool) (hs : ∀ t f, R t (setSrc t code f)) :
    R s (faultEvtB s code bind) := by
  obtain ⟨f, -, hf⟩ := faultEvtB_after_write h s code bind (fun t f _ => hs t f)
  exact h.trans (hs s f) hf

/-! ### The sources -/

/-- A relation that the fault manager keeps, from one between what the manager never writes. -/
theorem srcs_frame (P : List (Nat × FltSrc) → List (Nat × FltSrc) → Prop) (hr : ∀ x, P x x) (ht : ∀ {x y z}, P x y → P y z → P x z) :
    FaultFrame (fun s t => P s.flt.srcs t.flt.srcs) where
  refl _ := hr _
  trans := ht
  posts _ _ _ _ _ := hr _
  ledger _ _ _ _ := hr _
  pwm _ _ _ := hr _
  gd _ _ _ := hr _
  loop _ _ _ _ := hr _
  obs _ _ _ := hr _
  sup _ _ _ _ := hr _
  flt s f e := by
    dsimp only
    rw [e]
    exact hr _
  axSame _ _ _ _ := hr _
  axFall _ _ _ _ := hr _
  ofs _ _ _ := hr _
  car _ _ _ := hr _
  moveCls _ _ := hr _
  mark _ _ _ := hr _
  idle _ := hr _

/-- The source of a code is listed with a number of events. -/
def EventsAre (code e : Nat) (srcs : List (Nat × FltSrc)) : Prop := ∃ f, cellGet srcs code = some f ∧ f.events = e

theorem EventsAre.events {code e : Nat} {s : State} (h : EventsAre code e s.flt.srcs) : (srcOf s code).events = e := by
  obtain ⟨f, hf, he⟩ := h
  unfold srcOf
  rw [hf]
  exact he

theorem eventsAre_setSrc (s : State) (code : Nat) (f : FltSrc) : EventsAre code f.events (setSrc s code f).flt.srcs :=
  ⟨f, cellGet_put_same _ _ _, rfl⟩

/-- An event of a source is counted in it (R504). -/
theorem faultEvtB_counts (s : State) (code : Nat) (bind : Bool) : Counts s (faultEvtB s code bind) code := by
  have h := srcs_frame (fun x y => ∀ e, EventsAre code e x → EventsAre code e y) (fun _ _ => id) (fun h g e x => g e (h e x))
  obtain ⟨f, hf, hr⟩ := faultEvtB_after_write h s code bind (fun t f e k hk => hk.events ▸ e ▸ eventsAre_setSrc t code f)
  exact (hr _ (hf ▸ eventsAre_setSrc s code f)).events

/-- A source stands as it did where it is listed as it was, and its axis has its role. -/
theorem srcOf_of_cell {s t : State} {code : Nat} (h : cellGet t.flt.srcs code = cellGet s.flt.srcs code)
    (hrole : ∀ n, codeAxis code = some n → roleOf t n = roleOf s n) : srcOf t code = srcOf s code := by
  have hd : srcDefault t code = srcDefault s code := by
    unfold srcDefault cfgDefault
    split
    case h_1 n e => rw [hrole n e]
    case h_2 => rfl
  unfold srcOf
  rw [h, hd]

/-- A device-wide source that becomes lasting with reaction DEVICE_SAFE at its first event puts the device into it (R506, R515, R662). -/
theorem devFault_safe (s : State) (src : Nat) (hdev : codeAxis (devSrc src) = none) (hl : (srcOf s (devSrc src)).lasting = false)
    (hr : (srcOf s (devSrc src)).react = reSafe) (ht : (srcOf s (devSrc src)).t = 0) : (devFault s src).flt.safeMode = true := by
  have hb : reactBinds s (devSrc src) = true := by
    unfold reactBinds
    rw [hdev]
  unfold devFault faultEvt faultEvtB
  simp only [hl, Bool.false_eq_true, if_false, windowFull, ht, beq_self_eq_true, Bool.true_or, if_true, hb, hr, applyReact]
  exact enterSafe_safe _ _

end Sys2Proof.Machine
end

section
/-! O11: the clocks and CLK_STAT. -/

namespace Sys2Proof.Machine

/-! ### Fields of a signal -/

/-- The bits of a signal with a field written: the field's own bits, the others as before. -/
theorem rgB_setF (s : State) (k lo w v i : Nat) (hi : i < 32) :
    rgB (setF s k lo w v) k i = if lo ≤ i ∧ i < lo + w then v.testBit (i - lo) else rgB s k i := by
  unfold rgB setF
  simp only [rg_setR_same, BitVec.getLsbD_or, BitVec.getLsbD_and, BitVec.getLsbD_not, BitVec.getLsbD_ofNat, Nat.testBit_mul_two_pow,
    Nat.testBit_two_pow_sub_one, Nat.testBit_mod_two_pow, hi, decide_true, Bool.true_and]
  by_cases hl : lo ≤ i
  · have e : i - lo < w ↔ i < lo + w := by omega
    by_cases hw : i < lo + w <;> simp [hl, e, hw]
  · simp [hl]

/-- A field of a written signal reads as written. -/
theorem rgF_setF (s : State) (k lo w v : Nat) (h : lo + w ≤ 32) : rgF (setF s k lo w v) k lo w = v % 2 ^ w := by
  apply Nat.eq_of_testBit_eq
  intro i
  unfold rgF rgN
  rw [Nat.testBit_mod_two_pow, Nat.testBit_mod_two_pow, Nat.testBit_div_two_pow]
  by_cases hi : i < w
  · have hb := rgB_setF s k lo w v (i + lo) (by omega)
    rw [if_pos (by omega), Nat.add_sub_cancel] at hb
    rw [BitVec.testBit_toNat]
    exact congrArg _ hb
  · simp [hi]

/-- The bits of a signal with the bits of a mask set. -/
theorem rgB_orR (s : State) (k mask i : Nat) (hi : i < 32) : rgB (orR s k mask) k i = (rgB s k i || mask.testBit i) := by
  unfold rgB orR
  rw [rg_setR_same, BitVec.getLsbD_or, BitVec.getLsbD_ofNat]
  simp [hi]

/-! ### Updates of one signal -/

theorem onlySignal_setR (s : State) (k : Nat) (v : Word) : OnlySignal k s (setR s k v) := ⟨rfl, fun _ hj => rg_setR_ne s v hj⟩

/-! ### The entry into RUN -/

/-- The two states are in one power state, at one tick and at one microsecond. -/
structure SameClock (s t : State) : Prop where
  pwr : t.pwr = s.pwr
  tb : t.clk.tb = s.clk.tb
  us : t.clk.us = s.clk.us

namespace SameClock

theorem refl (s : State) : SameClock s s := ⟨rfl, rfl, rfl⟩

theorem trans {s t u : State} (h : SameClock s t) (g : SameClock t u) : SameClock s u :=
  ⟨g.pwr.trans h.pwr, g.tb.trans h.tb, g.us.trans h.us⟩

theorem ite {c : Prop} [Decidable c] {s a b : State} (ha : SameClock s a) (hb : SameClock s b) : SameClock s (if c then a else b) := by
  split
  · exact ha
  · exact hb

theorem each {α : Type} (xs : List α) (f : State → α → State) (hf : ∀ s x, SameClock s (f s x)) (s : State) :
    SameClock s (forEach xs s f) := by
  induction xs generalizing s with
  | nil => exact refl s
  | cons x xs ih => exact (hf s x).trans (ih (f s x))

end SameClock

theorem setB_clock (s : State) (k i : Nat) (x : Bool) : SameClock s (setB s k i x) := ⟨rfl, rfl, rfl⟩

theorem modRsv_clock (s : State) (n : Axis) (f : RsvAx → RsvAx) : SameClock s (modRsv s n f) := ⟨rfl, rfl, rfl⟩

theorem modExc_clock (s : State) (e : Fin 2) (f : Exc → Exc) : SameClock s (modExc s e f) := ⟨rfl, rfl, rfl⟩

theorem modFb_clock (s : State) (n : Axis) (f : FbAx → FbAx) : SameClock s (modFb s n f) := ⟨rfl, rfl, rfl⟩

theorem emq_clock (s : State) (emq : Emq) : SameClock s { s with emq := emq } := ⟨rfl, rfl, rfl⟩

theorem beginLearn_clock (s : State) (n : Axis) : SameClock s (beginLearn s n) := ⟨rfl, rfl, rfl⟩

theorem freshHoneycomb_clock (s : State) : SameClock s (freshHoneycomb s) := ⟨rfl, rfl, rfl⟩

theorem fbRunEntry_clock (s : State) (n : Axis) : SameClock s (fbRunEntry s n) :=
  (SameClock.ite (setB_clock s _ _ _) (SameClock.refl s)).trans (modFb_clock _ n _)

theorem emResync_clock (s : State) (n : Axis) : SameClock s (emResync s n) := SameClock.ite ⟨rfl, rfl, rfl⟩ (SameClock.refl s)

theorem endNoLead_clock (s : State) : SameClock s (endNoLead s) := by
  unfold endNoLead
  refine SameClock.ite ((emq_clock s _).trans (SameClock.each _ _ (fun s n => ?_) _)) (SameClock.refl s)
  exact SameClock.ite (SameClock.refl s) ⟨rfl, rfl, rfl⟩

theorem ringRestart_clock (s : State) (on : Bool) : SameClock s (ringRestart s on) :=
  ((endNoLead_clock s).trans (emq_clock _ _)).trans (emq_clock _ _)

theorem startExc_clock (s : State) (d : Fin 2) (first : Bool) : SameClock s (startExc s d first) :=
  (modExc_clock s d _).trans (SameClock.each _ _ (fun s n => modRsv_clock s n _) _)

/-- The device in RUN before the blocks on the timebase start anew: the timebase at 0, US_TIME as it was (R658, R659). -/
structure FreshRun (s t : State) : Prop where
  run : t.pwr.st = .run
  toRun : t.pwr.toRun = false
  tb : t.clk.tb = 0
  us : t.clk.us = s.clk.us

theorem FreshRun.of_clock {s t u : State} (h : FreshRun s t) (g : SameClock t u) : FreshRun s u where
  run := g.pwr ▸ h.run
  toRun := g.pwr ▸ h.toRun
  tb := g.tb.trans h.tb
  us := g.us.trans h.us

theorem enterRun_fresh (s : State) : FreshRun s (enterRun s) := by
  unfold enterRun
  refine FreshRun.of_clock ?_ (ringRestart_clock _ _)
  refine FreshRun.of_clock ?_ (SameClock.each _ _ emResync_clock _)
  refine FreshRun.of_clock ?_ (freshHoneycomb_clock _)
  refine FreshRun.of_clock ?_ (SameClock.each _ _ fbRunEntry_clock _)
  refine FreshRun.of_clock ?_ (SameClock.each _ _ beginLearn_clock _)
  refine FreshRun.of_clock ?_ (((setB_clock _ _ _ _).trans (setB_clock _ _ _ _)).trans (setB_clock _ _ _ _))
  split <;> exact ⟨rfl, rfl, rfl, rfl⟩

theorem runNow_fresh (s : State) : FreshRun s (runNow s) := by
  unfold runNow
  exact (enterRun_fresh s).of_clock
    (SameClock.ite (SameClock.refl _) ((startExc_clock _ 0 false).trans (startExc_clock _ 1 false)))

/-! ### A failed clock -/

/-- CLK_STAT once a failed clock is latched, before its fault event (R15, R66): CLK_FAIL with the culprit in RUN, none in STANDBY. -/
def clkFailShown (s : State) (culprit : Nat) : State :=
  setF (setB s Sig.CLK_STAT 5 true) Sig.CLK_STAT 6 2 (if inRun s then culprit else 0)

theorem clkFailShown_stat (s : State) (c : Nat) : rgB (clkFailShown s c) Sig.CLK_STAT 5 = true ∧
    rgF (clkFailShown s c) Sig.CLK_STAT 6 2 = (if inRun s then c else 0) % 4 := by
  refine ⟨?_, rgF_setF _ _ _ _ _ (by decide)⟩
  unfold clkFailShown
  rw [rgB_setF _ _ _ _ _ _ (by decide), if_neg (by decide), rgB_setB _ _ _ _ _ (by decide), if_pos rfl]

/-- The state in which the event of CLK_FAIL occurs: in STANDBY the way to RUN is barred (R66). -/
def clkFailBarred (s : State) (culprit : Nat) : State :=
  if inRun s then clkFailShown s culprit
  else { clkFailShown s culprit with pwr := { s.pwr with clkBlocked := true, toRun := false } }

theorem clkFailBarred_flt (s : State) (c : Nat) : (clkFailBarred s c).flt = s.flt := by
  unfold clkFailBarred
  split <;> rfl

theorem clkFailBarred_regs (s : State) (c : Nat) : (clkFailBarred s c).regs = (clkFailShown s c).regs := by
  unfold clkFailBarred
  split <;> rfl

theorem clkFailed_eq (s : State) (c : Nat) : clkFailed s c = devFault (evt (clkFailBarred s c) 91) 33 := by
  unfold clkFailed clkFailBarred
  dsimp only
  congr 2

theorem clkFailed_quiet (s : State) (c : Nat) : Quiet (clkFailBarred s c) (clkFailed s c) := by
  rw [clkFailed_eq]
  exact (evt_quiet _ 91).trans (devFault_quiet _ 33)

/-- CLK_FAIL is latched with its culprit, in STANDBY with none (R15, R66). -/
theorem clkFailed_stat (s : State) (c : Nat) : rgB (clkFailed s c) Sig.CLK_STAT 5 = true ∧
    rgF (clkFailed s c) Sig.CLK_STAT 6 2 = (if inRun s then c else 0) % 4 := by
  have hk : rg (clkFailed s c) Sig.CLK_STAT = rg (clkFailShown s c) Sig.CLK_STAT := by
    rw [(clkFailed_quiet s c).keys _ (by decide), rg, clkFailBarred_regs, ← rg]
  unfold rgB rgF rgN
  rw [hk]
  exact clkFailShown_stat s c

/-- A clock failure found in STANDBY bars the way to RUN (R66). -/
theorem clkFailed_bars (s : State) (c : Nat) (h : inRun s = false) :
    (clkFailed s c).pwr.clkBlocked = true ∧ (clkFailed s c).pwr.toRun = false := by
  have hp := (clkFailed_quiet s c).pwr
  have hb : (clkFailBarred s c).pwr = { s.pwr with clkBlocked := true, toRun := false } := by
    unfold clkFailBarred
    rw [if_neg (by simp [h])]
  exact ⟨(congrArg Pwr.clkBlocked hp).trans (congrArg Pwr.clkBlocked hb), (congrArg Pwr.toRun hp).trans (congrArg Pwr.toRun hb)⟩

/-- The event of CLK_FAIL puts the device into DEVICE_SAFE where source 33 has that reaction at its first event (R66, R515). -/
theorem clkFailed_safe (s : State) (c : Nat) (hl : (srcOf s (devSrc 33)).lasting = false) (hr : (srcOf s (devSrc 33)).react = reSafe)
    (ht : (srcOf s (devSrc 33)).t = 0) : (clkFailed s c).flt.safeMode = true := by
  have hdev : codeAxis (devSrc 33) = none := by decide
  have he : srcOf (evt (clkFailBarred s c) 91) (devSrc 33) = srcOf s (devSrc 33) :=
    srcOf_of_cell (by rw [evt_flt, clkFailBarred_flt]) (fun n hn => by rw [hdev] at hn; cases hn)
  rw [clkFailed_eq]
  exact devFault_safe _ 33 hdev (he ▸ hl) (he ▸ hr) (he ▸ ht)

/-! ### A PLL that does not lock -/

/-- An enable that waits for RUN is answered, and nothing but the link and the runtime changes (R63). -/
theorem dropEnable_keeps {R : State → State → Prop} (h : PostFrame R) (s : State) : R s (dropEnable s) := by
  unfold dropEnable
  split
  · exact h.trans (rt_keeps h s _) (runAx_keeps h _ _ _ ansNotInState)
  · exact h.refl s

theorem quiet_post : PostFrame Quiet where
  refl := Quiet.refl
  trans := Quiet.trans
  posts s rt link emq rcd := Quiet.upd_open s rt link emq rcd s.sup
  ledger _ _ v hk := Quiet.setR v hk

theorem sameFlt_post : PostFrame (fun s t => t.flt = s.flt) where
  refl _ := rfl
  trans h g := g.trans h
  posts _ _ _ _ _ := rfl
  ledger _ _ _ _ := rfl

/-- The state of PLL_FAIL before a waiting enable is answered (R63). -/
def pllFailShown (s : State) (ref : Bool) : State :=
  setB (setB { s with pwr := { s.pwr with toRun := false } } Sig.CLK_STAT 8 true) Sig.CLK_STAT 3 ref

theorem pllFailShown_stat (s : State) (ref : Bool) :
    rgB (pllFailShown s ref) Sig.CLK_STAT 8 = true ∧ rgB (pllFailShown s ref) Sig.CLK_STAT 3 = ref := by
  unfold pllFailShown
  rw [rgB_setB _ _ _ _ _ (by decide), rgB_setB _ _ _ _ _ (by decide), rgB_setB _ _ _ _ _ (by decide)]
  exact ⟨rfl, rfl⟩

/-! ### The obligation -/

theorem execClkFail_latches (s : State) (c : Nat) (hp : linkPowered s = true) (hc : c < 4)
    (hl : (srcOf s (devSrc 33)).lasting = false) (hr : (srcOf s (devSrc 33)).react = reSafe) (ht : (srcOf s (devSrc 33)).t = 0) :
    ∃ t, exec (.clkFail c) s = .next t ∧ t.flt.safeMode = true ∧ rgB t Sig.CLK_STAT 5 = true ∧
      rgF t Sig.CLK_STAT 6 2 = (if inRun s then c else 0) ∧ (inRun s = false → t.pwr.clkBlocked = true ∧ t.pwr.toRun = false) := by
  have he : exec (.clkFail c) s = .next (clkFailed s c) := by
    show execClkFail c s = _
    rw [execClkFail, if_pos hp, Nat.mod_eq_of_lt hc]
  have hculprit : (if inRun s then c else 0) % 4 = if inRun s then c else 0 := by split <;> omega
  obtain ⟨h5, h6⟩ := clkFailed_stat s c
  exact ⟨_, he, clkFailed_safe s c hl hr ht, h5, h6.trans hculprit, clkFailed_bars s c⟩

theorem execPllLock_runs (s : State) (hs : s.pwr.st = .standby) (hr : s.pwr.toRun = true) :
    ∃ t, exec .pllLock s = .next t ∧ t.pwr.st = .run ∧ t.clk.tb = 0 ∧ t.clk.us = s.clk.us ∧ t.pwr.toRun = false := by
  have he : exec .pllLock s = .next (runNow s) := by
    show execPllLock s = _
    rw [execPllLock, if_pos ⟨hs, hr⟩]
  have h := runNow_fresh s
  exact ⟨_, he, h.run, h.tb, h.us, h.toRun⟩

theorem execPllFail_shows (s : State) (ref : Bool) (hs : s.pwr.st = .standby) (hr : s.pwr.toRun = true) :
    ∃ t, exec (.pllFail ref) s = .next t ∧ t.pwr.st = .standby ∧ t.pwr.toRun = false ∧ rgB t Sig.CLK_STAT 8 = true ∧
      rgB t Sig.CLK_STAT 3 = ref ∧ t.flt.safeMode = s.flt.safeMode := by
  have he : exec (.pllFail ref) s = .next (dropEnable (pllFailShown s ref)) := by
    show execPllFail ref s = _
    rw [execPllFail, if_pos ⟨hs, hr⟩]
    rfl
  have hq : Quiet (pllFailShown s ref) (dropEnable (pllFailShown s ref)) := dropEnable_keeps quiet_post _
  have hk : rg (dropEnable (pllFailShown s ref)) Sig.CLK_STAT = rg (pllFailShown s ref) Sig.CLK_STAT := hq.keys _ (by decide)
  have hf : (dropEnable (pllFailShown s ref)).flt = (pllFailShown s ref).flt := dropEnable_keeps sameFlt_post _
  obtain ⟨h8, h3⟩ := pllFailShown_stat s ref
  refine ⟨_, he, (congrArg Pwr.st hq.pwr).trans hs, congrArg Pwr.toRun hq.pwr, ?_, ?_, congrArg Flt.safeMode hf⟩
  · rw [rgB, hk]
    exact h8
  · rw [rgB, hk]
    exact h3

theorem execLfclkSwitchover_shows (s : State) (hs : s.pwr.st ≠ .off) (hl : rgN s Sig.LFCLK_SRC = 1) :
    ∃ t, exec .lfclkSwitchover s = .next t ∧ rgB t Sig.CLK_STAT 1 = true ∧ rgB t Sig.CLK_STAT 2 = true ∧
      OnlySignal Sig.CLK_STAT s t := by
  have he : exec .lfclkSwitchover s = .next (orR s Sig.CLK_STAT 6) := by
    show execLfclkSwitchover s = _
    rw [execLfclkSwitchover, if_pos ⟨hl, hs⟩]
  refine ⟨_, he, ?_, ?_, onlySignal_setR s _ _⟩
  · rw [rgB_orR _ _ _ _ (by decide), show Nat.testBit 6 1 = true from rfl, Bool.or_true]
  · rw [rgB_orR _ _ _ _ (by decide), show Nat.testBit 6 2 = true from rfl, Bool.or_true]

/-- Settles O11: each event's occurrence, and what the fault manager, the blocks that start anew and the answers keep of it. -/
theorem clockEventsShowInClkStat : Obligations.ClockEventsShowInClkStat :=
  ⟨execClkFail_latches, execPllLock_runs, execPllFail_shows, execLfclkSwitchover_shows⟩

end Sys2Proof.Machine
end

section
/-! O33: the supervision link. -/

namespace Sys2Proof.Machine

/-! ### A change of the DS -/

/-- The two states agree in the DS, the states of the axes and every signal but GD_RISE_MAX and those of the ledger. -/
structure RiseOnly (s t : State) : Prop where
  ds : t.ds = s.ds
  ax : t.ax = s.ax
  sigs : SignalsBut (allAxes.map (fun n => Sig.GD_RISE_MAX n.val)) s t

namespace RiseOnly

theorem of_regs {s t : State} (hd : t.ds = s.ds) (ha : t.ax = s.ax) (hr : t.regs = s.regs) : RiseOnly s t :=
  ⟨hd, ha, fun k _ _ => congrArg (fun f => regRead f k) hr⟩

theorem bridge : BridgeFrame RiseOnly where
  refl _ := of_regs rfl rfl rfl
  trans h g := ⟨g.ds.trans h.ds, g.ax.trans h.ax, fun k hk hl => (g.sigs k hk hl).trans (h.sigs k hk hl)⟩
  posts _ _ _ _ _ := of_regs rfl rfl rfl
  ledger s _ v hk := ⟨rfl, rfl, fun _ _ hj => rg_setR_ne s v (fun e => hj (e ▸ hk))⟩
  pwm _ _ _ := of_regs rfl rfl rfl
  gd _ _ _ := of_regs rfl rfl rfl
  loop _ _ _ _ := of_regs rfl rfl rfl
  obs _ _ _ := of_regs rfl rfl rfl
  sup _ _ _ _ := of_regs rfl rfl rfl

end RiseOnly

theorem riseMax_riseOnly (s : State) (n : Axis) : RiseOnly s (riseMax s n) :=
  ⟨rfl, rfl, fun _ hk _ => rg_setN_ne _ _ (fun e => hk (List.mem_map.mpr ⟨n, mem_allAxes n, e.symm⟩))⟩

/-- The edges on the gate lines follow a change of the bridge. -/
theorem withLines_after {R : State → State → Prop} (h : BridgeFrame R) (s : State) (n : Axis) (f : State → State) :
    R (f s) (withLines s n f) := h.ite (h.refl _) (h.pwm _ n _)

theorem withEdges_after {R : State → State → Prop} (h : BridgeFrame R) (s : State) (n : Axis) (f : State → State) :
    R (f s) (withEdges s n f) := by
  have hl := withLines_after h s n f
  exact h.ite hl (h.trans hl (h.each _ _ (fun s m _ => h.pwm s m _) _))

/-- A change of the DS is followed by gate edges and rise times alone (R246, R264). -/
theorem withDs_after (s : State) (f : State → State) : RiseOnly (f s) (withDs s f) := by
  have hedges (xs : List Axis) : RiseOnly (f s) ((xs.foldr (fun n g => fun s => withEdges s n g) f) s) := by
    induction xs with
    | nil => exact RiseOnly.bridge.refl _
    | cons n xs ih => exact RiseOnly.bridge.trans ih (withEdges_after RiseOnly.bridge s n _)
  exact RiseOnly.bridge.trans (hedges allAxes) (RiseOnly.bridge.each _ _ (fun s n _ => riseMax_riseOnly s n) _)

/-- A change of the DS alone leaves the axis states and every signal but GD_RISE_MAX as they are. -/
theorem withDs_of_dsOnly {s : State} {f : State → State} {d : Ds} (hf : f s = { s with ds := d }) :
    (withDs s f).ds = d ∧ (withDs s f).ax = s.ax ∧ SignalsBut (allAxes.map (fun n => Sig.GD_RISE_MAX n.val)) s (withDs s f) := by
  have h := withDs_after s f
  rw [hf] at h
  exact ⟨h.ds, h.ax, h.sigs⟩

/-! ### What the DS grants -/

/-- A valid word gives the DS its requests and ends the count of missing ones; a loss that stood becomes one to report, a BOOT word apart
(R525, R530, R532). -/
theorem dsTakes_ds (s : State) (w : HbWord) : ∃ d, dsTakes s w = { s with ds := d } ∧ d.last = w ∧ d.hbMissed = 0 ∧ d.hbLost = false ∧
    (s.ds.hbLost = true → w.boot = false → d.hbReport = true) := by
  unfold dsTakes
  dsimp only
  split
  case isTrue hb => split <;> exact ⟨_, rfl, rfl, rfl, rfl, fun _ h => absurd (hb.symm.trans h) (by decide)⟩
  case isFalse => split <;> exact ⟨_, rfl, rfl, rfl, rfl, fun h _ => by simp [h]⟩

theorem dsGrants_of_hbLost {s : State} (h : s.ds.hbLost = true) (n : Axis) : dsGrants s n = false := by
  simp [dsGrants, dsReady, h]

/-- A withheld grant asks for the locked pattern, or for a stronger demand of the trip input (R8, R526). -/
theorem ddDemand_of_withheld {s : State} {n : Axis} (ha : axSt s n ≠ .disabled) (hg : dsGrants s n = false) :
    ddDemand s n = .off ∨ (ddDemand s n = .short ∧ patShort s n = true) := by
  unfold ddDemand
  simp only [ha, hg, decide_false, Bool.or_self, Bool.false_eq_true, if_false]
  by_cases hp : patShort s n = true
  · rw [if_pos hp]
    generalize (if bitOf (s.gd[n]).out 3 || bitOf (s.gd[n]).out 5 then Demand.off
      else if bitOf (s.gd[n]).out 4 then .short else .switching) = d
    cases d
    · exact .inr ⟨rfl, hp⟩
    · exact .inr ⟨rfl, hp⟩
    · exact .inl rfl
  · rw [if_neg hp]
    exact .inl rfl

/-- A demand that is off turns every gate off. -/
theorem gateOn_of_off {s : State} {n : Axis} (g : Gate) (h : ddDemand s n = .off) : gateOn s n g = false := by
  have hw (d : Demand) : d.worse .off = .off := by cases d <;> rfl
  unfold gateOn
  simp only [h, hw]
  simp

/-- A demand for the low sides keeps every high side off. -/
theorem gateOn_of_short {s : State} {n : Axis} {g : Gate} (h : ddDemand s n = .short) (hg : g.hi = true) : gateOn s n g = false := by
  unfold gateOn
  simp only [h, hg]
  cases cdDemand s n <;> simp [Demand.worse]

theorem gateOn_hi_of_withheld {s : State} {n : Axis} (g : Gate) (ha : axSt s n ≠ .disabled) (hg : dsGrants s n = false)
    (hhi : g.hi = true) : gateOn s n g = false := by
  rcases ddDemand_of_withheld ha hg with h | ⟨h, -⟩
  · exact gateOn_of_off g h
  · exact gateOn_of_short h hhi

theorem gateOn_of_withheld_patOff {s : State} {n : Axis} (g : Gate) (ha : axSt s n ≠ .disabled) (hg : dsGrants s n = false)
    (hp : patShort s n = false) : gateOn s n g = false := by
  rcases ddDemand_of_withheld ha hg with h | ⟨-, h⟩
  · exact gateOn_of_off g h
  · exact absurd (hp.symm.trans h) (by decide)

/-! ### The heartbeat -/

theorem execCdHeartbeat_good (s : State) (hp : linkPowered s = true) :
    ∃ t, exec (.cdHeartbeat true) s = .next t ∧ t.ds.last = s.sup.sent ∧ t.ds.hbMissed = 0 ∧ t.ds.hbLost = false ∧ t.ax = s.ax ∧
      SignalsBut (allAxes.map (fun n => Sig.GD_RISE_MAX n.val)) s t ∧
      (s.ds.hbLost = true → s.sup.sent.boot = false → t.ds.hbReport = true) := by
  have he : exec (.cdHeartbeat true) s = .next (withDs s (fun s => dsTakes s s.sup.sent)) := by
    show execCdHeartbeat true s = _
    rw [execCdHeartbeat, if_pos hp]
    rfl
  obtain ⟨d, hd, hlast, hmiss, hlost, hrep⟩ := dsTakes_ds s s.sup.sent
  obtain ⟨hds, hax, hsig⟩ := withDs_of_dsOnly (s := s) (f := fun s => dsTakes s s.sup.sent) hd
  exact ⟨_, he, hds ▸ hlast, hds ▸ hmiss, hds ▸ hlost, hax, hsig, hds ▸ hrep⟩

theorem execCdHeartbeat_bad (s : State) (hp : linkPowered s = true) :
    ∃ t, exec (.cdHeartbeat false) s = .next t ∧ t.ax = s.ax ∧ SignalsBut (allAxes.map (fun n => Sig.GD_RISE_MAX n.val)) s t ∧
      t.ds = { s.ds with hbMissed := s.ds.hbMissed + 1, hbLost := s.ds.hbLost || decide (3 ≤ s.ds.hbMissed) } := by
  have he : exec (.cdHeartbeat false) s = .next (withDs s (fun s =>
      { s with ds := { s.ds with hbMissed := s.ds.hbMissed + 1, hbLost := s.ds.hbLost || decide (3 ≤ s.ds.hbMissed) } })) := by
    show execCdHeartbeat false s = _
    rw [execCdHeartbeat, if_pos hp]
    rfl
  obtain ⟨hds, hax, hsig⟩ := withDs_of_dsOnly (s := s) (f := fun s =>
    { s with ds := { s.ds with hbMissed := s.ds.hbMissed + 1, hbLost := s.ds.hbLost || decide (3 ≤ s.ds.hbMissed) } }) rfl
  exact ⟨_, he, hax, hsig, hds⟩

theorem execHeartbeatLoss_withholds (s : State) (hp : linkPowered s = true) :
    ∃ t, exec .heartbeatLoss s = .next t ∧ t.ds.hbLost = true ∧ (∀ n, dsGrants t n = false) ∧ t.ax = s.ax ∧
      (∀ n (g : Gate), axSt s n ≠ .disabled → g.hi = true → gateOn t n g = false) ∧
      ∀ n g, axSt s n ≠ .disabled → patShort s n = false → gateOn t n g = false := by
  have he : exec .heartbeatLoss s = .next (withDs s (fun s => { s with ds := { s.ds with hbMissed := 4, hbLost := true } })) := by
    show execHeartbeatLoss s = _
    rw [execHeartbeatLoss, if_pos hp]
  obtain ⟨hds, hax, -⟩ := withDs_of_dsOnly (s := s) (f := fun s => { s with ds := { s.ds with hbMissed := 4, hbLost := true } }) rfl
  have hlost : (withDs s (fun s => { s with ds := { s.ds with hbMissed := 4, hbLost := true } })).ds.hbLost = true := by rw [hds]
  have hst (n : Axis) := SameAx.axSt hax n
  refine ⟨_, he, hlost, dsGrants_of_hbLost hlost, hax, fun n g ha hg => ?_, fun n g ha hpat => ?_⟩
  · exact gateOn_hi_of_withheld g (hst n ▸ ha) (dsGrants_of_hbLost hlost n) hg
  · refine gateOn_of_withheld_patOff g (hst n ▸ ha) (dsGrants_of_hbLost hlost n) ?_
    rw [patShort, hds]
    exact hpat

/-! ### A disagreement -/

theorem toTick_riseOnly (s : State) (t : Nat) : RiseOnly s (toTick s t) := by
  unfold toTick
  split
  · exact RiseOnly.of_regs rfl rfl rfl
  · exact RiseOnly.bridge.refl s

theorem toUs_riseOnly (s : State) (t : Nat) : RiseOnly s (toUs s t) := by
  unfold toUs
  split
  · exact RiseOnly.bridge.ite (toTick_riseOnly s _) (RiseOnly.of_regs rfl rfl rfl)
  · exact RiseOnly.bridge.refl s

theorem execDisagreeTimeout_ends (s : State) (hd : s.ds.disagree = true) :
    ∃ t, exec .disagreeTimeout s = .next t ∧
      t.ds = { s.ds with disagree := false, disTimeout := s.ds.disTimeout || s.ds.disBad || !s.ds.disSeen } ∧ t.ax = s.ax ∧
      SignalsBut (allAxes.map (fun n => Sig.GD_RISE_MAX n.val)) s t := by
  have hus := toUs_riseOnly s (s.ds.disUs + 200)
  have he : exec .disagreeTimeout s = .next (withDs (toUs s (s.ds.disUs + 200)) (fun s =>
      { s with ds := { s.ds with disagree := false, disTimeout := s.ds.disTimeout || s.ds.disBad || !s.ds.disSeen } })) := by
    show execDisagreeTimeout s = _
    rw [execDisagreeTimeout, if_pos hd]
  obtain ⟨hds, hax, hsig⟩ := withDs_of_dsOnly (s := toUs s (s.ds.disUs + 200)) (f := fun s =>
    { s with ds := { s.ds with disagree := false, disTimeout := s.ds.disTimeout || s.ds.disBad || !s.ds.disSeen } }) rfl
  refine ⟨_, he, ?_, hax.trans hus.ax, fun k hk hl => (hsig k hk hl).trans (hus.sigs k hk hl)⟩
  rw [hds, hus.ds]

/-! ### The status word -/

/-- The states that an axis is in once its grant is withheld. -/
def Out (a : AxState) : Prop := a = .disabled ∨ a = .fault ∨ a = .safeShort

/-- What the reactions to a status word keep of an axis: the DS and its word, a withdrawn request, a state without a grant, DISABLED. -/
structure StaysOut (n : Axis) (s t : State) : Prop where
  ds : t.ds = s.ds
  got : t.sup.got = s.sup.got
  req : bitOf s.sup.req n.val = false → bitOf t.sup.req n.val = false
  out : Out (axSt s n) → Out (axSt t n)
  dis : axSt s n = .disabled → axSt t n = .disabled

namespace StaysOut

variable {n : Axis}

theorem of_ax {s t : State} (hd : t.ds = s.ds) (hg : t.sup.got = s.sup.got)
    (hr : bitOf s.sup.req n.val = false → bitOf t.sup.req n.val = false) (ha : axSt t n = axSt s n) : StaysOut n s t :=
  ⟨hd, hg, hr, fun h => ha ▸ h, fun h => ha.trans h⟩

theorem axSt_modAx_ne (s : State) {m : Axis} (f : AxBase → AxBase) (h : m ≠ n) : axSt (modAx s m f) n = axSt s n :=
  congrArg AxBase.st (modV_ne s.ax f h)

theorem axSt_modAx_same (s : State) (m : Axis) (f : AxBase → AxBase) : axSt (modAx s m f) m = (f (s.ax[m])).st :=
  congrArg AxBase.st (modV_same s.ax m f)

/-- An axis without a grant falls into no other state than one without a grant. -/
theorem out_of_falls {a b : AxState} (h : Falls a b) (ho : Out a) : Out b := by
  obtain ⟨-, hb | hb | hb | ⟨-, hs⟩⟩ := h
  · exact .inl hb
  · exact .inr (.inl hb)
  · exact .inr (.inr hb)
  · rcases ho with rfl | rfl | rfl <;> exact absurd hs (by decide)

theorem frame (n : Axis) : FaultFrame (StaysOut n) where
  refl _ := of_ax rfl rfl id rfl
  trans h g := ⟨g.ds.trans h.ds, g.got.trans h.got, g.req ∘ h.req, g.out ∘ h.out, g.dis ∘ h.dis⟩
  posts _ _ _ _ _ := of_ax rfl rfl id rfl
  ledger _ _ _ _ := of_ax rfl rfl id rfl
  pwm _ _ _ := of_ax rfl rfl id rfl
  gd _ _ _ := of_ax rfl rfl id rfl
  loop _ _ _ _ := of_ax rfl rfl id rfl
  obs _ _ _ := of_ax rfl rfl id rfl
  sup _ _ hg hr := of_ax rfl hg (hr _) rfl
  flt _ _ _ := of_ax rfl rfl id rfl
  axSame s m f hf := by
    refine of_ax rfl rfl id ?_
    by_cases e : m = n
    · subst e
      exact (axSt_modAx_same s m f).trans (hf _)
    · exact axSt_modAx_ne s f e
  axFall s m b hf := by
    by_cases e : m = n
    · subst e
      have hst := axSt_modAx_same s m (fun _ => b)
      exact ⟨rfl, rfl, id, fun ho => hst ▸ out_of_falls hf ho, fun hd => absurd hd hf.1⟩
    · exact of_ax rfl rfl id (axSt_modAx_ne s _ e)
  ofs _ _ _ := of_ax rfl rfl id rfl
  car _ _ _ := of_ax rfl rfl id rfl
  moveCls _ _ := of_ax rfl rfl id rfl
  mark _ _ _ := of_ax rfl rfl id rfl
  idle _ := of_ax rfl rfl id rfl

theorem setSrc (s : State) (code : Nat) (f : FltSrc) : StaysOut n s (setSrc s code f) := of_ax rfl rfl id rfl

end StaysOut

variable {R : State → State → Prop}

/-- A source released keeps what the fault manager keeps (R508). -/
theorem releaseSrc_keeps (h : FaultFrame R) (s : State) (code : Nat) (hs : ∀ t f, R t (setSrc t code f)) : R s (releaseSrc s code) := by
  unfold releaseSrc
  refine h.ite ?_ (h.refl s)
  refine h.trans (h.trans (h.trans (hs s _) (h.ledger _ _ _ (by decide))) (h.each _ _ (fun t n _ => ?_) _))
    (stageEvent_keeps h.toPostFrame _ _ _ _ _)
  exact h.ite (h.axSame t n _ (by exact fun _ => rfl)) (h.ite (h.axSame t n _ (by exact fun _ => rfl)) (h.refl t))

theorem devFault_keeps (h : FaultFrame R) (s : State) (src : Nat) (hs : ∀ t f, R t (setSrc t (devSrc src) f)) : R s (devFault s src) :=
  faultEvtB_keeps h s _ _ hs

/-- The sources behind the REASON bits of a status word keep what the fault manager keeps (R527, R532). -/
theorem wordReasons_keeps (h : FaultFrame R) (s : State) (w : StWord) (hs : ∀ t c f, R t (setSrc t c f)) : R s (wordReasons s w) := by
  have hfault (t : State) (src : Nat) : R t (devFault t src) := devFault_keeps h t src (fun t f => hs t _ f)
  have hsup (t : State) (x : Sup) (hg : x.got = t.sup.got) (hr : x.req = t.sup.req) : R t { t with sup := x } :=
    h.sup t x hg (fun i hi => hr ▸ hi)
  have hvdrv (t : State) : R t (vdrvEpisode t) := h.ite (h.refl t) (h.trans (hsup t _ (by exact rfl) (by exact rfl)) (hfault _ 32))
  unfold wordReasons
  dsimp only
  refine h.trans ?_ (h.ite (hfault _ 40) (h.refl _))
  refine h.trans ?_ (h.ite (releaseSrc_keeps h _ _ (fun t f => hs t _ f)) (h.refl _))
  refine h.trans ?_ (h.ite (hfault _ 41) (h.refl _))
  refine h.trans ?_ (h.ite (h.trans (h.ledger _ _ _ (by decide)) (hfault _ 39)) (h.refl _))
  refine h.trans ?_ (hsup _ _ (by exact rfl) (by exact rfl))
  exact h.ite (hvdrv s) (hsup s _ (by exact rfl) (by exact rfl))

/-- The safe pattern of an axis, or FAULT, and its request withdrawn: the answer to a withheld grant (R60, R526, R531). -/
def withdrawn (w : StWord) (s : State) (n : Axis) : State :=
  setReq (if w.vdrvLock || w.ddHot then toFault s n false else toPattern s n) n false

theorem withdrawn_keeps (h : FaultFrame R) (w : StWord) (s : State) (n : Axis) : R s (withdrawn w s n) :=
  h.trans (h.ite (toFault_keeps h s n false) (toPattern_keeps h s n)) (setReq_off_keeps h.toBridgeFrame _ n)

theorem wordGrants_keeps (h : FaultFrame R) (s : State) (w : StWord) : R s (wordGrants s w) :=
  h.each _ _ (fun s n _ => withdrawn_keeps h w s n) s

/-- What follows the taking of a status word keeps what the fault manager keeps. -/
theorem takeSt_after (h : FaultFrame R) (s : State) (w : StWord) (hs : ∀ t c f, R t (setSrc t c f)) :
    R (wordGrants { s with sup := { s.sup with got := w } } w) (takeSt s w) := by
  unfold takeSt
  refine h.trans (wordReasons_keeps h _ w hs) (h.ite ?_ (h.refl _))
  exact h.trans (h.trans (h.ledger _ _ _ (by decide)) (evt_keeps h.toPostFrame _ _)) (devFault_keeps h _ _ (fun t f => hs t _ f))

theorem takeSt_stays (s : State) (w : StWord) (n : Axis) : StaysOut n { s with sup := { s.sup with got := w } } (takeSt s w) :=
  (StaysOut.frame n).trans (wordGrants_keeps (StaysOut.frame n) _ w) (takeSt_after (StaysOut.frame n) s w (fun t c f => StaysOut.setSrc t c f))

/-! ### An axis whose grant is withheld -/

theorem axisTo_out (s : State) (n : Axis) {st : AxState} (hst : Out st) : Out (axSt (axisTo s n st) n) := by
  have h := StaysOut.frame n
  unfold axisTo
  dsimp only
  by_cases he : (s.ax[n]).st = st
  · rw [if_pos he]
    exact (show axSt s n = st from he) ▸ hst
  · rw [if_neg he]
    refine (endWaits_keeps h.toPostFrame _ _ _).out ?_
    have hev (b : AxBase) (hb : b.st = st) : Out (axSt (evt (modAx s n (fun _ => b)) (40 + n.val)) n) := by
      refine (evt_keeps h.toPostFrame _ _).out ?_
      rw [StaysOut.axSt_modAx_same, hb]
      exact hst
    exact (h.ite (leavePosition_keeps h _ n) (h.refl _)).out (hev _ (by exact rfl))

theorem toFault_out (s : State) (n : Axis) (serve : Bool) : Out (axSt (toFault s n serve) n) := by
  have h := StaysOut.frame n
  unfold toFault
  by_cases hd : axSt s n = .disabled
  · rw [if_pos hd]
    exact .inl hd
  · rw [if_neg hd]
    refine (gatesFault_keeps h.toBridgeFrame _ n serve).out ((withLines_after h.toBridgeFrame _ n _).out ?_)
    exact (h.axSame _ n _ (by exact fun _ => rfl)).out (axisTo_out _ n (.inr (.inl rfl)))

theorem toShort_out (s : State) (n : Axis) : Out (axSt (toShort s n) n) := by
  have h := StaysOut.frame n
  unfold toShort
  by_cases hd : axSt s n = .disabled
  · rw [if_pos hd]
    exact .inl hd
  · rw [if_neg hd]
    exact (gatesShort_keeps h.toBridgeFrame _ n).out ((withEdges_after h.toBridgeFrame _ n _).out (axisTo_out _ n (.inr (.inr rfl))))

theorem toPattern_out (s : State) (n : Axis) : Out (axSt (toPattern s n) n) := by
  unfold toPattern
  split
  · exact toShort_out s n
  · exact toFault_out s n false

theorem withdrawn_out (w : StWord) (s : State) (n : Axis) :
    bitOf (withdrawn w s n).sup.req n.val = false ∧ Out (axSt (withdrawn w s n) n) := by
  refine ⟨?_, ?_⟩
  · rw [withdrawn, setReq_off_bit]
    simp
  · refine (setReq_off_keeps (StaysOut.frame n).toBridgeFrame _ n).out ?_
    split
    · exact toFault_out s n false
    · exact toPattern_out s n

/-- Each axis that a status word withholds leaves the requests and is in a state without a grant (R527). -/
theorem wordGrants_out (s : State) (w : StWord) (n : Axis) (hreq : bitOf s.sup.req n.val = true) (hw : bitOf w.req n.val = true)
    (hg : bitOf w.grant n.val = false) :
    bitOf (wordGrants s w).sup.req n.val = false ∧ Out (axSt (wordGrants s w) n) := by
  have hit : n ∈ allAxes.filter (fun n => bitOf s.sup.req n.val && bitOf w.req n.val && !bitOf w.grant n.val) :=
    List.mem_filter.mpr ⟨mem_allAxes n, by rw [hreq, hw, hg]; rfl⟩
  obtain ⟨xs, ys, he⟩ := List.append_of_mem hit
  have hrest (u : State) : StaysOut n u (forEach ys u (withdrawn w)) :=
    (StaysOut.frame n).each _ _ (fun s m _ => withdrawn_keeps (StaysOut.frame n) w s m) u
  have hsplit : wordGrants s w = forEach ys (withdrawn w (forEach xs s (withdrawn w)) n) (withdrawn w) := by
    unfold wordGrants
    rw [he]
    exact List.foldl_append
  obtain ⟨hr, ho⟩ := withdrawn_out w (forEach xs s (withdrawn w)) n
  rw [hsplit]
  exact ⟨(hrest _).req hr, (hrest _).out ho⟩

theorem execDsStatus_takes (s : State) (hp : linkPowered s = true) : exec (.dsStatus true) s = .next (takeSt s s.ds.sent) := by
  show execDsStatus true s = _
  rw [execDsStatus, hp]
  rfl

theorem execDsStatus_withholds (s : State) (n : Axis) (hp : linkPowered s = true) (hreq : bitOf s.sup.req n.val = true)
    (hw : bitOf s.ds.sent.req n.val = true) (hg : bitOf s.ds.sent.grant n.val = false) :
    ∃ t, exec (.dsStatus true) s = .next t ∧ t.sup.got = s.ds.sent ∧ bitOf t.sup.req n.val = false ∧
      (axSt t n = .disabled ∨ axSt t n = .fault ∨ axSt t n = .safeShort) ∧ (axSt s n = .disabled → axSt t n = .disabled) := by
  have hall := takeSt_stays s s.ds.sent n
  have hafter := takeSt_after (StaysOut.frame n) s s.ds.sent (fun t c f => StaysOut.setSrc t c f)
  obtain ⟨hr, ho⟩ := wordGrants_out { s with sup := { s.sup with got := s.ds.sent } } s.ds.sent n hreq hw hg
  exact ⟨_, execDsStatus_takes s hp, hall.got, hafter.req hr, hafter.out ho, hall.dis⟩

/-- Settles O33: what a change of the DS is followed by, the demand of a withheld grant, and what the reactions to a status word keep. -/
theorem heartbeatsAndGrantsAreWatched : Obligations.HeartbeatsAndGrantsAreWatched := by
  refine ⟨execCdHeartbeat_good, execCdHeartbeat_bad, execHeartbeatLoss_withholds, execDisagreeTimeout_ends, fun s hp => ?_,
    execDsStatus_withholds, fun s => ?_⟩
  · have h := takeSt_stays s s.ds.sent 0
    exact ⟨_, execDsStatus_takes s hp, h.got, h.ds⟩
  · show execDsStatus false s = _
    rw [execDsStatus, Bool.and_false]
    rfl

end Sys2Proof.Machine
end

section
/-! What tasks and outer steps keep besides what they do: the counts and grants of the axes, the tags, the FIFOs and the source of
Biscotti. -/

namespace Sys2Proof.Machine

/-- The signals that a task writes in its own place, or not at all: the grants and caps of an axis, its tasks and mismatches counted, its
role. -/
def calmKeys : List Nat :=
  allAxes.flatMap (fun n => [Sig.HC_GRANT_I n.val, Sig.HC_VCAP n.val, Sig.HC_ACAP n.val, Sig.HC_DCAP n.val, Sig.LP_TASK_COUNT n.val,
    Sig.BISC_EVENT_AX n.val, Sig.FLT_ROLE_AX n.val])

/-- The two states agree in the signals of `calmKeys`, the last tags, the FIFOs and held tasks of the engines, the falling grants and the
ages of the grants, and the sources BISC_LE. -/
structure Calm (s t : State) : Prop where
  keys : ∀ k ∈ calmKeys, rg t k = rg s k
  tag : ∀ n : Axis, (t.loop[n]).lastTag = (s.loop[n]).lastTag
  fifo : ∀ e : Fin 2, (t.eng[e]).fifo = (s.eng[e]).fifo ∧ (t.eng[e]).stopped = (s.eng[e]).stopped
  grant : ∀ n : Axis, (t.hcAx[n]).lateI = (s.hcAx[n]).lateI ∧ (t.hcAx[n]).age = (s.hcAx[n]).age
  bisc : ∀ n : Axis, cellGet t.flt.srcs (axSrc n 9) = cellGet s.flt.srcs (axSrc n 9)

/-- An entry of a vector changed by a function that keeps a view of it keeps the view of every entry. -/
theorem modV_view {α β : Type} {k : Nat} (v : Vector α k) (i : Fin k) (f : α → α) (view : α → β) (hf : ∀ a, view (f a) = view a)
    (j : Fin k) : view (modV v i f)[j] = view v[j] := by
  by_cases e : i = j
  · subst e
    rw [modV_same, hf]
  · rw [modV_ne v f e]

namespace Calm

theorem refl (s : State) : Calm s s := ⟨fun _ _ => rfl, fun _ => rfl, fun _ => ⟨rfl, rfl⟩, fun _ => ⟨rfl, rfl⟩, fun _ => rfl⟩

theorem trans {s t u : State} (h : Calm s t) (g : Calm t u) : Calm s u where
  keys k hk := (g.keys k hk).trans (h.keys k hk)
  tag n := (g.tag n).trans (h.tag n)
  fifo e := ⟨(g.fifo e).1.trans (h.fifo e).1, (g.fifo e).2.trans (h.fifo e).2⟩
  grant n := ⟨(g.grant n).1.trans (h.grant n).1, (g.grant n).2.trans (h.grant n).2⟩
  bisc n := (g.bisc n).trans (h.bisc n)

/-- An update of the parts that the relation does not speak of. -/
theorem of_rest {s t : State} (hr : t.regs = s.regs) (hl : t.loop = s.loop) (he : t.eng = s.eng) (hh : t.hcAx = s.hcAx)
    (hf : t.flt.srcs = s.flt.srcs) : Calm s t where
  keys k _ := congrArg (fun f => regRead f k) hr
  tag n := by rw [hl]
  fifo e := by rw [he]; exact ⟨rfl, rfl⟩
  grant n := by rw [hh]; exact ⟨rfl, rfl⟩
  bisc n := by rw [hf]

theorem reg (s : State) {k : Nat} (v : Word) (hk : k ∉ calmKeys) : Calm s (setR s k v) :=
  { refl s with keys := fun _ hj => rg_setR_ne s v (fun e => hk (e ▸ hj)) }

theorem loop (s : State) (n : Axis) (f : LoopAx → LoopAx) (hf : ∀ l, (f l).lastTag = l.lastTag) : Calm s (modLoop s n f) :=
  { refl s with tag := modV_view s.loop n f LoopAx.lastTag hf }

theorem eng (s : State) (e : Fin 2) (f : Engine → Engine) (hf : ∀ x, (f x).fifo = x.fifo) (hs : ∀ x, (f x).stopped = x.stopped) :
    Calm s (modEng s e f) :=
  { refl s with fifo := fun j => ⟨modV_view s.eng e f Engine.fifo hf j, modV_view s.eng e f Engine.stopped hs j⟩ }

theorem hcAx (s : State) (n : Axis) (f : HcAx → HcAx) (hl : ∀ x, (f x).lateI = x.lateI) (ha : ∀ x, (f x).age = x.age) :
    Calm s (modHcAx s n f) :=
  { refl s with grant := fun j => ⟨modV_view s.hcAx n f HcAx.lateI hl j, modV_view s.hcAx n f HcAx.age ha j⟩ }

theorem src (s : State) {c : Nat} (f : FltSrc) (hc : ∀ n, axSrc n 9 ≠ c) : Calm s (setSrc s c f) :=
  { refl s with bisc := fun n => cellGet_put_ne _ _ (hc n) }

theorem not_mem_of_ledger {k : Nat} (hk : k ∈ ledgerKeys) : k ∉ calmKeys := by
  revert k
  decide

theorem frame : FaultFrame Calm where
  refl := refl
  trans := trans
  posts _ _ _ _ _ := of_rest rfl rfl rfl rfl rfl
  ledger s _ v hk := reg s v (not_mem_of_ledger hk)
  pwm _ _ _ := of_rest rfl rfl rfl rfl rfl
  gd _ _ _ := of_rest rfl rfl rfl rfl rfl
  loop := loop
  obs _ _ _ := of_rest rfl rfl rfl rfl rfl
  sup _ _ _ _ := of_rest rfl rfl rfl rfl rfl
  flt _ _ h := of_rest rfl rfl rfl rfl h
  axSame _ _ _ _ := of_rest rfl rfl rfl rfl rfl
  axFall _ _ _ _ := of_rest rfl rfl rfl rfl rfl
  ofs _ _ _ := of_rest rfl rfl rfl rfl rfl
  car _ _ _ := of_rest rfl rfl rfl rfl rfl
  moveCls s n := hcAx s n _ (fun _ => rfl) (fun _ => rfl)
  mark _ _ _ := of_rest rfl rfl rfl rfl rfl
  idle _ := of_rest rfl rfl rfl rfl rfl

theorem ite {c : Prop} [Decidable c] {s a b : State} (ha : Calm s a) (hb : Calm s b) : Calm s (if c then a else b) :=
  frame.toPostFrame.ite ha hb

/-- The state of a pair that depends on a condition. -/
theorem fst_ite {β : Type} {c : Prop} [Decidable c] {s : State} {x y : State × β} (hx : Calm s x.1) (hy : Calm s y.1) :
    Calm s (if c then x else y).1 := by
  split
  · exact hx
  · exact hy

theorem each {α : Type} (xs : List α) (f : State → α → State) (hf : ∀ s, ∀ x ∈ xs, Calm s (f s x)) (s : State) :
    Calm s (forEach xs s f) :=
  frame.toPostFrame.each xs f hf s

end Calm

/-! ### Time, telemetry and sources -/

theorem toTick_calm (s : State) (t : Nat) : Calm s (toTick s t) :=
  Calm.ite (Calm.of_rest rfl rfl rfl rfl rfl) (Calm.refl s)

theorem setTel_calm (s : State) {k : Nat} (x : Rat) (hk : k ∉ calmKeys) : Calm s (setTel s k x) := by
  unfold setTel
  split
  · exact Calm.reg s _ hk
  · exact Calm.refl s

/-- A fault event of another source than BISC_LE. -/
theorem faultEvt_calm (s : State) (code : Nat) (hc : ∀ n, axSrc n 9 ≠ code) : Calm s (faultEvt s code) :=
  faultEvtB_keeps Calm.frame s code _ (fun t f => Calm.src t f hc)

theorem axFault_calm (s : State) (n : Axis) {src : Nat} (hc : ∀ m : Axis, axSrc m 9 ≠ axSrc n src) : Calm s (axFault s n src) :=
  faultEvt_calm s _ hc

/-- A source of an axis is not BISC_LE of any where it has another number. -/
theorem axSrc_nine_ne {src : Nat} (h : src < 256) (h9 : src ≠ 9) (m n : Axis) : axSrc m 9 ≠ axSrc n src := by
  unfold axSrc
  omega

/-! ### The start of a task -/

theorem bisc_calm (s : State) (b : Bisc) : Calm s { s with bisc := b } := Calm.of_rest rfl rfl rfl rfl rfl

theorem replayLog_calm (s : State) (k : Nat) : Calm s (replayLog s k) := by
  have hcount : Sig.BISC_REPLAY_COUNT ∉ calmKeys := by decide
  unfold replayLog
  refine Calm.ite (Calm.refl s) ((bisc_calm s _).trans (Calm.ite (Calm.reg _ _ hcount) ?_))
  refine Calm.each _ _ (fun s n _ => ?_) _
  exact Calm.loop s n _ (fun _ => rfl)

theorem hfiStart_calm (s : State) (n : Axis) (t : Nat) (th w : Rat) : Calm s (hfiStart s n t th w) := Calm.of_rest rfl rfl rfl rfl rfl

theorem sensEntry_calm (s : State) (n : Axis) (tag : Nat) : Calm s (sensEntry s n tag) := by
  have hstat : ∀ n : Axis, Sig.OBS_STAT n.val ∉ calmKeys := by decide
  unfold sensEntry
  split
  · exact Calm.refl s
  · refine Calm.ite ?_ (Calm.refl s)
    refine Calm.trans ?_ (Calm.frame.obs _ n _)
    refine Calm.trans ?_ (Calm.frame.obs _ n _)
    refine Calm.trans ?_ (Calm.ite (Calm.reg _ _ (hstat n)) (Calm.refl _))
    exact (Calm.ite (hfiStart_calm s n tag _ _) (Calm.refl s)).trans (Calm.reg _ _ (hstat n))

theorem sensAdvance_calm (s : State) (n : Axis) (tag dt : Nat) : Calm s (sensAdvance s n tag dt) := by
  have hms : ∀ n : Axis, Sig.OBS_SENSORLESS_MS n.val ∉ calmKeys := by decide
  exact Calm.ite ((Calm.frame.obs s n _).trans (Calm.reg _ _ (hms n))) (Calm.refl s)

theorem fbStillAt_calm (s : State) (n : Axis) (t : Nat) : Calm s (fbStillAt s n t) :=
  Calm.ite (Calm.of_rest rfl rfl rfl rfl rfl) (Calm.refl s)

/-- The state of a task that starts, before its tag becomes the last one of its axis (R477, R494). -/
def taskReady (s : State) (n : Axis) (tag : Nat) : State :=
  let s := replayLog (toTick s (windowClose s n tag)) (engOf n).val
  let dt := tag - ((s.loop[n]).lastTag.getD tag)
  let s := match (s.loop[n]).passPend with
    | some (p, t) => if t < tag then modeDone (setPasses s n p) else s
    | none => s
  let s := sensAdvance (sensEntry s n tag) n tag dt
  if rgN s (Sig.LP_FB_SRC n.val) = 1 ∨ rgN s (Sig.LP_ANG_SRC n.val) = 1 then fbStillAt s n tag else s

theorem beginTask_fst (s : State) (n : Axis) (tag : Nat) :
    (beginTask s n tag).1 = modLoop (taskReady s n tag) n (fun l => { l with lastTag := some tag, firstTask := false }) := rfl

theorem beginTask_axis (s : State) (n : Axis) (tag : Nat) : (beginTask s n tag).2.axis = n := rfl

theorem taskReady_calm (s : State) (n : Axis) (tag : Nat) : Calm s (taskReady s n tag) := by
  have hpass (u : State) (p : Nat) : Calm u (modeDone (setPasses u n p)) :=
    (setPasses_keeps Calm.frame.toBridgeFrame u n p).trans (modeDone_keeps Calm.frame.toPostFrame _)
  unfold taskReady
  dsimp only
  refine Calm.trans ?_ (Calm.ite (fbStillAt_calm _ n tag) (Calm.refl _))
  refine Calm.trans ?_ ((sensEntry_calm _ n tag).trans (sensAdvance_calm _ n tag _))
  have hstart := (toTick_calm s (windowClose s n tag)).trans (replayLog_calm _ (engOf n).val)
  split
  · exact hstart.trans (Calm.ite (hpass _ _) (Calm.refl _))
  · exact hstart

theorem engineBusy_calm (s : State) (n : Axis) (us : Rat) : Calm s (engineBusy s n us) := Calm.eng s _ _ (fun _ => rfl) (fun _ => rfl)

theorem occupy_calm (s : State) (n : Axis) (from_ : Nat) : Calm s (occupy s n from_) := by
  unfold occupy
  dsimp only
  exact ((engineBusy_calm s n _).trans (Calm.eng _ _ _ (by exact fun _ => rfl) (by exact fun _ => rfl))).trans (toTick_calm _ _)

/-! ### Position-compare slots and replans -/

theorem slotFire_calm (s : State) (n : Axis) (k us : Nat) (hk : k ∈ [0, 1, 2, 3]) : Calm s (slotFire s n k us) := by
  have hstat : ∀ n : Axis, Sig.CAR_CMP_STAT n.val ∉ calmKeys := by decide
  have htime : ∀ n : Axis, ∀ k ∈ [0, 1, 2, 3], Sig.CAR_CMP_TIME n.val k ∉ calmKeys := by decide
  exact (((Calm.reg s _ (hstat n)).trans (evt_keeps Calm.frame.toPostFrame _ _)).trans (Calm.reg _ _ (htime n k hk))).trans
    (Calm.frame.car _ n _)

theorem slotAt_calm (s : State) (n : Axis) (k : Nat) (p : Int) : Calm s (slotAt s n k p) := Calm.frame.car s n _

theorem slotCheck_calm (s : State) (n : Axis) (k : Nat) (p : Int) (us : Nat) (hk : k ∈ [0, 1, 2, 3]) : Calm s (slotCheck s n k p us) := by
  have hstat : ∀ n : Axis, Sig.CAR_CMP_STAT n.val ∉ calmKeys := by decide
  have hfire (u : State) := slotFire_calm u n k us hk
  unfold slotCheck
  dsimp only
  refine Calm.ite ?_ (Calm.ite ?_ (Calm.refl s))
  · refine (Calm.frame.car s n _).trans (Calm.ite ?_ (Calm.refl _))
    exact ((Calm.reg _ _ (hstat n)).trans (evt_keeps Calm.frame.toPostFrame _ _)).trans (Calm.ite (hfire _) (Calm.refl _))
  · split
    · exact slotAt_calm s n k p
    · exact Calm.ite (hfire s) (slotAt_calm s n k p)

theorem slotsCheck_calm (s : State) (n : Axis) (src : Nat) (p : Int) (us : Nat) : Calm s (slotsCheck s n src p us) :=
  Calm.each _ _ (fun s k hk => Calm.ite (slotCheck_calm s n k p us hk) (Calm.refl s)) s

theorem slotsReload_calm (s : State) (n : Axis) : Calm s (slotsReload s n) :=
  Calm.each _ _ (fun s k _ => Calm.ite (slotAt_calm s n k _) (Calm.refl s)) s

theorem replanTakes_calm (s : State) (n : Axis) : Calm s (replanTakes s n) :=
  Calm.ite ((rt_keeps Calm.frame.toPostFrame s _ : Calm s (waitsStart s n)).trans (Calm.frame.car _ n _)) (Calm.frame.car s n _)

theorem carTrigger_calm (s : State) (n : Axis) : Calm s (carTrigger s n) := by
  unfold carTrigger
  split
  · exact (Calm.frame.car s n _).trans (replanTakes_calm _ n)
  · exact Calm.ite (replanTakes_calm s n) (Calm.frame.car s n _)

theorem carLoad_calm (s : State) (n : Axis) (tag : Nat) (pos : Int) (v : Rat) : Calm s (carLoad s n tag pos v) :=
  ((Calm.frame.car s n _).trans (slotsReload_calm _ n)).trans (carTrigger_calm _ n)

/-! ### Transitions -/

theorem axisTo_calm (s : State) (n : Axis) (st : AxState) : Calm s (axisTo s n st) :=
  axisTo_keeps Calm.frame s n st (fun _ _ _ => Calm.of_rest rfl rfl rfl rfl rfl)

theorem endStops_calm (s : State) (n : Axis) (status : Nat) : Calm s (endStops s n status) := endWaits_keeps Calm.frame.toPostFrame s _ _

theorem enterState_calm (s : State) (n : Axis) (st : AxState) (tag : Nat) (iq w : Rat) (pos : Int) (th : Rat) :
    Calm s (enterState s n st tag iq w pos th) := by
  unfold enterState
  refine Calm.ite (toHold_keeps Calm.frame s n false) ?_
  dsimp only
  refine Calm.trans ?_ (Calm.ite ((Calm.frame.car _ n _).trans (carTrigger_calm _ n)) (Calm.refl _))
  refine Calm.trans ?_ (Calm.ite (carLoad_calm _ n tag pos _) (Calm.refl _))
  refine Calm.trans ?_ (Calm.loop _ n _ (by exact fun _ => rfl))
  exact (axisTo_calm s n st).trans (Calm.ite (Calm.refl _) (endStops_calm _ n _))

theorem applyPend_calm (s : State) (n : Axis) (tag : Nat) (iq w : Rat) (pos : Int) (th : Rat) :
    Calm s (applyPend s n tag iq w pos th) := by
  unfold applyPend
  split
  · exact Calm.refl s
  · exact Calm.ite ((Calm.loop s n _ (by exact fun _ => rfl)).trans (enterState_calm _ n _ tag iq w pos th)) (Calm.refl s)

/-! ### The loops of a task -/

theorem lpStat_not_calm (n : Axis) : Sig.LP_STAT n.val ∉ calmKeys := by
  revert n
  decide

/-- A flag of LP_STAT set under a condition. -/
theorem lpFlag_calm (s : State) (n : Axis) (i : Nat) (x : Bool) {c : Prop} [Decidable c] :
    Calm s (if c then setB s (Sig.LP_STAT n.val) i x else s) :=
  Calm.ite (Calm.reg s _ (lpStat_not_calm n)) (Calm.refl s)

theorem hfiTask_calm (s : State) (n : Axis) (tag : Nat) (m : Meas) : Calm s (hfiTask s n tag m).1 := by
  unfold hfiTask
  dsimp only
  split
  · exact Calm.of_rest rfl rfl rfl rfl rfl
  · exact Calm.refl s

theorem currentLoop_calm (s : State) (t : Task) (ilim : Rat) : Calm s (currentLoop s t ilim).1 := by
  unfold currentLoop
  dsimp only
  refine Calm.trans ?_ (Calm.ite (endStops_calm _ t.axis stOk) (Calm.refl _))
  refine Calm.trans ?_ (Calm.loop _ t.axis _ (by exact fun _ => rfl))
  refine Calm.trans ?_ (lpFlag_calm _ t.axis 4 true)
  exact (hfiTask_calm s t.axis t.tag t.meas).trans (lpFlag_calm _ t.axis 3 true)

theorem openLoop_calm (s : State) (t : Task) (entering : Bool) : Calm s (openLoop s t entering).1 := by
  unfold openLoop
  exact Calm.fst_ite (Calm.loop s t.axis _ (by exact fun _ => rfl)) (Calm.loop s t.axis _ (by exact fun _ => rfl))

theorem dutyOf_calm (s : State) (x vm : Rat) : Calm s (dutyOf s x vm).1 := by
  unfold dutyOf
  split
  · exact Calm.of_rest rfl rfl rfl rfl rfl
  · exact Calm.refl s

theorem svm_calm (s : State) (n : Axis) (vd vq tho vm : Rat) : Calm s (svm s n vd vq tho vm).1 := by
  unfold svm
  dsimp only
  refine Calm.trans ?_ (lpFlag_calm _ n 5 true)
  exact ((dutyOf_calm s _ vm).trans (dutyOf_calm _ _ vm)).trans (dutyOf_calm _ _ vm)

theorem filterFlag_calm (s : State) (n : Axis) (a : FilterAct) : Calm s (filterFlag s n a) := by
  have hstat : ∀ n : Axis, Sig.PWM_STAT n.val ∉ calmKeys := by decide
  have hcount : ∀ n : Axis, Sig.PWM_FILTER_COUNT n.val ∉ calmKeys := by decide
  cases a with
  | pass | held => exact Calm.refl s
  | stretched | dropped => exact (Calm.reg s _ (hstat n)).trans (Calm.reg _ _ (hcount n))

theorem setIdeal_calm (s : State) (n : Axis) (ph : Fin 3) (x : Bool) : Calm s (setIdeal s n ph x) :=
  (withEdges_keeps Calm.frame.toBridgeFrame s n _ (Calm.frame.pwm s n _)).trans (filterFlag_calm _ n _)

theorem directWrite_calm (s : State) (n : Axis) (ph : Fin 3) (w : Nat) : Calm s (directWrite s n ph w) := by
  have hstat : ∀ n : Axis, Sig.PWM_STAT n.val ∉ calmKeys := by decide
  have hcount : ∀ n : Axis, Sig.PWM_CATCHUP_COUNT n.val ∉ calmKeys := by decide
  have hcatch (u : State) (x : Bool) :
      Calm u (setIdeal (incR (setB u (Sig.PWM_STAT n.val) 5 true) (Sig.PWM_CATCHUP_COUNT n.val)) n ph x) :=
    ((Calm.reg u _ (hstat n)).trans (Calm.reg _ _ (hcount n))).trans (setIdeal_calm _ n ph x)
  unfold directWrite
  dsimp only
  refine (Calm.frame.pwm s n _).trans (Calm.ite (Calm.refl _) (Calm.ite (hcatch _ false) (Calm.ite (hcatch _ true) (Calm.refl _))))

theorem directWrites_calm (s : State) (n : Axis) (u v w : Nat) : Calm s (directWrites s n u v w) :=
  (((toTick_calm s _).trans (directWrite_calm _ n 0 u)).trans (directWrite_calm _ n 1 v)).trans (directWrite_calm _ n 2 w)

theorem addSnapRec_calm (s : State) (p : Snap → Bool) (r : List Byte) : Calm s (addSnapRec s p r) :=
  (Calm.frame.flt s _ (by exact rfl)).trans (stageSnaps_keeps Calm.frame _ _)

theorem snapTask_calm (s : State) (n : Axis) (tag : Nat) (m : Meas) (vd vq : Rat) : Calm s (snapTask s n tag m vd vq) :=
  (Calm.loop s n _ (by exact fun _ => rfl)).trans (addSnapRec_calm _ _ _)

theorem outerLate_calm (s : State) (n : Axis) (late : Bool) : Calm s (outerLate s n late) :=
  Calm.ite ((Calm.reg s _ (lpStat_not_calm n)).trans (axFault_calm _ n (fun m => axSrc_nine_ne (by decide) (by decide) m n)))
    (Calm.refl s)

theorem dueSteps_calm (s : State) (n : Axis) (t : Task) (ilim : Rat) (heldTask : Bool) : Calm s (dueSteps s n t ilim heldTask) := by
  unfold dueSteps
  dsimp only
  refine Calm.ite (Calm.loop s n _ (by exact fun _ => rfl)) ?_
  exact ((Calm.loop s n _ (by exact fun _ => rfl)).trans (outerLate_calm _ n _)).trans (outerLate_calm _ n _)

theorem taskTelemetry_calm (s : State) (n : Axis) (m : Meas) (vd vq ilim : Rat) : Calm s (taskTelemetry s n m vd vq ilim) := by
  have hkeys : ∀ n : Axis, ∀ k ∈ [Sig.LP_ID n.val, Sig.LP_IQ n.val, Sig.LP_VD n.val, Sig.LP_VQ n.val, Sig.LP_SPEED n.val, Sig.LP_POS n.val,
      Sig.LP_ILIM n.val], k ∉ calmKeys := by decide
  unfold taskTelemetry
  dsimp only
  refine Calm.trans ?_ (setTel_calm _ _ (hkeys n _ (by simp)))
  refine Calm.trans ?_ (Calm.reg _ _ (hkeys n _ (by simp)))
  refine Calm.trans ?_ (setTel_calm _ _ (hkeys n _ (by simp)))
  refine Calm.trans ?_ (setTel_calm _ _ (hkeys n _ (by simp)))
  refine Calm.trans ?_ (setTel_calm _ _ (hkeys n _ (by simp)))
  refine Calm.trans ?_ (setTel_calm _ _ (hkeys n _ (by simp)))
  exact setTel_calm _ _ (hkeys n _ (by simp))

theorem releaseTask_calm (s : State) (t : Task) (x : CurSet) : Calm s (releaseTask s t x) := by
  unfold releaseTask
  dsimp only
  refine Calm.trans ?_ (dueSteps_calm _ t.axis t _ false)
  refine Calm.trans ?_ (snapTask_calm _ t.axis t.tag t.meas _ _)
  refine Calm.trans ?_ (Calm.ite ((svm_calm _ t.axis _ _ _ _).trans (directWrites_calm _ t.axis _ _ _)) (Calm.refl _))
  refine Calm.trans ?_ (taskTelemetry_calm _ t.axis t.meas _ _ _)
  refine Calm.trans ?_ (Calm.hcAx _ t.axis _ (by exact fun _ => rfl) (by exact fun _ => rfl))
  refine Calm.trans ?_ (Calm.loop _ t.axis _ (by exact fun _ => rfl))
  refine Calm.trans ?_ (Calm.fst_ite (currentLoop_calm _ t _) (Calm.fst_ite (openLoop_calm _ t _) (Calm.refl _)))
  refine Calm.trans ?_ (lpFlag_calm _ t.axis 1 true)
  exact (lpFlag_calm s t.axis 6 true).trans (applyPend_calm _ t.axis t.tag t.meas.iq t.meas.w t.meas.pos t.meas.th)

theorem forcedOn_calm (s : State) (t : Task) : Calm s (forcedOn s t) :=
  Calm.ite (Calm.loop s t.axis _ (by exact fun _ => rfl)) (Calm.refl s)

theorem implausible_calm (s : State) (n : Axis) (t : Nat) : Calm s (implausible s n t) := by
  unfold implausible
  dsimp only
  refine Calm.ite (Calm.refl s) (Calm.ite ?_ (Calm.loop s n _ (by exact fun _ => rfl)))
  exact (Calm.loop s n _ (by exact fun _ => rfl)).trans (axFault_calm _ n (fun m => axSrc_nine_ne (by decide) (by decide) m n))

/-- A task that passes its checkpoint is counted; the rest of it is calm (R278, R281). -/
theorem passTask_calm (s : State) (t : Task) : Calm (incR s (Sig.LP_TASK_COUNT t.axis.val)) (passTask s t) := by
  have hmiss : Sig.SMP_STAT ∉ calmKeys := by decide
  unfold passTask
  dsimp only
  split
  · refine Calm.trans ?_ (releaseTask_calm _ t _)
    refine Calm.trans ?_ (slotsCheck_calm _ t.axis 1 t.meas.pos _)
    exact (Calm.loop _ t.axis _ (by exact fun _ => rfl)).trans (Calm.ite (Calm.reg _ _ hmiss) (Calm.refl _))
  · refine Calm.trans ?_ (dueSteps_calm _ t.axis t 0 true)
    refine Calm.trans ?_ (implausible_calm _ t.axis t.tag)
    refine Calm.trans ?_ (Calm.ite (forcedOn_calm _ t) (Calm.refl _))
    refine Calm.trans ?_ (Calm.loop _ t.axis _ (by exact fun _ => rfl))
    refine Calm.trans ?_ (applyPend_calm _ t.axis t.tag _ t.meas.w t.meas.pos t.meas.th)
    refine Calm.trans ?_ (Calm.reg _ _ (lpStat_not_calm t.axis))
    refine Calm.trans ?_ (slotsCheck_calm _ t.axis 1 t.meas.pos _)
    exact (Calm.loop _ t.axis _ (by exact fun _ => rfl)).trans (Calm.ite (Calm.reg _ _ hmiss) (Calm.refl _))

theorem holdTask_calm (s : State) (t : Task) : Calm s (holdTask s t) := by
  have hhold : ∀ n : Axis, Sig.BISC_HOLD_AX n.val ∉ calmKeys := by decide
  have hstat : Sig.BISC_STAT ∉ calmKeys := by decide
  exact ((Calm.reg s _ hstat).trans (Calm.reg _ _ (hhold t.axis))).trans (dueSteps_calm _ t.axis t 0 true)

end Sys2Proof.Machine
end

section
/-! O31: the budget tick, its boundary and its computation. -/

namespace Sys2Proof.Machine

/-! ### What a budget tick keeps of the grant in force of an axis -/

/-- The signals of the grant in force of an axis (R464). -/
def grantKeys (n : Axis) : List Nat := [Sig.HC_GRANT_I n.val, Sig.HC_VCAP n.val, Sig.HC_ACAP n.val, Sig.HC_DCAP n.val]

/-- The two states agree in the grant in force of an axis, a grant that falls and the age of the grant. -/
structure Steady (n : Axis) (s t : State) : Prop where
  keys : ∀ k ∈ grantKeys n, rg t k = rg s k
  grant : (t.hcAx[n]).lateI = (s.hcAx[n]).lateI ∧ (t.hcAx[n]).age = (s.hcAx[n]).age

theorem grantKeys_calm (n : Axis) : ∀ k ∈ grantKeys n, k ∈ calmKeys := by
  revert n
  decide

theorem Calm.steady {s t : State} (h : Calm s t) (n : Axis) : Steady n s t :=
  ⟨fun k hk => h.keys k (grantKeys_calm n k hk), h.grant n⟩

namespace Steady

variable {n : Axis}

theorem refl (s : State) : Steady n s s := (Calm.refl s).steady n

theorem trans {s t u : State} (h : Steady n s t) (g : Steady n t u) : Steady n s u :=
  ⟨fun k hk => (g.keys k hk).trans (h.keys k hk), g.grant.1.trans h.grant.1, g.grant.2.trans h.grant.2⟩

theorem ite {c : Prop} [Decidable c] {s a b : State} (ha : Steady n s a) (hb : Steady n s b) : Steady n s (if c then a else b) := by
  split
  · exact ha
  · exact hb

theorem each {α : Type} (xs : List α) (f : State → α → State) (hf : ∀ s x, Steady n s (f s x)) (s : State) :
    Steady n s (forEach xs s f) := by
  induction xs generalizing s with
  | nil => exact refl s
  | cons x xs ih => exact (hf s x).trans (ih (f s x))

/-- An update of the parts that the relation does not speak of. -/
theorem of_rest {s t : State} (hr : t.regs = s.regs) (hh : t.hcAx = s.hcAx) : Steady n s t := by
  refine ⟨fun k _ => congrArg (fun f => regRead f k) hr, ?_⟩
  rw [hh]
  exact ⟨rfl, rfl⟩

end Steady

/-! ### The runtime's part (R170, R638) -/

theorem modAdc_calm (s : State) (c : Fin 4) (f : Adc → Adc) : Calm s (modAdc s c f) := Calm.of_rest rfl rfl rfl rfl rfl

theorem modEng_steady (s : State) (e : Fin 2) (f : Engine → Engine) (m : Axis) : Steady m s (modEng s e f) := Steady.of_rest rfl rfl

theorem modLoop_steady (s : State) (n : Axis) (f : LoopAx → LoopAx) (m : Axis) : Steady m s (modLoop s n f) := Steady.of_rest rfl rfl

theorem dbg_steady (s : State) (d : Dbg) (m : Axis) : Steady m s { s with dbg := d } := Steady.of_rest rfl rfl

theorem dbgStir_steady (s : State) (port : Nat) (m : Axis) : Steady m s (dbgStir s port) := Steady.of_rest rfl rfl

theorem adcSettle_calm (s : State) (e : Fin 2) : Calm s (adcSettle s e) := by
  have hstat : Sig.SMP_STAT ∉ calmKeys := by decide
  have hcount : ∀ e : Fin 2, Sig.SMP_OVR_COUNT (adcOf e).val ∉ calmKeys := by decide
  unfold adcSettle
  exact (modAdc_calm s _ _).trans (Calm.ite (Calm.refl _) ((Calm.reg _ _ hstat).trans (Calm.reg _ _ (hcount e))))

theorem beginTask_steady (s : State) (n m : Axis) (tag : Nat) : Steady m s (beginTask s n tag).1 := by
  rw [beginTask_fst]
  exact ((taskReady_calm s n tag).steady m).trans (modLoop_steady _ n _ m)

theorem stopInTask_steady (s : State) (e : Fin 2) (m : Axis) : Steady m s (stopInTask s e) := by
  unfold stopInTask
  split
  · exact Steady.refl s
  · refine Steady.ite ?_ (Steady.refl s)
    exact ((modEng_steady s e _ m).trans (beginTask_steady _ _ m _)).trans (modEng_steady _ e _ m)

theorem haltEngine_steady (s : State) (e : Fin 2) (stepped : Bool) (m : Axis) : Steady m s (haltEngine s e stepped) := by
  unfold haltEngine
  refine Steady.ite (Steady.refl s) ?_
  dsimp only
  refine Steady.trans ?_ (modEng_steady _ e _ m)
  refine Steady.trans ?_ (stopInTask_steady _ e m)
  exact ((adcSettle_calm s e).trans (modAdc_calm _ _ _)).steady m

theorem haltTarget_steady (s : State) (port bit : Nat) (m : Axis) : Steady m s (haltTarget s port bit) := by
  have hstir (u : State) : Steady m u (if (targetHalted s port && bit != 2) = true then u else dbgStir (dbgStir u port) 3) :=
    Steady.ite (Steady.refl u) ((dbgStir_steady u port m).trans (dbgStir_steady _ 3 m))
  unfold haltTarget
  dsimp only
  split
  · exact ((dbg_steady s _ m).trans (hstir _)).trans (haltEngine_steady _ _ _ m)
  · exact ((dbg_steady s _ m).trans (hstir _)).trans (dbg_steady _ _ m)

theorem evalConditions_steady (s : State) (m : Axis) : Steady m s (evalConditions s) := by
  have hdenied : Sig.DBG_STAT ∉ calmKeys := by decide
  have hhit (u : State) (b : Bp) : Steady m u (conditionHit u b) :=
    Steady.each _ _ (fun v p => Steady.ite (haltTarget_steady v p 3 m) ((Calm.reg v _ hdenied).steady m)) u
  exact (dbg_steady s _ m).trans (Steady.each _ _ hhit _)

theorem sendStream_keeps {R : State → State → Prop} (h : PostFrame R) (s : State) (ring entry : Nat) (fwd : Bool) (bs : List Byte) :
    R s (sendStream s ring entry fwd bs) :=
  h.ite (forwardBytes_keeps h s _ _ _ _ _ _) (streamBytes_keeps h s _ _)

theorem limCheck_keeps {R : State → State → Prop} (h : PostFrame R) (s : State) (slot : Nat) : R s (limCheck s slot) := by
  have hput (u : State) (l : Option Lim) : R u (putLim u slot l) := rt_keeps h u _
  unfold limCheck
  split
  · exact h.refl s
  · refine h.ite (h.ite ?_ (hput s _)) (hput s _)
    exact h.trans (h.trans (evt_keeps h s _) (hput _ _)) (h.ite (sendStream_keeps h _ _ _ _ _) (h.refl _))

theorem runtimeTick_steady (s : State) (m : Axis) : Steady m s (runtimeTick s) :=
  ((Calm.each _ _ (fun u k _ => limCheck_keeps Calm.frame.toPostFrame u k) s).steady m).trans (evalConditions_steady _ m)

/-! ### The computation of a tick (R447) -/

theorem hc_calm (s : State) (h : Hc) : Calm s { s with hc := h } := Calm.of_rest rfl rfl rfl rfl rfl

theorem drawRat_calm (s : State) : Calm s (drawRat s).1 := Calm.of_rest rfl rfl rfl rfl rfl

theorem railTick_calm (s : State) (m : Fin 4) (vm : Rat) : Calm s (railTick s m vm) := by
  have hkeys : ∀ m : Fin 4, ∀ k ∈ [Sig.HC_RSRC m.val, Sig.HC_VOC m.val, Sig.HC_IRAIL m.val, Sig.HC_PAVAIL m.val], k ∉ calmKeys := by decide
  have hrail (u : State) (r : HcRail) : Calm u (modHcRail u m (fun _ => r)) := Calm.of_rest rfl rfl rfl rfl rfl
  unfold railTick
  dsimp only
  refine Calm.trans ?_ (setTel_calm _ _ (hkeys m _ (by simp)))
  refine Calm.trans ?_ (setTel_calm _ _ (hkeys m _ (by simp)))
  refine Calm.trans ?_ (setTel_calm _ _ (hkeys m _ (by simp)))
  have hdraw (p : Rat) : Calm s (if p = 0 then (s, 0) else if vm = 0 then drawRat s else (s, p / vm)).1 :=
    Calm.fst_ite (Calm.refl s) (Calm.fst_ite (drawRat_calm s) (Calm.refl s))
  split
  · exact ((hdraw _).trans (hrail _ _)).trans (setTel_calm _ _ (hkeys m _ (by simp)))
  · exact (hdraw _).trans (hrail _ _)

theorem energyTick_calm (s : State) (n : Axis) (vm : Rat) : Calm s (energyTick s n vm) := by
  have hkey : ∀ n : Axis, Sig.HC_ENERGY n.val ∉ calmKeys := by decide
  exact (Calm.hcAx s n _ (by exact fun _ => rfl) (by exact fun _ => rfl)).trans (Calm.reg _ _ (hkey n))

theorem reserveTick_calm (s : State) : Calm s (reserveTick s) := by
  have hkeys : ∀ k ∈ [Sig.HC_EHOLD, Sig.HC_LIVE, Sig.HC_STAT], k ∉ calmKeys := by decide
  unfold reserveTick
  exact ((setTel_calm s _ (hkeys _ (by simp))).trans (Calm.reg _ _ (hkeys _ (by simp)))).trans
    (Calm.ite (Calm.reg _ _ (hkeys _ (by simp))) (Calm.refl _))

theorem heatTick_calm (s : State) (n : Axis) (vm : Rat) : Calm s (heatTick s n vm).1 := by
  have hkeys : ∀ n : Axis, ∀ k ∈ [Sig.HC_TJ n.val, Sig.HC_TCASE n.val, Sig.HC_PBRIDGE n.val, Sig.HC_IHEAT n.val], k ∉ calmKeys := by decide
  unfold heatTick
  dsimp only
  refine Calm.trans ?_ (rcd_keeps Calm.frame.toPostFrame _ _)
  refine Calm.trans ?_ (Calm.reg _ _ (hkeys n _ (by simp)))
  refine Calm.trans ?_ (setTel_calm _ _ (hkeys n _ (by simp)))
  refine Calm.trans ?_ (setTel_calm _ _ (hkeys n _ (by simp)))
  refine Calm.trans ?_ (setTel_calm _ _ (hkeys n _ (by simp)))
  refine Calm.trans ?_ (Calm.hcAx _ n _ (by exact fun _ => rfl) (by exact fun _ => rfl))
  exact Calm.fst_ite (drawRat_calm s) (Calm.refl s)

theorem peakRef_calm (s : State) (n : Axis) (key : Nat) : Calm s (peakRef s n key).1 := Calm.fst_ite (drawRat_calm s) (Calm.refl s)

theorem calcAxis_calm (s : State) (n : Axis) (vm : Rat) : Calm s (calcAxis s n vm).1 := by
  have hkey : ∀ n : Axis, Sig.HC_PDEMAND_AX n.val ∉ calmKeys := by decide
  unfold calcAxis
  dsimp only
  refine Calm.trans ?_ (setTel_calm _ _ (hkey n))
  refine Calm.trans ?_ (peakRef_calm _ n _)
  refine Calm.trans ?_ (peakRef_calm _ n _)
  refine Calm.trans ?_ (heatTick_calm _ n vm)
  exact Calm.hcAx s n _ (by exact fun _ => rfl) (by exact fun _ => rfl)

theorem calcAxes_calm (s : State) (ns : List Axis) : Calm s (calcAxes s ns).1 := by
  induction ns generalizing s with
  | nil => exact Calm.refl s
  | cons n ns ih => exact (calcAxis_calm s n _).trans (ih _)

/-- The grant computed for the next tick is written to the shadows (R464, R465). -/
theorem grantAxis_calm (s : State) (x : HcCalc) (k : Rat) : Calm s (grantAxis s x k) := by
  have hlive : ∀ n : Axis, Sig.HC_AX_LIVE n.val ∉ calmKeys := by decide
  unfold grantAxis
  dsimp only
  refine Calm.trans ?_ (Calm.reg _ _ (hlive x.n))
  refine Calm.trans ?_ (Calm.reg _ _ (hlive x.n))
  exact Calm.hcAx s x.n _ (by exact fun _ => rfl) (by exact fun _ => rfl)

theorem groupTick_calm (s : State) (xs : List HcCalc) (m : Fin 4) : Calm s (groupTick s xs m) := by
  have hkeys : ∀ k ∈ [Sig.HC_STAT, Sig.HC_LIVE, Sig.RING_STAT], k ∉ calmKeys := by decide
  unfold groupTick
  dsimp only
  refine Calm.trans ?_ (Calm.ite (hc_calm _ _) (Calm.refl _))
  refine Calm.trans ?_ (Calm.ite (Calm.reg _ _ (hkeys _ (by simp))) (Calm.refl _))
  refine Calm.trans ?_ (Calm.each _ _ (fun u x _ => grantAxis_calm u x _) _)
  refine Calm.trans ?_ (Calm.each _ _ (fun u r _ => hc_calm u _) _)
  refine Calm.trans ?_ (Calm.ite ((Calm.reg _ _ (hkeys _ (by simp))).trans (Calm.reg _ _ (hkeys _ (by simp))))
    (Calm.ite (Calm.reg _ _ (hkeys _ (by simp))) (Calm.refl _)))
  exact Calm.ite (Calm.reg _ _ (hkeys _ (by simp))) (Calm.refl _)

theorem gateTick_calm (s : State) : Calm s (gateTick s) := by
  have hax : ∀ n : Axis, Sig.GD_PWR_MW n.val ∉ calmKeys := by decide
  have hsum : Sig.HC_VDRV_PWR ∉ calmKeys := by decide
  unfold gateTick
  refine Calm.trans ?_ (setTel_calm _ _ hsum)
  exact Calm.each _ _ (fun u n _ => setTel_calm u _ (hax n)) s

theorem probeTick_calm (s : State) : Calm s (probeTick s) := by
  unfold probeTick
  split
  · exact Calm.refl s
  · exact hc_calm s _

theorem probeLive_calm (s : State) : Calm s (probeLive s) := by
  have hlive : Sig.HC_LIVE ∉ calmKeys := by decide
  unfold probeLive
  exact ((Calm.reg s _ hlive).trans (Calm.reg _ _ hlive)).trans (Calm.reg _ _ hlive)

/-- Honeycomb's computation leaves the grants in force as they are: it writes the shadows (R447). -/
theorem computeTick_calm (s : State) : Calm s (computeTick s) := by
  have hlive : Sig.HC_LIVE ∉ calmKeys := by decide
  have hdemand : ∀ m : Fin 4, Sig.HC_PDEMAND m.val ∉ calmKeys := by decide
  unfold computeTick
  dsimp only
  refine Calm.trans ?_ (hc_calm _ _)
  refine Calm.trans ?_ ((gateTick_calm _).trans (probeLive_calm _))
  refine Calm.trans ?_ (Calm.each _ _ (fun u m _ => groupTick_calm u _ m) _)
  refine Calm.trans ?_ (Calm.each _ _ (fun u m _ => setTel_calm u _ (hdemand m)) _)
  refine Calm.trans ?_ (calcAxes_calm _ allAxes)
  refine Calm.trans ?_ (reserveTick_calm _)
  refine Calm.trans ?_ (Calm.each _ _ (fun u n _ => energyTick_calm u n _) _)
  refine Calm.trans ?_ (probeTick_calm _)
  refine Calm.trans ?_ (Calm.each _ _ (fun u m _ => railTick_calm u m _) _)
  exact (Calm.reg s _ hlive).trans (hc_calm _ _)

/-! ### The boundary of a tick but for the shadows (R308, R324, R421) -/

theorem carPublish_calm (s : State) (n : Axis) : Calm s (carPublish s n) := by
  have hkeys : ∀ n : Axis, ∀ k ∈ [Sig.CAR_DNEED n.val, Sig.CAR_PEAK_V n.val, Sig.CAR_PEAK_A n.val], k ∉ calmKeys := by decide
  unfold carPublish
  exact ((setTel_calm s _ (hkeys n _ (by simp))).trans (setTel_calm _ _ (hkeys n _ (by simp)))).trans
    (setTel_calm _ _ (hkeys n _ (by simp)))

theorem publishAxis_calm (s : State) (n : Axis) : Calm s (publishAxis s n) := by
  have hspeed : ∀ n : Axis, Sig.FB_SPEED n.val ∉ calmKeys := by decide
  unfold publishAxis
  exact ((carPublish_calm s n).trans (setTel_calm _ _ (hspeed n))).trans (Calm.ite (Calm.refl _) (fbStillAt_calm _ n _))

theorem deviceRecord_calm (s : State) : Calm s (deviceRecord s) := by
  unfold deviceRecord
  exact (Calm.frame.flt s _ (by exact rfl)).trans (addSnapRec_calm _ _ _)

theorem loopRates_calm (s : State) : Calm s (loopRates s) := by
  have hkeys : ∀ n : Axis, ∀ k ∈ [Sig.LP_TASK_RATE n.val, Sig.LP_LOAD n.val], k ∉ calmKeys := by decide
  unfold loopRates
  dsimp only
  have heach (u : State) (n : Axis) : Calm u (modLoop (setTel (setN u (Sig.LP_TASK_RATE n.val) ((u.loop[n]).winTasks * 100))
      (Sig.LP_LOAD n.val) ((u.eng[engOf n]).busy / 100)) n (fun l => { l with winTasks := 0 })) :=
    ((Calm.reg u _ (hkeys n _ (by simp))).trans (setTel_calm _ _ (hkeys n _ (by simp)))).trans (Calm.loop _ n _ (fun _ => rfl))
  have hbusy (u : State) : Calm u { u with eng := u.eng.map (fun e => { e with busy := 0 }) } :=
    { Calm.refl u with fifo := fun e => by simp }
  exact (Calm.each _ _ (fun u n _ => heach u n) s).trans (hbusy _)

theorem clearMeans_calm (s : State) (n : Axis) : Calm s (clearMeans s n) := Calm.hcAx s n _ (fun _ => rfl) (fun _ => rfl)

/-! ### The shadows of an axis at a boundary (R466) -/

/-- The two states agree in the signals and in Honeycomb's values of every axis. -/
structure SameGrants (s t : State) : Prop where
  regs : t.regs = s.regs
  hcAx : t.hcAx = s.hcAx

namespace SameGrants

theorem refl (s : State) : SameGrants s s := ⟨rfl, rfl⟩

theorem trans {s t u : State} (h : SameGrants s t) (g : SameGrants t u) : SameGrants s u := ⟨g.regs.trans h.regs, g.hcAx.trans h.hcAx⟩

theorem ite {c : Prop} [Decidable c] {s a b : State} (ha : SameGrants s a) (hb : SameGrants s b) : SameGrants s (if c then a else b) := by
  split
  · exact ha
  · exact hb

theorem rg {s t : State} (h : SameGrants s t) (k : Nat) : rg t k = rg s k := congrArg (fun f => regRead f k) h.regs

theorem steady {s t : State} (h : SameGrants s t) (n : Axis) : Steady n s t := Steady.of_rest h.regs h.hcAx

end SameGrants

theorem toTick_sameGrants (s : State) (t : Nat) : SameGrants s (toTick s t) := SameGrants.ite ⟨rfl, rfl⟩ (SameGrants.refl s)

theorem atGrid_sameGrants (s : State) (key period phase : Nat) : SameGrants s (atGrid s key period phase) :=
  SameGrants.ite ((toTick_sameGrants s _).trans ⟨rfl, rfl⟩) (SameGrants.refl s)

theorem toTick_hc (s : State) (t : Nat) : (toTick s t).hc = s.hc := by
  unfold toTick
  split <;> rfl

theorem atGrid_hc (s : State) (key period phase : Nat) : (atGrid s key period phase).hc = s.hc := by
  unfold atGrid
  split
  · exact toTick_hc s _
  · rfl

theorem modCar_sameGrants (s : State) (n : Axis) (f : CarAx → CarAx) : SameGrants s (modCar s n f) := ⟨rfl, rfl⟩

theorem replanTakes_sameGrants (s : State) (n : Axis) : SameGrants s (replanTakes s n) :=
  SameGrants.ite ((⟨rfl, rfl⟩ : SameGrants s (waitsStart s n)).trans (modCar_sameGrants _ n _)) (modCar_sameGrants s n _)

theorem carTrigger_sameGrants (s : State) (n : Axis) : SameGrants s (carTrigger s n) := by
  unfold carTrigger
  split
  · exact (modCar_sameGrants s n _).trans (replanTakes_sameGrants _ n)
  · exact SameGrants.ite (replanTakes_sameGrants s n) (modCar_sameGrants s n _)

theorem startCaps_sameGrants (s : State) (n : Axis) : SameGrants s (startCaps s n) := by
  unfold startCaps
  exact (modCar_sameGrants s n _).trans (SameGrants.ite (carTrigger_sameGrants _ n) (SameGrants.refl _))

/-- The shadows of an axis that were written become active: caps at once, a grant that does not fall at once, one that falls at the next
boundary (R466). -/
def shadowsActive (s : State) (n : Axis) : State :=
  let h := s.hcAx[n]
  let falls := decide (h.shI < rgN s (Sig.HC_GRANT_I n.val))
  let s := if falls then setB s (Sig.HC_AX_LIVE n.val) 4 true else setN s (Sig.HC_GRANT_I n.val) h.shI
  let s := setN (setN (setN s (Sig.HC_VCAP n.val) h.shV) (Sig.HC_ACAP n.val) h.shA) (Sig.HC_DCAP n.val) h.shD
  let s := setTel s (Sig.HC_K n.val) (h.shK * 32768)
  modHcAx s n (fun h => { h with lateI := if falls then some h.shI else none, sIn := rootOf h.shK, age := 0 })

/-- A grant that fell at the last boundary comes into force (R466). -/
def lateActive (s : State) (n : Axis) : State :=
  match (s.hcAx[n]).lateI with
  | some g => setB (setN (modHcAx s n (fun h => { h with lateI := none })) (Sig.HC_GRANT_I n.val) g) (Sig.HC_AX_LIVE n.val) 4 false
  | none => s

theorem lateActive_of_none {s : State} {n : Axis} (h : (s.hcAx[n]).lateI = none) : lateActive s n = s := by
  unfold lateActive
  rw [h]

theorem boundaryAxis_fresh (s : State) (n : Axis) :
    SameGrants (shadowsActive (lateActive s n) n) (boundaryAxis s n true) := by
  unfold boundaryAxis
  exact (SameGrants.ite (SameGrants.refl _) (carTrigger_sameGrants _ n)).trans (startCaps_sameGrants _ n)

theorem boundaryAxis_stale (s : State) (n : Axis) :
    SameGrants (modHcAx (lateActive s n) n (fun h => { h with age := h.age + 1 })) (boundaryAxis s n false) :=
  startCaps_sameGrants _ n

/-! ### The other axes at a boundary -/

/-- The two states agree in the grant in force of an axis and in all that Honeycomb keeps of it. -/
structure Apart (n : Axis) (s t : State) : Prop where
  keys : ∀ k ∈ grantKeys n, rg t k = rg s k
  ax : t.hcAx[n] = s.hcAx[n]

namespace Apart

variable {n : Axis}

theorem refl (s : State) : Apart n s s := ⟨fun _ _ => rfl, rfl⟩

theorem trans {s t u : State} (h : Apart n s t) (g : Apart n t u) : Apart n s u :=
  ⟨fun k hk => (g.keys k hk).trans (h.keys k hk), g.ax.trans h.ax⟩

theorem reg (s : State) {k : Nat} (v : Word) (hk : k ∉ grantKeys n) : Apart n s (setR s k v) :=
  ⟨fun _ hj => rg_setR_ne s v (fun e => hk (e ▸ hj)), rfl⟩

theorem hcAx (s : State) {m : Axis} (f : HcAx → HcAx) (h : m ≠ n) : Apart n s (modHcAx s m f) := ⟨fun _ _ => rfl, modV_ne s.hcAx f h⟩

theorem of_sameGrants {s t : State} (h : SameGrants s t) : Apart n s t := ⟨fun k _ => h.rg k, by rw [h.hcAx]⟩

theorem steady {s t : State} (h : Apart n s t) : Steady n s t := ⟨h.keys, by rw [h.ax]; exact ⟨rfl, rfl⟩⟩

end Apart

/-- The signals that a boundary writes of an axis are none of another axis's grant. -/
theorem boundary_keys_apart {n m : Axis} (h : m ≠ n) :
    ∀ k ∈ Sig.HC_K m.val :: Sig.HC_AX_LIVE m.val :: grantKeys m, k ∉ grantKeys n := by
  revert n m
  decide

theorem setTel_apart (s : State) {n : Axis} {k : Nat} (x : Rat) (hk : k ∉ grantKeys n) : Apart n s (setTel s k x) := by
  unfold setTel
  split
  · exact Apart.reg s _ hk
  · exact Apart.refl s

theorem lateActive_apart (s : State) {n m : Axis} (h : m ≠ n) : Apart n s (lateActive s m) := by
  have hk := boundary_keys_apart h
  unfold lateActive
  split
  · exact ((Apart.hcAx s _ h).trans (Apart.reg _ _ (hk _ (by simp [grantKeys])))).trans (Apart.reg _ _ (hk _ (by simp [grantKeys])))
  · exact Apart.refl s

theorem shadowsActive_apart (s : State) {n m : Axis} (h : m ≠ n) : Apart n s (shadowsActive s m) := by
  have hk := boundary_keys_apart h
  unfold shadowsActive
  dsimp only
  refine Apart.trans ?_ (Apart.hcAx _ _ h)
  refine Apart.trans ?_ (setTel_apart _ _ (hk _ (by simp [grantKeys])))
  refine Apart.trans ?_ (Apart.reg _ _ (hk _ (by simp [grantKeys])))
  refine Apart.trans ?_ (Apart.reg _ _ (hk _ (by simp [grantKeys])))
  refine Apart.trans ?_ (Apart.reg _ _ (hk _ (by simp [grantKeys])))
  split
  · exact Apart.reg s _ (hk _ (by simp [grantKeys]))
  · exact Apart.reg s _ (hk _ (by simp [grantKeys]))

theorem boundaryAxis_apart (s : State) {n m : Axis} (h : m ≠ n) (fresh : Bool) : Apart n s (boundaryAxis s m fresh) := by
  cases fresh with
  | true =>
    exact ((lateActive_apart s h).trans (shadowsActive_apart _ h)).trans (Apart.of_sameGrants (boundaryAxis_fresh s m))
  | false =>
    exact ((lateActive_apart s h).trans (Apart.hcAx _ _ h)).trans (Apart.of_sameGrants (boundaryAxis_stale s m))

/-- At a boundary, the shadows of an axis become active with Honeycomb's values of the axis as they stood, and nothing else of the boundary
touches its grant. -/
theorem boundary_at (s : State) (n : Axis) (fresh : Bool) :
    ∃ u, Apart n s u ∧ Steady n (boundaryAxis u n fresh) (forEach allAxes s (fun s n => boundaryAxis s n fresh)) := by
  obtain ⟨xs, ys, he⟩ := List.append_of_mem (mem_allAxes n)
  have hnodup : (xs ++ n :: ys).Nodup := he ▸ (by decide : allAxes.Nodup)
  have hxs : ∀ m ∈ xs, m ≠ n := fun m hm e => List.disjoint_of_nodup_append hnodup (e ▸ hm) List.mem_cons_self
  have hys : ∀ m ∈ ys, m ≠ n := fun m hm e => (List.nodup_cons.mp hnodup.of_append_right).1 (e ▸ hm)
  have hall (zs : List Axis) (hz : ∀ m ∈ zs, m ≠ n) (v : State) : Apart n v (forEach zs v (fun s n => boundaryAxis s n fresh)) := by
    induction zs generalizing v with
    | nil => exact Apart.refl v
    | cons m zs ih =>
      exact (boundaryAxis_apart v (hz m List.mem_cons_self) fresh).trans (ih (fun k hk => hz k (List.mem_cons_of_mem m hk)) _)
  refine ⟨forEach xs s (fun s n => boundaryAxis s n fresh), hall xs hxs s, ?_⟩
  have hsplit : forEach (xs ++ n :: ys) s (fun s n => boundaryAxis s n fresh) =
      forEach ys (boundaryAxis (forEach xs s (fun s n => boundaryAxis s n fresh)) n fresh) (fun s n => boundaryAxis s n fresh) :=
    List.foldl_append
  rw [he, hsplit]
  exact (hall ys hys _).steady

/-- The rest of a budget tick leaves the grant of an axis as its boundary left it. -/
theorem budgetTick_at (s : State) (n : Axis) (hrun : inRun s = true) :
    ∃ u t, exec (.budgetTick Check.pass) s = .next t ∧ Apart n s u ∧ Steady n (boundaryAxis u n s.hc.written) t := by
  have he : exec (.budgetTick Check.pass) s = .next (forEach allAxes
      (let v := boundaryTick (atGrid s keyBudget 40000 (s.clk.epoch % 40000).toNat)
       if v.dbg.haltMp then v else runtimeTick (mpTask v Check.pass computeTick id)) clearMeans) := by
    show execBudgetTick Check.pass s = _
    rw [execBudgetTick, if_pos hrun]
  have hgrid := atGrid_sameGrants s keyBudget 40000 (s.clk.epoch % 40000).toNat
  have hw := congrArg Hc.written (atGrid_hc s keyBudget 40000 (s.clk.epoch % 40000).toNat)
  generalize atGrid s keyBudget 40000 (s.clk.epoch % 40000).toNat = g at he hgrid hw
  obtain ⟨u, hu, hb⟩ := boundary_at { g with hc := { g.hc with written := false, mineLast := g.hc.mine } } n s.hc.written
  refine ⟨u, _, he, (Apart.of_sameGrants (hgrid.trans (by exact ⟨rfl, rfl⟩))).trans hu, ?_⟩
  have hbound : Steady n (boundaryAxis u n s.hc.written) (boundaryTick g) := by
    unfold boundaryTick
    rw [hw]
    refine hb.trans (Calm.steady ?_ n)
    refine Calm.trans (Calm.each _ _ (fun v m _ => publishAxis_calm v m) _) ((deviceRecord_calm _).trans (Calm.ite ?_ (hc_calm _ _)))
    exact (hc_calm _ _).trans (loopRates_calm _)
  have hmp (v : State) : Calm v (mpTask v Check.pass computeTick id) := (replayLog_calm v 2).trans (computeTick_calm _)
  refine (hbound.trans ?_).trans ((Calm.each _ _ (fun v m _ => clearMeans_calm v m) _).steady n)
  exact Steady.ite (Steady.refl _) (((hmp _).steady n).trans (runtimeTick_steady _ n))

/-! ### The obligation -/

theorem grantKeys_distinct (n : Axis) : (Sig.HC_K n.val :: Sig.HC_AX_LIVE n.val :: grantKeys n).Nodup := by
  revert n
  decide

theorem rg_setTel_ne (s : State) {j k : Nat} (x : Rat) (h : j ≠ k) : rg (setTel s k x) j = rg s j := by
  unfold setTel
  split
  · exact rg_setR_ne s _ h
  · rfl

theorem setTel_hcAx (s : State) (k : Nat) (x : Rat) : (setTel s k x).hcAx = s.hcAx := by
  unfold setTel
  split <;> rfl

/-- The caps of an axis are in force once its shadows are active. -/
theorem shadowsActive_caps (s : State) (n : Axis) (hv : (s.hcAx[n]).shV < 2 ^ 32) (ha : (s.hcAx[n]).shA < 2 ^ 32)
    (hd : (s.hcAx[n]).shD < 2 ^ 32) :
    rgN (shadowsActive s n) (Sig.HC_VCAP n.val) = (s.hcAx[n]).shV ∧ rgN (shadowsActive s n) (Sig.HC_ACAP n.val) = (s.hcAx[n]).shA ∧
      rgN (shadowsActive s n) (Sig.HC_DCAP n.val) = (s.hcAx[n]).shD := by
  have hne := grantKeys_distinct n
  simp only [grantKeys, List.nodup_cons, List.mem_cons, not_or, List.not_mem_nil, not_false_eq_true] at hne
  obtain ⟨⟨-, -, hKV, hKA, hKD, -⟩, -, -, ⟨hVA, hVD, -⟩, ⟨hAD, -⟩, -⟩ := hne
  unfold shadowsActive
  simp only [rgN, modHcAx_rg, rg_setTel_ne _ _ (Ne.symm hKV), rg_setTel_ne _ _ (Ne.symm hKA), rg_setTel_ne _ _ (Ne.symm hKD),
    rg_setN_same, rg_setN_ne _ _ hVA, rg_setN_ne _ _ hVD, rg_setN_ne _ _ hAD, BitVec.toNat_ofNat, Nat.mod_eq_of_lt hv,
    Nat.mod_eq_of_lt ha, Nat.mod_eq_of_lt hd, and_self]

theorem shadowsActive_grantI (s : State) (n : Axis) : rg (shadowsActive s n) (Sig.HC_GRANT_I n.val) =
    if (s.hcAx[n]).shI < rgN s (Sig.HC_GRANT_I n.val) then rg s (Sig.HC_GRANT_I n.val) else BitVec.ofNat 32 (s.hcAx[n]).shI := by
  have hne := grantKeys_distinct n
  simp only [grantKeys, List.nodup_cons, List.mem_cons, not_or, List.not_mem_nil, not_false_eq_true] at hne
  obtain ⟨⟨-, hKI, -, -, -, -⟩, ⟨hLI, -, -, -, -⟩, ⟨hIV, hIA, hID, -⟩, -⟩ := hne
  unfold shadowsActive
  simp only [modHcAx_rg, rg_setTel_ne _ _ (Ne.symm hKI), rg_setN_ne _ _ hIV, rg_setN_ne _ _ hIA, rg_setN_ne _ _ hID, decide_eq_true_eq]
  split
  · exact rg_setB_ne _ _ _ (Ne.symm hLI)
  · exact rg_setN_same _ _ _

theorem shadowsActive_lateI (s : State) (n : Axis) : ((shadowsActive s n).hcAx[n]).lateI =
    if (s.hcAx[n]).shI < rgN s (Sig.HC_GRANT_I n.val) then some (s.hcAx[n]).shI else none := by
  unfold shadowsActive
  split
  case isTrue h => simp only [modHcAx, modV_same, setTel_hcAx, setN_hcAx, setB_hcAx, h, decide_true, if_true]
  case isFalse h => simp only [modHcAx, modV_same, h, decide_false, Bool.false_eq_true, if_false]

/-- The grant of an axis whose shadows were written, after the tick: as its boundary leaves it. -/
theorem budgetTick_fresh (s : State) (n : Axis) (hrun : inRun s = true) (hw : s.hc.written = true) (hl : (s.hcAx[n]).lateI = none)
    (hI : (s.hcAx[n]).shI < 2 ^ 32) (hV : (s.hcAx[n]).shV < 2 ^ 32) (hA : (s.hcAx[n]).shA < 2 ^ 32) (hD : (s.hcAx[n]).shD < 2 ^ 32) :
    ∃ t, exec (.budgetTick Check.pass) s = .next t ∧ rgN t (Sig.HC_VCAP n.val) = (s.hcAx[n]).shV ∧
      rgN t (Sig.HC_ACAP n.val) = (s.hcAx[n]).shA ∧ rgN t (Sig.HC_DCAP n.val) = (s.hcAx[n]).shD ∧
      (rgN s (Sig.HC_GRANT_I n.val) ≤ (s.hcAx[n]).shI →
        rgN t (Sig.HC_GRANT_I n.val) = (s.hcAx[n]).shI ∧ (t.hcAx[n]).lateI = none) ∧
      ((s.hcAx[n]).shI < rgN s (Sig.HC_GRANT_I n.val) →
        rg t (Sig.HC_GRANT_I n.val) = rg s (Sig.HC_GRANT_I n.val) ∧ (t.hcAx[n]).lateI = some (s.hcAx[n]).shI) := by
  obtain ⟨u, t, he, hu, ht⟩ := budgetTick_at s n hrun
  have hb := boundaryAxis_fresh u n
  rw [lateActive_of_none (hu.ax ▸ hl)] at hb
  rw [hw] at ht
  have hst : Steady n (shadowsActive u n) t := (hb.steady n).trans ht
  have hkey (k : Nat) (hk : k ∈ grantKeys n) : rgN t k = rgN (shadowsActive u n) k := congrArg BitVec.toNat (hst.keys k hk)
  have hcaps := shadowsActive_caps u n
  have hgi := shadowsActive_grantI u n
  have hlate := shadowsActive_lateI u n
  have hIu : rg u (Sig.HC_GRANT_I n.val) = rg s (Sig.HC_GRANT_I n.val) := hu.keys _ (by simp [grantKeys])
  rw [rgN, hIu, ← rgN, hu.ax] at hgi hlate
  rw [hu.ax] at hcaps
  obtain ⟨hv, ha, hd⟩ := hcaps hV hA hD
  have hIt := hst.keys (Sig.HC_GRANT_I n.val) (by simp [grantKeys])
  refine ⟨t, he, (hkey _ (by simp [grantKeys])).trans hv, (hkey _ (by simp [grantKeys])).trans ha,
    (hkey _ (by simp [grantKeys])).trans hd, fun hle => ?_, fun hlt => ?_⟩
  · rw [if_neg (Nat.not_lt.mpr hle)] at hgi hlate
    refine ⟨?_, hst.grant.1.trans hlate⟩
    rw [rgN, hIt, hgi, BitVec.toNat_ofNat, Nat.mod_eq_of_lt hI]
  · rw [if_pos hlt] at hgi hlate
    exact ⟨hIt.trans hgi, hst.grant.1.trans hlate⟩

/-- A tick without fresh shadows leaves the grant as it is, one tick older. -/
theorem budgetTick_stale (s : State) (n : Axis) (hrun : inRun s = true) (hw : s.hc.written = false) (hl : (s.hcAx[n]).lateI = none) :
    ∃ t, exec (.budgetTick Check.pass) s = .next t ∧ rg t (Sig.HC_GRANT_I n.val) = rg s (Sig.HC_GRANT_I n.val) ∧
      rg t (Sig.HC_VCAP n.val) = rg s (Sig.HC_VCAP n.val) ∧ rg t (Sig.HC_ACAP n.val) = rg s (Sig.HC_ACAP n.val) ∧
      rg t (Sig.HC_DCAP n.val) = rg s (Sig.HC_DCAP n.val) ∧ (t.hcAx[n]).age = (s.hcAx[n]).age + 1 := by
  obtain ⟨u, t, he, hu, ht⟩ := budgetTick_at s n hrun
  have hb := boundaryAxis_stale u n
  rw [lateActive_of_none (hu.ax ▸ hl)] at hb
  rw [hw] at ht
  have hst := (hb.steady n).trans ht
  have hkey (k : Nat) (hk : k ∈ grantKeys n) : rg t k = rg s k := (hst.keys k hk).trans (hu.keys k hk)
  have hage : (t.hcAx[n]).age = (u.hcAx[n]).age + 1 := by
    rw [hst.grant.2, modHcAx, modV_same]
  exact ⟨t, he, hkey _ (by simp [grantKeys]), hkey _ (by simp [grantKeys]), hkey _ (by simp [grantKeys]), hkey _ (by simp [grantKeys]),
    hu.ax ▸ hage⟩

theorem execHoneycombLate_counts (s : State) (hrun : inRun s = true) :
    ∃ t, exec .honeycombLate s = .next t ∧ t.hc = { s.hc with written := false, scanDue := false } ∧ rgB t Sig.HC_STAT 2 = true ∧
      rg t Sig.HC_LATE_COUNT = rg s Sig.HC_LATE_COUNT + 1 ∧ { t with regs := s.regs, hc := s.hc } = s ∧
      ∀ k, k ≠ Sig.HC_STAT → k ≠ Sig.HC_LATE_COUNT → rg t k = rg s k := by
  have he : exec .honeycombLate s =
      .next (incR (setB { s with hc := { s.hc with written := false, scanDue := false } } Sig.HC_STAT 2 true) Sig.HC_LATE_COUNT) := by
    show execHoneycombLate s = _
    rw [execHoneycombLate, if_pos hrun]
  have hne : Sig.HC_STAT ≠ Sig.HC_LATE_COUNT := by decide
  refine ⟨_, he, rfl, ?_, ?_, rfl, fun k hs hc => ?_⟩
  · rw [rgB, rg_incR_ne _ hne, ← rgB, rgB_setB _ _ _ _ _ (by decide), if_pos rfl]
  · rw [rg_incR_same, rg_setB_ne _ _ _ hne.symm]
    rfl
  · rw [rg_incR_ne _ hc, rg_setB_ne _ _ _ hs]
    rfl

/-- The age of the grant of an axis, kept by the fault manager. -/
theorem age_frame (n : Axis) : FaultFrame (fun s t => (t.hcAx[n]).age = (s.hcAx[n]).age) where
  refl _ := rfl
  trans h g := g.trans h
  posts _ _ _ _ _ := rfl
  ledger _ _ _ _ := rfl
  pwm _ _ _ := rfl
  gd _ _ _ := rfl
  loop _ _ _ _ := rfl
  obs _ _ _ := rfl
  sup _ _ _ _ := rfl
  flt _ _ _ := rfl
  axSame _ _ _ _ := rfl
  axFall _ _ _ _ := rfl
  ofs _ _ _ := rfl
  car _ _ _ := rfl
  moveCls s m := modV_view s.hcAx m _ HcAx.age (by exact fun _ => rfl) n
  mark _ _ _ := rfl
  idle _ := rfl

theorem execGrantStale_counts (s : State) (n : Axis) (hrun : inRun s = true) (hage : 10 ≤ (s.hcAx[n]).age) :
    ∃ t, exec (.grantStale n) s = .next t ∧ (t.hcAx[n]).age = 0 ∧ Counts s t (axSrc n 10) ∧ Quiet s t := by
  have he : exec (.grantStale n) s = .next (axFault (modHcAx s n (fun h => { h with age := 0 })) n 10) := by
    show execGrantStale n s = _
    rw [execGrantStale, hrun, decide_eq_true hage]
    rfl
  have hsrc : srcOf (modHcAx s n (fun h => { h with age := 0 })) (axSrc n 10) = srcOf s (axSrc n 10) :=
    srcOf_of_cell rfl (fun _ _ => rfl)
  refine ⟨_, he, ?_, ?_, (modHcAx_quiet s n _).trans (axFault_quiet _ n 10)⟩
  · refine (faultEvtB_keeps (age_frame n) _ _ _ (fun _ _ => rfl)).trans ?_
    rw [modHcAx, modV_same]
  · rw [Counts, ← hsrc]
    exact faultEvtB_counts _ _ _

/-- Settles O31: what the other axes and the computation of a tick leave of an axis's grant, and its boundary computed. -/
theorem budgetTicksPutGrantsInForce : Obligations.BudgetTicksPutGrantsInForce :=
  ⟨budgetTick_fresh, budgetTick_stale, execHoneycombLate_counts, execGrantStale_counts⟩

end Sys2Proof.Machine
end

section
/-! O49, the current tasks: the tag that CURRENT_TASK takes, a task that passes or fails its checkpoint, and one that a halt held. -/

namespace Sys2Proof.Machine

/-! ### Settling the converter of an engine (R260) -/

/-- The two states agree in all that decides which tag starts a task, and when its window closes. -/
structure SameTags (s t : State) : Prop where
  clk : t.clk = s.clk
  bisc : t.bisc = s.bisc
  loop : t.loop = s.loop
  ax : t.ax = s.ax
  pwm : t.pwm = s.pwm
  eng : t.eng = s.eng
  running : ∀ c : Fin 4, (t.adc[c]).running = (s.adc[c]).running
  sel : ∀ n : Axis, rgN t (Sig.LP_TAG_SEL n.val) = rgN s (Sig.LP_TAG_SEL n.val)
  avg : ∀ n : Axis, rgN t (Sig.SMP_AVG_W_AX n.val) = rgN s (Sig.SMP_AVG_W_AX n.val)
  settle : ∀ n : Axis, rgN t (Sig.SMP_SETTLE_AX n.val) = rgN s (Sig.SMP_SETTLE_AX n.val)

namespace SameTags

variable {s t : State}

theorem axSt (h : SameTags s t) (n : Axis) : axSt t n = axSt s n := SameAx.axSt h.ax n

theorem tagSelected (h : SameTags s t) (x : Tag) : tagSelected t x = tagSelected s x := by
  unfold Machine.tagSelected
  rw [h.sel x.axis]

theorem tooClose (h : SameTags s t) (n : Axis) (tag : Nat) : tooClose t n tag = tooClose s n tag := by
  unfold Machine.tooClose tMin
  rw [h.loop, h.bisc]

theorem startsTask (h : SameTags s t) (x : Tag) : startsTask t x = startsTask s x := by
  unfold Machine.startsTask
  rw [h.clk, h.tagSelected, h.tooClose, h.axSt]

theorem inRing (h : SameTags s t) (c : Fin 4) : inRing t c = inRing s c := by
  have hw : adcWritten t c = adcWritten s c := by
    unfold adcWritten markOf
    rw [h.running, h.clk]
  funext k
  unfold Machine.inRing
  rw [hw]

theorem windowClose (h : SameTags s t) (n : Axis) (tag : Nat) : windowClose t n tag = windowClose s n tag := by
  have hl : lastNeeded t = lastNeeded s := by
    funext c slot edges settle tq
    unfold lastNeeded wordsBefore
    rw [h.inRing]
  unfold Machine.windowClose
  rw [hl, h.avg, h.settle, h.pwm]

theorem nextTask (h : SameTags s t) (e : Fin 2) : nextTask t e = nextTask s e := by
  have hc : closeOf t = closeOf s := funext (fun x => h.windowClose x.axis x.ts)
  have hb : taskBefore t = taskBefore s := by
    funext x y
    unfold taskBefore
    rw [hc]
  have hs : Machine.startsTask t = Machine.startsTask s := funext h.startsTask
  unfold Machine.nextTask
  rw [h.eng, hb, hs]

end SameTags

/-- Settling the converter of an engine moves its read pointer, and writes two signals where words were lost. -/
theorem adcSettle_cases (s : State) (e : Fin 2) : ∃ f : Adc → Adc, (∀ a, (f a).running = a.running) ∧
    (adcSettle s e = modAdc s (adcOf e) f ∨
      ∃ v w, adcSettle s e = setR (setR (modAdc s (adcOf e) f) Sig.SMP_STAT v) (Sig.SMP_OVR_COUNT (adcOf e).val) w) := by
  unfold adcSettle
  refine ⟨fun a => { a with read := max a.read (readPtr s e + wordsLost s e) }, fun _ => rfl, ?_⟩
  by_cases h : wordsLost s e = 0
  · exact .inl (if_pos h)
  · exact .inr ⟨_, _, if_neg h⟩

theorem adcSettle_rg (s : State) (e : Fin 2) {k : Nat} (hs : k ≠ Sig.SMP_STAT) (ho : k ≠ Sig.SMP_OVR_COUNT (adcOf e).val) :
    rg (adcSettle s e) k = rg s k := by
  obtain ⟨f, -, h | ⟨v, w, h⟩⟩ := adcSettle_cases s e
  · rw [h, modAdc_rg]
  · rw [h, rg_setR_ne _ _ ho, rg_setR_ne _ _ hs, modAdc_rg]

theorem adcSettle_flt (s : State) (e : Fin 2) : (adcSettle s e).flt = s.flt := by
  obtain ⟨f, -, h | ⟨v, w, h⟩⟩ := adcSettle_cases s e <;> rw [h] <;> rfl

/-- The signals that settling a converter writes decide nothing about tags. -/
theorem settle_keys (n : Axis) (e : Fin 2) : ∀ k ∈ [Sig.LP_TAG_SEL n.val, Sig.SMP_AVG_W_AX n.val, Sig.SMP_SETTLE_AX n.val,
    Sig.FLT_ROLE_AX n.val, Sig.LP_STAT n.val, Sig.LP_SKIP_COUNT n.val, Sig.SMP_TAG_LOST e.val],
    k ≠ Sig.SMP_STAT ∧ k ≠ Sig.SMP_OVR_COUNT (adcOf e).val := by
  revert n e
  decide

theorem adcSettle_rg_of_mem (s : State) {n : Axis} {e : Fin 2} {k : Nat} (hk : k ∈ [Sig.LP_TAG_SEL n.val, Sig.SMP_AVG_W_AX n.val,
    Sig.SMP_SETTLE_AX n.val, Sig.FLT_ROLE_AX n.val, Sig.LP_STAT n.val, Sig.LP_SKIP_COUNT n.val, Sig.SMP_TAG_LOST e.val]) :
    rg (adcSettle s e) k = rg s k :=
  adcSettle_rg s e (settle_keys n e k hk).1 (settle_keys n e k hk).2

theorem adcSettle_sameTags (s : State) (e : Fin 2) : SameTags s (adcSettle s e) := by
  have hsel (n : Axis) : rgN (adcSettle s e) (Sig.LP_TAG_SEL n.val) = rgN s (Sig.LP_TAG_SEL n.val) :=
    congrArg BitVec.toNat (adcSettle_rg_of_mem s (n := n) (by simp))
  have havg (n : Axis) : rgN (adcSettle s e) (Sig.SMP_AVG_W_AX n.val) = rgN s (Sig.SMP_AVG_W_AX n.val) :=
    congrArg BitVec.toNat (adcSettle_rg_of_mem s (n := n) (by simp))
  have hset (n : Axis) : rgN (adcSettle s e) (Sig.SMP_SETTLE_AX n.val) = rgN s (Sig.SMP_SETTLE_AX n.val) :=
    congrArg BitVec.toNat (adcSettle_rg_of_mem s (n := n) (by simp))
  obtain ⟨f, hf, h⟩ := adcSettle_cases s e
  have hrun := modV_view s.adc (adcOf e) f Adc.running hf
  generalize adcSettle s e = t at h hsel havg hset
  obtain rfl | ⟨v, w, rfl⟩ := h
  · exact ⟨rfl, rfl, rfl, rfl, rfl, rfl, hrun, hsel, havg, hset⟩
  · exact ⟨rfl, rfl, rfl, rfl, rfl, rfl, hrun, hsel, havg, hset⟩

/-! ### The tag that CURRENT_TASK takes (R19, R263, R275) -/

/-- The oldest tag of an axis taken from the FIFO of its engine. -/
def tagTaken (s : State) (n : Axis) : State :=
  modEng (adcSettle s (engOf n)) (engOf n) (fun g => { g with fifo := dropTag n g.fifo })

theorem tagTaken_fifo (s : State) (n : Axis) : ((tagTaken s n).eng[engOf n]).fifo = dropTag n (s.eng[engOf n]).fifo := by
  unfold tagTaken
  rw [modEng, modV_same, (adcSettle_sameTags s (engOf n)).eng]

theorem tagTaken_key (s : State) (n : Axis) {k : Nat} (hk : k ∈ calmKeys) : rg (tagTaken s n) k = rg s k := by
  rw [tagTaken, modEng_rg, (adcSettle_calm s (engOf n)).keys k hk]

theorem tagTaken_loop (s : State) (n : Axis) : (tagTaken s n).loop = s.loop := by
  rw [tagTaken, modEng_loop, (adcSettle_sameTags s (engOf n)).loop]

theorem tagTaken_flt (s : State) (n : Axis) : (tagTaken s n).flt = s.flt := by
  rw [tagTaken, modEng_flt, adcSettle_flt]

theorem tagTaken_ax (s : State) (n : Axis) : (tagTaken s n).ax = s.ax := by
  rw [tagTaken, modEng_ax, (adcSettle_sameTags s (engOf n)).ax]

/-- What CURRENT_TASK does with the oldest tag of an axis whose engine neither stands nor holds a task. -/
theorem execCurrentTask_tag (s : State) (n : Axis) (x : Tag) (chk : Check) (hrun : inRun s = true)
    (hh : (s.eng[engOf n]).halted = false) (hst : (s.eng[engOf n]).stopped = none)
    (hx : (s.eng[engOf n]).fifo.find? (fun g => decide (g.axis = n)) = some x) :
    exec (.currentTask n chk .good) s =
      if x.ts + 32000 < s.clk.tb then .next (tagLost (tagTaken s n) n)
      else if !(axSt s n).runsTasks || !tagSelected s x then .next (tagTaken s n)
      else if tooClose s n x.ts then .next (incR (setB (tagTaken s n) (Sig.LP_STAT n.val) 9 true) (Sig.LP_SKIP_COUNT n.val))
      else if nextTask s (engOf n) != some x then .next (adcSettle s (engOf n))
      else .next (if (axSt s n).runsTasks then runTask (tagTaken s n) n x.ts chk else tagTaken s n) := by
  have ht := adcSettle_sameTags s (engOf n)
  have htaken : axSt (tagTaken s n) n = axSt s n := SameAx.axSt (tagTaken_ax s n) n
  show execCurrentTask n chk .good s = _
  unfold execCurrentTask
  simp only [hrun, hh, hst, hx, Bool.not_true, Bool.or_self, Bool.false_eq_true, if_false]
  simp only [ht.clk, ht.axSt, ht.tagSelected, ht.tooClose, ht.nextTask]
  simp only [memAccess]
  rw [← htaken]
  rfl

/-! ### A task that passes -/

/-- Both banks of an axis stay in step, and a change of passes stays none. -/
structure Paired (n : Axis) (s t : State) : Prop where
  agree : banksAgree s n = true → banksAgree t n = true
  passes : (s.loop[n]).passPend = none → (t.loop[n]).passPend = none ∧ (t.loop[n]).passes = (s.loop[n]).passes

namespace Paired

variable {n : Axis}

theorem refl (s : State) : Paired n s s := ⟨id, fun h => ⟨h, rfl⟩⟩

theorem trans {s t u : State} (h : Paired n s t) (g : Paired n t u) : Paired n s u where
  agree := g.agree ∘ h.agree
  passes hp := ⟨(g.passes (h.passes hp).1).1, (g.passes (h.passes hp).1).2.trans (h.passes hp).2⟩

theorem ite {c : Prop} [Decidable c] {s a b : State} (ha : Paired n s a) (hb : Paired n s b) : Paired n s (if c then a else b) := by
  split
  · exact ha
  · exact hb

theorem of_loop {s t : State} (h : t.loop = s.loop) : Paired n s t := by
  refine ⟨fun ha => ?_, fun hp => ?_⟩
  · rw [banksAgree, h]
    exact ha
  · rw [h]
    exact ⟨hp, rfl⟩

theorem post : PostFrame (Paired n) where
  refl := refl
  trans := trans
  posts _ _ _ _ _ := of_loop rfl
  ledger _ _ _ _ := of_loop rfl

theorem loop (s : State) (m : Axis) (f : LoopAx → LoopAx) (ha : ∀ l : LoopAx, l.bankB.compl = l.bankA → (f l).bankB.compl = (f l).bankA)
    (hp : ∀ l : LoopAx, l.passPend = none → (f l).passPend = none ∧ (f l).passes = l.passes) : Paired n s (modLoop s m f) := by
  by_cases e : m = n
  · subst e
    have hm : (modLoop s m f).loop[m] = f (s.loop[m]) := modV_same s.loop m f
    refine ⟨fun h => ?_, fun h => ?_⟩
    · rw [banksAgree, hm]
      exact decide_eq_true (ha _ (of_decide_eq_true h))
    · rw [hm]
      exact hp _ h
  · have hm : (modLoop s m f).loop[n] = s.loop[n] := modV_ne s.loop f e
    refine ⟨fun h => ?_, fun h => ?_⟩
    · rw [banksAgree, hm]
      exact h
    · rw [hm]
      exact ⟨h, rfl⟩

end Paired

theorem toTick_loop (s : State) (t : Nat) : (toTick s t).loop = s.loop := by
  unfold toTick
  split <;> rfl

theorem sensEntry_loop (s : State) (n : Axis) (tag : Nat) : (sensEntry s n tag).loop = s.loop := by
  have hite {c : Prop} [Decidable c] (a b : State) (h : a.loop = s.loop) (g : b.loop = s.loop) : (if c then a else b).loop = s.loop := by
    split
    · exact h
    · exact g
  unfold sensEntry
  split
  · rfl
  · refine hite _ _ ?_ rfl
    rw [modObs_loop, modObs_loop]
    refine hite _ _ ?_ ?_
    · exact hite _ _ rfl rfl
    · exact hite _ _ rfl rfl

theorem sensAdvance_loop (s : State) (n : Axis) (tag dt : Nat) : (sensAdvance s n tag dt).loop = s.loop := by
  unfold sensAdvance
  dsimp only
  split <;> rfl

theorem fbStillAt_loop (s : State) (n : Axis) (t : Nat) : (fbStillAt s n t).loop = s.loop := by
  unfold fbStillAt
  split <;> rfl

theorem bisc_paired (s : State) (b : Bisc) (n : Axis) : Paired n s { s with bisc := b } := Paired.of_loop rfl

theorem setN_paired (s : State) (k v : Nat) (n : Axis) : Paired n s (setN s k v) := Paired.of_loop (setN_loop s k v)

theorem replayLog_paired (s : State) (k : Nat) (n : Axis) : Paired n s (replayLog s k) := by
  unfold replayLog
  refine Paired.ite (Paired.refl s) ((bisc_paired s _ n).trans (Paired.ite (setN_paired _ _ _ n) ?_))
  refine Paired.post.each _ _ (fun u m _ => ?_) _
  exact Paired.loop u m _ (fun l _ => Bank.compl_compl l.bankA) (fun _ h => ⟨h, rfl⟩)

/-- A change of passes that waits keeps the banks in step; where none waits there is none to take effect (R494, R495). -/
theorem setPasses_agree (s : State) (n m : Axis) (p : Nat) (h : banksAgree s n = true) : banksAgree (setPasses s m p) n = true := by
  have hp : Paired n s (modLoop s m (fun l => { l with bankB := if p = 2 then l.bankA.compl else l.bankB })) := by
    refine Paired.loop s m _ (fun l hl => ?_) (fun _ h => ⟨h, rfl⟩)
    dsimp only
    split
    · exact Bank.compl_compl l.bankA
    · exact hl
  refine Eq.trans ?_ (hp.agree h)
  by_cases e : m = n
  · subst e
    simp only [banksAgree, setPasses, setN_loop, modLoop, modV_same]
  · simp only [banksAgree, setPasses, setN_loop, modLoop, modV_ne _ _ e]

theorem taskReady_paired (s : State) (n : Axis) (tag : Nat) : Paired n s (taskReady s n tag) := by
  unfold taskReady
  dsimp only
  refine Paired.trans ?_ (Paired.ite (Paired.of_loop (fbStillAt_loop _ n tag)) (Paired.refl _))
  refine Paired.trans ?_ (Paired.of_loop ((sensAdvance_loop _ n tag _).trans (sensEntry_loop _ n tag)))
  refine Paired.trans (Paired.of_loop (toTick_loop s (windowClose s n tag))) ((replayLog_paired _ (engOf n).val n).trans ?_)
  split
  case h_1 p t e =>
    refine Paired.ite (Paired.trans ⟨setPasses_agree _ n n p, fun h => ?_⟩ (modeDone_keeps Paired.post _)) (Paired.refl _)
    rw [e] at h
    cases h
  case h_2 => exact Paired.refl _

theorem beginTask_paired (s : State) (n : Axis) (tag : Nat) : Paired n s (beginTask s n tag).1 := by
  rw [beginTask_fst]
  refine (taskReady_paired s n tag).trans (Paired.loop _ n _ ?_ ?_)
  · exact fun _ h => h
  · exact fun _ h => ⟨h, rfl⟩

theorem occupy_paired (s : State) (n : Axis) (from_ : Nat) : Paired n s (occupy s n from_) := by
  unfold occupy
  dsimp only
  exact Paired.of_loop (by rw [toTick_loop, modEng_loop, engineBusy, modEng_loop])

/-- The state of a task that starts on its engine, as its checkpoint finds it (R16 to R18). -/
def taskRun (s : State) (n : Axis) (tag : Nat) : State :=
  occupy (beginTask s n tag).1 n (max (windowClose s n tag) ((beginTask s n tag).1.eng[engOf n]).freeAt)

theorem runTask_eq (s : State) (n : Axis) (tag : Nat) (chk : Check) :
    runTask s n tag chk = endTask (taskRun s n tag) (beginTask s n tag).2 chk := rfl

theorem taskRun_paired (s : State) (n : Axis) (tag : Nat) : Paired n s (taskRun s n tag) :=
  (beginTask_paired s n tag).trans (occupy_paired _ n _)

/-- What a task that starts keeps: the signals of `calmKeys`, the FIFOs and the sources BISC_LE. -/
theorem taskRun_after (s : State) (n : Axis) (tag : Nat) :
    Calm (modLoop (taskReady s n tag) n (fun l => { l with lastTag := some tag, firstTask := false })) (taskRun s n tag) := by
  unfold taskRun
  rw [beginTask_fst]
  exact occupy_calm _ n _

theorem taskRun_lastTag (s : State) (n : Axis) (tag : Nat) : ((taskRun s n tag).loop[n]).lastTag = some tag := by
  rw [(taskRun_after s n tag).tag n, modLoop, modV_same]

theorem taskRun_key (s : State) (n : Axis) (tag : Nat) {k : Nat} (hk : k ∈ calmKeys) : rg (taskRun s n tag) k = rg s k := by
  rw [(taskRun_after s n tag).keys k hk, modLoop_rg, (taskReady_calm s n tag).keys k hk]

theorem taskRun_fifo (s : State) (n : Axis) (tag : Nat) (e : Fin 2) : ((taskRun s n tag).eng[e]).fifo = (s.eng[e]).fifo := by
  rw [((taskRun_after s n tag).fifo e).1, modLoop_eng, ((taskReady_calm s n tag).fifo e).1]

theorem taskRun_bisc (s : State) (n : Axis) (tag : Nat) (m : Axis) :
    cellGet (taskRun s n tag).flt.srcs (axSrc m 9) = cellGet s.flt.srcs (axSrc m 9) := by
  rw [(taskRun_after s n tag).bisc m, modLoop_flt, (taskReady_calm s n tag).bisc m]

/-- A task whose checkpoint finds no mismatch passes. -/
theorem endTask_of_agree (s : State) (t : Task) (h : banksAgree s t.axis = true) : endTask s t Check.pass = passTask s t := by
  have hv : verdict s t.axis Check.pass = none := by
    unfold verdict
    rw [h]
    split <;> rfl
  unfold endTask
  dsimp only
  rw [hv]

theorem taskCount_calm (n : Axis) : Sig.LP_TASK_COUNT n.val ∈ calmKeys := by
  revert n
  decide

theorem execCurrentTask_passes (s : State) (n : Axis) (x : Tag) (hrun : inRun s = true) (hh : (s.eng[engOf n]).halted = false)
    (hst : (s.eng[engOf n]).stopped = none) (hax : (axSt s n).runsTasks = true)
    (hx : (s.eng[engOf n]).fifo.find? (fun g => decide (g.axis = n)) = some x) (hts : s.clk.tb ≤ x.ts + 32000)
    (hsel : tagSelected s x = true) (hclose : tooClose s n x.ts = false) (hnext : nextTask s (engOf n) = some x)
    (hbanks : banksAgree s n = true) :
    ∃ t, exec (.currentTask n Check.pass .good) s = .next t ∧ (t.eng[engOf n]).fifo = dropTag n (s.eng[engOf n]).fifo ∧
      (t.loop[n]).lastTag = some x.ts ∧ rg t (Sig.LP_TASK_COUNT n.val) = rg s (Sig.LP_TASK_COUNT n.val) + 1 := by
  have he := execCurrentTask_tag s n x Check.pass hrun hh hst hx
  have hagree : banksAgree (taskRun (tagTaken s n) n x.ts) n = true :=
    (taskRun_paired _ n x.ts).agree ((Paired.of_loop (tagTaken_loop s n)).agree hbanks)
  have hend := endTask_of_agree _ (beginTask (tagTaken s n) n x.ts).2 hagree
  simp only [Nat.not_lt.mpr hts, if_false, hax, hsel, hclose, hnext, Bool.not_true, Bool.or_self, Bool.false_eq_true, bne_self_eq_false,
    if_true, runTask_eq, hend] at he
  have hpass := passTask_calm (taskRun (tagTaken s n) n x.ts) (beginTask (tagTaken s n) n x.ts).2
  rw [beginTask_axis] at hpass
  refine ⟨_, he, ?_, ?_, ?_⟩
  · rw [(hpass.fifo _).1, incR_eng, taskRun_fifo, tagTaken_fifo]
  · rw [hpass.tag n, incR_loop, taskRun_lastTag]
  · rw [hpass.keys _ (taskCount_calm n), rg_incR_same, taskRun_key _ n x.ts (taskCount_calm n), tagTaken_key s n (taskCount_calm n)]

/-! ### A tag left, lost or discarded -/

theorem execCurrentTask_waits (s : State) (n : Axis) (x : Tag) (hrun : inRun s = true) (hh : (s.eng[engOf n]).halted = false)
    (hst : (s.eng[engOf n]).stopped = none) (hax : (axSt s n).runsTasks = true)
    (hx : (s.eng[engOf n]).fifo.find? (fun g => decide (g.axis = n)) = some x) (hts : s.clk.tb ≤ x.ts + 32000)
    (hsel : tagSelected s x = true) (hclose : tooClose s n x.ts = false) (hnext : nextTask s (engOf n) ≠ some x) :
    exec (.currentTask n Check.pass .good) s = .next (adcSettle s (engOf n)) := by
  simp only [execCurrentTask_tag s n x Check.pass hrun hh hst hx, Nat.not_lt.mpr hts, hax, hsel, hclose, bne_iff_ne.mpr hnext,
    Bool.not_true, Bool.or_self, Bool.false_eq_true, if_false, if_true]

theorem tagTaken_rg (s : State) {n : Axis} {k : Nat} (hk : k ∈ [Sig.LP_TAG_SEL n.val, Sig.SMP_AVG_W_AX n.val, Sig.SMP_SETTLE_AX n.val,
    Sig.FLT_ROLE_AX n.val, Sig.LP_STAT n.val, Sig.LP_SKIP_COUNT n.val, Sig.SMP_TAG_LOST (engOf n).val]) :
    rg (tagTaken s n) k = rg s k := by
  rw [tagTaken, modEng_rg, adcSettle_rg_of_mem s hk]

theorem execCurrentTask_discards (s : State) (n : Axis) (x : Tag) (hrun : inRun s = true) (hh : (s.eng[engOf n]).halted = false)
    (hst : (s.eng[engOf n]).stopped = none) (hax : (axSt s n).runsTasks = true)
    (hx : (s.eng[engOf n]).fifo.find? (fun g => decide (g.axis = n)) = some x) (hts : s.clk.tb ≤ x.ts + 32000)
    (hsel : tagSelected s x = true) (hclose : tooClose s n x.ts = true) :
    ∃ t, exec (.currentTask n Check.pass .good) s = .next t ∧ (t.eng[engOf n]).fifo = dropTag n (s.eng[engOf n]).fifo ∧
      t.loop = s.loop ∧ t.ax = s.ax ∧ rgB t (Sig.LP_STAT n.val) 9 = true ∧
      rg t (Sig.LP_SKIP_COUNT n.val) = rg s (Sig.LP_SKIP_COUNT n.val) + 1 ∧
      SignalsBut [Sig.LP_STAT n.val, Sig.LP_SKIP_COUNT n.val, Sig.SMP_STAT, Sig.SMP_OVR_COUNT (adcOf (engOf n)).val] s t := by
  have hne : ∀ n : Axis, Sig.LP_STAT n.val ≠ Sig.LP_SKIP_COUNT n.val := by decide
  have he : exec (.currentTask n Check.pass .good) s =
      .next (incR (setB (tagTaken s n) (Sig.LP_STAT n.val) 9 true) (Sig.LP_SKIP_COUNT n.val)) := by
    simp only [execCurrentTask_tag s n x Check.pass hrun hh hst hx, Nat.not_lt.mpr hts, hax, hsel, hclose, Bool.not_true, Bool.or_self,
      Bool.false_eq_true, if_false, if_true]
  refine ⟨_, he, ?_, ?_, ?_, ?_, ?_, fun k hk _ => ?_⟩
  · rw [incR_eng, setB_eng, tagTaken_fifo]
  · rw [incR_loop, setB_loop, tagTaken_loop]
  · rw [incR_ax, setB_ax, tagTaken_ax]
  · rw [rgB, rg_incR_ne _ (hne n), ← rgB, rgB_setB _ _ _ _ _ (by decide), if_pos rfl]
  · rw [rg_incR_same, rg_setB_ne _ _ _ (hne n).symm, tagTaken_rg s (n := n) (by simp)]
  · simp only [List.mem_cons, List.not_mem_nil, or_false, not_or] at hk
    obtain ⟨hstat, hskip, hsmp, hovr⟩ := hk
    rw [rg_incR_ne _ hskip, rg_setB_ne _ _ _ hstat, tagTaken, modEng_rg, adcSettle_rg s (engOf n) hsmp hovr]

/-- A tag lost, before the event of its source (R263). -/
def tagLostCounted (s : State) (n : Axis) : State :=
  incR (setB (incR (setB s Sig.SMP_STAT (8 + (engOf n).val) true) (Sig.SMP_TAG_LOST (engOf n).val)) (Sig.LP_STAT n.val) 8 true)
    (Sig.LP_SKIP_COUNT n.val)

theorem tagLost_eq (s : State) (n : Axis) : tagLost s n = axFault (tagLostCounted s n) n 7 := rfl

theorem tagLostCounted_eng (s : State) (n : Axis) : (tagLostCounted s n).eng = s.eng := by
  simp only [tagLostCounted, incR_eng, setB_eng]

theorem tagLostCounted_flt (s : State) (n : Axis) : (tagLostCounted s n).flt = s.flt := by
  simp only [tagLostCounted, incR_flt, setB_flt]

theorem lost_keys_distinct (n : Axis) :
    [Sig.SMP_STAT, Sig.SMP_TAG_LOST (engOf n).val, Sig.LP_STAT n.val, Sig.LP_SKIP_COUNT n.val, Sig.FLT_ROLE_AX n.val].Nodup ∧
      Sig.SMP_TAG_LOST (engOf n).val ∉ ledgerKeys ∧ Sig.LP_SKIP_COUNT n.val ∉ ledgerKeys := by
  revert n
  decide

/-- A source of an axis counts an event, whatever happened before it to other parts of the state. -/
theorem axFault_counts {s w : State} (n : Axis) (src : Nat) (h9 : src < 256)
    (hc : cellGet w.flt.srcs (axSrc n src) = cellGet s.flt.srcs (axSrc n src)) (hr : roleOf w n = roleOf s n) :
    Counts s (axFault w n src) (axSrc n src) := by
  have hax : codeAxis (axSrc n src) = some n := by
    have hdiv : axSrc n src / 256 = n.val := by unfold axSrc; omega
    have hlt : axSrc n src / 256 < 8 := hdiv ▸ n.isLt
    unfold codeAxis
    rw [dif_pos hlt]
    exact congrArg some (Fin.ext hdiv)
  have hsrc : srcOf w (axSrc n src) = srcOf s (axSrc n src) :=
    srcOf_of_cell hc (fun m hm => by rw [hax] at hm; cases hm; exact hr)
  rw [Counts, ← hsrc]
  exact faultEvtB_counts _ _ _

theorem execCurrentTask_loses (s : State) (n : Axis) (x : Tag) (hrun : inRun s = true) (hh : (s.eng[engOf n]).halted = false)
    (hst : (s.eng[engOf n]).stopped = none) (hx : (s.eng[engOf n]).fifo.find? (fun g => decide (g.axis = n)) = some x)
    (hts : x.ts + 32000 < s.clk.tb) :
    ∃ t, exec (.currentTask n Check.pass .good) s = .next t ∧ (t.eng[engOf n]).fifo = dropTag n (s.eng[engOf n]).fifo ∧
      rg t (Sig.SMP_TAG_LOST (engOf n).val) = rg s (Sig.SMP_TAG_LOST (engOf n).val) + 1 ∧
      rg t (Sig.LP_SKIP_COUNT n.val) = rg s (Sig.LP_SKIP_COUNT n.val) + 1 ∧ Counts s t (axSrc n 7) := by
  have he : exec (.currentTask n Check.pass .good) s = .next (axFault (tagLostCounted (tagTaken s n) n) n 7) := by
    rw [execCurrentTask_tag s n x Check.pass hrun hh hst hx, if_pos hts, tagLost_eq]
  have hq := axFault_quiet (tagLostCounted (tagTaken s n) n) n 7
  obtain ⟨hnd, hlost, hskip⟩ := lost_keys_distinct n
  simp only [List.nodup_cons, List.mem_cons, not_or, List.not_mem_nil, not_false_eq_true] at hnd
  obtain ⟨⟨hSL, -, hSK, hSR, -⟩, ⟨hLP, hLK, hLR, -⟩, ⟨hPK, hPR, -⟩, ⟨hKR, -⟩, -⟩ := hnd
  have hflt : (tagLostCounted (tagTaken s n) n).flt = s.flt := by rw [tagLostCounted_flt, tagTaken_flt]
  refine ⟨_, he, ?_, ?_, ?_, axFault_counts n 7 (by decide) (by rw [hflt]) ?_⟩
  · rw [hq.eng, tagLostCounted_eng, tagTaken_fifo]
  · rw [hq.keys _ hlost, tagLostCounted, rg_incR_ne _ hLK, rg_setB_ne _ _ _ hLP, rg_incR_same, rg_setB_ne _ _ _ (Ne.symm hSL),
      tagTaken_rg s (n := n) (by simp)]
  · rw [hq.keys _ hskip, tagLostCounted, rg_incR_same, rg_setB_ne _ _ _ (Ne.symm hPK), rg_incR_ne _ (Ne.symm hLK),
      rg_setB_ne _ _ _ (Ne.symm hSK), tagTaken_rg s (n := n) (by simp)]
  · rw [roleOf, rgN, tagLostCounted, rg_incR_ne _ (Ne.symm hKR), rg_setB_ne _ _ _ (Ne.symm hPR), rg_incR_ne _ (Ne.symm hLR),
      rg_setB_ne _ _ _ (Ne.symm hSR), tagTaken_rg s (n := n) (by simp), ← rgN, ← roleOf]

/-! ### A task that fails its checkpoint (R480, R486, R487) -/

/-- A mismatch of an axis noted, before the event of its source (R502). -/
def mismatchNoted (s : State) (n : Axis) (kind : Nat) (held : Bool) : State :=
  evt (biscLast (incR (orR s Sig.BISC_STAT (kind % 8)) (Sig.BISC_EVENT_AX n.val)) (engOf n).val (slotOf n) kind held) 92

theorem biscEvent_eq (s : State) (n : Axis) (kind : Nat) (held : Bool) : biscEvent s n kind held = axFault (mismatchNoted s n kind held) n 9 := rfl

theorem mismatchNoted_flt (s : State) (n : Axis) (kind : Nat) (held : Bool) : (mismatchNoted s n kind held).flt = s.flt := by
  rw [mismatchNoted, evt_flt, biscLast, setN_flt, incR_flt, orR_flt]

theorem mismatchNoted_eng (s : State) (n : Axis) (kind : Nat) (held : Bool) : (mismatchNoted s n kind held).eng = s.eng := by
  rw [mismatchNoted, evt_eng, biscLast, setN_eng, incR_eng, orR_eng]

theorem mismatch_keys (n : Axis) : Sig.BISC_EVENT_AX n.val ∈ calmKeys ∧ Sig.FLT_ROLE_AX n.val ∈ calmKeys ∧
    Sig.BISC_EVENT_AX n.val ∉ ledgerKeys ∧ Sig.LP_TASK_COUNT n.val ∉ ledgerKeys ∧
    [Sig.BISC_STAT, Sig.BISC_LAST, Sig.BISC_EVENT_AX n.val, Sig.LP_TASK_COUNT n.val, Sig.FLT_ROLE_AX n.val].Nodup := by
  revert n
  decide

/-- A mismatch adds one to the count of its axis, one to that of BISC_LE, and leaves the count of tasks (R486). -/
theorem biscEvent_counts (s : State) (n : Axis) (kind : Nat) (held : Bool) :
    rg (biscEvent s n kind held) (Sig.BISC_EVENT_AX n.val) = rg s (Sig.BISC_EVENT_AX n.val) + 1 ∧
      rg (biscEvent s n kind held) (Sig.LP_TASK_COUNT n.val) = rg s (Sig.LP_TASK_COUNT n.val) ∧
      Counts s (biscEvent s n kind held) (axSrc n 9) := by
  have hq := axFault_quiet (mismatchNoted s n kind held) n 9
  obtain ⟨-, -, hEl, hTl, hnd⟩ := mismatch_keys n
  simp only [List.nodup_cons, List.mem_cons, not_or, List.not_mem_nil, not_false_eq_true] at hnd
  obtain ⟨⟨-, hSE, hST, hSR, -⟩, ⟨hLE, hLT, hLR, -⟩, ⟨hET, hER, -⟩, -⟩ := hnd
  have hnoted {k : Nat} (hL : Sig.BISC_LAST ≠ k) : rg (mismatchNoted s n kind held) k =
      rg (incR (orR s Sig.BISC_STAT (kind % 8)) (Sig.BISC_EVENT_AX n.val)) k := by
    rw [mismatchNoted, evt_rg, biscLast, rg_setN_ne _ _ (Ne.symm hL)]
  rw [biscEvent_eq]
  refine ⟨?_, ?_, axFault_counts n 9 (by decide) (by rw [mismatchNoted_flt]) ?_⟩
  · rw [hq.keys _ hEl, hnoted hLE, rg_incR_same, rg_orR_ne _ _ (Ne.symm hSE)]
  · rw [hq.keys _ hTl, hnoted hLT, rg_incR_ne _ (Ne.symm hET), rg_orR_ne _ _ (Ne.symm hST)]
  · rw [roleOf, rgN, hnoted hLR, rg_incR_ne _ (Ne.symm hER), rg_orR_ne _ _ (Ne.symm hSR), ← rgN, ← roleOf]

/-- A task without a retry whose comparator finds a mismatch: one event, and the sample held where the axis still runs tasks. -/
theorem endTask_of_mismatch (s : State) (t : Task) (k : Nat) (pending : Bool) (hp : (s.loop[t.axis]).passes = 2) :
    Calm (biscEvent s t.axis k true) (endTask s t ⟨some k, false, pending⟩) := by
  have hv : verdict s t.axis ⟨some k, false, pending⟩ = some k := by
    unfold verdict
    rw [hp]
    rfl
  unfold endTask
  dsimp only
  rw [hv]
  simp only [Bool.and_false, Bool.false_and, Bool.not_false, Bool.false_eq_true, if_false]
  exact Calm.ite (Calm.refl _) (holdTask_calm _ t)

theorem Calm.srcOf {s t : State} (h : Calm s t) (n : Axis) : srcOf t (axSrc n 9) = srcOf s (axSrc n 9) :=
  srcOf_of_cell (h.bisc n) (fun m _ => congrArg BitVec.toNat (h.keys _ (mismatch_keys m).2.1))

theorem execCurrentTask_mismatch (s : State) (n : Axis) (x : Tag) (k : Nat) (pending : Bool) (hrun : inRun s = true)
    (hh : (s.eng[engOf n]).halted = false) (hst : (s.eng[engOf n]).stopped = none) (hax : (axSt s n).runsTasks = true)
    (hx : (s.eng[engOf n]).fifo.find? (fun g => decide (g.axis = n)) = some x) (hts : s.clk.tb ≤ x.ts + 32000)
    (hsel : tagSelected s x = true) (hclose : tooClose s n x.ts = false) (hnext : nextTask s (engOf n) = some x)
    (hp : (s.loop[n]).passes = 2) (hpend : (s.loop[n]).passPend = none) :
    ∃ t, exec (.currentTask n ⟨some k, false, pending⟩ .good) s = .next t ∧
      rg t (Sig.BISC_EVENT_AX n.val) = rg s (Sig.BISC_EVENT_AX n.val) + 1 ∧ Counts s t (axSrc n 9) ∧
      rg t (Sig.LP_TASK_COUNT n.val) = rg s (Sig.LP_TASK_COUNT n.val) := by
  have he := execCurrentTask_tag s n x ⟨some k, false, pending⟩ hrun hh hst hx
  simp only [Nat.not_lt.mpr hts, if_false, hax, hsel, hclose, hnext, Bool.not_true, Bool.or_self, Bool.false_eq_true, bne_self_eq_false,
    if_true, runTask_eq] at he
  have hpair : Paired n s (taskRun (tagTaken s n) n x.ts) :=
    (Paired.of_loop (tagTaken_loop s n)).trans (taskRun_paired _ n x.ts)
  have hpasses := (hpair.passes hpend).2.trans hp
  have hkey {j : Nat} (hj : j ∈ calmKeys) : rg (taskRun (tagTaken s n) n x.ts) j = rg s j :=
    (taskRun_key _ n x.ts hj).trans (tagTaken_key s n hj)
  generalize hw : taskRun (tagTaken s n) n x.ts = w at he hpasses hkey
  have hsrc : srcOf w (axSrc n 9) = srcOf s (axSrc n 9) := by
    refine srcOf_of_cell ?_ (fun m _ => congrArg BitVec.toNat (hkey (mismatch_keys m).2.1))
    rw [← hw, taskRun_bisc, tagTaken_flt]
  have hend := endTask_of_mismatch w (beginTask (tagTaken s n) n x.ts).2 k pending hpasses
  rw [beginTask_axis] at hend
  obtain ⟨hE, hT, hC⟩ := biscEvent_counts w n k true
  obtain ⟨hEc, -⟩ := mismatch_keys n
  refine ⟨_, he, ?_, ?_, ?_⟩
  · rw [hend.keys _ hEc, hE, hkey hEc]
  · rw [Counts, hend.srcOf, ← hsrc]
    exact hC
  · rw [hend.keys _ (taskCount_calm n), hT, hkey (taskCount_calm n)]

/-! ### A task that a halt held (R500) -/

/-- The FIFOs and the held tasks of the engines stay. -/
def Held (s t : State) : Prop := ∀ e : Fin 2, (t.eng[e]).fifo = (s.eng[e]).fifo ∧ (t.eng[e]).stopped = (s.eng[e]).stopped

namespace Held

theorem trans {s t u : State} (h : Held s t) (g : Held t u) : Held s u := fun e => ⟨(g e).1.trans (h e).1, (g e).2.trans (h e).2⟩

theorem of_eng {s t : State} (h : t.eng = s.eng) : Held s t := fun e => by rw [h]; exact ⟨rfl, rfl⟩

theorem ite {c : Prop} [Decidable c] {s a b : State} (ha : Held s a) (hb : Held s b) : Held s (if c then a else b) := by
  split
  · exact ha
  · exact hb

end Held

theorem passTask_held (s : State) (t : Task) : Held s (passTask s t) :=
  (Held.of_eng (by exact rfl)).trans (passTask_calm s t).fifo

theorem biscEvent_held (s : State) (n : Axis) (kind : Nat) (held : Bool) : Held s (biscEvent s n kind held) :=
  Held.of_eng (by rw [biscEvent_eq, (axFault_quiet (mismatchNoted s n kind held) n 9).eng, mismatchNoted_eng])

theorem endTask_held (s : State) (t : Task) (chk : Check) : Held s (endTask s t chk) := by
  unfold endTask
  dsimp only
  split
  · exact passTask_held s t
  · refine (biscEvent_held s t.axis _ _).trans (Held.ite (Held.of_eng rfl) (Held.ite ?_ (holdTask_calm _ t).fifo))
    refine Held.trans ?_ (passTask_held _ t)
    exact (Held.of_eng (by exact rfl)).trans (occupy_calm _ t.axis _).fifo

theorem execCurrentTask_resumes (s : State) (n : Axis) (y : Task) (chk : Check) (mem : MemCheck) (hrun : inRun s = true)
    (hh : (s.eng[engOf n]).halted = false) (hst : (s.eng[engOf n]).stopped = some y) (hy : y.axis = n) :
    ∃ t, exec (.currentTask n chk mem) s = .next t ∧ (t.eng[engOf n]).stopped = none ∧
      (t.eng[engOf n]).fifo = (s.eng[engOf n]).fifo := by
  have he : exec (.currentTask n chk mem) s = .next (resumeTask s y chk) := by
    show execCurrentTask n chk mem s = _
    unfold execCurrentTask
    simp only [hrun, hh, hst, hy, Bool.not_true, Bool.or_self, Bool.false_eq_true, if_false, if_true]
  have hheld : Held (modEng s (engOf y.axis) (fun e => { e with stopped := none })) (resumeTask s y chk) := by
    unfold resumeTask
    refine Held.trans (replayLog_calm _ (engOf y.axis).val).fifo (Held.ite (Held.of_eng rfl) ?_)
    exact Held.trans (occupy_calm _ y.axis _).fifo (Held.ite (dueSteps_calm _ y.axis y 0 true).fifo (endTask_held _ y chk))
  have hm : (modEng s (engOf y.axis) (fun e => { e with stopped := none })).eng[engOf n] = { s.eng[engOf n] with stopped := none } := by
    rw [hy]
    exact modV_same s.eng (engOf n) _
  obtain ⟨hf, hs⟩ := hheld (engOf n)
  rw [hm] at hf hs
  exact ⟨_, he, hs, hf⟩

end Sys2Proof.Machine
end

section
/-! O49, the outer steps: the speed step and the position step of an axis, and the obligation. -/

namespace Sys2Proof.Machine

/-! ### What a step changes besides its loop -/

/-- The two states agree in the states of the axes, the loops and every signal but those of a list and of the ledger. -/
structure FlagsOnly (ks : List Nat) (s t : State) : Prop where
  ax : t.ax = s.ax
  loop : t.loop = s.loop
  sigs : SignalsBut ks s t

namespace FlagsOnly

variable {ks : List Nat}

theorem of_regs {s t : State} (ha : t.ax = s.ax) (hl : t.loop = s.loop) (hr : t.regs = s.regs) : FlagsOnly ks s t :=
  ⟨ha, hl, fun k _ _ => congrArg (fun f => regRead f k) hr⟩

theorem refl (s : State) : FlagsOnly ks s s := of_regs rfl rfl rfl

theorem trans {s t u : State} (h : FlagsOnly ks s t) (g : FlagsOnly ks t u) : FlagsOnly ks s u :=
  ⟨g.ax.trans h.ax, g.loop.trans h.loop, fun k hk hl => (g.sigs k hk hl).trans (h.sigs k hk hl)⟩

theorem reg (s : State) {k : Nat} (v : Word) (hk : k ∈ ks) : FlagsOnly ks s (setR s k v) :=
  ⟨rfl, rfl, fun _ hj _ => rg_setR_ne s v (fun e => hj (e ▸ hk))⟩

theorem post : PostFrame (FlagsOnly ks) where
  refl := refl
  trans := trans
  posts _ _ _ _ _ := of_regs rfl rfl rfl
  ledger s _ v hk := ⟨rfl, rfl, fun _ _ hj => rg_setR_ne s v (fun e => hj (e ▸ hk))⟩

theorem ite {c : Prop} [Decidable c] {s a b : State} (ha : FlagsOnly ks s a) (hb : FlagsOnly ks s b) :
    FlagsOnly ks s (if c then a else b) := post.ite ha hb

/-- The state of a pair that depends on a condition. -/
theorem fst_ite {β : Type} {c : Prop} [Decidable c] {s : State} {x y : State × β} (hx : FlagsOnly ks s x.1) (hy : FlagsOnly ks s y.1) :
    FlagsOnly ks s (if c then x else y).1 := by
  split
  · exact hx
  · exact hy

/-- The signals and axis states of a change of the loops before the flags. -/
theorem after_loop {s u t : State} {n : Axis} {f : LoopAx → LoopAx} (h : FlagsOnly ks s u) (g : FlagsOnly ks (modLoop u n f) t) :
    t.ax = s.ax ∧ SignalsBut ks s t ∧ t.loop[n] = f (s.loop[n]) := by
  refine ⟨g.ax.trans h.ax, fun k hk hl => (g.sigs k hk hl).trans (h.sigs k hk hl), ?_⟩
  rw [g.loop, modLoop, modV_same, h.loop]

end FlagsOnly

/-! ### An outer step whose checkpoint passes (R488) -/

/-- A step whose banks agree and whose comparator finds nothing is made, on the engine that it keeps busy. -/
theorem checkedStep_of_agree (s : State) (n : Axis) (f : State → State) (h : banksAgree s n = true) :
    checkedStep s n Check.pass .good f = f (engineBusy s n (stepTime s n (4 / 10))) := by
  have hb : banksAgree (engineBusy s n (stepTime s n (4 / 10))) n = true := h
  have hv : verdict (engineBusy s n (stepTime s n (4 / 10))) n Check.pass = none := by
    unfold verdict
    rw [hb]
    split <;> rfl
  show outerStep s n (4 / 10) Check.pass f = _
  unfold outerStep
  dsimp only
  rw [hv]

/-! ### The speed step (R287, R289) -/

theorem limitSpeed_flags (s : State) (n : Axis) (x : Rat) : FlagsOnly [Sig.LP_STAT n.val] s (limitSpeed s n x).1 :=
  FlagsOnly.ite (FlagsOnly.reg s _ List.mem_cons_self) (FlagsOnly.refl s)

theorem slewSpeed_flags (s : State) (n : Axis) (ref ts : Rat) : FlagsOnly [Sig.LP_STAT n.val] s (slewSpeed s n ref ts).1 := by
  unfold slewSpeed
  dsimp only
  split
  · exact limitSpeed_flags s n ref
  · exact (limitSpeed_flags s n _).trans (limitSpeed_flags _ n _)

theorem endStops_flags {ks : List Nat} (s : State) (n : Axis) (status : Nat) : FlagsOnly ks s (endStops s n status) :=
  endWaits_keeps FlagsOnly.post s _ _

/-- The loop of an axis with the bank of a speed step, in step where it runs two passes (R289, R476). -/
def speedStored (b : Bank) (l : LoopAx) : LoopAx :=
  { l with bankA := b, bankB := if l.passes = 2 then b.compl else l.bankB, preSpd := false }

/-- A speed step of an axis that set an iq reference (R289). -/
structure SpeedDone (n : Axis) (iq : Rat) (s t : State) : Prop where
  ax : t.ax = s.ax
  sigs : SignalsBut [Sig.LP_STAT n.val] s t
  due : (t.loop[n]).dueSpd = (s.loop[n]).dueSpd
  pre : (t.loop[n]).preSpd = false
  ref : (t.loop[n]).bankA.iqRef = some iq
  pair : (s.loop[n]).passes = 2 → (t.loop[n]).bankB = (t.loop[n]).bankA.compl

theorem speedStored_done {s u : State} {n : Axis} {b : Bank} {iq : Rat} (hu : FlagsOnly [Sig.LP_STAT n.val] s u) (hb : b.iqRef = some iq) :
    SpeedDone n iq s (modLoop u n (speedStored b)) := by
  obtain ⟨hax, hsig, hloop⟩ := hu.after_loop (FlagsOnly.refl (modLoop u n (speedStored b)))
  refine ⟨hax, hsig, ?_, ?_, ?_, fun hp => ?_⟩
  · rw [hloop]; rfl
  · rw [hloop]; rfl
  · rw [hloop]; exact hb
  · rw [hloop]; exact if_pos hp

/-- The end of a STOP in SPEED leaves what the step set (R300). -/
theorem SpeedDone.endStop {s u : State} {n : Axis} {iq : Rat} (h : SpeedDone n iq s u) :
    SpeedDone n iq s (endStops (modLoop u n (fun l => { l with stopRate := none })) n stOk) := by
  obtain ⟨hax, hsig, hloop⟩ := (FlagsOnly.refl u).after_loop (ks := [Sig.LP_STAT n.val])
    (endStops_flags (modLoop u n (fun l => { l with stopRate := none })) n stOk)
  refine ⟨hax.trans h.ax, fun k hk hl => (hsig k hk hl).trans (h.sigs k hk hl), ?_, ?_, ?_, ?_⟩
  · rw [hloop]; exact h.due
  · rw [hloop]; exact h.pre
  · rw [hloop]; exact h.ref
  · rw [hloop]; exact h.pair

theorem SpeedDone.ite {c : Prop} [Decidable c] {s a b : State} {n : Axis} {iq : Rat} (ha : SpeedDone n iq s a) (hb : SpeedDone n iq s b) :
    SpeedDone n iq s (if c then a else b) := by
  split
  · exact ha
  · exact hb

/-- A speed step sets an iq reference kept within the limit in force at its task (R289). -/
theorem speedStep_done (s : State) (n : Axis) (d : Due) : ∃ x, SpeedDone n (clampRat x (-d.ilim) d.ilim) s (speedStep s n d) := by
  unfold speedStep
  dsimp only
  apply Exists.intro
  refine SpeedDone.ite (SpeedDone.endStop (speedStored_done ?flags ?ref)) (speedStored_done ?flags' ?ref')
  case ref | ref' => exact rfl
  case flags | flags' =>
    refine FlagsOnly.trans ?_ (FlagsOnly.ite (FlagsOnly.reg _ _ List.mem_cons_self) (FlagsOnly.refl _))
    exact FlagsOnly.fst_ite (slewSpeed_flags s n _ _) (FlagsOnly.refl s)

/-- A number kept within a range that is not empty. -/
theorem clampRat_mem (x : Rat) {lo hi : Rat} (h : lo ≤ hi) : lo ≤ clampRat x lo hi ∧ clampRat x lo hi ≤ hi :=
  ⟨le_max_left _ _, max_le h (min_le_left _ _)⟩

theorem execSpeedStep_sets (s : State) (n : Axis) (d : Due) (hrun : inRun s = true) (hd : (s.loop[n]).dueSpd = some d)
    (hp : (s.loop[n]).duePos = none) (hls : (loopState s n).closesSpeed = true) (hh : (s.eng[engOf n]).halted = false)
    (htask : taskPending s (engOf n) = false) (hbanks : banksAgree s n = true) :
    ∃ t iq, exec (.speedStep n Check.pass .good) s = .next t ∧ (t.loop[n]).dueSpd = none ∧ (t.loop[n]).preSpd = false ∧
      (t.loop[n]).bankA.iqRef = some iq ∧ (0 ≤ d.ilim → -d.ilim ≤ iq ∧ iq ≤ d.ilim) ∧
      ((s.loop[n]).passes = 2 → (t.loop[n]).bankB = (t.loop[n]).bankA.compl) ∧ t.ax = s.ax ∧ SignalsBut [Sig.LP_STAT n.val] s t := by
  let u := modLoop s n (fun l => { l with dueSpd := none })
  let w := engineBusy u n (stepTime u n (4 / 10))
  have hu : u.loop[n] = { s.loop[n] with dueSpd := none } := modV_same s.loop n _
  have hagree : banksAgree u n = true := by
    rw [banksAgree, hu]
    exact hbanks
  have he : exec (.speedStep n Check.pass .good) s = .next (speedStep w n d) := by
    show execSpeedStep n Check.pass .good s = _
    unfold execSpeedStep
    simp only [hd, hrun, hp, hls, hh, htask, Option.isNone_none, Bool.not_false, Bool.and_self, if_true]
    rw [checkedStep_of_agree u n _ hagree]
    exact congrArg _ (if_pos hls)
  obtain ⟨x, h⟩ := speedStep_done w n d
  have hw : w.loop[n] = { s.loop[n] with dueSpd := none } := hu
  refine ⟨_, _, he, ?_, h.pre, h.ref, fun h0 => clampRat_mem x (by linarith), fun hp => h.pair ?_, h.ax, h.sigs⟩
  · rw [h.due, hw]
  · rw [hw]
    exact hp

/-! ### The position step (R287, R288, R291) -/

theorem carRecord_flags (s : State) (n : Axis) (t : Nat) : FlagsOnly [Sig.CAR_STAT n.val] s (carRecord s n t).1 := by
  unfold carRecord
  dsimp only
  split
  · exact FlagsOnly.refl s
  · split
    · exact FlagsOnly.reg s _ List.mem_cons_self
    · exact FlagsOnly.refl s

/-- The loop of an axis with the bank of a position step, in step where it runs two passes (R288, R476). -/
def positionStored (b : Bank) (l : LoopAx) : LoopAx :=
  { l with bankA := b, bankB := if l.passes = 2 then b.compl else l.bankB, prePos := false }

/-- The signals that a position step can write (R288, R291, R311). -/
def positionKeys (n : Axis) : List Nat := [Sig.LP_STAT n.val, Sig.CAR_STAT n.val, Sig.LP_POS_REF n.val]

/-- A position step of an axis that set a speed reference (R288). -/
structure PositionDone (n : Axis) (w : Rat) (s t : State) : Prop where
  ax : t.ax = s.ax
  sigs : SignalsBut (positionKeys n) s t
  due : (t.loop[n]).duePos = (s.loop[n]).duePos
  pre : (t.loop[n]).prePos = false
  ref : (t.loop[n]).bankA.wRef = some w
  shown : rg t (Sig.LP_POS_REF n.val) = BitVec.ofInt 32 (t.loop[n]).bankA.pRef
  pair : (s.loop[n]).passes = 2 → (t.loop[n]).bankB = (t.loop[n]).bankA.compl

theorem positionStored_done {s u : State} {n : Axis} {b : Bank} {w : Rat} (hu : FlagsOnly (positionKeys n) s u) (hb : b.wRef = some w) :
    PositionDone n w s (setI (modLoop u n (positionStored b)) (Sig.LP_POS_REF n.val) b.pRef) := by
  obtain ⟨hax, hsig, hloop⟩ := hu.after_loop
    (FlagsOnly.reg (modLoop u n (positionStored b)) (k := Sig.LP_POS_REF n.val) (BitVec.ofInt 32 b.pRef) (by simp [positionKeys]))
  have hbank : (positionStored b (s.loop[n])).bankA = b := rfl
  refine ⟨hax, hsig, ?_, ?_, ?_, ?_, fun hp => ?_⟩
  · rw [setI, hloop]; rfl
  · rw [setI, hloop]; rfl
  · rw [setI, hloop, hbank, hb]
  · rw [setI, hloop, hbank, rg_setR_same]
  · rw [setI, hloop]; exact if_pos hp

/-- The limit of the speed references is not negative. -/
theorem speedTop_nonneg (s : State) (n : Axis) :
    -((rgN s (Sig.LP_SPD_MAX n.val) : Rat) / 65536) ≤ (rgN s (Sig.LP_SPD_MAX n.val) : Rat) / 65536 := by
  have h : (0 : Rat) ≤ (rgN s (Sig.LP_SPD_MAX n.val) : Rat) / 65536 := by positivity
  linarith

theorem position_limits (n : Axis) : ∀ k ∈ [Sig.LP_SPD_MAX n.val, Sig.LP_POS_ERR_MAX n.val], k ∉ [Sig.CAR_STAT n.val] ∧ k ∉ ledgerKeys := by
  revert n
  decide

/-- A position step, where no error limit is set, sets a speed reference kept within LP_SPD_MAX (R288, R291). -/
theorem positionStep_done (s : State) (n : Axis) (d : Due) (hlim : rgN s (Sig.LP_POS_ERR_MAX n.val) = 0) :
    ∃ x, PositionDone n (clampRat x (-((rgN s (Sig.LP_SPD_MAX n.val) : Rat) / 65536)) ((rgN s (Sig.LP_SPD_MAX n.val) : Rat) / 65536)) s
      (positionStep s n d) := by
  have hrec := carRecord_flags s n d.tag
  have hkey {k : Nat} (hk : k ∈ [Sig.LP_SPD_MAX n.val, Sig.LP_POS_ERR_MAX n.val]) : rgN (carRecord s n d.tag).1 k = rgN s k :=
    congrArg BitVec.toNat (hrec.sigs k (position_limits n k hk).1 (position_limits n k hk).2)
  have hrec' : FlagsOnly (positionKeys n) s (carRecord s n d.tag).1 :=
    ⟨hrec.ax, hrec.loop, fun k hk hl => hrec.sigs k (fun e => hk (by simp_all [positionKeys])) hl⟩
  unfold positionStep
  dsimp only
  simp only [hkey (k := Sig.LP_POS_ERR_MAX n.val) (by simp), hlim, ne_eq, not_true_eq_false, false_and, if_false,
    hkey (k := Sig.LP_SPD_MAX n.val) (by simp)]
  apply Exists.intro
  refine positionStored_done (b := { (s.loop[n]).bankA with iP := _, wRef := _, pRef := _, aCar := _ }) ?flags ?ref
  case ref => exact rfl
  case flags =>
    exact hrec'.trans (FlagsOnly.ite (FlagsOnly.reg _ _ (by simp [positionKeys])) (FlagsOnly.refl _))

theorem execPositionStep_sets (s : State) (n : Axis) (d : Due) (hrun : inRun s = true) (hd : (s.loop[n]).duePos = some d)
    (hls : loopState s n = .position) (hh : (s.eng[engOf n]).halted = false) (htask : taskPending s (engOf n) = false)
    (hbanks : banksAgree s n = true) (hlim : rgN s (Sig.LP_POS_ERR_MAX n.val) = 0) :
    ∃ t w, exec (.positionStep n Check.pass .good) s = .next t ∧ (t.loop[n]).duePos = none ∧ (t.loop[n]).prePos = false ∧
      ((s.loop[n]).passes = 2 → (t.loop[n]).bankB = (t.loop[n]).bankA.compl) ∧ (t.loop[n]).bankA.wRef = some w ∧
      -((rgN s (Sig.LP_SPD_MAX n.val) : Rat) / 65536) ≤ w ∧
      w ≤ (rgN s (Sig.LP_SPD_MAX n.val) : Rat) / 65536 ∧ rg t (Sig.LP_POS_REF n.val) = BitVec.ofInt 32 (t.loop[n]).bankA.pRef ∧
      t.ax = s.ax ∧ SignalsBut [Sig.LP_STAT n.val, Sig.CAR_STAT n.val, Sig.LP_POS_REF n.val] s t := by
  let u := modLoop s n (fun l => { l with duePos := none })
  let w := engineBusy u n (stepTime u n (4 / 10))
  have hu : u.loop[n] = { s.loop[n] with duePos := none } := modV_same s.loop n _
  have hagree : banksAgree u n = true := by
    rw [banksAgree, hu]
    exact hbanks
  have he : exec (.positionStep n Check.pass .good) s = .next (positionStep w n d) := by
    show execPositionStep n Check.pass .good s = _
    unfold execPositionStep
    simp only [hd, hrun, hls, hh, htask, decide_true, Bool.not_false, Bool.and_self, if_true]
    rw [checkedStep_of_agree u n _ hagree]
    exact congrArg _ (if_pos (decide_eq_true hls))
  obtain ⟨x, h⟩ := positionStep_done w n d hlim
  have hw : w.loop[n] = { s.loop[n] with duePos := none } := hu
  obtain ⟨hlo, hhi⟩ := clampRat_mem x (speedTop_nonneg w n)
  refine ⟨_, _, he, ?_, h.pre, fun hp => h.pair ?_, h.ref, hlo, hhi, h.shown, h.ax, h.sigs⟩
  · rw [h.due, hw]
  · rw [hw]
    exact hp

/-! ### The obligation -/

/-- Settles O49: what CURRENT_TASK does with the oldest tag of an axis, what a task and a step keep besides what they store, and the
banks of an axis in step. -/
theorem tasksAndStepsRunTheLoops : Obligations.TasksAndStepsRunTheLoops :=
  ⟨execCurrentTask_passes, execCurrentTask_waits, execCurrentTask_loses, execCurrentTask_discards, execCurrentTask_resumes,
    execCurrentTask_mismatch, execSpeedStep_sets, execPositionStep_sets⟩

end Sys2Proof.Machine
end

section
/-! O8: the resets that boot the device. A boot ends in bootReady on each of its ways, so it is enough that the supplies which a reset finds
are the ones the state had before it. -/

namespace Sys2Proof.Machine

/-! ### The end of a boot (R85) -/

/-- The boot has run to its end, and READY is high. -/
def BootEnded (t : State) : Prop := t.pwr.booted = true ∧ t.pwr.ready = true

theorem BootEnded.ite {c : Prop} [Decidable c] {a b : State} (ha : BootEnded a) (hb : BootEnded b) : BootEnded (if c then a else b) := by
  split
  · exact ha
  · exact hb

theorem bootReady_ended (s : State) (image : Bool) (us : Nat) : BootEnded (bootReady s image us) := ⟨rfl, rfl⟩

/-- A boot comes to READY, with an image or in rescue mode (R85, R92). -/
theorem bootCd_ended (s : State) (e : BootEnv) : BootEnded (bootCd s e) := by
  unfold bootCd
  exact BootEnded.ite (bootReady_ended _ true e.bootUs) (bootReady_ended _ false e.bootUs)

/-! ### The supplies that a reset finds (R61, R93) -/

@[simp] theorem toTick_pwr (s : State) (t : Nat) : (toTick s t).pwr = s.pwr := by
  unfold toTick
  split <;> rfl

@[simp] theorem toUs_pwr (s : State) (t : Nat) : (toUs s t).pwr = s.pwr := by
  unfold toUs
  split
  · split
    · exact toTick_pwr s _
    · rfl
  · rfl

@[simp] theorem revertTrial_pwr (s : State) : (revertTrial s).pwr = s.pwr := by
  unfold revertTrial
  split <;> rfl

/-- A CD reset with both supplies up boots to READY (R61, R93). -/
theorem resetCd_ended (s : State) (bit : Nat) (e : BootEnv) (hio : s.pwr.vioLow = false) (hcore : s.pwr.vcoreLow = false) :
    BootEnded (resetCd s bit e) := by
  have hs : ((clearCd (revertTrial s)).pwr.vioLow || (clearCd (revertTrial s)).pwr.vcoreLow) = false := by
    show ((revertTrial s).pwr.vioLow || (revertTrial s).pwr.vcoreLow) = false
    rw [revertTrial_pwr, hio, hcore]
    rfl
  unfold resetCd
  dsimp only
  rw [setB_pwr, hs]
  exact bootCd_ended _ e

/-! ### The resets -/

theorem execPowerOnReset_boots (s : State) (env : BootEnv) (hb : s.pwr.booted = false) (hv : env.vioOk = true) :
    ∃ t, exec (.powerOnReset env) s = .next t ∧ BootEnded t := by
  show ∃ t, execPowerOnReset env s = .next t ∧ _
  simp only [execPowerOnReset, hb, hv, Bool.false_eq_true, if_false, if_true]
  exact ⟨_, rfl, bootCd_ended _ env⟩

/-- RESET_N low for 1 µs or longer resets (R46). -/
theorem execExternalReset_boots (s : State) (env : BootEnv) (ns : Nat) (hon : s.pwr.st ≠ .off) (hio : s.pwr.vioLow = false)
    (hcore : s.pwr.vcoreLow = false) (hns : 1000 ≤ ns) :
    ∃ t, exec (.externalReset ns env) s = .next t ∧ BootEnded t := by
  have he : exec (.externalReset ns env) s = .next (resetCd { s with pwr := { s.pwr with straps := env.straps % 16 } } 1 env) := by
    show execExternalReset ns env s = _
    have hlong : ¬ (s.pwr.st = .off ∨ ns < 100) := by simp only [hon, false_or]; omega
    simp only [execExternalReset, if_neg hlong, hns, decide_true, Bool.true_or, if_true]
  exact ⟨_, he, resetCd_ended _ 1 env hio hcore⟩

/-- RESET_N low for less than 100 ns is ignored (R46). -/
theorem execExternalReset_ignores (s : State) (env : BootEnv) (ns : Nat) (hns : ns < 100) :
    exec (.externalReset ns env) s = .next s := by
  show execExternalReset ns env s = _
  rw [execExternalReset, if_pos (.inr hns)]

/-- Between 100 ns and 1 µs the free value drawn says whether RESET_N resets (R46; log entry 3). -/
theorem execExternalReset_either (s : State) (env : BootEnv) (ns : Nat) (hon : s.pwr.st ≠ .off) (hio : s.pwr.vioLow = false)
    (hcore : s.pwr.vcoreLow = false) (hlo : 100 ≤ ns) (hhi : ns < 1000) :
    ∃ t, exec (.externalReset ns env) s = .next t ∧ (t = { s with free := s.free + 1 } ∨ BootEnded t) := by
  have he : exec (.externalReset ns env) s = .next (if Config.midPulseResets s.free then
      resetCd { s with pwr := { s.pwr with straps := env.straps % 16 }, free := s.free + 1 } 1 env else { s with free := s.free + 1 }) := by
    show execExternalReset ns env s = _
    have hmid : ¬ (s.pwr.st = .off ∨ ns < 100) := by simp only [hon, false_or]; omega
    have hshort : ¬ 1000 ≤ ns := by omega
    simp only [execExternalReset, if_neg hmid, hshort, decide_false, Bool.false_or, if_false]
  refine ⟨_, he, ?_⟩
  split
  · exact .inr (resetCd_ended _ 1 env hio hcore)
  · exact .inl rfl

theorem execMpWatchdogExpiry_boots (s : State) (env : BootEnv) (hserves : serves s = true) (hio : s.pwr.vioLow = false)
    (hcore : s.pwr.vcoreLow = false) :
    ∃ t, exec (.mpWatchdogExpiry env) s = .next t ∧ BootEnded t := by
  have hruns : (s.pwr.booted && linkPowered s && !s.dbg.haltMp) = true := by rwa [Bool.and_comm s.pwr.booted]
  have he : exec (.mpWatchdogExpiry env) s = .next (resetCd s 4 env) := by
    show execMpWatchdogExpiry env s = _
    rw [execMpWatchdogExpiry, if_pos hruns]
  exact ⟨_, he, resetCd_ended s 4 env hio hcore⟩

theorem execTrialWatchdogExpiry_boots (s : State) (env : BootEnv) (hp : linkPowered s = true) (htrial : rgN s Sig.UPD_STATE = 4)
    (hio : s.pwr.vioLow = false) (hcore : s.pwr.vcoreLow = false) :
    ∃ t, exec (.trialWatchdogExpiry env) s = .next t ∧ BootEnded t := by
  have he : exec (.trialWatchdogExpiry env) s = .next (resetCd (toUs s s.pwr.trialUs) 5 env) := by
    show execTrialWatchdogExpiry env s = _
    rw [execTrialWatchdogExpiry, if_pos ⟨htrial, hp⟩]
  exact ⟨_, he, resetCd_ended _ 5 env (by rwa [toUs_pwr]) (by rwa [toUs_pwr])⟩

/-! ### The releases of the brown-outs -/

theorem execVioBrownOutRelease_boots (s : State) (env : BootEnv) (hio : s.pwr.vioLow = true) (hcore : s.pwr.vcoreLow = false) :
    ∃ t, exec (.vioBrownOutRelease env) s = .next t ∧ BootEnded t := by
  have he : exec (.vioBrownOutRelease env) s = .next (bootCd { s with pwr := { s.pwr with vioLow := false } } env) := by
    show execVioBrownOutRelease env s = _
    simp only [execVioBrownOutRelease, hio, hcore, Bool.false_eq_true, if_true, if_false]
  exact ⟨_, he, bootCd_ended _ env⟩

theorem execVcoreBrownOutRelease_boots (s : State) (env : BootEnv) (hio : s.pwr.vioLow = false) (hcore : s.pwr.vcoreLow = true) :
    ∃ t, exec (.vcoreBrownOutRelease env) s = .next t ∧ BootEnded t := by
  have he : exec (.vcoreBrownOutRelease env) s = .next (bootCd { s with pwr := { s.pwr with vcoreLow := false } } env) := by
    show execVcoreBrownOutRelease env s = _
    simp only [execVcoreBrownOutRelease, hio, hcore, Bool.false_eq_true, if_true, if_false]
  exact ⟨_, he, bootCd_ended _ env⟩

/-- With the other supply low, the release of either brown-out shows the supply and boots nothing (R61). -/
theorem brownOutReleases_wait (s : State) (env : BootEnv) (hio : s.pwr.vioLow = true) (hcore : s.pwr.vcoreLow = true) :
    exec (.vioBrownOutRelease env) s = .next { s with pwr := { s.pwr with vioLow := false } } ∧
      exec (.vcoreBrownOutRelease env) s = .next { s with pwr := { s.pwr with vcoreLow := false } } := by
  constructor
  · show execVioBrownOutRelease env s = _
    simp only [execVioBrownOutRelease, hio, hcore, if_true]
  · show execVcoreBrownOutRelease env s = _
    simp only [execVcoreBrownOutRelease, hio, hcore, if_true]

/-- Settles O8: a boot ends in READY whatever its surroundings, and each reset boots where both supplies are up. -/
theorem bootsEndWithReady : Obligations.BootsEndWithReady :=
  ⟨execPowerOnReset_boots, execExternalReset_boots, execExternalReset_ignores, execExternalReset_either, execMpWatchdogExpiry_boots,
    execTrialWatchdogExpiry_boots, execVioBrownOutRelease_boots, execVcoreBrownOutRelease_boots, brownOutReleases_wait⟩

end Sys2Proof.Machine
end

section
/-! O7: the brown-outs and the loss of the always-on supply. -/

namespace Sys2Proof.Machine

/-! ### A bridge at rest -/

/-- A gate whose channel commands neither of its switches is off, where the axis is DISABLED and its trip input asks for nothing (R8, R60). -/
theorem gateOn_of_idle {s : State} {n : Axis} (g : Gate) (ha : axSt s n = .disabled) (ho : (s.gd[n]).out = 0) : gateOn s n g = false := by
  have hcd : cdDemand s n = .off := by rw [cdDemand, ha]
  have hdd : ddDemand s n = .switching := by
    rw [ddDemand, ho, ha]
    rfl
  unfold gateOn
  rw [hcd, hdd]
  simp [Demand.worse]

/-! ### The CD held in reset (R61, R93) -/

@[simp] theorem clearCd_ax (s : State) : (clearCd s).ax = Vector.replicate 8 AxBase.init := rfl

@[simp] theorem clearCd_gd (s : State) : (clearCd s).gd = Vector.replicate 8 { GdAx.init with tripAt := none } := rfl

theorem axSt_clearCd (s : State) (n : Axis) : axSt (clearCd s) n = .disabled := by
  simp [axSt, AxBase.init]

theorem gateOn_clearCd (s : State) (n : Axis) (g : Gate) : gateOn (clearCd s) n g = false :=
  gateOn_of_idle g (axSt_clearCd s n) (by simp [GdAx.init])

/-- A reset of the CD holds it in reset until its boot (R93 to R95). -/
theorem clearCd_held (s : State) : HeldInReset s (clearCd s) where
  booted := rfl
  ready := rfl
  standby := rfl
  disabled := axSt_clearCd s
  gates := gateOn_clearCd s
  pending := rfl
  slices := rfl
  couples := rfl
  fuse := rfl

/-- The rewritten record of a trial leaves the queue, the slices, the coupling count and the fuses alone (R106). -/
theorem revertTrial_rest (s : State) : (revertTrial s).pending = s.pending ∧ (revertTrial s).rcd = s.rcd ∧
    (revertTrial s).nd.coupleCount = s.nd.coupleCount ∧ (revertTrial s).fuse = s.fuse := by
  unfold revertTrial
  split
  · refine ⟨rfl, rfl, ?_, rfl⟩
    unfold writeRec
    dsimp only
    split <;> rfl
  · exact ⟨rfl, rfl, rfl, rfl⟩

/-- A brown-out holds the CD in reset with its cause bit, and the supplies that are low stay so (R61, R93, R96). -/
theorem holdCd_held (s : State) (bit : Nat) (hb : bit < 32) : HeldInReset s (holdCd s bit) ∧ (holdCd s bit).pwr.vioLow = s.pwr.vioLow ∧
    (holdCd s bit).pwr.vcoreLow = s.pwr.vcoreLow ∧ rgB (holdCd s bit) Sig.RESET_CAUSE bit = true := by
  obtain ⟨hpending, hrcd, hcount, hfuse⟩ := revertTrial_rest s
  have h := clearCd_held (revertTrial s)
  refine ⟨⟨h.booted, h.ready, h.standby, h.disabled, ?_, h.pending.trans hpending, ?_, h.couples.trans hcount, h.fuse.trans hfuse⟩,
    ?_, ?_, ?_⟩
  · exact fun n g => gateOn_of_idle g (axSt_clearCd (revertTrial s) n) (by simp [holdCd, GdAx.init])
  · exact h.slices.trans (congrArg Rec.slices hrcd)
  · exact (congrArg Pwr.vioLow (revertTrial_pwr s) :)
  · exact (congrArg Pwr.vcoreLow (revertTrial_pwr s) :)
  · rw [holdCd, rgB_setB _ _ _ _ _ hb, if_pos rfl]

/-! ### The obligation -/

theorem execVioBrownOut_holds (s : State) (hs : s.pwr.st ≠ .off) :
    ∃ t, exec .vioBrownOut s = .next t ∧ HeldInReset s t ∧ t.pwr.vioLow = true ∧ t.pwr.vcoreLow = s.pwr.vcoreLow ∧
      rgB t Sig.RESET_CAUSE 2 = true := by
  have he : exec .vioBrownOut s = .next (holdCd { s with pwr := { s.pwr with vioLow := true } } 2) := by
    show execVioBrownOut s = _
    rw [execVioBrownOut, if_neg hs]
  obtain ⟨hheld, hio, hcore, hcause⟩ := holdCd_held { s with pwr := { s.pwr with vioLow := true } } 2 (by decide)
  exact ⟨_, he, { hheld with }, hio, hcore, hcause⟩

theorem execVcoreBrownOut_holds (s : State) (hs : s.pwr.st = .standby ∨ s.pwr.st = .run) :
    ∃ t, exec .vcoreBrownOut s = .next t ∧ HeldInReset s t ∧ t.pwr.vcoreLow = true ∧ t.pwr.vioLow = s.pwr.vioLow ∧
      rgB t Sig.RESET_CAUSE 3 = true := by
  have hon : ¬(s.pwr.st = .off ∨ s.pwr.st = .sleep) := by rcases hs with h | h <;> simp [h]
  have he : exec .vcoreBrownOut s = .next (holdCd { s with pwr := { s.pwr with vcoreLow := true } } 3) := by
    show execVcoreBrownOut s = _
    rw [execVcoreBrownOut, if_neg hon]
  obtain ⟨hheld, hio, hcore, hcause⟩ := holdCd_held { s with pwr := { s.pwr with vcoreLow := true } } 3 (by decide)
  exact ⟨_, he, { hheld with }, hcore, hio, hcause⟩

theorem execAlwaysOnPor_off (s : State) :
    ∃ t, exec .alwaysOnPor s = .next t ∧ t.pwr.st = .off ∧ t.pwr.ready = false ∧ t.regs = [] ∧ t.link = Link.init ∧
      t.rcd.slices = s.rcd.slices ∧ t.fuse = s.fuse ∧ t.pending = s.pending := by
  obtain ⟨hpending, hrcd, -, hfuse⟩ := revertTrial_rest s
  exact ⟨goOff (revertTrial s), rfl, rfl, rfl, rfl, rfl, (congrArg Rec.slices hrcd :), hfuse, hpending⟩

/-- Settles O7: what a reset of the CD leaves standing, and the cause bit that a brown-out sets. -/
theorem brownOutsHoldTheCdInReset : Obligations.BrownOutsHoldTheCdInReset :=
  ⟨execVioBrownOut_holds, execVcoreBrownOut_holds, execAlwaysOnPor_off⟩

end Sys2Proof.Machine
end

section
/-! O9: the supplies, the orderly stop and the flags of SUP_STAT. -/

namespace Sys2Proof.Machine

/-! ### Time brought forward -/

/-- Time brought forward moves the clocks and the modules alone. -/
theorem toTick_rest (s : State) (t : Nat) : ∃ clk pwm, toTick s t = { s with clk := clk, pwm := pwm } := by
  unfold toTick
  split <;> exact ⟨_, _, rfl⟩

theorem toUs_rest (s : State) (t : Nat) : ∃ clk pwm, toUs s t = { s with clk := clk, pwm := pwm } := by
  unfold toUs
  split
  · split
    · exact toTick_rest s _
    · exact ⟨_, s.pwm, rfl⟩
  · exact ⟨_, _, rfl⟩

/-! ### The orderly stop (R514, R582) -/

theorem rgB_of_regs {s t : State} (h : t.regs = s.regs) (k i : Nat) : rgB t k i = rgB s k i :=
  congrArg (fun f => (regRead f k).getLsbD i) h

/-- A bit of a signal that posting, staging and the fault manager leave alone. -/
theorem Quiet.rgB {s t : State} (h : Quiet s t) {k : Nat} (i : Nat) (hk : k ∉ ledgerKeys) : rgB t k i = rgB s k i :=
  congrArg (fun w => w.getLsbD i) (h.keys k hk)

theorem Quiet.stopping {s t : State} (h : Quiet s t) : t.pwr.stopping = s.pwr.stopping := (congrArg Pwr.stopping h.pwr :)

/-- An operation carried out for every axis leaves each of them without a grant, where it does so for its own and gives none back. -/
theorem forEach_out (f : State → Axis → State) (hkeep : ∀ s m n, StaysOut n s (f s m)) (hout : ∀ s n, Out (axSt (f s n) n)) (s : State)
    (n : Axis) : Out (axSt (forEach allAxes s f) n) := by
  obtain ⟨xs, ys, he⟩ := List.append_of_mem (mem_allAxes n)
  have hsplit : forEach allAxes s f = forEach ys (f (forEach xs s f) n) f := by
    rw [he]
    exact List.foldl_append
  rw [hsplit]
  exact ((StaysOut.frame n).each ys f (fun s m _ => hkeep s m n) _).out (hout _ n)

/-- The axes in their safe patterns, without plans, commands that wait and open snapshots: an orderly stop before it shows in the flags. -/
def stopBegun (s : State) : State :=
  stageSnaps (emptyDeferred (forEach allAxes (forEach allAxes s toPattern) discardPlan)) (fun _ => true)

theorem stopBegun_quiet (s : State) : Quiet s (stopBegun s) :=
  (((Quiet.each allAxes toPattern toPattern_quiet s).trans (Quiet.each allAxes discardPlan discardPlan_quiet _)).trans
    (emptyDeferred_quiet _)).trans (stageSnaps_quiet _ _)

theorem stopBegun_out (s : State) (n : Axis) : Out (axSt (stopBegun s) n) := by
  have h := StaysOut.frame n
  refine (stageSnaps_keeps h _ _).out ((dropDeferred_keeps h.toPostFrame _ _ _).out
    ((h.each _ _ (fun s m _ => discardPlan_keeps h s m) _).out ?_))
  exact forEach_out toPattern (fun s m n => toPattern_keeps (StaysOut.frame n) s m) toPattern_out s n

/-- The flags of a stop that has begun: STOP_DONE cleared, and the instant from which its 20 ms run (R84, R582). -/
def stopFlagged (s : State) : State :=
  let s := setB s Sig.SUP_STAT 3 false
  { s with pwr := { s.pwr with stopping := true, stopUs := s.clk.us } }

theorem beginStop_eq {s : State} (h : s.pwr.stopping = false) : beginStop s = stopFlagged (stopBegun s) := by
  unfold beginStop stopFlagged stopBegun
  rw [if_neg (by simp [h])]

theorem stopFlagged_ax (s : State) : SameAx s (stopFlagged s) := rfl

theorem stopFlagged_regs (s : State) : (stopFlagged s).regs = (setB s Sig.SUP_STAT 3 false).regs := rfl

/-- The summary slice of a stop changes the record and the counts of staging alone (R581, R582). -/
theorem finalSummary_keeps {R : State → State → Prop} (h : PostFrame R) (s : State) : R s (finalSummary s) :=
  h.trans (makeRoom_keeps h _ _ s) (h.trans (rcd_keeps h _ _) (rcd_keeps h _ _))

/-- A state in an orderly stop that began at the instant of another state, with its signals but the flag STOP_DONE. -/
structure Stopping (s t : State) : Prop where
  stopping : t.pwr.stopping = true
  us : t.clk.us = s.clk.us
  bits : ∀ k i, i < 32 → k ∉ ledgerKeys → (k, i) ≠ (Sig.SUP_STAT, 3) → rgB t k i = rgB s k i
  out : s.pwr.stopping = false → ∀ n, Out (axSt t n)

theorem beginStop_stopping {s : State} (h : s.pwr.stopping = false) : Stopping s (beginStop s) := by
  have hq := stopBegun_quiet s
  have hax (n : Axis) : Out (axSt (stopFlagged (stopBegun s)) n) := ((stopFlagged_ax _).axSt n).symm ▸ stopBegun_out s n
  rw [beginStop_eq h]
  refine ⟨rfl, hq.us, fun k i hi hk hne => ?_, fun _ => hax⟩
  rw [rgB_of_regs (stopFlagged_regs _), ← hq.rgB i hk]
  by_cases e : k = Sig.SUP_STAT
  · subst e
    rw [rgB_setB _ _ _ _ _ hi, if_neg (fun e => hne (by rw [e]))]
  · exact rgB_setB_ne _ _ _ _ e

/-- The orderly stop of a state that may be in one already. -/
theorem orderlyStop_stopping (s : State) : Stopping s (orderlyStop s) := by
  unfold orderlyStop
  cases h : s.pwr.stopping
  · have hb := beginStop_stopping h
    have hq : Quiet (beginStop s) (finalSummary (beginStop s)) := finalSummary_keeps quiet_post _
    have ha : SameAx (beginStop s) (finalSummary (beginStop s)) := finalSummary_keeps sameAx_frame.toPostFrame _
    simp only [Bool.false_eq_true, if_false]
    exact ⟨hq.stopping.trans hb.stopping, hq.us.trans hb.us, fun k i hi hk hne => (hq.rgB i hk).trans (hb.bits k i hi hk hne),
      fun hs n => (ha.axSt n).symm ▸ hb.out hs n⟩
  · exact ⟨h, rfl, fun _ _ _ _ _ => rfl, fun hs => absurd (h.symm.trans hs) (by decide)⟩

theorem execSupplyLoss_stops (s : State) (hp : linkPowered s = true) (hb : s.pwr.booted = true) :
    ∃ t, exec .supplyLoss s = .next t ∧ t.pwr.stopping = true ∧ rgB t Sig.SUP_STAT 4 = true ∧ t.clk.us = s.clk.us ∧
      (s.pwr.stopping = false → ∀ n, axSt t n = .disabled ∨ axSt t n = .fault ∨ axSt t n = .safeShort) := by
  have he : exec .supplyLoss s = .next (orderlyStop (devFault (evt (setB s Sig.SUP_STAT 4 true) 77) 43)) := by
    show execSupplyLoss s = _
    rw [execSupplyLoss, hp, hb]
    rfl
  have hq : Quiet (setB s Sig.SUP_STAT 4 true) (devFault (evt (setB s Sig.SUP_STAT 4 true) 77) 43) :=
    (evt_quiet _ 77).trans (devFault_quiet _ 43)
  have h := orderlyStop_stopping (devFault (evt (setB s Sig.SUP_STAT 4 true) 77) 43)
  refine ⟨_, he, h.stopping, ?_, h.us.trans hq.us, fun hs => h.out (hq.stopping.trans hs)⟩
  rw [h.bits _ _ (by decide) (by decide) (by decide), hq.rgB _ (by decide), rgB_setB _ _ _ _ _ (by decide), if_pos rfl]

theorem execThermalStop_stops (s : State) (hp : linkPowered s = true) :
    ∃ t, exec .thermalStop s = .next t ∧ t.pwr.stopping = true ∧ rgB t Sig.HC_STAT 0 = true ∧ t.clk.us = s.clk.us ∧
      (s.pwr.stopping = false → ∀ n, axSt t n = .disabled ∨ axSt t n = .fault ∨ axSt t n = .safeShort) := by
  have hst : s.pwr.st = .run ∨ s.pwr.st = .standby := by simpa [linkPowered, or_comm] using hp
  have he : exec .thermalStop s = .next (orderlyStop (setB (devFault s 42) Sig.HC_STAT 0 true)) := by
    show execThermalStop s = _
    rw [execThermalStop, if_pos hst]
  have hq := devFault_quiet s 42
  have h := orderlyStop_stopping (setB (devFault s 42) Sig.HC_STAT 0 true)
  refine ⟨_, he, h.stopping, ?_, h.us.trans hq.us, fun hs => h.out (hq.stopping.trans hs)⟩
  rw [h.bits _ _ (by decide) (by decide) (by decide), rgB_setB _ _ _ _ _ (by decide), if_pos rfl]

/-- The staging of an ended stop is empty: the last slice is committed, or 20 ms have run out (R514, R582). -/
def stopDrained (s : State) : State :=
  if s.rcd.staged.isEmpty then s
  else { toUs s (s.pwr.stopUs + 20000) with rcd := { (toUs s (s.pwr.stopUs + 20000)).rcd with staged := [] } }

theorem stopDrained_drained (s : State) : (stopDrained s).rcd.staged = [] ∧ (stopDrained s).regs = s.regs := by
  unfold stopDrained
  split
  case isTrue h => exact ⟨List.isEmpty_iff.mp h, rfl⟩
  case isFalse =>
    obtain ⟨clk, pwm, e⟩ := toUs_rest s (s.pwr.stopUs + 20000)
    rw [e]
    exact ⟨rfl, rfl⟩

/-- STOP_DONE in the flags (R84), the idle time begun anew. -/
def stopEnded (s : State) : State := idleAgain (setB { s with pwr := { s.pwr with stopping := false } } Sig.SUP_STAT 3 true)

theorem stopEnded_regs (s : State) : (stopEnded s).regs = (setB s Sig.SUP_STAT 3 true).regs := rfl

theorem execStopDone_ends (s : State) (hs : s.pwr.stopping = true) :
    ∃ t, exec .stopDone s = .next t ∧ t.pwr.stopping = false ∧ t.rcd.staged = [] ∧ rgB t Sig.SUP_STAT 3 = true ∧
      ∀ k, k ≠ Sig.SUP_STAT → rg t k = rg s k := by
  have he : exec .stopDone s = .next (stopEnded (stopDrained s)) := by
    show execStopDone s = _
    unfold execStopDone stopEnded stopDrained
    rw [if_pos hs]
  obtain ⟨hstaged, hregs⟩ := stopDrained_drained s
  refine ⟨_, he, rfl, hstaged, ?_, fun k hk => ?_⟩
  · rw [rgB_of_regs (stopEnded_regs _), rgB_setB _ _ _ _ _ (by decide), if_pos rfl]
  · calc rg (stopEnded (stopDrained s)) k
        = rg (setB (stopDrained s) Sig.SUP_STAT 3 true) k := congrArg (fun f => regRead f k) (stopEnded_regs _)
      _ = rg (stopDrained s) k := rg_setB_ne _ _ _ hk
      _ = rg s k := congrArg (fun f => regRead f k) hregs

/-! ### Flags of one signal (R55, R61, R84) -/

/-- A flag written shows its value and changes nothing else. -/
theorem setB_shows (s : State) (k i : Nat) (b : Bool) (hi : i < 32) : rgB (setB s k i b) k i = b ∧ OnlySignal k s (setB s k i b) :=
  ⟨by rw [rgB_setB _ _ _ _ _ hi, if_pos rfl], onlySignal_setR s k _⟩

theorem execHoldupSwitchOpen_shows (s : State) :
    ∃ t, exec .holdupSwitchOpen s = .next t ∧ rgB t Sig.SUP_STAT 5 = true ∧ OnlySignal Sig.SUP_STAT s t :=
  ⟨_, rfl, setB_shows s _ 5 true (by decide)⟩

theorem execHoldupSwitchClose_shows (s : State) :
    ∃ t, exec .holdupSwitchClose s = .next t ∧ rgB t Sig.SUP_STAT 5 = false ∧ OnlySignal Sig.SUP_STAT s t :=
  ⟨_, rfl, setB_shows s _ 5 false (by decide)⟩

theorem execVfsrcWindowExit_shows (s : State) :
    ∃ t, exec .vfsrcWindowExit s = .next t ∧ rgB t Sig.SUP_STAT 7 = !rgB s Sig.SUP_STAT 7 ∧ OnlySignal Sig.SUP_STAT s t :=
  ⟨_, rfl, setB_shows s _ 7 _ (by decide)⟩

/-! ### VANA (R261) -/

/-- VANA low before its fault event: the words held from now on are invalid, and the flags show it (R84, R261). -/
def vanaLowShown (s : State) : State :=
  setB { orR s Sig.SMP_STAT (invalidMask s) with pwr := { s.pwr with vanaLow := true }, hk := { s.hk with badFrom := s.clk.tb } }
    Sig.SUP_STAT 6 true

theorem execVanaLow_shows (s : State) (hv : s.pwr.vanaLow = false) :
    ∃ t, exec .vanaLow s = .next t ∧ t.pwr.vanaLow = true ∧ rgB t Sig.SUP_STAT 6 = true ∧ adcValid t = false ∧ t.ds = s.ds := by
  have he : exec .vanaLow s = .next (devFault (vanaLowShown s) 34) := by
    show execVanaLow s = _
    rw [execVanaLow, hv]
    rfl
  have hq := devFault_quiet (vanaLowShown s) 34
  have hlow : (devFault (vanaLowShown s) 34).pwr.vanaLow = true := (congrArg Pwr.vanaLow hq.pwr :)
  refine ⟨_, he, hlow, ?_, by rw [adcValid, hlow]; rfl, hq.ds⟩
  rw [hq.rgB _ (by decide), vanaLowShown, rgB_setB _ _ _ _ _ (by decide), if_pos rfl]

theorem execVanaRecover_shows (s : State) :
    ∃ t, exec .vanaRecover s = .next t ∧ t.pwr = { s.pwr with vanaLow := false } ∧ adcValid t = true ∧
      rgB t Sig.SUP_STAT 6 = false ∧ ∀ k, k ≠ Sig.SUP_STAT → rg t k = rg s k := by
  refine ⟨_, rfl, rfl, rfl, ?_, fun k hk => rg_setB_ne _ _ _ hk⟩
  rw [rgB_setB _ _ _ _ _ (by decide), if_pos rfl]

/-- Settles O9: what the fault events and the orderly stop keep, and the flag that each event of a supply writes. -/
theorem suppliesStopTheDeviceAndShowInSupStat : Obligations.SuppliesStopTheDeviceAndShowInSupStat :=
  ⟨execSupplyLoss_stops, execThermalStop_stops, execStopDone_ends, execHoldupSwitchOpen_shows, execHoldupSwitchClose_shows,
    execVfsrcWindowExit_shows, execVanaLow_shows, execVanaRecover_shows⟩

end Sys2Proof.Machine
end

section
/-! O10: the VDRV lock-out and the hard shutdown. -/

namespace Sys2Proof.Machine

/-! ### Gates off (R59, R60) -/

theorem gateOn_of_vdrvLock {s : State} (h : s.ds.vdrvLock = true) (n : Axis) (g : Gate) : gateOn s n g = false := by
  simp [gateOn, h]

theorem gateOn_of_hot {s : State} (h : s.ds.hot = true) (n : Axis) (g : Gate) : gateOn s n g = false := by
  simp [gateOn, h]

/-! ### What a lock-out keeps (R60, R531) -/

theorem riseMax_not_supStat : Sig.SUP_STAT ∉ allAxes.map (fun n => Sig.GD_RISE_MAX n.val) := by decide

theorem RiseOnly.supStat {s t : State} (h : RiseOnly s t) : rg t Sig.SUP_STAT = rg s Sig.SUP_STAT :=
  h.sigs _ riseMax_not_supStat (by decide)

/-- An axis that a lock-out takes out of service, in FAULT where it was enabled (R60). -/
theorem toLockedOut_quiet (s : State) (n : Axis) : Quiet s (toLockedOut s n) :=
  Quiet.ite (Quiet.refl s) ((modGd_quiet s n _).trans (toFault_quiet _ n false))

/-- The lock-out with every axis out of service, before its fault event (R59, R60, R84). -/
def lockedOut (s : State) : State :=
  forEach allAxes (evt (orR (withDs s (fun s =>
    { s with ds := { s.ds with vdrvLock := true }, pwr := { s.pwr with pstLater := none } })) Sig.SUP_STAT 6) 78) toLockedOut

/-- VDRV_LOCK: the lock-out, with its fault event where the CD is powered. -/
def lockReported (s : State) : State :=
  if linkPowered s then devFault { s with sup := { s.sup with epVdrv := true } } 32 else s

theorem lockReported_quiet (s : State) : Quiet s (lockReported s) :=
  Quiet.ite ((Quiet.upd_open s s.rt s.link s.emq s.rcd _).trans (devFault_quiet _ 32)) (Quiet.refl s)

/-- The lock-out stands, and shows in both its bits of SUP_STAT (R59, R84). -/
theorem lockedOut_shows (s : State) : (lockedOut s).ds.vdrvLock = true ∧ rgB (lockedOut s) Sig.SUP_STAT 2 = true ∧
    rgB (lockedOut s) Sig.SUP_STAT 1 = true := by
  have hd := (withDs_after s (fun s => { s with ds := { s.ds with vdrvLock := true }, pwr := { s.pwr with pstLater := none } })).ds
  unfold lockedOut
  generalize withDs s _ = d at hd
  have hq : Quiet (orR d Sig.SUP_STAT 6) (forEach allAxes (evt (orR d Sig.SUP_STAT 6) 78) toLockedOut) :=
    (evt_quiet _ 78).trans (Quiet.each allAxes toLockedOut toLockedOut_quiet _)
  refine ⟨(congrArg Ds.vdrvLock (hq.ds.trans hd) :), ?_, ?_⟩
  · rw [hq.rgB _ (by decide), rgB_orR _ _ _ _ (by decide), show Nat.testBit 6 2 = true from rfl, Bool.or_true]
  · rw [hq.rgB _ (by decide), rgB_orR _ _ _ _ (by decide), show Nat.testBit 6 1 = true from rfl, Bool.or_true]

theorem execVdrvLock_locks (s : State) (h : s.ds.vdrvLock = false) :
    ∃ t, exec .vdrvLock s = .next t ∧ t.ds.vdrvLock = true ∧ (∀ n g, gateOn t n g = false) ∧ rgB t Sig.SUP_STAT 2 = true ∧
      rgB t Sig.SUP_STAT 1 = true := by
  have he : exec .vdrvLock s = .next (lockReported (lockedOut s)) := by
    show execVdrvLock s = _
    unfold execVdrvLock lockReported lockedOut
    rw [if_neg (by simp [h])]
  obtain ⟨hds, h2, h1⟩ := lockedOut_shows s
  have hq := lockReported_quiet (lockedOut s)
  have hlock : (lockReported (lockedOut s)).ds.vdrvLock = true := (congrArg Ds.vdrvLock hq.ds).trans hds
  exact ⟨_, he, hlock, gateOn_of_vdrvLock hlock, (hq.rgB 2 (by decide)).trans h2, (hq.rgB 1 (by decide)).trans h1⟩

/-! ### A source released and a self-test that was postponed (R90, R508) -/

/-- A relation between a state and a later one that the release of a source and a protection self-test keep. -/
structure ReleaseFrame (R : State → State → Prop) : Prop where
  refl : ∀ s, R s s
  trans : ∀ {s t u}, R s t → R t u → R s u
  event : ∀ (s : State) (code idx count : Nat) (data : List Byte), R s (stageEvent s code idx count data)
  src : ∀ (s : State) (code : Nat) (f : FltSrc), R s (setSrc s code f)
  ax : ∀ (s : State) (n : Axis) (f : AxBase → AxBase), (∀ b, (f b).st = b.st) → R s (modAx s n f)
  reg : ∀ (s : State) (k : Nat) (v : Word), k ∈ Sig.FLT_STAT :: Sig.BOOT_STAT :: allAxes.map (fun n => Sig.GD_PST_RESULT n.val) →
    R s (setR s k v)

namespace ReleaseFrame

variable {R : State → State → Prop}

theorem ite (_h : ReleaseFrame R) {c : Prop} [Decidable c] {s a b : State} (ha : R s a) (hb : R s b) : R s (if c then a else b) := by
  split
  · exact ha
  · exact hb

theorem each (h : ReleaseFrame R) {α : Type} (xs : List α) (f : State → α → State) (hf : ∀ s, ∀ x ∈ xs, R s (f s x)) (s : State) :
    R s (forEach xs s f) := by
  induction xs generalizing s with
  | nil => exact h.refl s
  | cons x xs ih => exact h.trans (hf s x List.mem_cons_self) (ih (fun s y hy => hf s y (List.mem_cons_of_mem x hy)) (f s x))

/-- A source released (R508). -/
theorem releaseSrc (h : ReleaseFrame R) (s : State) (code : Nat) : R s (releaseSrc s code) := by
  unfold Machine.releaseSrc
  refine h.ite ?_ (h.refl s)
  refine h.trans (h.trans (h.trans (h.src s _ _) (h.reg _ _ _ (by decide))) (h.each _ _ (fun t n _ => ?_) _)) (h.event _ _ _ _ _)
  exact h.ite (h.ax t n _ (by exact fun _ => rfl)) (h.ite (h.ax t n _ (by exact fun _ => rfl)) (h.refl t))

theorem storeTest (h : ReleaseFrame R) (s : State) (n : Axis) (fail : Nat) : R s (storeTest s n fail) := by
  have hk : Sig.GD_PST_RESULT n.val ∈ Sig.FLT_STAT :: Sig.BOOT_STAT :: allAxes.map (fun n => Sig.GD_PST_RESULT n.val) :=
    List.mem_cons_of_mem _ (List.mem_cons_of_mem _ (List.mem_map.mpr ⟨n, mem_allAxes n, rfl⟩))
  exact h.ite (h.reg s _ _ hk) (h.trans (h.reg s _ _ hk) (h.reg _ _ _ (by decide)))

/-- The self-test that a lock-out postponed (R90). -/
theorem postponedTest (h : ReleaseFrame R) (s : State) (fails : List (Axis × Nat)) : R s (postponedTest s fails) := by
  unfold Machine.postponedTest
  refine h.ite (h.trans (h.trans (h.reg s _ _ (by decide)) (h.each _ _ (fun t n _ => ?_) _)) (h.event _ _ _ _ _)) (h.refl s)
  exact h.storeTest t n _

end ReleaseFrame

/-! ### The end of a lock-out (R60, R90) -/

/-- What the end of a lock-out keeps: the DS, the states of the axes and SUP_STAT. -/
structure KeepsLock (s t : State) : Prop where
  ds : t.ds = s.ds
  axes : ∀ n, axSt t n = axSt s n
  supStat : rg t Sig.SUP_STAT = rg s Sig.SUP_STAT

theorem keepsLock_post : PostFrame KeepsLock where
  refl _ := ⟨rfl, fun _ => rfl, rfl⟩
  trans h g := ⟨g.ds.trans h.ds, fun n => (g.axes n).trans (h.axes n), g.supStat.trans h.supStat⟩
  posts _ _ _ _ _ := ⟨rfl, fun _ => rfl, rfl⟩
  ledger s _ v hk := ⟨rfl, fun _ => rfl, rg_setR_ne s v (fun e => absurd (e ▸ hk) (by decide))⟩

theorem keepsLock_release : ReleaseFrame KeepsLock where
  refl := keepsLock_post.refl
  trans := keepsLock_post.trans
  event := stageEvent_keeps keepsLock_post
  src _ _ _ := ⟨rfl, fun _ => rfl, rfl⟩
  ax s m f hf := by
    refine ⟨rfl, fun n => ?_, rfl⟩
    by_cases e : m = n
    · exact e ▸ (StaysOut.axSt_modAx_same s m f).trans (hf _)
    · exact StaysOut.axSt_modAx_ne s f e
  reg s _ v hk := ⟨rfl, fun _ => rfl, rg_setR_ne s v (fun e => absurd (e ▸ hk) (by decide))⟩

/-- A lock-out that has ended, before what it left to do (R60, R84). -/
def lockReleased (s : State) : State :=
  setB (withDs s (fun s => { s with ds := { s.ds with vdrvLock := false } })) Sig.SUP_STAT 2 false

theorem lockReleased_shows (s : State) : (lockReleased s).ds.vdrvLock = false ∧ rgB (lockReleased s) Sig.SUP_STAT 2 = false ∧
    rgB (lockReleased s) Sig.SUP_STAT 1 = rgB s Sig.SUP_STAT 1 ∧ ∀ n, axSt (lockReleased s) n = axSt s n := by
  have hd := withDs_after s (fun s => { s with ds := { s.ds with vdrvLock := false } })
  unfold lockReleased
  generalize withDs s _ = d at hd
  refine ⟨(congrArg Ds.vdrvLock hd.ds :), ?_, ?_, fun n => SameAx.axSt (s := s) (t := d) hd.ax n⟩
  · rw [rgB_setB _ _ _ _ _ (by decide), if_pos rfl]
  · rw [rgB_setB _ _ _ _ _ (by decide), if_neg (by decide)]
    exact congrArg (fun w => w.getLsbD 1) hd.supStat

theorem execVdrvLockRelease_ends (s : State) (fails : List (Axis × Nat)) (h : s.ds.vdrvLock = true) :
    ∃ t, exec (.vdrvLockRelease fails) s = .next t ∧ t.ds.vdrvLock = false ∧ rgB t Sig.SUP_STAT 2 = false ∧
      rgB t Sig.SUP_STAT 1 = rgB s Sig.SUP_STAT 1 ∧ ∀ n, axSt t n = axSt s n := by
  obtain ⟨hds, h2, h1, hax⟩ := lockReleased_shows s
  have hk : ∃ t, exec (.vdrvLockRelease fails) s = .next t ∧ KeepsLock (lockReleased s) t := by
    refine ⟨_, show execVdrvLockRelease fails s = _ from if_pos h, keepsLock_release.ite ?_ ⟨rfl, fun _ => rfl, rfl⟩⟩
    exact keepsLock_release.trans (keepsLock_release.releaseSrc _ _) (keepsLock_release.postponedTest _ _)
  obtain ⟨t, he, hkeep⟩ := hk
  have hbit (i : Nat) : rgB t Sig.SUP_STAT i = rgB (lockReleased s) Sig.SUP_STAT i :=
    congrArg (fun w => w.getLsbD i) hkeep.supStat
  exact ⟨t, he, (congrArg Ds.vdrvLock hkeep.ds).trans hds, (hbit 2).trans h2, (hbit 1).trans h1, fun n => (hkeep.axes n).trans (hax n)⟩

/-! ### The hard shutdown (R531) -/

/-- The latch of a hard shutdown, with every enabled axis out of service (R531). -/
def shutDown (s : State) : State :=
  let s := { s with ds := { s.ds with hot := true } }
  forEach (allAxes.filter (fun n => decide (axSt s n ≠ .disabled))) s (fun s n => outOfService s n 5)

theorem shutDown_hot (s : State) : (shutDown s).ds.hot = true := by
  have hd : RiseOnly { s with ds := { s.ds with hot := true } } (shutDown s) :=
    RiseOnly.bridge.each _ _ (fun t n _ => RiseOnly.bridge.gd t n _) _
  exact congrArg Ds.hot hd.ds

theorem execHardShutdown_latches (s : State) (hp : linkPowered s = true) :
    ∃ t, exec .hardShutdown s = .next t ∧ t.ds.hot = true ∧ ∀ n g, gateOn t n g = false := by
  have he : exec .hardShutdown s = .next (withDs s shutDown) := show execHardShutdown s = _ from if_pos hp
  have hhot : (withDs s shutDown).ds.hot = true := (congrArg Ds.hot (withDs_after s shutDown).ds).trans (shutDown_hot s)
  exact ⟨_, he, hhot, gateOn_of_hot hhot⟩

theorem execHardShutdownClear_ends (s : State) (h : s.ds.hot = true) :
    ∃ t, exec .hardShutdownClear s = .next t ∧ t.ds.hot = false ∧ ∀ n, axSt t n = axSt s n := by
  obtain ⟨hds, hax, -⟩ := withDs_of_dsOnly (s := s) (f := fun s => { s with ds := { s.ds with hot := false } }) rfl
  have hk := keepsLock_release.releaseSrc (withDs s (fun s => { s with ds := { s.ds with hot := false } })) (devSrc 41)
  exact ⟨_, show execHardShutdownClear s = _ from if_pos h, congrArg Ds.hot (hk.ds.trans hds),
    fun n => (hk.axes n).trans (SameAx.axSt hax n)⟩

/-- Settles O10: a lock-out and a hard shutdown stand in the DS from where they turn every gate off, and their ends keep the axes. -/
theorem lockOutAndHardShutdownTurnEveryGateOff : Obligations.LockOutAndHardShutdownTurnEveryGateOff :=
  ⟨execVdrvLock_locks, execVdrvLockRelease_ends, execHardShutdown_latches, execHardShutdownClear_ends⟩

end Sys2Proof.Machine
end

section
/-! O14: the couplings. -/

namespace Sys2Proof.Machine

/-! ### Staging changes the record and the counts of staging alone -/

theorem makeRoom_rest (need fuel : Nat) (s : State) : ∃ rcd regs, makeRoom need fuel s = { s with rcd := rcd, regs := regs } := by
  induction fuel generalizing s with
  | zero => exact ⟨_, _, rfl⟩
  | succ fuel ih =>
    unfold makeRoom
    split
    · exact ⟨_, _, rfl⟩
    · split
      · obtain ⟨rcd, regs, e⟩ := ih (dropEvent { s with rcd := { s.rcd with staged := _ } })
        exact ⟨rcd, regs, e⟩
      · exact ⟨_, _, rfl⟩

theorem stageSlice_rest (s : State) (kind : Nat) (p : List Byte) (pin : Bool) :
    ∃ rcd regs, stageSlice s kind p pin = { s with rcd := rcd, regs := regs } := by
  obtain ⟨rcd, regs, e⟩ := makeRoom_rest (sliceTotal p.length) s.rcd.staged.length s
  exact ⟨_, regs, by rw [stageSlice, e]; rfl⟩

theorem stageEvent_rest (s : State) (code idx count : Nat) (data : List Byte) :
    ∃ rcd regs, stageEvent s code idx count data = { s with rcd := rcd, regs := regs } := by
  unfold stageEvent
  split <;> exact ⟨_, _, rfl⟩

/-! ### The coupling slice (R588) -/

theorem closeCoupling_rest (s : State) (result : Nat) (mohm : List Nat) :
    ∃ rcd regs, closeCoupling s result mohm = { s with rcd := rcd, regs := regs } := by
  unfold closeCoupling
  split
  · exact ⟨_, _, rfl⟩
  · obtain ⟨rcd, regs, e⟩ := stageSlice_rest { s with rcd := { s.rcd with coupling := none } } kindCoupling _ false
    exact ⟨rcd, regs, e⟩

theorem closeCoupling_keeps {R : State → State → Prop} (h : PostFrame R) (s : State) (result : Nat) (mohm : List Nat) :
    R s (closeCoupling s result mohm) := by
  unfold closeCoupling
  split
  · exact h.refl s
  · exact h.trans (rcd_keeps h s _) (stageSlice_keeps h _ _ _ _)

/-! ### COUPLING (R79, R81, R455, R588) -/

/-- A coupling in its signals, its qualification ended (R79, R84). -/
def coupledSignals (s : State) : State := setN (setB s Sig.SUP_STAT 0 false) Sig.COUPLED 1

/-- A coupling declared: its count, the probe scheduled, its slice opened and event 75 (R79, R81, R588). -/
def coupledDeclared (s : State) : State :=
  evt { s with nd := { s.nd with coupleCount := s.nd.coupleCount + 1 }, hc := { s.hc with scheduled := true },
               rcd := { s.rcd with coupling := some (s.clk.us, s.rcd.nextNote), nextNote := [] } } 75

/-- The trigger of the way to RUN changes the power block alone (R67). -/
theorem askRun_rest (s : State) : ∃ pwr, askRun s = { s with pwr := pwr } := by
  unfold askRun
  split <;> exact ⟨_, rfl⟩

theorem askRun_asks {s : State} (hs : s.pwr.st = .standby) (hb : s.pwr.clkBlocked = false) : (askRun s).pwr.toRun = true ∧
    (askRun s).pwr.st = .standby := by
  unfold askRun
  rw [if_pos ⟨hs, hb⟩]
  exact ⟨rfl, hs⟩

theorem coupledSignals_shows (s : State) : rgN (coupledSignals s) Sig.COUPLED = 1 ∧ rgB (coupledSignals s) Sig.SUP_STAT 0 = false ∧
    ∀ k, k ∉ [Sig.COUPLED, Sig.SUP_STAT] → rg (coupledSignals s) k = rg s k := by
  refine ⟨rgN_setN _ _ _ (by decide), ?_, fun k hk => ?_⟩
  · have hne : rg (coupledSignals s) Sig.SUP_STAT = rg (setB s Sig.SUP_STAT 0 false) Sig.SUP_STAT := rg_setN_ne _ _ (by decide)
    rw [rgB, hne, ← rgB, rgB_setB _ _ _ _ _ (by decide), if_pos rfl]
  · simp only [List.mem_cons, List.not_mem_nil, or_false, not_or] at hk
    exact (rg_setN_ne _ _ hk.1).trans (rg_setB_ne _ _ _ hk.2)

theorem execCoupling_declares (s : State) (hb : s.pwr.booted = true) (hp : linkPowered s = true) (hc : rgN s Sig.COUPLED = 0) :
    ∃ t, exec .coupling s = .next t ∧ rgN t Sig.COUPLED = 1 ∧ t.nd.coupleCount = s.nd.coupleCount + 1 ∧ t.hc.scheduled = true ∧
      rgB t Sig.SUP_STAT 0 = false ∧ bitOf t.link.events 75 = true ∧
      (s.pwr.st = .standby → s.pwr.clkBlocked = false → t.pwr.toRun = true) ∧ SignalsBut [Sig.COUPLED, Sig.SUP_STAT] s t := by
  have he : exec .coupling s = .next (askRun (coupledDeclared (closeCoupling (coupledSignals s) 2 noMohm))) := by
    show execCoupling s = _
    unfold execCoupling coupledDeclared coupledSignals
    rw [if_pos (by simp [hb, hp, hc])]
  obtain ⟨hcoupled, hsup, hrest⟩ := coupledSignals_shows s
  have hq : Quiet (coupledSignals s) (closeCoupling (coupledSignals s) 2 noMohm) := closeCoupling_keeps quiet_post _ _ _
  generalize closeCoupling (coupledSignals s) 2 noMohm = u at he hq
  have hpwr : u.pwr.st = s.pwr.st ∧ u.pwr.clkBlocked = s.pwr.clkBlocked :=
    ⟨(congrArg Pwr.st hq.pwr :), (congrArg Pwr.clkBlocked hq.pwr :)⟩
  obtain ⟨pwr, ha⟩ := askRun_rest (coupledDeclared u)
  have hcount : (askRun (coupledDeclared u)).nd.coupleCount = u.nd.coupleCount + 1 := by rw [ha]; rfl
  have hregs : (askRun (coupledDeclared u)).regs = u.regs := by rw [ha]; rfl
  have hkey (k : Nat) : rg (askRun (coupledDeclared u)) k = rg u k := congrArg (fun f => regRead f k) hregs
  refine ⟨_, he, ?_, ?_, by rw [ha]; rfl, ?_, ?_, ?_, ?_⟩
  · rw [rgN, hkey, hq.keys _ (by decide)]
    exact hcoupled
  · rw [hcount, hq.nd]
    rfl
  · rw [rgB, hkey, hq.keys _ (by decide)]
    exact hsup
  · rw [ha]
    show bitOf (coupledDeclared u).link.events 75 = true
    rw [coupledDeclared, evt_bit]
    rfl
  · exact fun hs hb => (askRun_asks (s := coupledDeclared u) (hpwr.1.trans hs) (hpwr.2.trans hb)).1
  · exact fun k hk hl => (hkey k).trans ((hq.keys k hl).trans (hrest k hk))

/-! ### DECOUPLING (R80, R82, R455, R588) -/

/-- A coupling ended: COUPLED cleared, event 76 (R80). -/
def decoupled (s : State) : State := evt (setN s Sig.COUPLED 0) 76

/-- A probe that has not started is cancelled, its slice closed (R455, R588). -/
def probeCancelled (s : State) : State :=
  if s.hc.scheduled && s.hc.probe.isNone then closeCoupling { s with hc := { s.hc with scheduled := false } } 2 noMohm else s

/-- Cancelling a probe changes its schedule, the record and the counts of staging alone. -/
theorem probeCancelled_rest (s : State) : ∃ rcd regs hc, probeCancelled s = { s with rcd := rcd, regs := regs, hc := hc } ∧
    (s.hc.probe = none → hc.scheduled = false) ∧ regRead regs Sig.COUPLED = rg s Sig.COUPLED := by
  unfold probeCancelled
  split
  case isTrue =>
    obtain ⟨rcd, regs, e⟩ := closeCoupling_rest { s with hc := { s.hc with scheduled := false } } 2 noMohm
    have hq : Quiet { s with hc := { s.hc with scheduled := false } } (closeCoupling { s with hc := { s.hc with scheduled := false } } 2 noMohm) :=
      closeCoupling_keeps quiet_post _ _ _
    refine ⟨rcd, regs, _, e, fun _ => rfl, ?_⟩
    have hk := hq.keys Sig.COUPLED (by decide)
    rw [e] at hk
    exact hk
  case isFalse h => exact ⟨_, _, _, rfl, fun hn => by simpa [hn] using h, rfl⟩

theorem execDecoupling_ends (s : State) (hb : s.pwr.booted = true) (hs : s.pwr.st ≠ .off) (hc : rgN s Sig.COUPLED = 1) :
    ∃ t, exec .decoupling s = .next t ∧ rgN t Sig.COUPLED = 0 ∧ t.nd.coupleCount = s.nd.coupleCount ∧ t.ax = s.ax ∧
      bitOf t.link.events 76 = true ∧ (s.hc.probe = none → t.hc.scheduled = false) := by
  have he : exec .decoupling s = .next (probeCancelled (decoupled s)) := by
    show execDecoupling s = _
    unfold execDecoupling probeCancelled decoupled
    rw [if_pos (by simp [hb, hs, hc])]
  obtain ⟨rcd, regs, hcAfter, e, hprobe, hk⟩ := probeCancelled_rest (decoupled s)
  rw [e] at he
  refine ⟨_, he, ?_, rfl, rfl, ?_, hprobe⟩
  · show (regRead regs Sig.COUPLED).toNat = 0
    rw [hk, decoupled, evt_rg, rg_setN_same]
    rfl
  · show bitOf (decoupled s).link.events 76 = true
    rw [decoupled, evt_bit]
    rfl

/-- Settles O14: the signals that a coupling writes, and what closing a coupling slice keeps. -/
theorem couplingsAreDeclaredAndEnded : Obligations.CouplingsAreDeclaredAndEnded := ⟨execCoupling_declares, execDecoupling_ends⟩

end Sys2Proof.Machine
end

section
/-! O12: the writes of PWR_REQ and the way to SLEEP. A command that is carried out is its meaning on the state that no longer hands it
over, followed by its answer. -/

namespace Sys2Proof.Machine

variable {R : State → State → Prop}

/-! ### A device command that is carried out (R155, R162) -/

theorem unhand_rest (s : State) (r : Req) : ∃ rt, unhand s r = { s with rt := rt } := by
  unfold unhand
  split
  · split <;> exact ⟨_, rfl⟩
  · exact ⟨_, rfl⟩

/-- A command of one device that nothing bars leaves its meaning and its answer. -/
theorem devCmd_accepted (h : PostFrame R) {s : State} {r : Req} {op : Nat} {special : Bool} (ha : Accepted s r op special)
    (f : State → State × Ans) : R (f (unhand s r)).1 (devCmd s r op special f) := by
  obtain ⟨rt, e⟩ := unhand_rest s r
  have hlate : lateReq { s with rt := rt } r = false := ha.intime
  have hbar : commandBar { s with rt := rt } op special = stOk := ha.unbarred
  unfold devCmd
  rw [e]
  dsimp only
  rw [hlate, hbar, if_neg (by decide)]
  simp only [if_true]
  unfold runDev
  rw [ha.single, if_neg (by decide)]
  exact h.ite (h.refl _) (h.trans (latchAns_keeps h _ r _) (answer_keeps h _ _ _ _ _))

/-! ### A SIG_WRITE of one signal (R142, R147, R155) -/

theorem sidOf_toNat (s : State) {key : Nat} (hk : key < 65536) : (sidOf s key).toNat = ringId s * 65536 + key := by
  have hr : ringId s < 16 := Nat.mod_lt _ (by decide)
  rw [sidOf, BitVec.toNat_ofNat, Nat.mod_eq_of_lt (by omega)]

theorem sidOf_mod (s : State) {key : Nat} (hk : key < 65536) : (sidOf s key).toNat % 0x10000 = key := by
  rw [sidOf_toNat s hk]
  omega

/-- The SID of a signal of the device names the signal (R142, R143). -/
theorem sidRow_sidOf (s : State) {key : Nat} (hk : key < 0x9000) :
    sidRow s false (sidOf s key) = (sigFind key).map (fun row => (key, row)) := by
  have hr : ringId s < 16 := Nat.mod_lt _ (by decide)
  have hmod : (ringId s * 65536 + key) % 0x10000 = key := by omega
  have hvalid : ringId s * 65536 + key < 2 ^ 20 ∧ (ringId s * 65536 + key) / 0x1000 % 16 ≤ 8 ∧
      (false = true ∨ (ringId s * 65536 + key) / 0x10000 = ringId s) := by
    refine ⟨?_, ?_, .inr ?_⟩ <;> omega
  unfold sidRow
  rw [sidOf_toNat s (by omega)]
  dsimp only
  rw [if_pos hvalid, hmod]

/-- A write that the checks accept is of a signal of the tables (R147). -/
theorem sidRow_of_writeStatus {s : State} {sid w : Word} (hv : writeStatus s false sid w = stOk) : ∃ p, sidRow s false sid = some p := by
  cases hf : sidRow s false sid
  case some p => exact ⟨p, rfl⟩
  case none =>
    have hbad : accessStatus s false sid w = stBadSid := by
      unfold accessStatus
      rw [hf]
    rw [writeStatus, pairStatus, hbad, if_pos (by decide)] at hv
    exact absurd hv (by decide)

/-- The one pair of a frame that its checks accept is carried out. -/
theorem writePairs_single {s : State} {key : Nat} {row : SigRow} {sid w : Word} (active : Nat) (hrow : sidRow s false sid = some (key, row))
    (hv : writeStatus s false sid w = stOk) :
    writePairs s false active s 0 [(sid, w)] = (writeKey s key row w active, none) := by
  have hp : pairStatus s s false sid w = stOk := hv
  simp only [writePairs, hp, hrow, ne_eq, not_true_eq_false, if_false]

/-- One write of another signal than a pending code straddles no strobe (R435). -/
theorem strobeWithin_single (s : State) {p : Word × Word} (hp : codePair p = false) : strobeWithin s [p] = false := by
  simp [strobeWithin, codeSpan, hp]

/-- A frame with one pair that its checks accept has the effect of the write and what follows the frame (R149, R155). -/
theorem sigWriteAns_single {s : State} {r : Req} {key : Nat} {row : SigRow} {sid w : Word} (hany : (r.devSel == 0x1F) = false)
    (hrow : sidRow s false sid = some (key, row)) (hmod : sid.toNat % 0x10000 = key) (hcode : key < Sig.AO_CODE 0 ∨ Sig.AO_CODE 5 < key)
    (hv : writeStatus s false sid w = stOk) :
    (sigWriteAns s r [(sid, w)] 0 [] false).1 = frameWritten (writeKey s key row w 0) [key] [] false := by
  have hpair : codePair (sid, w) = false := by
    simp only [codePair, hmod, Bool.and_eq_false_iff, decide_eq_false_iff_not, not_le]
    exact hcode
  unfold sigWriteAns
  dsimp only
  rw [hany, writePairs_single 0 hrow hv]
  dsimp only
  rw [strobeWithin_single _ hpair]
  simp [pairKeys, hmod]

/-- The frame of one pair is within the bound of R155. -/
theorem writeOne_eq (s : State) (r : Req) (key : Nat) (w : Word) :
    writeOne s r key w = devCmd s r opSigWrite false (fun s' => sigWriteAns s' r [(sidOf s key, w)] 0 [] false) := by
  unfold writeOne writeCmd
  exact congrArg (devCmd s r opSigWrite false) (funext fun s' => if_neg (by simp))

/-- The command of a frame with one pair, carried out: the effect of the write, what follows the frame, and the answer (R149, R155). -/
theorem devCmd_write (h : PostFrame R) {s : State} {r : Req} {key : Nat} {row : SigRow} {sid w : Word}
    (ha : Accepted s r opSigWrite false) (hrow : sidRow (unhand s r) false sid = some (key, row)) (hmod : sid.toNat % 0x10000 = key)
    (hcode : key < Sig.AO_CODE 0 ∨ Sig.AO_CODE 5 < key) (hv : writeStatus (unhand s r) false sid w = stOk) :
    R (frameWritten (writeKey (unhand s r) key row w 0) [key] [] false)
      (devCmd s r opSigWrite false (fun s' => sigWriteAns s' r [(sid, w)] 0 [] false)) := by
  have hany : (r.devSel == 0x1F) = false := (Bool.or_eq_false_iff.mp ha.single).1
  have hcmd := devCmd_accepted h ha (fun s' => sigWriteAns s' r [(sid, w)] 0 [] false)
  rw [sigWriteAns_single hany hrow hmod hcode hv] at hcmd
  exact hcmd

/-- A write of one signal that is carried out. -/
theorem writeOne_accepted (h : PostFrame R) {s : State} {r : Req} {key : Nat} {w : Word} (hk : key < 0x9000)
    (hcode : key < Sig.AO_CODE 0 ∨ Sig.AO_CODE 5 < key) (ha : WriteAccepted s r key w) :
    ∃ row, sigFind key = some row ∧ R (frameWritten (writeKey (unhand s r) key row w 0) [key] [] false) (writeOne s r key w) := by
  obtain ⟨rt, e⟩ := unhand_rest s r
  have hsid : sidRow (unhand s r) false (sidOf s key) = (sigFind key).map (fun row => (key, row)) := by
    rw [e]
    exact sidRow_sidOf { s with rt := rt } hk
  obtain ⟨p, hp⟩ := sidRow_of_writeStatus ha.value
  obtain ⟨row, hf, rfl⟩ := Option.map_eq_some_iff.mp (hsid.symm.trans hp)
  rw [writeOne_eq]
  exact ⟨row, hf, devCmd_write h ha.frame hp (sidOf_mod s (by omega)) hcode ha.value⟩

/-! ### What follows a frame leaves the power block alone -/

theorem forEach_pwr {α : Type} (xs : List α) (f : State → α → State) (hf : ∀ s x, (f s x).pwr = s.pwr) (s : State) :
    (forEach xs s f).pwr = s.pwr := by
  induction xs generalizing s with
  | nil => rfl
  | cons x xs ih => exact (ih (f s x)).trans (hf s x)

theorem slotWritten_pwr (s : State) (n : Axis) (k : Nat) : (slotWritten s n k).pwr = s.pwr := rfl

theorem slotsWritten_pwr (s : State) (keys : List Nat) : (slotsWritten s keys).pwr = s.pwr := by
  unfold slotsWritten
  refine forEach_pwr _ _ (fun s n => forEach_pwr _ _ (fun s k => ?_) s) s
  split
  · exact slotWritten_pwr s n k
  · rfl

theorem lateCodes_pwr (s : State) (keys : List Nat) : (lateCodes s keys).pwr = s.pwr := by
  unfold lateCodes
  refine forEach_pwr _ _ (fun s k => ?_) s
  split
  · exact setB_pwr s _ _ _
  · rfl

theorem lateLoads_pwr (s : State) (keys : List Nat) (straddle : List Axis) : (lateLoads s keys straddle).pwr = s.pwr :=
  forEach_pwr _ _ (fun s _ => (incR_pwr _ _).trans (setB_pwr s _ _ _)) s

theorem frameWritten_pwr (s : State) (keys : List Nat) (straddle : List Axis) (aoLate : Bool) :
    (frameWritten s keys straddle aoLate).pwr = s.pwr := by
  unfold frameWritten
  dsimp only
  have hslots (u : State) : (if aoLate then lateCodes u keys else u).pwr = u.pwr := by
    split
    · exact lateCodes_pwr u keys
    · rfl
  have hall := (slotsWritten_pwr _ keys).trans ((hslots _).trans (lateLoads_pwr s keys straddle))
  split
  · exact hall
  · exact hall

/-! ### The way to SLEEP and to STANDBY (R67, R68) -/

theorem leaveRun_standby (s : State) : (leaveRun s).pwr.st = .standby := rfl

/-- A device with its CD powered is in STANDBY once it is out of RUN. -/
theorem outOfRun_standby {s : State} (hp : linkPowered s = true) : (if inRun s then leaveRun s else s).pwr.st = .standby := by
  split
  case isTrue => exact leaveRun_standby s
  case isFalse h => simpa [linkPowered, show s.pwr.st ≠ .run from fun e => h (by simp [inRun, e])] using hp

theorem headToSleep_sleeps {s : State} (hp : linkPowered s = true) : (headToSleep s).pwr.st = .standby ∧
    (headToSleep s).pwr.toSleep = true := by
  have hst := outOfRun_standby hp
  unfold headToSleep
  generalize (if inRun s then leaveRun s else s) = u at hst
  dsimp only
  split
  case isTrue h => exact ⟨hst, h⟩
  case isFalse =>
    have hq := stageSlice_quiet { u with pwr := { u.pwr with toSleep := true, toRun := false, armed := rgN u Sig.WAKE_EN } } kindSummary
      (summaryPayload { u with pwr := { u.pwr with toSleep := true, toRun := false, armed := rgN u Sig.WAKE_EN } } 1) false
    exact ⟨(congrArg Pwr.st hq.pwr :).trans hst, (congrArg Pwr.toSleep hq.pwr :)⟩

theorem pwrWrite_standby {s : State} (hp : linkPowered s = true) : (pwrWrite s 1).pwr.st = .standby ∧ (pwrWrite s 1).pwr.toRun = false ∧
    (pwrWrite s 1).pwr.toSleep = false := ⟨outOfRun_standby hp, rfl, rfl⟩

/-! ### A write of PWR_REQ -/

theorem writeKey_pwrReq (s : State) (row : SigRow) (w : Word) : writeKey s Sig.PWR_REQ row w 0 = pwrWrite s w.toNat := rfl

/-- A write of PWR_REQ that is carried out leaves the power state of its effect, the start of the idle time apart. -/
theorem writeOne_pwrReq {s : State} {r : Req} {w : Word} (ha : WriteAccepted s r Sig.PWR_REQ w) :
    ∃ rt, { (writeOne s r Sig.PWR_REQ w).pwr with idleUs := (pwrWrite { s with rt := rt } w.toNat).pwr.idleUs } =
      (pwrWrite { s with rt := rt } w.toNat).pwr := by
  obtain ⟨row, -, hq⟩ := writeOne_accepted quiet_post (by decide) (by decide) ha
  obtain ⟨rt, e⟩ := unhand_rest s r
  have hpwr := hq.pwr
  rw [frameWritten_pwr, writeKey_pwrReq, e] at hpwr
  exact ⟨rt, hpwr⟩

theorem execPwrReqRun_asks (s : State) (r : Req) (hs : s.pwr.st = .standby) (hb : s.pwr.clkBlocked = false)
    (ha : WriteAccepted s r Sig.PWR_REQ 2) :
    ∃ t, exec (.pwrReqRun r) s = .next t ∧ t.pwr.toRun = true ∧ t.pwr.st = .standby := by
  obtain ⟨rt, hpwr⟩ := writeOne_pwrReq ha
  obtain ⟨hrun, hst⟩ := askRun_asks (s := { s with rt := rt }) hs hb
  exact ⟨_, show execPwrReqRun r s = _ from if_pos ha.frame.serves, (congrArg Pwr.toRun hpwr :).trans hrun,
    (congrArg Pwr.st hpwr :).trans hst⟩

theorem linkPowered_of_serves {s : State} (h : serves s = true) : linkPowered s = true := by
  simp only [serves, Bool.and_eq_true] at h
  exact h.1.1

theorem execPwrReqStandby_stands (s : State) (r : Req) (ha : WriteAccepted s r Sig.PWR_REQ 1) :
    ∃ t, exec (.pwrReqStandby r) s = .next t ∧ t.pwr.st = .standby ∧ t.pwr.toRun = false ∧ t.pwr.toSleep = false := by
  obtain ⟨rt, hpwr⟩ := writeOne_pwrReq ha
  obtain ⟨hst, hrun, hsleep⟩ := pwrWrite_standby (s := { s with rt := rt }) (linkPowered_of_serves ha.frame.serves)
  exact ⟨_, show execPwrReqStandby r s = _ from if_pos ha.frame.serves, (congrArg Pwr.st hpwr :).trans hst,
    (congrArg Pwr.toRun hpwr :).trans hrun, (congrArg Pwr.toSleep hpwr :).trans hsleep⟩

theorem execPwrReqSleep_sleeps (s : State) (r : Req) (ha : WriteAccepted s r Sig.PWR_REQ 0) :
    ∃ t, exec (.pwrReqSleep r) s = .next t ∧ t.pwr.st = .standby ∧ t.pwr.toSleep = true := by
  obtain ⟨rt, hpwr⟩ := writeOne_pwrReq ha
  obtain ⟨hst, hsleep⟩ := headToSleep_sleeps (s := { s with rt := rt }) (linkPowered_of_serves ha.frame.serves)
  exact ⟨_, show execPwrReqSleep r s = _ from if_pos ha.frame.serves, (congrArg Pwr.st hpwr :).trans hst,
    (congrArg Pwr.toSleep hpwr :).trans hsleep⟩

theorem execIdleSleep_sleeps (s : State) (hp : linkPowered s = true) (hb : s.pwr.booted = true) (hd : allDisabled s = true)
    (hn : ndWork s = false) (hh : s.rt.handed = none) (hi : rgN s Sig.IDLE_SLEEP ≠ 0) :
    ∃ t, exec .idleSleep s = .next t ∧ t.pwr.st = .standby ∧ t.pwr.toSleep = true := by
  have he : exec .idleSleep s = .next (headToSleep (toUs s (s.pwr.idleUs + rgN s Sig.IDLE_SLEEP * 1000))) := by
    show execIdleSleep s = _
    exact if_pos ⟨hi, hb, hp, hd, hn, by rw [hh]; rfl⟩
  obtain ⟨hst, hsleep⟩ := headToSleep_sleeps (s := toUs s (s.pwr.idleUs + rgN s Sig.IDLE_SLEEP * 1000))
    (by rw [linkPowered, toUs_pwr]; exact hp)
  exact ⟨_, he, hst, hsleep⟩

/-! ### A write of PWR_REQ that would leave RUN with an axis enabled (R68) -/

/-- The row of PWR_REQ in the table of R83. -/
def pwrReqRow : SigRow := ⟨1, 0x011, 1, .u8, .wo, 0x0, 0, 2, false, some (0x0C, 0x3F800000)⟩

theorem sigFind_pwrReq : sigFind Sig.PWR_REQ = some pwrReqRow := by rfl

/-- The checks of R147 accept a write of a signal that is free to be written, where they find no fault with its value. -/
theorem accessStatus_ok {s : State} {sid w : Word} {key : Nat} {row : SigRow} (hrow : sidRow s false sid = some (key, row))
    (hacc : row.acc = .wo) (hkey : 0x8000 ≤ key) (hlife : lifeBars s key w = false) (hslot : slotOk row w = true)
    (hrange : rangeHolds s key w = true) : accessStatus s false sid w = stOk := by
  have hlocked : ¬(key / 0x1000 < 8 ∧ key % 0x1000 = 0x110) := by omega
  unfold accessStatus
  rw [hrow]
  simp [hacc, hlife, hlocked, hslot, hrange]

theorem accessStatus_pwrReq (s : State) {v : Nat} (hv : v < 2) :
    accessStatus s false (sidOf s Sig.PWR_REQ) (BitVec.ofNat 32 v) = stOk := by
  have hrow : sidRow s false (sidOf s Sig.PWR_REQ) = some (Sig.PWR_REQ, pwrReqRow) := by
    rw [sidRow_sidOf s (by decide), sigFind_pwrReq]
    rfl
  have hslot : slotOk pwrReqRow (BitVec.ofNat 32 v) = true := by interval_cases v <;> decide
  exact accessStatus_ok hrow rfl (by decide) rfl hslot rfl

theorem writeStatus_pwrReq_leaving (s : State) (v : Nat) (hv : v < 2) (hrun : inRun s = true) (hd : allDisabled s = false) :
    writeStatus s false (sidOf s Sig.PWR_REQ) (BitVec.ofNat 32 v) = stNotInState := by
  have hmod := sidOf_mod s (key := Sig.PWR_REQ) (by decide)
  have hnat : (BitVec.ofNat 32 v).toNat = v := by
    rw [BitVec.toNat_ofNat]
    omega
  have hlater : laterStatus s Sig.PWR_REQ (BitVec.ofNat 32 v) = pwrStatus s (BitVec.ofNat 32 v).toNat := rfl
  have hrange : rangeHolds s Sig.PWR_REQ (BitVec.ofNat 32 v) = true := rfl
  rw [writeStatus, pairStatus, accessStatus_pwrReq s hv, hmod, if_neg (by decide), hrange, if_neg (by decide), hlater, hnat, pwrStatus,
    if_pos ⟨by omega, hrun, hd⟩]

/-- Settles O12: what an accepted write of PWR_REQ leaves of the power state, and the status of a refused one. -/
theorem powerRequestsMoveThePowerState : Obligations.PowerRequestsMoveThePowerState :=
  ⟨execPwrReqRun_asks, execPwrReqStandby_stands, execPwrReqSleep_sleeps, execIdleSleep_sleeps, writeStatus_pwrReq_leaving⟩

end Sys2Proof.Machine
end

section
/-! O13: SLEEP, its wake sources and the parking watch. -/

namespace Sys2Proof.Machine

/-! ### The entry into SLEEP (R67, R134, R173, R631) -/

theorem execSleepEntry_sleeps (s : State) (hs : s.pwr.st = .standby) (hsleep : s.pwr.toSleep = true) (hn : ndWork s = false)
    (hb : s.rt.blocked = []) (hr : ∀ i, i < 16 → (ringAt s (16 + i)).empty = true) :
    ∃ t, exec .sleepEntry s = .next t ∧ t.pwr.st = .sleep ∧ t.pwr.ready = false ∧ t.rt.subs = List.replicate 32 none ∧
      t.rt.lims = List.replicate 64 none ∧ t.dbg.session = false ∧ t.dbg.haltMp = false := by
  have hempty : ((List.range 16).all (fun i => (ringAt s (16 + i)).empty) && s.rt.blocked.isEmpty) = true := by
    simp only [Bool.and_eq_true, List.all_eq_true, List.mem_range, hb]
    exact ⟨hr, rfl⟩
  exact ⟨_, show execSleepEntry s = _ from if_pos ⟨hs, hsleep, hempty, hn⟩, rfl, rfl, rfl, rfl, rfl, rfl⟩

/-! ### A wake (R72, R75, R121) -/

/-- What the blocks that a wake sets going leave alone: the link, the power block but a self-test that waits, LFCLK, WAKE_CAUSE. -/
structure KeepsWake (s t : State) : Prop where
  link : t.link = s.link
  pwr : { t.pwr with pstLater := s.pwr.pstLater } = s.pwr
  lf : t.clk.lf = s.clk.lf
  cause : rg t Sig.WAKE_CAUSE = rg s Sig.WAKE_CAUSE

namespace KeepsWake

theorem refl (s : State) : KeepsWake s s := ⟨rfl, rfl, rfl, rfl⟩

theorem trans {s t u : State} (h : KeepsWake s t) (g : KeepsWake t u) : KeepsWake s u where
  link := g.link.trans h.link
  pwr := (congrArg (fun p : Pwr => { p with pstLater := s.pwr.pstLater }) g.pwr).trans h.pwr
  lf := g.lf.trans h.lf
  cause := g.cause.trans h.cause

theorem reg (s : State) {k : Nat} (v : Word) (hk : Sig.WAKE_CAUSE ≠ k) : KeepsWake s (setR s k v) := ⟨rfl, rfl, rfl, rg_setR_ne s v hk⟩

theorem event (s : State) (code idx count : Nat) (data : List Byte) : KeepsWake s (stageEvent s code idx count data) := by
  have hcause := (stageEvent_quiet s code idx count data).keys Sig.WAKE_CAUSE (by decide)
  obtain ⟨rcd, regs, e⟩ := stageEvent_rest s code idx count data
  rw [e] at hcause ⊢
  exact ⟨rfl, rfl, rfl, hcause⟩

theorem release : ReleaseFrame KeepsWake where
  refl := refl
  trans := trans
  event := event
  src _ _ _ := ⟨rfl, rfl, rfl, rfl⟩
  ax _ _ _ _ := ⟨rfl, rfl, rfl, rfl⟩
  reg s _ v hk := reg s v (fun e => absurd (e ▸ hk) (by decide))

end KeepsWake

theorem clearHk_keepsWake (s : State) : KeepsWake s (clearHk s) := by
  have h := KeepsWake.release
  unfold clearHk
  refine h.trans (h.each _ _ (fun t k hk => KeepsWake.reg t _ ?_) s) (h.each _ _ (fun t k hk => KeepsWake.reg t _ ?_) _)
  · have := List.mem_range.mp hk
    show 0x8014 ≠ 0x8150 + k
    omega
  · have := List.mem_range.mp hk
    show 0x8014 ≠ 0x8001 + k
    omega

theorem aoClearSeen_keepsWake (s : State) : KeepsWake s (aoClearSeen s) :=
  KeepsWake.release.ite (KeepsWake.reg s _ (by decide)) (KeepsWake.refl s)

theorem modRsv_keepsWake (s : State) (n : Axis) (f : RsvAx → RsvAx) : KeepsWake s (modRsv s n f) := ⟨rfl, rfl, rfl, rfl⟩

/-- The power block, the clocks and the link at a wake, before the blocks that it sets going (R72, R121, R659). -/
def wakeBegun (s : State) : State :=
  { s with
    clk := { s.clk with us := s.clk.us + (s.clk.usPart + 256) / 512, usPart := 0 }
    pwr := { s.pwr with st := .standby, ready := !rgB s Sig.CLK_STAT 5, idleUs := s.clk.us + (s.clk.usPart + 256) / 512 }
    link := Link.init
    rt := { s.rt with blocked := [] } }

/-- The blocks of the CD once a wake has set them going (R69, R254). -/
def wakeSettled (s : State) : State :=
  clearHk (forEach allAxes (aoClearSeen (setB (wakeBegun s) Sig.CLK_STAT 0 true))
    (fun s n => modRsv s n (fun r => { r with table := ndTable r })))

/-- The self-test that a lock-out which ended in SLEEP left to do (R90). -/
def wakeTested (s : State) : State :=
  match s.pwr.pstLater with
  | some fails => postponedTest (releaseSrc { s with pwr := { s.pwr with pstLater := none } } (devSrc 32)) fails
  | none => s

theorem wakeUp_eq (s : State) : wakeUp s = wakeTested (wakeSettled s) := by
  unfold wakeUp wakeTested wakeSettled wakeBegun
  rfl

theorem wakeSettled_after (s : State) : KeepsWake (wakeBegun s) (wakeSettled s) := by
  have h := KeepsWake.release
  have htables (u : State) : KeepsWake u (forEach allAxes u (fun s n => modRsv s n (fun r => { r with table := ndTable r }))) :=
    h.each _ _ (fun s n _ => modRsv_keepsWake s n _) u
  have hcore : KeepsWake (wakeBegun s) (setB (wakeBegun s) Sig.CLK_STAT 0 true) := KeepsWake.reg _ (k := Sig.CLK_STAT) _ (by decide)
  exact h.trans (h.trans (h.trans hcore (aoClearSeen_keepsWake _)) (htables _)) (clearHk_keepsWake _)

theorem wakeTested_keepsWake (s : State) : KeepsWake s (wakeTested s) := by
  have h := KeepsWake.release
  unfold wakeTested
  split
  case h_1 fails _ =>
    have hnone : KeepsWake s { s with pwr := { s.pwr with pstLater := none } } := ⟨rfl, rfl, rfl, rfl⟩
    exact h.trans hnone (h.trans (h.releaseSrc _ _) (h.postponedTest _ fails))
  case h_2 => exact h.refl s

/-- All that a wake sets going follows its beginning (R69, R90, R254). -/
theorem wakeUp_after (s : State) : KeepsWake (wakeBegun s) (wakeUp s) := by
  rw [wakeUp_eq]
  exact (wakeSettled_after s).trans (wakeTested_keepsWake _)

/-- An enabled wake source captures and wakes the device in SLEEP (R71, R74, R75). -/
theorem wakeEvent_sleep {s : State} {b : Nat} (hs : s.pwr.st = .sleep) (ha : bitOf s.pwr.armed b = true) :
    wakeEvent s b = wakeUp (setB s Sig.WAKE_CAUSE b true) := by
  have hc : captureWake s b = setB s Sig.WAKE_CAUSE b true := if_pos (.inl hs)
  have harmed : wakeArmed (setB s Sig.WAKE_CAUSE b true) b = true := (if_pos (.inl hs)).trans ha
  unfold wakeEvent
  dsimp only
  rw [hc, harmed, if_neg (by decide), setB_pwr, if_pos hs]

/-- A source that is not enabled captures and leaves the device in SLEEP (R75). -/
theorem wakeEvent_unarmed {s : State} {b : Nat} (hs : s.pwr.st = .sleep) (ha : bitOf s.pwr.armed b = false) :
    wakeEvent s b = setB s Sig.WAKE_CAUSE b true := by
  have hc : captureWake s b = setB s Sig.WAKE_CAUSE b true := if_pos (.inl hs)
  have harmed : wakeArmed (setB s Sig.WAKE_CAUSE b true) b = false := (if_pos (.inl hs)).trans ha
  unfold wakeEvent
  dsimp only
  rw [hc, harmed, if_pos (by decide)]

/-- The device awake again by a source: in STANDBY, READY where no CLK_FAIL is latched, with the bit of the source and the link at reset. -/
structure AwakeBy (b : Nat) (s t : State) : Prop where
  standby : t.pwr.st = .standby
  ready : t.pwr.ready = !rgB s Sig.CLK_STAT 5
  cause : rgB t Sig.WAKE_CAUSE b = true
  link : t.link = Link.init
  lf : t.clk.lf = s.clk.lf
  first : t.pwr.pwFirst = s.pwr.pwFirst
  levels : t.pwr.pwLevels = s.pwr.pwLevels

theorem wakeEvent_awake {s : State} {b : Nat} (hs : s.pwr.st = .sleep) (ha : bitOf s.pwr.armed b = true) (hb : b < 32) :
    AwakeBy b s (wakeEvent s b) := by
  have h := wakeUp_after (setB s Sig.WAKE_CAUSE b true)
  rw [wakeEvent_sleep hs ha]
  refine ⟨(congrArg Pwr.st h.pwr :), ?_, ?_, h.link, h.lf, (congrArg Pwr.pwFirst h.pwr :), (congrArg Pwr.pwLevels h.pwr :)⟩
  · rw [← rgB_setB_ne s b 5 true (show Sig.CLK_STAT ≠ Sig.WAKE_CAUSE by decide)]
    exact (congrArg Pwr.ready h.pwr :)
  · have hset : rgB (setB s Sig.WAKE_CAUSE b true) Sig.WAKE_CAUSE b = true := by rw [rgB_setB _ _ _ _ _ hb, if_pos rfl]
    exact (congrArg (fun w => w.getLsbD b) h.cause).trans hset

/-! ### The inputs that wake (R74, R79) -/

theorem execWakeVtrc_wakes (s : State) (hs : s.pwr.st = .sleep) (ha : bitOf s.pwr.armed 0 = true) (hv : rgB s Sig.SUP_STAT 0 = false) :
    ∃ t, exec .wakeVtrc s = .next t ∧ t.pwr.st = .standby ∧ t.pwr.ready = !rgB s Sig.CLK_STAT 5 ∧ rgB t Sig.WAKE_CAUSE 0 = true ∧
      t.link = Link.init := by
  have he : exec .wakeVtrc s = .next (setB (wakeEvent s 0) Sig.SUP_STAT 0 (rgN s Sig.COUPLED == 0)) := by
    show execWakeVtrc s = _
    rw [execWakeVtrc, if_neg (by simp [hs]), hv, if_neg (by decide)]
  have h := wakeEvent_awake hs ha (by decide)
  exact ⟨_, he, h.standby, h.ready, (rgB_setB_ne _ _ _ _ (by decide)).trans h.cause, h.link⟩

/-- The other inputs wake alike. -/
theorem awake_of_exec {s : State} {b : Nat} {i : Instr} (he : s.pwr.st ≠ .off → exec i s = .next (wakeEvent s b)) (hs : s.pwr.st = .sleep)
    (ha : bitOf s.pwr.armed b = true) (hb : b < 32) :
    ∃ t, exec i s = .next t ∧ t.pwr.st = .standby ∧ t.pwr.ready = !rgB s Sig.CLK_STAT 5 ∧ rgB t Sig.WAKE_CAUSE b = true ∧
      t.link = Link.init :=
  have h := wakeEvent_awake hs ha hb
  ⟨_, he (by simp [hs]), h.standby, h.ready, h.cause, h.link⟩

theorem execWake_wakes (s : State) (k : Fin 4) (hs : s.pwr.st = .sleep) (ha : bitOf s.pwr.armed k.val = true)
    (hv : k = 0 → rgB s Sig.SUP_STAT 0 = false) :
    ∃ t, exec (match k with | 0 => .wakeVtrc | 1 => .wakePin | 2 => .wakeCsN | 3 => .wakeRing) s = .next t ∧ t.pwr.st = .standby ∧
      t.pwr.ready = !rgB s Sig.CLK_STAT 5 ∧ rgB t Sig.WAKE_CAUSE k.val = true ∧ t.link = Link.init :=
  match k with
  | 0 => execWakeVtrc_wakes s hs ha (hv rfl)
  | 1 => awake_of_exec (fun h => show execWakePin s = _ from if_neg h) hs ha (by decide)
  | 2 => awake_of_exec (fun h => show execWakeCsN s = _ from if_neg h) hs ha (by decide)
  | 3 => awake_of_exec (fun h => show execWakeRing s = _ from if_neg h) hs ha (by decide)

theorem execWakeVtrc_falls (s : State) (hs : s.pwr.st ≠ .off) (hv : rgB s Sig.SUP_STAT 0 = true) :
    ∃ t, exec .wakeVtrc s = .next t ∧ rgB t Sig.SUP_STAT 0 = false ∧ OnlySignal Sig.SUP_STAT s t := by
  have he : exec .wakeVtrc s = .next (setB s Sig.SUP_STAT 0 false) := by
    show execWakeVtrc s = _
    rw [execWakeVtrc, if_neg hs, if_pos hv]
  exact ⟨_, he, setB_shows s _ 0 false (by decide)⟩

/-! ### The alarm (R74, R83) -/

/-- In SLEEP time is brought forward on LFCLK alone. -/
theorem toLf_sleep {s : State} {n : Nat} (hs : s.pwr.st = .sleep) (hn : s.clk.lf ≤ n) :
    ∃ clk, toLf s n = { s with clk := clk } ∧ clk.lf = n := by
  unfold toLf
  split
  case isTrue h =>
    rw [hs]
    exact ⟨_, rfl, by show s.clk.lf + (n - s.clk.lf) = n; omega⟩
  case isFalse h => exact ⟨s.clk, rfl, by omega⟩

theorem execAlarm_wakes (s : State) (hs : s.pwr.st = .sleep) (ha : bitOf s.pwr.armed 4 = true) (hon : rgN s Sig.ALARM ≠ 0xFFFFFFFF)
    (hlf : s.clk.lf ≤ rgN s Sig.ALARM * 32768) :
    ∃ t, exec .alarm s = .next t ∧ t.pwr.st = .standby ∧ t.pwr.ready = !rgB s Sig.CLK_STAT 5 ∧ rgB t Sig.WAKE_CAUSE 4 = true ∧
      t.link = Link.init ∧ t.clk.lf = rgN s Sig.ALARM * 32768 := by
  have hdue : ¬(rgN s Sig.ALARM = 0xFFFFFFFF ∨ s.pwr.st = .off ∨ rgN s Sig.ALARM < s.clk.lf / 32768) := by
    rw [hs]
    simp only [hon, false_or, reduceCtorEq]
    omega
  obtain ⟨clk, e, hclk⟩ := toLf_sleep hs hlf
  have he : exec .alarm s = .next (wakeEvent { s with clk := clk } 4) := by
    show execAlarm s = _
    rw [execAlarm, if_neg hdue, e]
  have h := wakeEvent_awake (s := { s with clk := clk }) (b := 4) hs ha (by decide)
  exact ⟨_, he, h.standby, h.ready, h.cause, h.link, h.lf.trans hclk⟩

/-! ### The parking watch (R76 to R78) -/

/-- Whether the parking watch looks at an input. -/
def parkOn (s : State) (n : Axis) : Bool := bitOf (rgN s Sig.PW_MASK) n.val && fbMode s n == 4

/-- Whether the level of an input has changed since the window before. -/
def parkEdge (s : State) (levels : Nat) (n : Axis) : Bool :=
  parkOn s n && !s.pwr.pwFirst && bitOf levels n.val != bitOf s.pwr.pwLevels n.val

/-- The edge windows of the inputs with this window's. -/
def parkCounts (s : State) (levels : Nat) : List (List Nat) :=
  allAxes.map (fun n => watchInput (s.pwr.pwCounts.getD n.val []) (parkEdge s levels n) (rgN s Sig.PW_WINDOW))

def parkTotals (s : State) (levels : Nat) : List Nat :=
  allAxes.map (fun n => min 255 (s.pwr.pwTotals.getD n.val 0 + if parkEdge s levels n then 1 else 0))

/-- The inputs on which the watch finds a movement. -/
def parkMoved (s : State) (levels : Nat) : Nat :=
  maskOf allAxes (fun n => parkOn s n && decide (rgN s Sig.PW_EDGES ≤ ((parkCounts s levels).getD n.val []).length))

/-- A window sampled. -/
def parkSampled (s : State) (levels : Nat) : State :=
  { s with pwr := { s.pwr with pwLevels := levels, pwFirst := false, pwCounts := parkCounts s levels, pwTotals := parkTotals s levels } }

/-- A movement found: the wake source, and with the wake event 87 and the slice (R77, R78). -/
def parkFound (s : State) (levels : Nat) (high : Bool) : State :=
  let w := wakeEvent (parkSampled s levels) 5
  if w.pwr.st = .sleep then w else stageParking (evt w 87) (parkMoved s levels) high (parkTotals s levels)

/-- A window once its 100 ms have passed (R76). -/
def parkWindow (s : State) (levels : Nat) (high : Bool) : State :=
  if parkMoved s levels = 0 then parkSampled s levels else parkFound s levels high

theorem sleepFor_rest (s : State) (n : Nat) : ∃ clk, sleepFor s n = { s with clk := clk } ∧ clk.lf = s.clk.lf + n := ⟨_, rfl, rfl⟩

theorem execParkingWatchWindow_eq (levels : Nat) (high : Bool) {s : State} (hs : s.pwr.st = .sleep) :
    ∃ clk, clk.lf = s.clk.lf + 3277 ∧ exec (.parkingWatchWindow levels high) s = .next (parkWindow { s with clk := clk } levels high) := by
  obtain ⟨clk, e, hlf⟩ := sleepFor_rest s 3277
  refine ⟨clk, hlf, ?_⟩
  show execParkingWatchWindow levels high s = _
  unfold execParkingWatchWindow
  rw [if_pos hs, e, parkWindow, apply_ite Host.Outcome.next]
  rfl

theorem bitIf_eq_zero (b : Bool) (i : Nat) : bitIf b i = 0 ↔ b = false := by
  cases b <;> simp [bitIf]

/-- A mask is 0 where no axis has its bit. -/
theorem maskOf_eq_zero (xs : List Axis) (b : Axis → Bool) : maskOf xs b = 0 ↔ ∀ n ∈ xs, b n = false := by
  have hfold (m : Nat) : xs.foldl (fun m x => m + bitIf (b x) x.val) m = 0 ↔ m = 0 ∧ ∀ n ∈ xs, b n = false := by
    induction xs generalizing m with
    | nil => simp
    | cons x xs ih => simp [ih, bitIf_eq_zero, and_assoc]
  simp [maskOf, hfold]

theorem getD_map_allAxes {α : Type} (f : Axis → α) (d : α) (n : Axis) : (allAxes.map f).getD n.val d = f n := by
  fin_cases n <;> rfl

/-- The slice of a movement leaves all but the record and the counts of staging alone. -/
theorem stageParking_rest (s : State) (mask : Nat) (high : Bool) (edges : List Nat) :
    ∃ rcd regs, stageParking s mask high edges = { s with rcd := rcd, regs := regs } ∧
      regRead regs Sig.WAKE_CAUSE = rg s Sig.WAKE_CAUSE := by
  obtain ⟨rcd, regs, e⟩ := stageSlice_rest s kindParking
    (leBytes 1 mask ++ leBytes 1 (bitIf high 0) ++ zeros 2 ++ edges.flatMap (leBytes 1) ++ leBytes 4 (lfSeconds s)) false
  have hk := (stageSlice_quiet s kindParking
    (leBytes 1 mask ++ leBytes 1 (bitIf high 0) ++ zeros 2 ++ edges.flatMap (leBytes 1) ++ leBytes 4 (lfSeconds s)) false).keys
    Sig.WAKE_CAUSE (by decide)
  rw [e] at hk
  exact ⟨rcd, regs, e, hk⟩

/-- A movement that wakes (R74, R77). -/
theorem parkFound_awake {s : State} (levels : Nat) (high : Bool) (hs : s.pwr.st = .sleep) (ha : bitOf s.pwr.armed 5 = true) :
    ∃ w, AwakeBy 5 (parkSampled s levels) w ∧ ∃ rcd regs, parkFound s levels high = { evt w 87 with rcd := rcd, regs := regs } ∧
      regRead regs Sig.WAKE_CAUSE = rg w Sig.WAKE_CAUSE := by
  have hw := wakeEvent_awake (s := parkSampled s levels) (b := 5) hs ha (by decide)
  obtain ⟨rcd, regs, e, hk⟩ := stageParking_rest (evt (wakeEvent (parkSampled s levels) 5) 87) (parkMoved s levels) high (parkTotals s levels)
  refine ⟨_, hw, rcd, regs, ?_, hk⟩
  unfold parkFound
  dsimp only
  rw [hw.standby, if_neg (by decide), e]

/-- An edge on an input that is watched, with enough of them in its windows, is a movement (R76). -/
theorem parkMoved_ne_zero {s : State} {levels : Nat} {n : Axis} (hm : bitOf (rgN s Sig.PW_MASK) n.val = true) (hf : fbMode s n = 4)
    (hfirst : s.pwr.pwFirst = false) (hl : bitOf levels n.val ≠ bitOf s.pwr.pwLevels n.val)
    (hc : rgN s Sig.PW_EDGES ≤ (watchInput (s.pwr.pwCounts.getD n.val []) true (rgN s Sig.PW_WINDOW)).length) :
    parkMoved s levels ≠ 0 := by
  have hon : parkOn s n = true := by simp [parkOn, hm, hf]
  have hedge : parkEdge s levels n = true := by simp [parkEdge, hon, hfirst, hl]
  rw [parkMoved, ne_eq, maskOf_eq_zero]
  intro hnone
  have := hnone n (mem_allAxes n)
  rw [hon, parkCounts, getD_map_allAxes, hedge, Bool.true_and, decide_eq_false_iff_not] at this
  exact this hc

theorem execParkingWatchWindow_wakes (s : State) (levels : Nat) (high : Bool) (n : Axis) (hs : s.pwr.st = .sleep)
    (ha : bitOf s.pwr.armed 5 = true) (hm : bitOf (rgN s Sig.PW_MASK) n.val = true) (hf : fbMode s n = 4)
    (hfirst : s.pwr.pwFirst = false) (hl : bitOf levels n.val ≠ bitOf s.pwr.pwLevels n.val)
    (hc : rgN s Sig.PW_EDGES ≤ (watchInput (s.pwr.pwCounts.getD n.val []) true (rgN s Sig.PW_WINDOW)).length) :
    ∃ t, exec (.parkingWatchWindow levels high) s = .next t ∧ t.pwr.st = .standby ∧ t.pwr.ready = !rgB s Sig.CLK_STAT 5 ∧
      rgB t Sig.WAKE_CAUSE 5 = true ∧ bitOf t.link.events 87 = true ∧ t.link.rings = Link.init.rings := by
  obtain ⟨clk, -, he⟩ := execParkingWatchWindow_eq levels high hs
  have hmoved : parkMoved { s with clk := clk } levels ≠ 0 := parkMoved_ne_zero (s := { s with clk := clk }) hm hf hfirst hl hc
  obtain ⟨w, hw, rcd, regs, e, hk⟩ := parkFound_awake (s := { s with clk := clk }) levels high hs ha
  rw [parkWindow, if_neg hmoved, e] at he
  refine ⟨_, he, hw.standby, hw.ready, ?_, ?_, ?_⟩
  · exact (congrArg (fun w => w.getLsbD 5) hk).trans hw.cause
  · show bitOf (evt w 87).link.events 87 = true
    rw [evt_bit]
    rfl
  · show (evt w 87).link.rings = _
    rw [evt_rings, hw.link]

/-- What a window shows of its sampling, whether it wakes or not. -/
structure Sampled (s : State) (levels : Nat) (t : State) : Prop where
  lf : t.clk.lf = s.clk.lf
  first : t.pwr.pwFirst = false
  levels : t.pwr.pwLevels = levels

theorem parkFound_sampled {s : State} (levels : Nat) (high : Bool) (hs : s.pwr.st = .sleep) : Sampled s levels (parkFound s levels high) := by
  cases ha : bitOf s.pwr.armed 5
  case true =>
    obtain ⟨w, hw, rcd, regs, e, -⟩ := parkFound_awake levels high hs ha
    rw [e]
    exact ⟨hw.lf, hw.first, hw.levels⟩
  case false =>
    have hw := wakeEvent_unarmed (s := parkSampled s levels) (b := 5) hs ha
    have e : parkFound s levels high = setB (parkSampled s levels) Sig.WAKE_CAUSE 5 true := by
      unfold parkFound
      rw [hw]
      exact if_pos hs
    rw [e]
    exact ⟨rfl, rfl, rfl⟩

theorem parkWindow_sampled {s : State} (levels : Nat) (high : Bool) (hs : s.pwr.st = .sleep) :
    Sampled s levels (parkWindow s levels high) := by
  unfold parkWindow
  split
  · exact ⟨rfl, rfl, rfl⟩
  · exact parkFound_sampled levels high hs

theorem execParkingWatchWindow_samples (s : State) (levels : Nat) (high : Bool) (hs : s.pwr.st = .sleep) :
    ∃ t, exec (.parkingWatchWindow levels high) s = .next t ∧ t.clk.lf = s.clk.lf + 3277 ∧ t.pwr.pwFirst = false ∧
      t.pwr.pwLevels = levels ∧ ((∀ n : Axis, bitOf (rgN s Sig.PW_MASK) n.val = false) → t.pwr.st = .sleep) := by
  obtain ⟨clk, hlf, he⟩ := execParkingWatchWindow_eq levels high hs
  have hsampled := parkWindow_sampled (s := { s with clk := clk }) levels high hs
  refine ⟨_, he, hsampled.lf.trans hlf, hsampled.first, hsampled.levels, fun hm => ?_⟩
  have hnone : parkMoved { s with clk := clk } levels = 0 := by
    rw [parkMoved, maskOf_eq_zero]
    intro n _
    have hoff : parkOn { s with clk := clk } n = false := Bool.and_eq_false_iff.mpr (.inl (hm n))
    rw [hoff, Bool.false_and]
  rw [parkWindow, if_pos hnone]
  exact hs

/-- Settles O13: the wake by an enabled source, what the blocks that it sets going keep, and the samples of the parking watch. -/
theorem sleepAndWakeFollowTheirSources : Obligations.SleepAndWakeFollowTheirSources :=
  ⟨execSleepEntry_sleeps, execWake_wakes, execWakeVtrc_falls, execAlarm_wakes, execParkingWatchWindow_wakes,
    execParkingWatchWindow_samples⟩

end Sys2Proof.Machine
end

section
/-! O48: the conversions, the housekeeping means and the offset learns. -/

namespace Sys2Proof.Machine

/-! ### Time on the timebase -/

theorem rg_of_regs {s t : State} (h : t.regs = s.regs) (k : Nat) : rg t k = rg s k := congrArg (fun f => regRead f k) h

theorem toTick_tb {s : State} (t : Nat) (hrun : inRun s = true) : (toTick s t).clk.tb = max s.clk.tb t := by
  unfold toTick
  by_cases h : s.clk.tb < t
  · rw [if_pos (by simp [hrun, h])]
    exact (Nat.max_eq_right h.le).symm
  · rw [if_neg (by simp [h])]
    exact (Nat.max_eq_left (Nat.le_of_not_lt h)).symm

/-- The next tick of a grid from a tick on is on the grid (R248). -/
theorem nextTick_grid (t : Nat) {p : Nat} (hp : 0 < p) : t ≤ nextTick t p 0 ∧ nextTick t p 0 % p = 0 := by
  unfold nextTick
  rw [if_neg (by omega)]
  refine ⟨Nat.le_add_right _ _, ?_⟩
  have hlt := Nat.mod_lt t hp
  rw [Nat.add_zero, Nat.add_mod_mod]
  calc (t + (p - t % p)) % p = (p * (t / p) + p) % p := by
        congr 1
        have := Nat.div_add_mod t p
        omega
    _ = 0 := by rw [← Nat.mul_succ, Nat.mul_mod_right]

/-- Time brought forward to the boundary of a slot changes the clocks and the modules alone. -/
theorem atGrid_rest {s : State} (key : Nat) {p : Nat} (hrun : inRun s = true) (hp : 0 < p) :
    ∃ clk pwm, atGrid s key p 0 = { s with clk := clk, pwm := pwm } ∧ s.clk.tb ≤ clk.tb ∧ clk.tb % p = 0 := by
  obtain ⟨hle, hmod⟩ := nextTick_grid (max s.clk.tb (markOf s key)) hp
  have htb := toTick_tb (nextTick (max s.clk.tb (markOf s key)) p 0) hrun
  have hnow : s.clk.tb ≤ nextTick (max s.clk.tb (markOf s key)) p 0 := (Nat.le_max_left _ _).trans hle
  obtain ⟨clk, pwm, e⟩ := toTick_rest s (nextTick (max s.clk.tb (markOf s key)) p 0)
  rw [Nat.max_eq_right hnow, e] at htb
  unfold atGrid
  rw [if_pos hrun]
  dsimp only
  rw [e]
  exact ⟨_, _, rfl, htb.ge.trans' hnow, htb ▸ hmod⟩

/-! ### ADC_CONVERSION (R248, R249, R258 to R260) -/

/-- The signals that a conversion writes. -/
def adcKeys : List Nat := [Sig.SMP_STAT, Sig.SMP_OVR_COUNT 0, Sig.SMP_OVR_COUNT 1]

/-- The two states agree in the words of the rings, the tick and every signal that no conversion writes. -/
structure SameWords (s t : State) : Prop where
  words : ∀ d : Fin 4, (t.adc[d]).words = (s.adc[d]).words
  tb : t.clk.tb = s.clk.tb
  sigs : SignalsBut adcKeys s t

namespace SameWords

theorem of_quiet {s t : State} (h : Quiet s t) : SameWords s t :=
  ⟨fun d => congrArg (fun v : Vector Adc 4 => (v[d]).words) h.adc, h.tb, fun k _ hk => h.keys k hk⟩

theorem refl (s : State) : SameWords s s := of_quiet (Quiet.refl s)

theorem trans {s t u : State} (h : SameWords s t) (g : SameWords t u) : SameWords s u :=
  ⟨fun d => (g.words d).trans (h.words d), g.tb.trans h.tb, fun k hk hl => (g.sigs k hk hl).trans (h.sigs k hk hl)⟩

theorem ite {c : Prop} [Decidable c] {s a b : State} (ha : SameWords s a) (hb : SameWords s b) : SameWords s (if c then a else b) := by
  split
  · exact ha
  · exact hb

theorem reg (s : State) {k : Nat} (v : Word) (hk : k ∈ adcKeys) : SameWords s (setR s k v) :=
  ⟨fun _ => rfl, rfl, fun _ hj _ => rg_setR_ne s v (fun e => hj (e ▸ hk))⟩

theorem hk (s : State) (x : Hk) : SameWords s { s with hk := x } := ⟨fun _ => rfl, rfl, fun _ _ _ => rfl⟩

theorem modAdc (s : State) (c : Fin 4) (f : Adc → Adc) (hf : ∀ a, (f a).words = a.words) : SameWords s (modAdc s c f) := by
  refine ⟨fun d => ?_, rfl, fun _ _ _ => rfl⟩
  by_cases e : c = d
  · exact e ▸ (congrArg Adc.words (modV_same s.adc c f)).trans (hf _)
  · exact congrArg Adc.words (modV_ne s.adc f e)

end SameWords

theorem adcSettle_sameWords (s : State) (e : Fin 2) : SameWords s (adcSettle s e) := by
  have hovr : Sig.SMP_OVR_COUNT (adcOf e).val ∈ adcKeys := by
    revert e
    decide
  have hread : SameWords s (modAdc s (adcOf e) (fun a => { a with read := max a.read (readPtr s e + wordsLost s e) })) :=
    SameWords.modAdc s _ _ (fun _ => rfl)
  exact SameWords.ite hread ((hread.trans (SameWords.reg _ _ (k := Sig.SMP_STAT) (by decide))).trans (SameWords.reg _ _ hovr))

theorem learnAdd_sameWords (s : State) (n : Axis) (v : Bool) (ts code : Nat) : SameWords s (learnAdd s n v ts code) :=
  SameWords.ite (SameWords.of_quiet (modOfs_quiet s n _)) (SameWords.refl s)

theorem refCheck_sameWords (s : State) (code : Nat) : SameWords s (refCheck s code) := by
  refine SameWords.ite (SameWords.ite ?_ (SameWords.hk s _)) (SameWords.hk s _)
  exact ((SameWords.hk s _).trans (SameWords.reg _ _ (k := Sig.SMP_STAT) (by decide))).trans (SameWords.of_quiet (devFault_quiet _ 35))

/-- The consumer of a word leaves the rings alone (R260). -/
theorem adcConsume_sameWords (s : State) (c : Fin 4) (slot ts code : Nat) : SameWords s (adcConsume s c slot ts code) :=
  match c with
  | 0 => learnAdd_sameWords s _ _ ts code
  | 1 => learnAdd_sameWords s _ _ ts code
  | 2 => SameWords.refl s
  | 3 => (SameWords.hk s _).trans (SameWords.ite (refCheck_sameWords _ code) (SameWords.refl _))

/-- The newest word of a ring is the word of its number. -/
theorem ringWord_of_head {s : State} {c : Fin 4} {k : Nat} {w : Word} (h : (s.adc[c]).words.head? = some (k, w)) : ringWord s c k = w := by
  obtain ⟨xs, e⟩ := List.head?_eq_some_iff.mp h
  unfold ringWord cellFind
  rw [e]
  simp

/-- The boundary of a slot, with the words lost until then counted (R248, R260). -/
def adcSettled (s : State) (c : Fin 4) : State := adcSettle (adcSettle (atGrid s (keyAdc c) 40 0) 0) 1

/-- The validity of the word of a slot judged (R261). -/
def adcJudged (s : State) (c : Fin 4) : State :=
  if holdValid s (holdOf (s.clk.tb / 40 - 1)) then s else setB s Sig.SMP_STAT (12 + c.val) true

theorem adcSettled_after (s : State) (c : Fin 4) : SameWords (atGrid s (keyAdc c) 40 0) (adcSettled s c) :=
  (adcSettle_sameWords (atGrid s (keyAdc c) 40 0) 0).trans (adcSettle_sameWords _ 1)

theorem adcJudged_sameWords (s : State) (c : Fin 4) : SameWords s (adcJudged s c) :=
  SameWords.ite (SameWords.refl s) (SameWords.reg s _ (k := Sig.SMP_STAT) (by decide))

/-- The word of a slot written, and consumed (R258 to R260). -/
def adcTaken (s : State) (c : Fin 4) (code k : Nat) : State := adcConsume (adcPush s c k code) c (k % adcSlots c) (holdOf k) code

theorem adcTaken_words (s : State) (c : Fin 4) (code k : Nat) :
    ((adcTaken s c code k).adc[c]).words.head? = some (k, sampleWord c k code) ∧
      (∀ d, d ≠ c → ((adcTaken s c code k).adc[d]).words = (s.adc[d]).words) ∧ (adcTaken s c code k).clk.tb = s.clk.tb ∧
      SignalsBut adcKeys s (adcTaken s c code k) := by
  have h := adcConsume_sameWords (adcPush s c k code) c (k % adcSlots c) (holdOf k) code
  refine ⟨?_, fun d hd => (h.words d).trans (congrArg Adc.words (modV_ne s.adc _ (Ne.symm hd))), h.tb, h.sigs⟩
  unfold adcTaken
  rw [h.words c, adcPush]
  exact congrArg (fun a => a.words.head?) (modV_same s.adc c _)

theorem execAdcConversion_eq {s : State} (c : Fin 4) (code : Fin 4096) (hrun : inRun s = true) (hc : (s.adc[c]).running = true) :
    exec (.adcConversion c code) s =
      .next (adcTaken (adcJudged (adcSettled s c) c) c code.val ((adcSettled s c).clk.tb / 40 - 1)) := by
  show execAdcConversion c code s = _
  unfold execAdcConversion adcTaken adcJudged adcSettled
  rw [if_pos (by rw [hrun, hc]; rfl)]

theorem execAdcConversion_writes (s : State) (c : Fin 4) (code : Fin 4096) (hrun : inRun s = true) (hc : (s.adc[c]).running = true) :
    ∃ t, exec (.adcConversion c code) s = .next t ∧
      (t.adc[c]).words.head? = some (t.clk.tb / 40 - 1, sampleWord c (t.clk.tb / 40 - 1) code.val) ∧
      ringWord t c (t.clk.tb / 40 - 1) = sampleWord c (t.clk.tb / 40 - 1) code.val ∧ t.clk.tb % 40 = 0 ∧
      (0 < t.clk.tb → holdOf (t.clk.tb / 40 - 1) + 32 = t.clk.tb) ∧ (∀ d, d ≠ c → (t.adc[d]).words = (s.adc[d]).words) ∧
      s.clk.tb ≤ t.clk.tb ∧ SignalsBut [Sig.SMP_STAT, Sig.SMP_OVR_COUNT 0, Sig.SMP_OVR_COUNT 1] s t := by
  have he := execAdcConversion_eq c code hrun hc
  obtain ⟨clk, pwm, e, hle, hmod⟩ := atGrid_rest (keyAdc c) hrun (show 0 < 40 by decide)
  have hs := adcSettled_after s c
  rw [e] at hs
  have hj := adcJudged_sameWords (adcSettled s c) c
  have htb : (adcSettled s c).clk.tb = clk.tb := hs.tb
  obtain ⟨hhead, hrest, htb', hsigs⟩ := adcTaken_words (adcJudged (adcSettled s c) c) c code.val ((adcSettled s c).clk.tb / 40 - 1)
  generalize adcTaken (adcJudged (adcSettled s c) c) c code.val ((adcSettled s c).clk.tb / 40 - 1) = t at he hhead hrest htb' hsigs
  rw [hj.tb] at htb'
  rw [← htb'] at hhead
  rw [← htb, ← htb'] at hle hmod
  refine ⟨t, he, hhead, ringWord_of_head hhead, hmod, fun hpos => ?_, fun d hd => ?_, hle, fun k hk hl => ?_⟩
  · unfold holdOf
    omega
  · exact (hrest d hd).trans ((hj.words d).trans (hs.words d))
  · exact (hsigs k hk hl).trans ((hj.sigs k hk hl).trans (hs.sigs k hk hl))

/-! ### HK_INTERVAL_END (R83, R254) -/

/-- The two states agree in the samples, the axis states, the clocks and every signal that no set of keys names. -/
structure SameSamples (written : Nat → Prop) (s t : State) : Prop where
  hk : t.hk = s.hk
  adc : t.adc = s.adc
  ax : t.ax = s.ax
  clk : t.clk = s.clk
  sigs : ∀ k, ¬written k → rg t k = rg s k

namespace SameSamples

variable {written : Nat → Prop}

theorem of_regs {s t : State} (hk : t.hk = s.hk) (ha : t.adc = s.adc) (hx : t.ax = s.ax) (hc : t.clk = s.clk) (hr : t.regs = s.regs) :
    SameSamples written s t := ⟨hk, ha, hx, hc, fun k _ => rg_of_regs hr k⟩

theorem refl (s : State) : SameSamples written s s := of_regs rfl rfl rfl rfl rfl

theorem trans {s t u : State} (h : SameSamples written s t) (g : SameSamples written t u) : SameSamples written s u :=
  ⟨g.hk.trans h.hk, g.adc.trans h.adc, g.ax.trans h.ax, g.clk.trans h.clk, fun k hk => (g.sigs k hk).trans (h.sigs k hk)⟩

theorem reg (s : State) {k : Nat} (v : Word) (hk : written k) : SameSamples written s (setR s k v) :=
  ⟨rfl, rfl, rfl, rfl, fun _ hj => rg_setR_ne s v (fun e => hj (e ▸ hk))⟩

theorem each {α : Type} (xs : List α) (f : State → α → State) (hf : ∀ s, ∀ x ∈ xs, SameSamples written s (f s x)) (s : State) :
    SameSamples written s (forEach xs s f) := by
  induction xs generalizing s with
  | nil => exact refl s
  | cons x xs ih => exact (hf s x List.mem_cons_self).trans (ih (fun s y hy => hf s y (List.mem_cons_of_mem x hy)) (f s x))

theorem tel (s : State) {k : Nat} (x : Rat) (hk : written k) : SameSamples written s (setTel s k x) := by
  unfold setTel
  split
  · exact reg s _ hk
  · exact refl s

theorem mono {other : Nat → Prop} {s t : State} (h : SameSamples written s t) (hw : ∀ k, written k → other k) : SameSamples other s t :=
  ⟨h.hk, h.adc, h.ax, h.clk, fun k hk => h.sigs k (fun hk' => hk (hw k hk'))⟩

/-- The mean of an interval is that of the samples. -/
theorem hkMean {s t : State} (h : SameSamples written s t) (i slot : Nat) : hkMean t i slot = hkMean s i slot := by
  unfold Machine.hkMean
  rw [h.hk, h.adc]

end SameSamples

/-- A telemetry signal of the tables reads as its value (R83). -/
theorem rg_setTel_same (s : State) {k : Nat} (x : Rat) (hk : (sigFind k).isSome = true) : rg (setTel s k x) k = telWord k x := by
  obtain ⟨row, hf⟩ := Option.isSome_iff_exists.mp hk
  simp only [setTel, telWord, hf]
  exact rg_setR_same s k _

/-- What an operation establishes for one element of a list holds after the whole list, where the others keep it. -/
theorem forEach_reaches {α : Type} {P Q : State → Prop} (f : State → α → State) {xs : List α} {x : α} (hx : x ∈ xs)
    (hQ : ∀ s y, Q s → Q (f s y)) (hreach : ∀ s, Q s → P (f s x)) (hP : ∀ s y, P s → P (f s y)) {s : State} (hs : Q s) :
    P (forEach xs s f) := by
  have hkeep {R : State → Prop} (h : ∀ s y, R s → R (f s y)) (ys : List α) {s : State} (hs : R s) : R (forEach ys s f) := by
    induction ys generalizing s with
    | nil => exact hs
    | cons y ys ih => exact ih (h s y hs)
  obtain ⟨ys, zs, rfl⟩ := List.append_of_mem hx
  have hsplit : forEach (ys ++ x :: zs) s f = forEach zs (f (forEach ys s f) x) f := List.foldl_append
  rw [hsplit]
  exact hkeep hP zs (hreach _ (hkeep hQ ys hs))

/-- The means of an interval in SMP_HK (R254). -/
def hkShown (s : State) (i : Nat) : State := forEach (List.range 32) s (fun s k => setTel s (Sig.SMP_HK k) (hkMean s i k * 16))

/-- The signals SMP_HK. -/
def hkKey (k : Nat) : Prop := 0x8150 ≤ k ∧ k < 0x8170

theorem hkKey_of_lt {k : Nat} (h : k < 32) : hkKey (Sig.SMP_HK k) := ⟨Nat.le_add_right _ _, Nat.add_lt_add_left h _⟩

theorem hkShown_same (s : State) (i : Nat) : SameSamples hkKey s (hkShown s i) :=
  SameSamples.each _ _ (fun s _ hk => SameSamples.tel s _ (hkKey_of_lt (List.mem_range.mp hk))) s

theorem sigFind_hk {k : Nat} (h : k < 32) : (sigFind (Sig.SMP_HK k)).isSome = true := by
  interval_cases k <;> rfl

/-- Each mean stands in its signal (R254). -/
theorem hkShown_mean (s : State) (i : Nat) {k : Nat} (hk : k < 32) :
    rg (hkShown s i) (Sig.SMP_HK k) = telWord (Sig.SMP_HK k) (hkMean s i k * 16) := by
  have hsame (t : State) (j : Nat) : SameSamples (fun _ => True) t (setTel t (Sig.SMP_HK j) (hkMean t i j * 16)) :=
    SameSamples.tel t _ trivial
  have hmean (t : State) (h : SameSamples (fun _ => True) s t) :
      rg (setTel t (Sig.SMP_HK k) (hkMean t i k * 16)) (Sig.SMP_HK k) = telWord (Sig.SMP_HK k) (hkMean s i k * 16) := by
    rw [rg_setTel_same t _ (sigFind_hk hk), h.hkMean]
  refine (forEach_reaches (P := fun t => SameSamples (fun _ => True) s t ∧ rg t (Sig.SMP_HK k) = telWord (Sig.SMP_HK k) (hkMean s i k * 16))
    (Q := fun t => SameSamples (fun _ => True) s t) _ (List.mem_range.mpr hk) (fun t j h => h.trans (hsame t j))
    (fun t h => ⟨h.trans (hsame t k), hmean t h⟩) (fun t j h => ⟨h.1.trans (hsame t j), ?_⟩) (SameSamples.refl s)).2
  by_cases e : j = k
  · exact e ▸ hmean t h.1
  · have hne : Sig.SMP_HK k ≠ Sig.SMP_HK j := fun h => e (Nat.add_left_cancel h).symm
    have hkeep : SameSamples (fun x => x = Sig.SMP_HK j) t (setTel t (Sig.SMP_HK j) (hkMean t i j * 16)) := SameSamples.tel t _ rfl
    exact (hkeep.sigs _ hne).trans h.2

/-- The millivolt signals of the supplies that no rail gives, up to VDRV_MV. -/
def supplyShown (s : State) (i : Nat) : State :=
  hkMv (hkMv (hkMv s i Sig.VBAT_MV 4 16) i Sig.VTRC_MV 5 16) i Sig.VDRV_MV 6 4

/-- The rest of a publication: the other supplies and the rails, the range of VBAT, the DD sensors and the wheel-speed currents. -/
def restShown (s : State) (i : Nat) : State :=
  let s := hkMv s i Sig.VEXC_MV 7 4
  let s := hkMv s i Sig.VHOLD_MV 20 16
  let s := forEach [0, 1, 2, 3] s (fun s m => hkRail s i m)
  let s := vbatRange s i
  let s := forEach [0, 1, 2, 3] s (fun s k => thermSensor s i k)
  forEach allAxes s wssMean

/-- The sums of the intervals that are published dropped (R254). -/
def sumsKept (s : State) (i : Nat) : State :=
  { s with hk := { s.hk with sums := s.hk.sums.filter (fun x : Nat × Nat × Nat => decide (32 * (i + 1) ≤ x.1)) } }

theorem hkPublish_eq (s : State) (i : Nat) : hkPublish s i = sumsKept (restShown (supplyShown (hkShown s i) i) i) i := by
  unfold hkPublish sumsKept restShown supplyShown hkShown
  with_reducible rfl

/-- The signals of the rest of a publication. -/
def restKey (k : Nat) : Prop := k < 0x8000 ∨ k = Sig.HC_STAT ∨ (0x8004 ≤ k ∧ k < 0x800A)

theorem setThermal_same (s : State) (n : Axis) (step : Nat) : SameSamples restKey s (setThermal s n step) := by
  have hf : restKey (Sig.HC_THERM_FACTOR n.val) := .inl (by show n.val * 0x1000 + 0x865 < 0x8000; omega)
  have hl : restKey (Sig.HC_AX_LIVE n.val) := .inl (by show n.val * 0x1000 + 0x86C < 0x8000; omega)
  exact (SameSamples.reg s _ hf).trans (SameSamples.reg _ _ hl)

/-- A step of a DD sensor taken or released, in its axes and in THERM (R459). -/
def thermStepped (s : State) (k : Fin 4) (new : Nat) : State :=
  evt (setB (setThermal (setThermal { s with hc := { s.hc with therm := setAt s.hc.therm k.val new } } ⟨2 * k.val, by omega⟩ new)
    ⟨2 * k.val + 1, by omega⟩ new) Sig.HC_STAT 1 true) 79

theorem thermStepped_same (s : State) (k : Fin 4) (new : Nat) : SameSamples restKey s (thermStepped s k new) := by
  have hhc : SameSamples restKey s { s with hc := { s.hc with therm := setAt s.hc.therm k.val new } } :=
    SameSamples.of_regs rfl rfl rfl rfl rfl
  have hax (t : State) : SameSamples restKey t (setThermal (setThermal t ⟨2 * k.val, by omega⟩ new) ⟨2 * k.val + 1, by omega⟩ new) :=
    (setThermal_same t _ new).trans (setThermal_same _ _ new)
  have hflag (t : State) : SameSamples restKey t (setB t Sig.HC_STAT 1 true) := SameSamples.reg t _ (.inr (.inl rfl))
  have hevt (t : State) : SameSamples restKey t (evt t 79) := SameSamples.of_regs rfl rfl rfl rfl rfl
  exact ((hhc.trans (hax _)).trans (hflag _)).trans (hevt _)

/-- A DD sensor read in degrees Celsius (R252, R459). -/
def ddTemp (s : State) (i : Nat) (k : Fin 4) : Rat := (hkMean s i (ddSlot k.val) - 1100) / 4

/-- A reading of a DD sensor in the histogram of the summary (R584). -/
def thermCounted (s : State) (i : Nat) (k : Fin 4) : State :=
  { s with rcd := { s.rcd with sumDdHist := histAdd s.rcd.sumDdHist k.val (tempBin (ddTemp s i k)) } }

theorem thermSensor_eq (s : State) (i : Nat) (k : Fin 4) : thermSensor s i k =
    if thermStep (s.hc.therm.getD k.val 0) (ddTemp s i k) = s.hc.therm.getD k.val 0 then thermCounted s i k
    else thermStepped (thermCounted s i k) k (thermStep (s.hc.therm.getD k.val 0) (ddTemp s i k)) := by
  unfold thermSensor thermStepped thermCounted ddTemp
  with_reducible rfl

theorem thermSensor_same (s : State) (i : Nat) (k : Fin 4) : SameSamples restKey s (thermSensor s i k) := by
  have hcount : SameSamples restKey s (thermCounted s i k) := SameSamples.of_regs rfl rfl rfl rfl rfl
  rw [thermSensor_eq]
  split
  · exact hcount
  · exact hcount.trans (thermStepped_same _ k _)

theorem wssMean_same (s : State) (n : Axis) : SameSamples restKey s (wssMean s n) := by
  have hk : restKey (Sig.FB_WSS_MA n.val) := .inl (by show n.val * 0x1000 + 0x511 < 0x8000; omega)
  have hfree : SameSamples restKey s { s with free := s.free + 1 } := SameSamples.of_regs rfl rfl rfl rfl rfl
  unfold wssMean
  split
  · exact hfree.trans (SameSamples.reg { s with free := s.free + 1 } (BitVec.ofNat 32 ((Config.freeValue s.free).toNat % 65536)) hk)
  · exact SameSamples.refl s

theorem restShown_same (s : State) (i : Nat) : SameSamples restKey s (restShown s i) := by
  have hmv (t : State) {key : Nat} (slot scale : Nat) (h : 0x8004 ≤ key ∧ key < 0x800A) : SameSamples restKey t (hkMv t i key slot scale) :=
    SameSamples.tel t _ (.inr (.inr h))
  have hrail (t : State) (m : Nat) (h : m ∈ [0, 1, 2, 3]) : SameSamples restKey t (hkRail t i m) := by
    refine SameSamples.tel t _ (.inr (.inr ?_))
    revert m
    decide
  have hvbat (t : State) : SameSamples restKey t (vbatRange t i) := SameSamples.of_regs rfl rfl rfl rfl rfl
  unfold restShown
  refine SameSamples.trans ?_ (SameSamples.each _ _ (fun t n _ => wssMean_same t n) _)
  refine SameSamples.trans ?_ (SameSamples.each _ _ (fun t k _ => thermSensor_same t i k) _)
  refine SameSamples.trans ?_ (hvbat _)
  refine SameSamples.trans ?_ (SameSamples.each _ _ hrail _)
  exact (hmv s 7 4 (by decide)).trans (hmv _ 20 16 (by decide))

/-- The keys of the supplies up to VDRV_MV. -/
def supplyKey (k : Nat) : Prop := 0x8001 ≤ k ∧ k < 0x8004

theorem supplyShown_same (s : State) (i : Nat) : SameSamples supplyKey s (supplyShown s i) := by
  have hmv (t : State) {key : Nat} (slot scale : Nat) (h : 0x8001 ≤ key ∧ key < 0x8004) : SameSamples supplyKey t (hkMv t i key slot scale) :=
    SameSamples.tel t _ h
  exact ((hmv s 4 16 (by decide)).trans (hmv _ 5 16 (by decide))).trans (hmv _ 6 4 (by decide))

/-- VBAT_MV and VDRV_MV show the means of their slots (R83, R254). -/
theorem supplyShown_mean (s : State) (i : Nat) : rg (supplyShown s i) Sig.VBAT_MV = telWord Sig.VBAT_MV (hkMean s i 4 * 16) ∧
    rg (supplyShown s i) Sig.VDRV_MV = telWord Sig.VDRV_MV (hkMean s i 6 * 4) := by
  have hmv (t : State) (key slot scale : Nat) : SameSamples (fun k => k = key) t (hkMv t i key slot scale) := SameSamples.tel t _ rfl
  have hone := hmv s Sig.VBAT_MV 4 16
  have htwo := hmv (hkMv s i Sig.VBAT_MV 4 16) Sig.VTRC_MV 5 16
  have hthree := hmv (hkMv (hkMv s i Sig.VBAT_MV 4 16) i Sig.VTRC_MV 5 16) Sig.VDRV_MV 6 4
  refine ⟨?_, ?_⟩
  · exact (hthree.sigs _ (by decide)).trans ((htwo.sigs _ (by decide)).trans (rg_setTel_same s _ rfl))
  · rw [supplyShown, hkMv, rg_setTel_same _ _ rfl, htwo.hkMean, hone.hkMean]
    rfl

/-- What the publication of an interval shows, and what it keeps. -/
theorem hkPublish_shows (s : State) (i : Nat) :
    (hkPublish s i).hk.sums = s.hk.sums.filter (fun x : Nat × Nat × Nat => decide (32 * (i + 1) ≤ x.1)) ∧
      (∀ k, k < 32 → rg (hkPublish s i) (Sig.SMP_HK k) = telWord (Sig.SMP_HK k) (hkMean s i k * 16)) ∧
      rg (hkPublish s i) Sig.VBAT_MV = telWord Sig.VBAT_MV (hkMean s i 4 * 16) ∧
      rg (hkPublish s i) Sig.VDRV_MV = telWord Sig.VDRV_MV (hkMean s i 6 * 4) ∧ (hkPublish s i).ax = s.ax ∧
      (hkPublish s i).adc = s.adc ∧ (hkPublish s i).clk = s.clk := by
  have hhk := hkShown_same s i
  have hsup := supplyShown_same (hkShown s i) i
  have hrest := restShown_same (supplyShown (hkShown s i) i) i
  obtain ⟨hvbat, hvdrv⟩ := supplyShown_mean (hkShown s i) i
  rw [hhk.hkMean] at hvbat hvdrv
  have hmean (k : Nat) (hk : k < 32) : rg (restShown (supplyShown (hkShown s i) i) i) (Sig.SMP_HK k) =
      telWord (Sig.SMP_HK k) (hkMean s i k * 16) := by
    have hkey := hkKey_of_lt hk
    refine (hrest.sigs _ ?_).trans ((hsup.sigs _ ?_).trans (hkShown_mean s i hk)) <;>
      simp only [restKey, supplyKey, hkKey, Sig.HC_STAT] at hkey ⊢ <;> omega
  have hend : SameSamples (fun _ => True) s (restShown (supplyShown (hkShown s i) i) i) :=
    ((hhk.mono (fun _ _ => trivial)).trans (hsup.mono (fun _ _ => trivial))).trans (hrest.mono (fun _ _ => trivial))
  rw [hkPublish_eq]
  generalize restShown (supplyShown (hkShown s i) i) i = t at hrest hmean hend
  refine ⟨congrArg (fun h : Hk => h.sums.filter (fun x : Nat × Nat × Nat => decide (32 * (i + 1) ≤ x.1))) hend.hk, hmean, ?_, ?_, hend.ax, hend.adc, hend.clk⟩
  · exact (hrest.sigs _ (by unfold restKey; decide)).trans hvbat
  · exact (hrest.sigs _ (by unfold restKey; decide)).trans hvdrv

/-- An interval ends at a whole number of milliseconds after the entry into RUN (R254). -/
theorem hkEnd_multiple (s : State) : ∃ i, hkEnd s = 400000 * (i + 1) := by
  unfold hkEnd
  dsimp only
  split
  case isTrue h => exact ⟨s.clk.tb / 400000 - 1, by omega⟩
  case isFalse => exact ⟨s.clk.tb / 400000, by omega⟩

theorem execHkIntervalEnd_publishes (s : State) (hrun : inRun s = true) :
    ∃ t i, exec .hkIntervalEnd s = .next t ∧ hkEnd s = 400000 * (i + 1) ∧ t.clk.tb = max s.clk.tb (hkEnd s) ∧
      t.hk.sums = s.hk.sums.filter (fun x : Nat × Nat × Nat => decide (32 * (i + 1) ≤ x.1)) ∧
      (∀ k, k < 32 → rg t (Sig.SMP_HK k) = telWord (Sig.SMP_HK k) (hkMean s i k * 16)) ∧
      rg t Sig.VBAT_MV = telWord Sig.VBAT_MV (hkMean s i 4 * 16) ∧ rg t Sig.VDRV_MV = telWord Sig.VDRV_MV (hkMean s i 6 * 4) ∧
      t.ax = s.ax ∧ t.adc = s.adc := by
  obtain ⟨i, hi⟩ := hkEnd_multiple s
  have he : exec .hkIntervalEnd s = .next (hkPublish (setMark (toTick s (hkEnd s)) keyHk (hkEnd s + 1)) i) := by
    have hdiv : hkEnd s / 400000 - 1 = i := by omega
    show execHkIntervalEnd s = _
    rw [execHkIntervalEnd, if_pos hrun]
    dsimp only
    rw [hdiv]
  have htb := toTick_tb (hkEnd s) hrun
  obtain ⟨clk, pwm, e⟩ := toTick_rest s (hkEnd s)
  rw [e] at he htb
  obtain ⟨hsums, hmeans, hvbat, hvdrv, hax, hadc, hclk⟩ :=
    hkPublish_shows (setMark { s with clk := clk, pwm := pwm } keyHk (hkEnd s + 1)) i
  exact ⟨_, i, he, hi, (congrArg Clock.tb hclk).trans htb, hsums, hmeans, hvbat, hvdrv, hax, hadc⟩

/-! ### OFFSET_LEARN_START (R256) -/

theorem execOffsetLearnStart_begins (s : State) (n : Axis) (hrun : inRun s = true) (hd : axSt s n = .disabled) :
    ∃ t, exec (.offsetLearnStart n) s = .next t ∧ (t.ofs[n]).learning = true ∧ (t.ofs[n]).spoiled = false ∧ (t.ofs[n]).sumU = (0, 0) ∧
      (t.ofs[n]).sumV = (0, 0) ∧ t.regs = s.regs ∧ t.ax = s.ax ∧ ∀ m, m ≠ n → t.ofs[m] = s.ofs[m] := by
  obtain ⟨clk, pwm, e⟩ := toTick_rest s (markOf s (keyLearn n))
  have he : exec (.offsetLearnStart n) s = .next (beginLearn { s with clk := clk, pwm := pwm } n) := by
    show execOffsetLearnStart n s = _
    rw [execOffsetLearnStart, if_pos (by simp [hrun, hd]), e]
  have hofs := modV_same s.ofs n (fun o => { o with learning := true, spoiled := false, sumU := (0, 0), sumV := (0, 0) })
  exact ⟨_, he, congrArg OfsAx.learning hofs, congrArg OfsAx.spoiled hofs, congrArg OfsAx.sumU hofs, congrArg OfsAx.sumV hofs, rfl, rfl,
    fun m hm => modV_ne s.ofs _ (Ne.symm hm)⟩

/-! ### OFFSET_LEARN_END (R256, R261) -/

/-- A learn that has ended, before its results (R256). -/
def learnEnded (s : State) (n : Axis) : State :=
  modOfs (toTick s (learnFrom s n + learnTicks)) n (fun o => { o with learning := false, spoiled := false })

theorem learnEnded_rest (s : State) (n : Axis) :
    ∃ clk pwm, learnEnded s n = modOfs { s with clk := clk, pwm := pwm } n (fun o => { o with learning := false, spoiled := false }) := by
  obtain ⟨clk, pwm, e⟩ := toTick_rest s (learnFrom s n + learnTicks)
  exact ⟨clk, pwm, by rw [learnEnded, e]⟩

/-- The results of a learn: of phase U, then of phase V. -/
def learnAdopted (s : State) (n : Axis) (x y : Int) : State := learnResult (learnResult s n false x) n true y

theorem toTick_learn (s : State) (t : Nat) (n : Axis) : (toTick s t).ofs = s.ofs ∧ axSt (toTick s t) n = axSt s n ∧
    ∀ v lo hi, heldBad (toTick s t) n v lo hi = heldBad s n v lo hi := by
  obtain ⟨clk, pwm, e⟩ := toTick_rest s t
  rw [e]
  exact ⟨rfl, rfl, fun _ _ _ => rfl⟩

/-- Whether the running learn of an axis gives no result (R256, R261). -/
def learnFlawed (s : State) (n : Axis) : Bool :=
  (s.ofs[n]).spoiled || heldBad s n false (learnFrom s n) (learnFrom s n + learnTicks) ||
    heldBad s n true (learnFrom s n) (learnFrom s n + learnTicks) || decide (axSt s n ≠ .disabled)

theorem execOffsetLearnEnd_eq {s : State} {n : Axis} (u v : Int) (hrun : inRun s = true) (hl : (s.ofs[n]).learning = true) :
    exec (.offsetLearnEnd n u v) s = .next (if learnFlawed s n then learnEnded s n else
      learnAdopted (learnEnded s n) n (learnMean (Sig.SMP_OFS (2 * n.val)) (s.ofs[n]).sumU u)
        (learnMean (Sig.SMP_OFS (2 * n.val + 1)) (s.ofs[n]).sumV v)) := by
  obtain ⟨hofs, hax, hheld⟩ := toTick_learn s (learnFrom s n + learnTicks) n
  have hax' : axSt (learnEnded s n) n = axSt s n := hax
  unfold learnEnded at hax'
  show execOffsetLearnEnd n u v s = _
  unfold execOffsetLearnEnd learnAdopted learnEnded learnFlawed
  rw [if_pos (by rw [hrun, hl]; rfl), apply_ite Host.Outcome.next]
  dsimp only
  rw [hax', hofs, hheld, hheld]

theorem execOffsetLearnEnd_good {s : State} {n : Axis} (u v : Int) (hrun : inRun s = true) (hl : (s.ofs[n]).learning = true)
    (hs : (s.ofs[n]).spoiled = false) (hd : axSt s n = .disabled) (hv : LearnedValid s n) :
    exec (.offsetLearnEnd n u v) s = .next (learnAdopted (learnEnded s n) n (learnMean (Sig.SMP_OFS (2 * n.val)) (s.ofs[n]).sumU u)
      (learnMean (Sig.SMP_OFS (2 * n.val + 1)) (s.ofs[n]).sumV v)) := by
  have hgood : learnFlawed s n = false := by
    rw [learnFlawed, hs, hv false, hv true, hd]
    rfl
  rw [execOffsetLearnEnd_eq u v hrun hl, hgood, if_neg (by decide)]

theorem execOffsetLearnEnd_flawed {s : State} {n : Axis} (u v : Int) (hrun : inRun s = true) (hl : (s.ofs[n]).learning = true)
    (hb : (s.ofs[n]).spoiled = true ∨ ¬LearnedValid s n) : exec (.offsetLearnEnd n u v) s = .next (learnEnded s n) := by
  have hbad : learnFlawed s n = true := by
    unfold learnFlawed
    rcases hb with hs | hv
    · rw [hs]
      rfl
    · obtain ⟨w, hw⟩ := not_forall.mp hv
      rw [Bool.not_eq_false] at hw
      cases w <;> simp only [hw, Bool.or_true, Bool.true_or]
  rw [execOffsetLearnEnd_eq u v hrun hl, if_pos hbad]

/-- The offset signal of a phase. -/
def ofsKey (n : Axis) (v : Bool) : Nat := Sig.SMP_OFS (2 * n.val + if v then 1 else 0)

theorem ofsKey_facts (n : Axis) (v : Bool) : ofsKey n v ∉ ledgerKeys ∧ (∀ m : Axis, Sig.FLT_ROLE_AX m.val ≠ ofsKey n v) ∧
    ofsKey n false ≠ ofsKey n true := by
  revert n v
  decide

/-- An offset adopted in its signal (R83, R256). -/
def ofsAdopted (s : State) (n : Axis) (v : Bool) (x : Int) : State :=
  modOfs (setI s (ofsKey n v) x) n (fun o => { o with dflt := false })

theorem ofsAdopted_rg_ne (s : State) {n : Axis} {v : Bool} {k : Nat} (x : Int) (hk : k ≠ ofsKey n v) :
    rg (ofsAdopted s n v x) k = rg s k := rg_setR_ne s _ hk

/-- An offset reads back as it was adopted. -/
theorem rgI_ofsAdopted (s : State) (n : Axis) (v : Bool) {x : Int} (hx : InOffsetRange x) : rgI (ofsAdopted s n v x) (ofsKey n v) = x := by
  obtain ⟨hlo, hhi⟩ := hx
  have hrg : rg (ofsAdopted s n v x) (ofsKey n v) = BitVec.ofInt 32 x := rg_setR_same s _ _
  rw [rgI, hrg, BitVec.toInt_ofInt]
  exact Int.bmod_eq_of_le (by omega) (by omega)

theorem ofsAdopted_ofs (s : State) (n : Axis) (v : Bool) (x : Int) : (ofsAdopted s n v x).ofs[n] = { s.ofs[n] with dflt := false } :=
  modV_same s.ofs n _

theorem roleOf_ofsAdopted (s : State) (n : Axis) (v : Bool) (x : Int) (m : Axis) : roleOf (ofsAdopted s n v x) m = roleOf s m :=
  congrArg BitVec.toNat (ofsAdopted_rg_ne s x ((ofsKey_facts n v).2.1 m))

/-- A result within the range is adopted (R256). -/
theorem learnResult_adopts {s : State} {n : Axis} {v : Bool} {x : Int} (hx : InOffsetRange x) :
    learnResult s n v x = ofsAdopted s n v x := if_pos hx

/-- A result outside the range counts CUR_PLAUS (R256). -/
theorem learnResult_counts {s : State} {n : Axis} {v : Bool} {x : Int} (hx : ¬InOffsetRange x) : learnResult s n v x = axFault s n 6 := if_neg hx

theorem learnEnded_facts (s : State) (n : Axis) : (learnEnded s n).regs = s.regs ∧ (learnEnded s n).flt = s.flt ∧
    (learnEnded s n).ax = s.ax ∧ ((learnEnded s n).ofs[n]).learning = false ∧ ((learnEnded s n).ofs[n]).dflt = (s.ofs[n]).dflt := by
  obtain ⟨clk, pwm, e⟩ := learnEnded_rest s n
  have hofs := modV_same s.ofs n (fun o => { o with learning := false, spoiled := false })
  rw [e]
  exact ⟨rfl, rfl, rfl, (congrArg OfsAx.learning hofs :), (congrArg OfsAx.dflt hofs :)⟩

theorem execOffsetLearnEnd_adopts (s : State) (n : Axis) (u v : Int) (hrun : inRun s = true) (hl : (s.ofs[n]).learning = true)
    (hs : (s.ofs[n]).spoiled = false) (hd : axSt s n = .disabled) (hv : LearnedValid s n)
    (hx : InOffsetRange (learnMean (Sig.SMP_OFS (2 * n.val)) (s.ofs[n]).sumU u))
    (hy : InOffsetRange (learnMean (Sig.SMP_OFS (2 * n.val + 1)) (s.ofs[n]).sumV v)) :
    ∃ t, exec (.offsetLearnEnd n u v) s = .next t ∧
      rgI t (Sig.SMP_OFS (2 * n.val)) = learnMean (Sig.SMP_OFS (2 * n.val)) (s.ofs[n]).sumU u ∧
      rgI t (Sig.SMP_OFS (2 * n.val + 1)) = learnMean (Sig.SMP_OFS (2 * n.val + 1)) (s.ofs[n]).sumV v ∧
      (t.ofs[n]).learning = false ∧ (t.ofs[n]).dflt = false ∧ t.ax = s.ax ∧
      ∀ k, k ≠ Sig.SMP_OFS (2 * n.val) → k ≠ Sig.SMP_OFS (2 * n.val + 1) → rg t k = rg s k := by
  have he := execOffsetLearnEnd_good u v hrun hl hs hd hv
  obtain ⟨hregs, -, hax, hlearn, -⟩ := learnEnded_facts s n
  generalize learnMean (Sig.SMP_OFS (2 * n.val)) (s.ofs[n]).sumU u = x at *
  generalize learnMean (Sig.SMP_OFS (2 * n.val + 1)) (s.ofs[n]).sumV v = y at *
  rw [learnAdopted, learnResult_adopts hx, learnResult_adopts hy] at he
  generalize learnEnded s n = w at *
  have hofs := (ofsAdopted_ofs (ofsAdopted w n false x) n true y).trans
    (congrArg (fun o : OfsAx => { o with dflt := false }) (ofsAdopted_ofs w n false x))
  refine ⟨_, he, ?_, rgI_ofsAdopted _ n true hy, ?_, ?_, hax, fun k hk0 hk1 => ?_⟩
  · exact (congrArg BitVec.toInt (ofsAdopted_rg_ne _ y (ofsKey_facts n false).2.2)).trans (rgI_ofsAdopted w n false hx)
  · exact (congrArg OfsAx.learning hofs).trans hlearn
  · exact congrArg OfsAx.dflt hofs
  · exact (ofsAdopted_rg_ne _ y hk1).trans ((ofsAdopted_rg_ne w x hk0).trans (rg_of_regs hregs k))

theorem execOffsetLearnEnd_discards (s : State) (n : Axis) (u v : Int) (hrun : inRun s = true) (hl : (s.ofs[n]).learning = true)
    (hb : (s.ofs[n]).spoiled = true ∨ ¬LearnedValid s n) :
    ∃ t, exec (.offsetLearnEnd n u v) s = .next t ∧ t.regs = s.regs ∧ (t.ofs[n]).learning = false ∧ (t.ofs[n]).dflt = (s.ofs[n]).dflt := by
  obtain ⟨hregs, -, -, hlearn, hdflt⟩ := learnEnded_facts s n
  exact ⟨_, execOffsetLearnEnd_flawed u v hrun hl hb, hregs, hlearn, hdflt⟩

/-- CUR_PLAUS counted on a state that differs from another in the signals of no role. -/
theorem curPlaus_counts {s w : State} (n : Axis) (hf : w.flt = s.flt) (hr : roleOf w n = roleOf s n) :
    Counts s (axFault w n 6) (axSrc n 6) := axFault_counts n 6 (by decide) (by rw [hf]) hr

/-- The count of a source outlives the adoption of an offset. -/
theorem counts_ofsAdopted {s w : State} {code : Nat} (n : Axis) (v : Bool) (x : Int) (h : Counts s w code) :
    Counts s (ofsAdopted w n v x) code := by
  have hsrc : srcOf (ofsAdopted w n v x) code = srcOf w code := srcOf_of_cell rfl (fun m _ => roleOf_ofsAdopted w n v x m)
  rw [Counts, hsrc]
  exact h

theorem execOffsetLearnEnd_keepsU (s : State) (n : Axis) (u v : Int) (hrun : inRun s = true) (hl : (s.ofs[n]).learning = true)
    (hs : (s.ofs[n]).spoiled = false) (hd : axSt s n = .disabled) (hv : LearnedValid s n)
    (hx : ¬InOffsetRange (learnMean (Sig.SMP_OFS (2 * n.val)) (s.ofs[n]).sumU u))
    (hy : InOffsetRange (learnMean (Sig.SMP_OFS (2 * n.val + 1)) (s.ofs[n]).sumV v)) :
    ∃ t, exec (.offsetLearnEnd n u v) s = .next t ∧ rg t (Sig.SMP_OFS (2 * n.val)) = rg s (Sig.SMP_OFS (2 * n.val)) ∧
      rgI t (Sig.SMP_OFS (2 * n.val + 1)) = learnMean (Sig.SMP_OFS (2 * n.val + 1)) (s.ofs[n]).sumV v ∧ Counts s t (axSrc n 6) := by
  have he := execOffsetLearnEnd_good u v hrun hl hs hd hv
  obtain ⟨hregs, hflt, -, -, -⟩ := learnEnded_facts s n
  obtain ⟨hledger, -, hne⟩ := ofsKey_facts n false
  generalize learnMean (Sig.SMP_OFS (2 * n.val + 1)) (s.ofs[n]).sumV v = y at *
  rw [learnAdopted, learnResult_counts hx, learnResult_adopts hy] at he
  have hcount := curPlaus_counts (s := s) (w := learnEnded s n) n hflt (congrArg BitVec.toNat (rg_of_regs hregs _))
  have hq := axFault_quiet (learnEnded s n) n 6
  generalize learnEnded s n = w at *
  refine ⟨_, he, ?_, rgI_ofsAdopted _ n true hy, counts_ofsAdopted n true y hcount⟩
  exact (ofsAdopted_rg_ne _ y hne).trans ((hq.keys (ofsKey n false) hledger).trans (rg_of_regs hregs _))

theorem execOffsetLearnEnd_keepsV (s : State) (n : Axis) (u v : Int) (hrun : inRun s = true) (hl : (s.ofs[n]).learning = true)
    (hs : (s.ofs[n]).spoiled = false) (hd : axSt s n = .disabled) (hv : LearnedValid s n)
    (hx : InOffsetRange (learnMean (Sig.SMP_OFS (2 * n.val)) (s.ofs[n]).sumU u))
    (hy : ¬InOffsetRange (learnMean (Sig.SMP_OFS (2 * n.val + 1)) (s.ofs[n]).sumV v)) :
    ∃ t, exec (.offsetLearnEnd n u v) s = .next t ∧
      rgI t (Sig.SMP_OFS (2 * n.val)) = learnMean (Sig.SMP_OFS (2 * n.val)) (s.ofs[n]).sumU u ∧
      rg t (Sig.SMP_OFS (2 * n.val + 1)) = rg s (Sig.SMP_OFS (2 * n.val + 1)) ∧ Counts s t (axSrc n 6) := by
  have he := execOffsetLearnEnd_good u v hrun hl hs hd hv
  obtain ⟨hregs, hflt, -, -, -⟩ := learnEnded_facts s n
  obtain ⟨hledgerU, -, hne⟩ := ofsKey_facts n false
  obtain ⟨hledgerV, -, -⟩ := ofsKey_facts n true
  generalize learnMean (Sig.SMP_OFS (2 * n.val)) (s.ofs[n]).sumU u = x at *
  rw [learnAdopted, learnResult_adopts hx, learnResult_counts hy] at he
  generalize learnEnded s n = w at *
  have hrole : roleOf (ofsAdopted w n false x) n = roleOf s n :=
    (roleOf_ofsAdopted w n false x n).trans (congrArg BitVec.toNat (rg_of_regs hregs _))
  have hq := axFault_quiet (ofsAdopted w n false x) n 6
  refine ⟨_, he, ?_, ?_, curPlaus_counts n hflt hrole⟩
  · exact (congrArg BitVec.toInt (hq.keys (ofsKey n false) hledgerU)).trans (rgI_ofsAdopted w n false hx)
  · exact (hq.keys (ofsKey n true) hledgerV).trans ((ofsAdopted_rg_ne w x (Ne.symm hne)).trans (rg_of_regs hregs _))

/-- Settles O48: the words that a conversion keeps besides its own, the samples that a publication keeps, and the offsets that a learn
adopts. -/
theorem conversionsMeansAndOffsetsAreKept : Obligations.ConversionsMeansAndOffsetsAreKept :=
  ⟨execAdcConversion_writes, execHkIntervalEnd_publishes, execOffsetLearnStart_begins, execOffsetLearnEnd_adopts,
    execOffsetLearnEnd_discards, execOffsetLearnEnd_keepsU, execOffsetLearnEnd_keepsV⟩

end Sys2Proof.Machine
end

section
/-! O2: the state after reset. -/

namespace Sys2Proof.Machine

theorem axSt_reset (n : Axis) : axSt State.reset n = .disabled := by
  simp [axSt, State.reset, AxBase.init]

theorem gateOn_reset (n : Axis) (g : Gate) : gateOn State.reset n g = false :=
  gateOn_of_idle g (axSt_reset n) (by simp [State.reset, GdAx.init])

/-- The reset values of chapter 3 (R83), and the power-on in RESET_CAUSE (R96). -/
theorem signals_reset :
    rg State.reset Sig.RESET_CAUSE = 1 ∧ rg State.reset Sig.WAKE_EN = 0x27 ∧ rg State.reset Sig.ALARM = 0xFFFFFFFF ∧
      rg State.reset Sig.PW_EDGES = 3 ∧ rg State.reset Sig.PW_WINDOW = 20 ∧ rg State.reset Sig.SUP_STAT = 0 ∧
      rg State.reset Sig.CLK_STAT = 0 ∧ viewKey State.reset Sig.PWR_STATE = 1 := by decide +kernel

/-- Settles O2: each signal at the reset value of its table, and the gates of an axis at rest. -/
theorem resetStateIsAsTheSpecGivesIt : Obligations.ResetStateIsAsTheSpecGivesIt := by
  obtain ⟨hcause, hwake, halarm, hedges, hwindow, hsup, hclk, hpwr⟩ := signals_reset
  exact ⟨rfl, rfl, axSt_reset, gateOn_reset, hcause, hwake, halarm, hedges, hwindow, hsup, hclk, hpwr, rfl, rfl⟩

end Sys2Proof.Machine
end

section
/-! O26: the loss of the supply while a bank-select record is written. -/

namespace Sys2Proof.Machine

/-- A request of ring 0 to this device, its answer in ring 16. -/
def commitRequest : Req := ⟨0, 0, false, 0, 0xFF, 0, 16, 0, false, 0, 0⟩

/-- The surroundings of a boot, of which nothing follows once the supply is lost. -/
def bootClean : BootEnv := ⟨0, true, true, true, true, [], [], true, [], true, true, false, true, [], [], false, 1000⟩

/-- Both image banks delivered, both bank-select slots good with one sequence number, bank A in the slot that is current, and the
verification of bank B under way. -/
def tiedRecords : State :=
  { State.reset with
    nd := { Nd.init with bankB := ImgBank.shipped, recA := ⟨5, 0, false, 1, true⟩, recB := ⟨5, 1, false, 0, true⟩ }
    upd := ⟨some commitRequest, false, false⟩ }

theorem spareBank_tiedRecords : spareBank tiedRecords = 1 := by decide

/-- A delivered image is good while key hash slot 0 acts (R2, R98). -/
theorem imageStatus_tiedRecords : imageStatus tiedRecords (spareBank tiedRecords) = stOk := by
  rw [spareBank_tiedRecords]
  rfl

theorem currentRec_tiedRecords : currentRec tiedRecords = some ⟨5, 0, false, 1, true⟩ := rfl

/-- The slot of bank A takes the trial record that the loss of the supply cuts short: the slot of bank B is left. -/
theorem execImgVerifyEnd_tiedRecords (env : BootEnv) :
    ∃ t, exec (.imgVerifyEnd ⟨env, true⟩) tiedRecords = .next t ∧ currentRec t = some ⟨5, 1, false, 0, true⟩ :=
  ⟨_, rfl, rfl⟩

/-- Refutes O26: in `tiedRecords` both slots are good under one sequence number, so the record of bank A is current and its slot is the
one that the cut write spoils; the record that stands afterwards is that of bank B. The clause on the loss of the supply speaks of every
state. -/
theorem not_imagesAreWrittenVerifiedAndConfirmed : ¬ Obligations.ImagesAreWrittenVerifiedAndConfirmed := by
  intro ⟨_, _, _, _, hlost, _⟩
  obtain ⟨t, he, -, hrec⟩ := hlost tiedRecords bootClean commitRequest rfl imageStatus_tiedRecords
  obtain ⟨t', he', hother⟩ := execImgVerifyEnd_tiedRecords bootClean
  obtain rfl : t = t' := Host.Outcome.next.inj (he.symm.trans he')
  rw [hother, currentRec_tiedRecords] at hrec
  exact absurd hrec (by decide)

end Sys2Proof.Machine
end

section
/-! O60: the cause bit of a RESET_REQ, which the boot that follows can write again from the parameter area. -/

namespace Sys2Proof.Machine

/-! ### What the boot keeps of RESET_CAUSE behind the parameter area (R85, R91) -/

/-- The two states agree in RESET_CAUSE. -/
def SameCause (s t : State) : Prop := rg t Sig.RESET_CAUSE = rg s Sig.RESET_CAUSE

theorem sameCause_post : PostFrame SameCause where
  refl _ := rfl
  trans h g := Eq.trans g h
  posts _ _ _ _ _ := rfl
  ledger s _ v hk := rg_setR_ne s v (fun e => absurd (e ▸ hk) (by decide))

theorem loadTables_sameCause (s : State) (bad : List Axis) : SameCause s (loadTables s bad) := by
  have h := sameCause_post.each allAxes (fun s n =>
    modRsv s n (fun r => { r with table := if bad.contains n then [] else ndTable r, tableOk := !bad.contains n })) (fun _ _ _ => rfl) s
  unfold loadTables
  exact sameCause_post.ite h (sameCause_post.trans h (rg_setB_ne _ _ _ (by decide)))

/-- The locked patterns as the signals show them (R240). -/
def patternsShown (s : State) : State :=
  forEach allAxes s (fun s n => setR s (Sig.GD_SAFE_PAT n.val) (rg s (Sig.GD_SAFE_PAT_NEXT n.val)))

theorem patternsShown_sameCause (s : State) : SameCause s (patternsShown s) := by
  have hk (n : Axis) : Sig.RESET_CAUSE ≠ Sig.GD_SAFE_PAT n.val := by
    revert n
    decide
  exact sameCause_post.each allAxes _ (fun s n _ => rg_setR_ne s _ (hk n)) s

theorem lockPatterns_regs (s : State) : (lockPatterns s).regs = if s.fuse.lc = .retired then s.regs else (patternsShown s).regs := by
  unfold lockPatterns patternsShown
  split
  · rfl
  · dsimp only

theorem lockPatterns_sameCause (s : State) : SameCause s (lockPatterns s) := by
  have h := lockPatterns_regs s
  split at h
  · exact rg_of_regs h _
  · exact (rg_of_regs h _).trans (patternsShown_sameCause s)

theorem roleSignals_sameCause (s : State) (n : Axis) : SameCause s (roleSignals s n) := by
  have hk : Sig.RESET_CAUSE ≠ Sig.OBS_CONT_EN n.val ∧ Sig.RESET_CAUSE ≠ Sig.HC_CLASS n.val := by
    revert n
    decide
  exact (rg_setN_ne _ _ hk.2).trans (rg_setN_ne _ _ hk.1)

/-- Without a valid reference the boot stays in STANDBY (R63, R91). -/
theorem bootClocks_noRef (s : State) {e : BootEnv} (hclk : e.clkFail = false) (href : e.refOk = false) :
    SameCause s (bootClocks s e) := by
  unfold bootClocks
  simp only [hclk, href, Bool.false_eq_true, if_false, Bool.not_false, Bool.true_or, if_true]
  exact (rg_setB_ne _ _ _ (by decide)).trans ((rg_setB_ne _ _ _ (by decide)).trans (rg_setB_ne _ _ _ (by decide)))

theorem stageBoot_sameCause (s : State) (v : Nat) : SameCause s (stageBoot s v) := stageSlice_keeps sameCause_post s _ _ _

theorem toUs_sameCause (s : State) (t : Nat) : SameCause s (toUs s t) := by
  obtain ⟨clk, pwm, h⟩ := toUs_rest s t
  rw [h]
  rfl

theorem bootReady_sameCause (s : State) (image : Bool) (us : Nat) : SameCause s (bootReady s image us) := by
  have h : SameCause s (setN (toUs s us) Sig.BOOT_TIME (toUs s us).clk.us) :=
    (rg_setN_ne _ _ (by decide)).trans (toUs_sameCause s us)
  unfold bootReady
  exact (rg_of_regs rfl _).trans ((stageBoot_sameCause _ _).trans ((rg_of_regs rfl _).trans h))

/-! ### The parameter area (R660) -/

/-- A value for RESET_CAUSE in the parameter area is in force once the area has been read. -/
theorem loadParams_cause {s : State} {w : Word} (hp : s.nd.params = [(Sig.RESET_CAUSE, w)]) (hc : s.nd.fltCfgs = [])
    (hok : s.nd.paramsOk = true) : rg (loadParams s true) Sig.RESET_CAUSE = w := by
  have he : loadParams s true = forEach allAxes (setR s Sig.RESET_CAUSE w) roleSignals := by
    have hcfg : (setR s Sig.RESET_CAUSE w).nd.fltCfgs = [] := hc
    unfold loadParams
    simp only [hok, Bool.true_and, if_true, hp, forEach, List.foldl, hcfg]
  rw [he]
  exact (sameCause_post.each allAxes roleSignals (fun s n _ => roleSignals_sameCause s n) _).trans (rg_setR_same _ _ _)

/-! ### The boot up to its image (R85) -/

/-- The state in which a boot looks for its image. -/
def bootFound (s : State) (e : BootEnv) : State :=
  let s := aoClearSeen (setB (setB s Sig.CLK_STAT 0 true) Sig.SUP_STAT 7 e.vfsrcOk)
  let s := { s with ofs := s.ofs.map (fun o => { o with dflt := true }) }
  let s := bootWrites (senseFuses s e.weakFuses e.weakCommits)
  let s := setB s Sig.BOOT_STAT 3 s.ds.dsFail
  let s := scanRecord s
  if e.tailOpen then setB (nextBlock s) Sig.FC_STAT 1 true else s

theorem bootCd_image {s : State} {e : BootEnv} (h : (bootImage (bootFound s e)).2 = true) :
    bootCd s e = bootReady (bootClocks (lockPatterns (loadTables (loadParams (bootImage (bootFound s e)).1 e.paramCrcOk) e.tableBad)) e)
      true e.bootUs :=
  if_pos h

/-- A CD reset with both supplies up is a boot of the cleared CD (R93, R95). -/
theorem resetCd_boots {s : State} (bit : Nat) (e : BootEnv) (hio : s.pwr.vioLow = false) (hcore : s.pwr.vcoreLow = false) :
    resetCd s bit e = bootCd (setB (clearCd (revertTrial s)) Sig.RESET_CAUSE bit true) e := by
  have hs : ((clearCd (revertTrial s)).pwr.vioLow || (clearCd (revertTrial s)).pwr.vcoreLow) = false := by
    show ((revertTrial s).pwr.vioLow || (revertTrial s).pwr.vcoreLow) = false
    rw [revertTrial_pwr, hio, hcore]
    rfl
  unfold resetCd
  dsimp only
  rw [setB_pwr, hs]
  rfl

/-- A boot that finds an image and no reference ends with the RESET_CAUSE of the parameter area. -/
theorem bootCd_cause {s : State} {e : BootEnv} {w : Word} (himg : (bootImage (bootFound s e)).2 = true)
    (hp : (bootImage (bootFound s e)).1.nd.params = [(Sig.RESET_CAUSE, w)]) (hc : (bootImage (bootFound s e)).1.nd.fltCfgs = [])
    (hok : (bootImage (bootFound s e)).1.nd.paramsOk = true) (hcrc : e.paramCrcOk = true) (hclk : e.clkFail = false)
    (href : e.refOk = false) : rg (bootCd s e) Sig.RESET_CAUSE = w := by
  rw [bootCd_image himg, hcrc]
  calc rg _ Sig.RESET_CAUSE = rg (bootClocks _ e) Sig.RESET_CAUSE := bootReady_sameCause _ _ _
    _ = rg (lockPatterns _) Sig.RESET_CAUSE := bootClocks_noRef _ hclk href
    _ = rg (loadTables _ _) Sig.RESET_CAUSE := lockPatterns_sameCause _
    _ = rg (loadParams _ _) Sig.RESET_CAUSE := loadTables_sameCause _ _
    _ = w := loadParams_cause hp hc hok

/-! ### The counterexample -/

/-- A booted device in STANDBY, a word in each place of key hash slot 0, whose parameter area holds a value for RESET_CAUSE, which is none
of the kept signals. -/
def causeKept : State :=
  { State.reset with
    pwr := { Pwr.init with booted := true, ready := true }
    fuse := { Fuse.init with copyA := (keyWords 0).map (fun w => (w, 5)), copyB := (keyWords 0).map (fun w => (w, 5)) }
    nd := { Nd.init with params := [(Sig.RESET_CAUSE, 0)] } }

/-- A whole RESET_REQ. -/
def resetRequest : DbgReq := ⟨5, 9, 0, 0, 0x52455354, true⟩

/-- A boot that finds no valid reference and nothing else wrong. -/
def bootNoRef : BootEnv := ⟨0, true, true, true, true, [], [], true, [], false, true, false, true, [], [], false, 0⟩

theorem resetRequest_accepted : DbgAccepted causeKept resetRequest 10 0 := ⟨rfl, rfl, rfl, by decide, by decide, by decide⟩

/-- The device once the request is answered. -/
def requestServed : State := dbgServe causeKept resetRequest 10 0 (fun s => (s, dbgOk []))

/-- The device with its CD reset behind the answer. -/
def causeReset : State := setB (clearCd (revertTrial requestServed)) Sig.RESET_CAUSE 7 true

/-- The boot that follows finds the delivered image and the parameter area (R91, R660). -/
theorem causeReset_found :
    (bootImage (bootFound causeReset bootNoRef)).2 = true ∧
      (bootImage (bootFound causeReset bootNoRef)).1.nd.params = [(Sig.RESET_CAUSE, 0)] ∧
      (bootImage (bootFound causeReset bootNoRef)).1.nd.fltCfgs = [] ∧
      (bootImage (bootFound causeReset bootNoRef)).1.nd.paramsOk = true := by decide +kernel

theorem requestServed_reset : resetCd requestServed 7 bootNoRef = bootCd causeReset bootNoRef :=
  resetCd_boots 7 bootNoRef rfl rfl

/-- A RESET_REQ that is carried out is answered, and the CD is reset behind its answer (R632). -/
theorem execResetReq_resets {s : State} {q : DbgReq} (env : BootEnv) (h : DbgAccepted s q 10 0) :
    ∃ d, exec (.resetReq q env) s = .next { resetCd (dbgServe s q 10 0 (fun s => (s, dbgOk []))) 7 env with dbg := d } := by
  obtain ⟨hp, hb, hw, hf, hv, hu⟩ := h
  show ∃ d, execResetReq q env s = _
  unfold execResetReq
  simp only [hp, hb, hw, hf, hv, hu, ne_eq, not_false_eq_true, decide_true, Bool.not_false, Bool.and_self, if_true]
  exact ⟨_, rfl⟩

theorem execResetReq_causeKept :
    ∃ t, exec (.resetReq resetRequest bootNoRef) causeKept = .next t ∧ rg t Sig.RESET_CAUSE = 0 := by
  obtain ⟨d, he⟩ := execResetReq_resets bootNoRef resetRequest_accepted
  rw [← requestServed, requestServed_reset] at he
  obtain ⟨himg, hparams, hcfgs, hok⟩ := causeReset_found
  refine ⟨_, he, Eq.trans (b := rg (bootCd causeReset bootNoRef) Sig.RESET_CAUSE) ?_ ?_⟩
  · exact rg_of_regs (by dsimp only) _
  · exact bootCd_cause himg hparams hcfgs hok rfl rfl rfl

/-- Refutes O60: RESET_REQ sets bit 7 of RESET_CAUSE before the boot, and the boot writes the parameter area behind it. Where the area of
`causeKept` holds a value for RESET_CAUSE, the bit is lost; the statement's clause speaks of every state. -/
theorem not_debugSessionsAreOpenedAndEnded : ¬ Obligations.DebugSessionsAreOpenedAndEnded := by
  intro ⟨_, _, _, _, _, hreset, _⟩
  obtain ⟨t, he, -, -, hcause, -⟩ := hreset causeKept resetRequest bootNoRef resetRequest_accepted rfl rfl
  obtain ⟨t', he', hzero⟩ := execResetReq_causeKept
  obtain rfl : t = t' := Host.Outcome.next.inj (he.symm.trans he')
  rw [rgB, hzero] at hcause
  exact absurd hcause (by decide)

end Sys2Proof.Machine
end

section
/-! O52, a learn that ends, the open-wire probe and the table write. -/

namespace Sys2Proof.Machine

/-! ### Updates of one channel -/

@[simp] theorem modRsv_at (s : State) (n : Axis) (f : RsvAx → RsvAx) : (modRsv s n f).rsv[n] = f (s.rsv[n]) := modV_same s.rsv n f

theorem modRsv_at_ne (s : State) {n m : Axis} (f : RsvAx → RsvAx) (h : m ≠ n) : (modRsv s n f).rsv[m] = s.rsv[m] :=
  modV_ne s.rsv f (Ne.symm h)

/-- Time brought forward leaves the channels, the drivers, the sources and the signals alone, and never goes back. -/
theorem toTick_keeps (s : State) (t : Nat) :
    (toTick s t).rsv = s.rsv ∧ (toTick s t).exc = s.exc ∧ (toTick s t).flt = s.flt ∧ (toTick s t).regs = s.regs ∧
      s.clk.tb ≤ (toTick s t).clk.tb := by
  unfold toTick
  split
  case isTrue h =>
    simp only [Bool.and_eq_true, decide_eq_true_eq] at h
    exact ⟨rfl, rfl, rfl, rfl, h.2.le⟩
  case isFalse => exact ⟨rfl, rfl, rfl, rfl, le_rfl⟩

theorem rsvStat_not_ledger (n : Axis) : Sig.RSV_STAT n.val ∉ ledgerKeys := by
  revert n
  decide

/-! ### The counts of the sources (R504) -/

/-- The events of a source as the fault manager lists them: a source that is not listed has seen none. -/
def eventsIn (srcs : List (Nat × FltSrc)) (code : Nat) : Nat := ((cellGet srcs code).map FltSrc.events).getD 0

theorem srcOf_events (s : State) (code : Nat) : (srcOf s code).events = eventsIn s.flt.srcs code := by
  unfold srcOf eventsIn
  cases cellGet s.flt.srcs code <;> rfl

/-- A count behind updates that leave the fault manager alone. -/
theorem counts_of_flt {s w t : State} {code : Nat} (hf : w.flt = s.flt) (h : Counts w t code) : Counts s t code := by
  unfold Counts at h ⊢
  rw [h, srcOf_events, srcOf_events, hf]

/-! ### The end of a learn (R348, R357, R367) -/

/-- Whether a learned amplitude is accepted: within its limits where no nominal one is given, else within the window around that. -/
def ampTaken (s : State) (n : Axis) (amp : Rat) : Bool :=
  if rgN s (Sig.RSV_AMP_NOM n.val) = 0 then decide (512 ≤ amp) && decide (amp ≤ 1946)
  else !ampOut s n (amp * amp) ((rgN s (Sig.RSV_AMP_NOM n.val) : Rat) / 16)

/-- The amplitude that an accepted learn adopts. -/
def ampAdopted (s : State) (n : Axis) (amp : Rat) : Rat :=
  if rgN s (Sig.RSV_AMP_NOM n.val) = 0 then amp else (rgN s (Sig.RSV_AMP_NOM n.val) : Rat) / 16

/-- A channel that has adopted a phase and an amplitude. -/
def RsvAx.adopt (r : RsvAx) (phase amp : Rat) : RsvAx :=
  { r with phase := phase, aNom := amp, adopted := true, faulted := false, valid := true, mt := true, learnPhase := false }

/-- A channel whose learn was refused. -/
def RsvAx.refuse (r : RsvAx) : RsvAx := { r with adopted := false, faulted := true, valid := false, learnPhase := false }

theorem nominal_eq_zero (k : Nat) : (k : Rat) / 16 = 0 ↔ k = 0 := by simp

theorem adoptLearn_eq (s : State) (n : Axis) (phase amp : Rat) :
    adoptLearn s n phase amp = if ampTaken s n amp then modRsv s n (fun r => r.adopt phase (ampAdopted s n amp))
      else axFault (setB (modRsv s n RsvAx.refuse) (Sig.RSV_STAT n.val) 0 true) n 11 := by
  unfold adoptLearn ampTaken ampAdopted
  simp only [nominal_eq_zero]
  rfl

theorem ampTaken_of_regs {s t : State} (h : t.regs = s.regs) (n : Axis) (amp : Rat) : ampTaken t n amp = ampTaken s n amp := by
  unfold ampTaken ampOut rgN rg
  rw [h]

theorem ampAdopted_of_regs {s t : State} (h : t.regs = s.regs) (n : Axis) (amp : Rat) : ampAdopted t n amp = ampAdopted s n amp := by
  unfold ampAdopted rgN rg
  rw [h]

/-- The learned amplitude of a channel: the mean of those of its learn (R348). -/
def learnedAmp (s : State) (n : Axis) : Rat := (s.rsv[n]).ampSum / ((s.rsv[n]).ampN : Rat)

/-- The state at the 50th excitation period of a driver, where its learns are judged. -/
def learnEndTime (s : State) (n : Axis) : State := toTick s (psiTick s (drvOf n) 50)

theorem learnEndTime_keeps (s : State) (n : Axis) :
    (learnEndTime s n).rsv = s.rsv ∧ (learnEndTime s n).flt = s.flt ∧ (learnEndTime s n).regs = s.regs := by
  obtain ⟨hrsv, -, hflt, hregs, -⟩ := toTick_keeps s (psiTick s (drvOf n) 50)
  exact ⟨hrsv, hflt, hregs⟩

theorem execPhaseLearnEnd_eq {s : State} {n : Axis} (hrun : inRun s = true) (hon : (s.exc[drvOf n]).on = true)
    (hl : (s.rsv[n]).learnPhase = true) :
    exec (.phaseLearnEnd n) s = .next (adoptLearn (learnEndTime s n) n (learnDone (learnEndTime s n) n).learnedPhase (learnedAmp s n)) := by
  have hamp : (learnDone (learnEndTime s n) n).ampSum / ((learnDone (learnEndTime s n) n).ampN : Rat) = learnedAmp s n := by
    show learnedAmp (learnEndTime s n) n = learnedAmp s n
    unfold learnedAmp
    rw [(learnEndTime_keeps s n).1]
  show execPhaseLearnEnd n s = _
  unfold execPhaseLearnEnd
  simp only [hrun, hon, hl, Bool.and_self, if_true]
  rw [← hamp]
  rfl

theorem execPhaseLearnEnd_adopts (s : State) (n : Axis) (hrun : inRun s = true) (hon : (s.exc[drvOf n]).on = true)
    (hl : (s.rsv[n]).learnPhase = true) (ht : ampTaken s n (learnedAmp s n) = true) :
    ∃ t, exec (.phaseLearnEnd n) s = .next t ∧
      t.rsv[n] = (s.rsv[n]).adopt (learnDone (learnEndTime s n) n).learnedPhase (ampAdopted s n (learnedAmp s n)) ∧
      (∀ m, m ≠ n → t.rsv[m] = s.rsv[m]) ∧ t.regs = s.regs := by
  obtain ⟨hrsv, -, hregs⟩ := learnEndTime_keeps s n
  have he := execPhaseLearnEnd_eq hrun hon hl
  generalize (learnDone (learnEndTime s n) n).learnedPhase = phase at he ⊢
  rw [adoptLearn_eq, ampTaken_of_regs hregs, if_pos ht, ampAdopted_of_regs hregs] at he
  refine ⟨_, he, ?_, fun m hm => ?_, hregs⟩
  · rw [modRsv_at, hrsv]
  · rw [modRsv_at_ne _ _ hm, hrsv]

theorem execPhaseLearnEnd_refuses (s : State) (n : Axis) (hrun : inRun s = true) (hon : (s.exc[drvOf n]).on = true)
    (hl : (s.rsv[n]).learnPhase = true) (ht : ampTaken s n (learnedAmp s n) = false) :
    ∃ t, exec (.phaseLearnEnd n) s = .next t ∧ t.rsv[n] = (s.rsv[n]).refuse ∧ (∀ m, m ≠ n → t.rsv[m] = s.rsv[m]) ∧
      rgB t (Sig.RSV_STAT n.val) 0 = true ∧ Counts s t (axSrc n 11) := by
  obtain ⟨hrsv, hflt, hregs⟩ := learnEndTime_keeps s n
  have he := execPhaseLearnEnd_eq hrun hon hl
  rw [adoptLearn_eq, ampTaken_of_regs hregs, ht, if_neg Bool.false_ne_true] at he
  have hq := axFault_quiet (setB (modRsv (learnEndTime s n) n RsvAx.refuse) (Sig.RSV_STAT n.val) 0 true) n 11
  refine ⟨_, he, ?_, fun m hm => ?_, ?_, counts_of_flt (by exact hflt) (faultEvtB_counts _ _ _)⟩
  · rw [hq.rsv, setB_rsv, modRsv_at, hrsv]
  · rw [hq.rsv, setB_rsv, modRsv_at_ne _ _ hm, hrsv]
  · rw [hq.rgB 0 (rsvStat_not_ledger n), rgB_setB _ _ _ _ _ (by decide), if_pos rfl]

/-! ### The clauses of a learn -/

theorem ampTaken_unset {s : State} {n : Axis} (h : rgN s (Sig.RSV_AMP_NOM n.val) = 0) (amp : Rat) :
    ampTaken s n amp = (decide (512 ≤ amp) && decide (amp ≤ 1946)) := if_pos h

theorem ampTaken_nominal {s : State} {n : Axis} (h : rgN s (Sig.RSV_AMP_NOM n.val) ≠ 0) (amp : Rat) :
    ampTaken s n amp = !ampOut s n (amp * amp) ((rgN s (Sig.RSV_AMP_NOM n.val) : Rat) / 16) := if_neg h

theorem execPhaseLearnEnd_learned (s : State) (n : Axis) (hrun : inRun s = true) (hon : (s.exc[drvOf n]).on = true)
    (hl : (s.rsv[n]).learnPhase = true) (hnom : rgN s (Sig.RSV_AMP_NOM n.val) = 0) (hlo : 512 ≤ learnedAmp s n)
    (hhi : learnedAmp s n ≤ 1946) :
    ∃ t, exec (.phaseLearnEnd n) s = .next t ∧
      t.rsv[n] = (s.rsv[n]).adopt (learnDone (learnEndTime s n) n).learnedPhase (learnedAmp s n) ∧
      (∀ m, m ≠ n → t.rsv[m] = s.rsv[m]) ∧ t.regs = s.regs := by
  have ht : ampTaken s n (learnedAmp s n) = true := by rw [ampTaken_unset hnom, decide_eq_true hlo, decide_eq_true hhi, Bool.and_self]
  have h := execPhaseLearnEnd_adopts s n hrun hon hl ht
  rwa [ampAdopted, if_pos hnom] at h

theorem execPhaseLearnEnd_nominal (s : State) (n : Axis) (hrun : inRun s = true) (hon : (s.exc[drvOf n]).on = true)
    (hl : (s.rsv[n]).learnPhase = true) (hnom : rgN s (Sig.RSV_AMP_NOM n.val) ≠ 0)
    (ha : ampOut s n (learnedAmp s n * learnedAmp s n) ((rgN s (Sig.RSV_AMP_NOM n.val) : Rat) / 16) = false) :
    ∃ t, exec (.phaseLearnEnd n) s = .next t ∧
      t.rsv[n] = (s.rsv[n]).adopt (learnDone (learnEndTime s n) n).learnedPhase ((rgN s (Sig.RSV_AMP_NOM n.val) : Rat) / 16) ∧
      (∀ m, m ≠ n → t.rsv[m] = s.rsv[m]) ∧ t.regs = s.regs := by
  have ht : ampTaken s n (learnedAmp s n) = true := by rw [ampTaken_nominal hnom, ha, Bool.not_false]
  have h := execPhaseLearnEnd_adopts s n hrun hon hl ht
  rwa [ampAdopted, if_neg hnom] at h

theorem execPhaseLearnEnd_faults (s : State) (n : Axis) (hrun : inRun s = true) (hon : (s.exc[drvOf n]).on = true)
    (hl : (s.rsv[n]).learnPhase = true)
    (hbad : (rgN s (Sig.RSV_AMP_NOM n.val) = 0 ∧ (learnedAmp s n < 512 ∨ 1946 < learnedAmp s n)) ∨
      (rgN s (Sig.RSV_AMP_NOM n.val) ≠ 0 ∧
        ampOut s n (learnedAmp s n * learnedAmp s n) ((rgN s (Sig.RSV_AMP_NOM n.val) : Rat) / 16) = true)) :
    ∃ t, exec (.phaseLearnEnd n) s = .next t ∧ t.rsv[n] = (s.rsv[n]).refuse ∧ (∀ m, m ≠ n → t.rsv[m] = s.rsv[m]) ∧
      rgB t (Sig.RSV_STAT n.val) 0 = true ∧ Counts s t (axSrc n 11) := by
  refine execPhaseLearnEnd_refuses s n hrun hon hl ?_
  rcases hbad with ⟨hnom, hlo | hhi⟩ | ⟨hnom, ha⟩
  · rw [ampTaken_unset hnom, decide_eq_false (not_le.mpr hlo), Bool.false_and]
  · rw [ampTaken_unset hnom, decide_eq_false (not_le.mpr hhi), Bool.and_false]
  · rw [ampTaken_nominal hnom, ha, Bool.not_true]

/-! ### The open-wire probe and the table write (R109, R352, R378) -/

theorem execOpenWireProbe_moves (s : State) (n : Axis) (hrun : inRun s = true) (hon : (s.exc[drvOf n]).on = true)
    (hen : (s.rsv[n]).en = true) (hper : rgN s (Sig.RSV_PROBE_PER n.val) ≠ 0) :
    ∃ t, exec (.openWireProbe n) s = .next t ∧ t.rsv[n] = { s.rsv[n] with probe := true } ∧ (∀ m, m ≠ n → t.rsv[m] = s.rsv[m]) ∧
      t.regs = s.regs := by
  obtain ⟨hrsv, -, -, hregs, -⟩ := toTick_keeps s (markOf s (keyProbe n))
  have hper' : (rgN s (Sig.RSV_PROBE_PER n.val) != 0) = true := bne_iff_ne.mpr hper
  have he : exec (.openWireProbe n) s = .next (modRsv (setMark (toTick s (markOf s (keyProbe n))) (keyProbe n)
      ((toTick s (markOf s (keyProbe n))).clk.tb + 400000 * rgN s (Sig.RSV_PROBE_PER n.val))) n (fun r => { r with probe := true })) := by
    show execOpenWireProbe n s = _
    simp only [execOpenWireProbe, hrun, hon, hen, hper', Bool.and_self, if_true]
  refine ⟨_, he, ?_, fun m hm => ?_, hregs⟩
  · rw [modRsv_at, setMark_rsv, hrsv]
  · rw [modRsv_at_ne _ _ hm, setMark_rsv, hrsv]

/-- A channel whose table write is complete: the older copy holds its content, and a STORE that waited has begun (R109, R378). -/
def RsvAx.stored (r : RsvAx) (x : Table) : RsvAx :=
  let r := if r.ndNewB then { r with ndA := x, ndNewB := false } else { r with ndB := x, ndNewB := true }
  if r.storeNext then { r with storing := some r.table, storeNext := false } else { r with storing := none }

theorem stored_facts (r : RsvAx) (x : Table) :
    ndTable (r.stored x) = x ∧ (r.stored x).ndNewB = !r.ndNewB ∧ (r.stored x).table = r.table ∧ (r.stored x).storeNext = false ∧
      (r.stored x).storing = if r.storeNext then some r.table else none := by
  unfold RsvAx.stored
  cases hb : r.ndNewB <;> cases hn : r.storeNext <;> simp [ndTable]

theorem execTableWriteEnd_completes (s : State) (n : Axis) (x : Table) (h : (s.rsv[n]).storing = some x) :
    ∃ t, exec (.tableWriteEnd n) s = .next t ∧ ndTable t.rsv[n] = x ∧ (t.rsv[n]).ndNewB = !(s.rsv[n]).ndNewB ∧
      (t.rsv[n]).table = (s.rsv[n]).table ∧ (t.rsv[n]).storeNext = false ∧
      (t.rsv[n]).storing = (if (s.rsv[n]).storeNext then some (s.rsv[n]).table else none) ∧ (∀ m, m ≠ n → t.rsv[m] = s.rsv[m]) ∧
      t.regs = s.regs := by
  have he : exec (.tableWriteEnd n) s = .next (modRsv (idleAgain s) n (fun r => r.stored x)) := by
    show execTableWriteEnd n s = _
    unfold execTableWriteEnd
    rw [h]
    rfl
  have hn : (modRsv (idleAgain s) n (fun r => r.stored x)).rsv[n] = (s.rsv[n]).stored x := modRsv_at _ _ _
  obtain ⟨htable, hnew, hcd, hnext, hstoring⟩ := stored_facts (s.rsv[n]) x
  refine ⟨_, he, ?_, ?_, ?_, ?_, ?_, fun m hm => modRsv_at_ne _ _ hm, rfl⟩
  all_goals rw [hn]
  · exact htable
  · exact hnew
  · exact hcd
  · exact hnext
  · exact hstoring

end Sys2Proof.Machine
end

section
/-! O52, the end of a demodulation period: one channel works, its count of periods rises by one, and the other channels stand. -/

namespace Sys2Proof.Machine

/-! ### What the work of one channel keeps -/

/-- The two states agree in the instant, in the count of periods of a channel and in every other channel. -/
structure PeriodKept (n : Axis) (s t : State) : Prop where
  tb : t.clk.tb = s.clk.tb
  periods : (t.rsv[n]).periods = (s.rsv[n]).periods
  others : ∀ m, m ≠ n → t.rsv[m] = s.rsv[m]

namespace PeriodKept

variable {n : Axis}

theorem of_rsv {s t : State} (htb : t.clk.tb = s.clk.tb) (h : t.rsv = s.rsv) : PeriodKept n s t :=
  ⟨htb, by rw [h], fun m _ => by rw [h]⟩

theorem refl (s : State) : PeriodKept n s s := of_rsv rfl rfl

theorem trans {s t u : State} (h : PeriodKept n s t) (g : PeriodKept n t u) : PeriodKept n s u :=
  ⟨g.tb.trans h.tb, g.periods.trans h.periods, fun m hm => (g.others m hm).trans (h.others m hm)⟩

theorem ite {c : Prop} [Decidable c] {s a b : State} (ha : PeriodKept n s a) (hb : PeriodKept n s b) :
    PeriodKept n s (if c then a else b) := by
  split
  · exact ha
  · exact hb

theorem of_quiet {s t : State} (h : Quiet s t) : PeriodKept n s t := of_rsv h.tb h.rsv

theorem reg (s : State) (k : Nat) (v : Word) : PeriodKept n s (setR s k v) := of_rsv rfl rfl

theorem tel (s : State) (k : Nat) (x : Rat) : PeriodKept n s (setTel s k x) := by
  unfold setTel
  split
  · exact reg s k _
  · exact refl s

theorem chan (s : State) (f : RsvAx → RsvAx) (hf : (f (s.rsv[n])).periods = (s.rsv[n]).periods) : PeriodKept n s (modRsv s n f) :=
  ⟨rfl, by rw [modRsv_at, hf], fun _ hm => modRsv_at_ne s f hm⟩

end PeriodKept

/-! ### The pieces of a period -/

section
variable (s : State) (n : Axis)

theorem rsvTelemetry_kept (a2 e dphi : Rat) : PeriodKept n s (rsvTelemetry s n a2 e dphi) :=
  ((((((((PeriodKept.reg s _ _).trans (.reg _ _ _)).trans (.tel _ _ _)).trans (.tel _ _ _)).trans (.tel _ _ _)).trans
    (.tel _ _ _)).trans (.tel _ _ _)).trans (.tel _ _ _))

theorem rsvCheck_kept (bad : Bool) (bit src : Nat) : PeriodKept n s (rsvCheck s n bad bit src) :=
  PeriodKept.ite ((PeriodKept.reg s _ _).trans (.of_quiet (axFault_quiet _ n src))) (.refl s)

theorem storeTable_kept : PeriodKept n s (storeTable s n) := by
  refine PeriodKept.chan s _ ?_
  split <;> rfl

theorem endLearn_kept : PeriodKept n s (endLearn s n) := PeriodKept.chan s _ rfl

theorem replayLog_kept (k : Nat) : PeriodKept n s (replayLog s k) := by
  have hlog : PeriodKept n s { s with bisc := { s.bisc with logs := setAt s.bisc.logs k 0 } } := .of_rsv rfl rfl
  unfold replayLog
  exact PeriodKept.ite (.refl s) (PeriodKept.ite (hlog.trans (.reg _ _ _))
    (hlog.trans (.of_quiet (Quiet.each _ _ (fun s m => modLoop_quiet s m _) _))))

/-- A safety task of the MP whose results and whose held output both keep the count (R489). -/
theorem mpTask_kept (chk : Check) {f held : State → State} (hf : ∀ u, PeriodKept n u (f u)) (hh : ∀ u, PeriodKept n u (held u)) :
    PeriodKept n s (mpTask s chk f held) := by
  unfold mpTask
  refine (replayLog_kept s n 2).trans ?_
  split
  · exact hf _
  · have hfault (u : State) (retry : Bool) (k : Nat) : PeriodKept n u
        (devFault (evt (biscLast (incR (orR u Sig.BISC_STAT (64 + k % 8)) Sig.BISC_MP_COUNT) 2 0 k retry) 92) 37) :=
      (((PeriodKept.reg u _ _).trans (.reg _ _ _)).trans (.reg _ _ _)).trans (.of_quiet ((evt_quiet _ 92).trans (devFault_quiet _ 37)))
    exact (hfault _ _ _).trans (PeriodKept.ite ((PeriodKept.reg _ _ _).trans (hf _)) (hh _))

theorem judgeLearn_kept (chk : Check) : PeriodKept n s (judgeLearn s n chk) := by
  have hends : PeriodKept n s (endLearn (setB s (Sig.RSV_STAT n.val) 11 true) n) := (PeriodKept.reg s _ _).trans (endLearn_kept _ n)
  unfold judgeLearn
  refine PeriodKept.ite (PeriodKept.ite (mpTask_kept s n chk (fun u => ?_) .refl) hends) (PeriodKept.ite hends (.refl s))
  exact (((PeriodKept.chan u _ rfl).trans (.reg _ _ _)).trans (storeTable_kept _ n)).trans (.of_quiet (stageEvent_quiet _ _ _ _ _))

theorem learnPeriod_kept (mu : Rat) (clean : Bool) (chk : Check) : PeriodKept n s (learnPeriod s n mu clean chk) := by
  unfold learnPeriod
  refine PeriodKept.ite (.refl s) (PeriodKept.ite ?_ (PeriodKept.chan s _ rfl))
  split
  · exact (PeriodKept.chan s _ rfl).trans (PeriodKept.ite (judgeLearn_kept _ n chk) (.refl _))
  · exact PeriodKept.chan s _ rfl

theorem usedPeriod_kept (x : Demod) (dphi : Rat) : PeriodKept n s (usedPeriod s n x dphi).1 :=
  ((PeriodKept.chan s _ rfl).trans (rsvCheck_kept _ n _ 4 15)).trans (rsvCheck_kept _ n _ 5 16)

theorem obsFail_kept (m : Axis) : PeriodKept n s (obsFail s m) :=
  (PeriodKept.reg s _ _).trans (.of_quiet (axFault_quiet _ m 20))

/-- The loss of the resolver changes no channel (R396 to R398). -/
theorem resolverLoss_kept : PeriodKept n s (resolverLoss s n) := by
  have hpre (c : Bool) : PeriodKept n s
      (modObs (if c then setB s (Sig.OBS_STAT n.val) 3 true else s) n (fun o => { o with overSince := none })) :=
    (PeriodKept.ite (.reg s _ _) (.refl s)).trans (.of_rsv rfl rfl)
  have hevt (c bind : Bool) := (hpre c).trans (.of_quiet (faultEvtB_quiet _ (axSrc n 18) bind))
  unfold resolverLoss
  refine PeriodKept.ite (.refl s) (PeriodKept.ite (.of_quiet ((endWaits_quiet s _ _).trans (toDisabled_quiet _ n)))
    (PeriodKept.ite (.refl s) (PeriodKept.ite (hevt _ _) ?_)))
  have hfail (c bind : Bool) (p : Prop) [Decidable p] := (hevt c bind).trans (PeriodKept.ite (c := p) (obsFail_kept _ n n) (.refl _))
  exact PeriodKept.ite ((hfail _ _ _).trans (.of_rsv rfl rfl)) (hfail _ _ _)

/-- A channel that has coasted over a period that is not used (R363, R364, R369). -/
def coasted (s : State) (n : Axis) : State :=
  let was := s.rsv[n]
  let s := incR s (Sig.RSV_FAIL_COUNT n.val)
  let s := rsvCheck s n (decide (vTrk s n < absRat was.omega)) 5 16
  modRsv s n (fun r => { r with theta := r.theta + r.omega * demodT s n, omx := r.omega, coast := r.coast + 1,
                                validCnt := if r.valid then r.validCnt else 0 })

/-- A channel that has been lost (R364, R365). -/
def channelLost (s : State) (n : Axis) (was : RsvAx) : State :=
  let s := setB s (Sig.RSV_STAT n.val) 8 true
  let s := modRsv s n (fun r => { r with lost := true, valid := false, coast := 0, good := 0, validCnt := 0, learn := Learn.init })
  let s := if was.valid then resolverLoss s n else s
  modRsv s n (fun r => { r with omega := 0, omx := 0 })

theorem unusedPeriod_eq : unusedPeriod s n =
    if rgN (coasted s n) (Sig.RSV_COAST_MAX n.val) < (s.rsv[n]).coast + 1 then channelLost (coasted s n) n (s.rsv[n])
    else coasted s n := rfl

theorem coasted_kept : PeriodKept n s (coasted s n) :=
  ((PeriodKept.reg s _ _).trans (rsvCheck_kept _ n _ 5 16)).trans (PeriodKept.chan _ _ rfl)

theorem channelLost_kept (was : RsvAx) : PeriodKept n s (channelLost s n was) :=
  (((PeriodKept.reg s _ _).trans (PeriodKept.chan _ _ rfl)).trans (PeriodKept.ite (resolverLoss_kept _ n) (.refl _))).trans
    (PeriodKept.chan _ _ rfl)

theorem unusedPeriod_kept : PeriodKept n s (unusedPeriod s n) := by
  rw [unusedPeriod_eq]
  exact PeriodKept.ite ((coasted_kept s n).trans (channelLost_kept _ n _)) (coasted_kept s n)

theorem lostPeriod_kept (usable : Bool) (mu : Rat) : PeriodKept n s (lostPeriod s n usable mu) := by
  unfold lostPeriod
  refine PeriodKept.ite ((PeriodKept.chan s _ rfl).trans (.reg _ _ _)) (PeriodKept.ite ?_ (PeriodKept.chan s _ rfl))
  exact (PeriodKept.chan s _ rfl).trans (.reg _ _ _)

theorem learnDemod_kept_after (lo hi : Nat) (tk : Rat) :
    PeriodKept n (modRsv s n (fun r => { r with tk := tk, periods := r.periods + 1 })) (learnDemod s n lo hi tk) := by
  unfold learnDemod
  refine PeriodKept.ite ?_ (.refl _)
  exact (PeriodKept.chan _ _ rfl).trans (rsvTelemetry_kept _ n _ _ _)

end

/-! ### The end of a period -/

/-- One demodulation period more of a channel, no other channel changed, and time not set back. -/
structure OnePeriod (n : Axis) (s t : State) : Prop where
  periods : (t.rsv[n]).periods = (s.rsv[n]).periods + 1
  others : ∀ m, m ≠ n → t.rsv[m] = s.rsv[m]
  tb : s.clk.tb ≤ t.clk.tb

theorem OnePeriod.of_chan {n : Axis} (s : State) {f : RsvAx → RsvAx} (hf : (f (s.rsv[n])).periods = (s.rsv[n]).periods + 1) :
    OnePeriod n s (modRsv s n f) :=
  ⟨by rw [modRsv_at, hf], fun _ hm => modRsv_at_ne s f hm, le_rfl⟩

theorem OnePeriod.then {n : Axis} {s t u : State} (h : OnePeriod n s t) (g : PeriodKept n t u) : OnePeriod n s u :=
  ⟨g.periods.trans h.periods, fun m hm => (g.others m hm).trans (h.others m hm), g.tb ▸ h.tb⟩

theorem OnePeriod.after {n : Axis} {s t u : State} (g : PeriodKept n s t) (h : OnePeriod n t u) : OnePeriod n s u :=
  ⟨by rw [h.periods, g.periods], fun m hm => (h.others m hm).trans (g.others m hm), g.tb ▸ h.tb⟩

theorem OnePeriod.ite {n : Axis} {c : Prop} [Decidable c] {s a b : State} (ha : OnePeriod n s a) (hb : OnePeriod n s b) :
    OnePeriod n s (if c then a else b) := by
  split
  · exact ha
  · exact hb

theorem learnDemod_onePeriod (s : State) (n : Axis) (lo hi : Nat) (tk : Rat) : OnePeriod n s (learnDemod s n lo hi tk) :=
  (OnePeriod.of_chan s rfl).then (learnDemod_kept_after s n lo hi tk)

theorem armedPeriod_onePeriod (s : State) (n : Axis) (lo hi : Nat) (tk : Rat) (chk : Check) :
    OnePeriod n s (armedPeriod s n lo hi tk chk) := by
  have hcount (badA badQ : Bool) : OnePeriod n s (rsvCheck (modRsv (rsvCheck s n badA 0 11) n
      (fun r => { r with tk := tk, periods := r.periods + 1, excBad := false })) n badQ 3 14) :=
    (OnePeriod.after (rsvCheck_kept s n badA 0 11) (OnePeriod.of_chan _ rfl)).then (rsvCheck_kept _ n badQ 3 14)
  unfold armedPeriod
  refine OnePeriod.ite ?_ (OnePeriod.ite ?_ ?_)
  · exact (hcount _ _).then ((lostPeriod_kept _ n _ _).trans (rsvTelemetry_kept _ n _ _ _))
  · exact (hcount _ _).then (((usedPeriod_kept _ n _ _).trans (learnPeriod_kept _ n _ _ chk)).trans (rsvTelemetry_kept _ n _ _ _))
  · exact (hcount _ _).then (((unusedPeriod_kept _ n).trans (learnPeriod_kept _ n _ _ chk)).trans (rsvTelemetry_kept _ n _ _ _))

theorem execDemodPeriodEnd_counts (s : State) (n : Axis) (chk : Check) (hrun : inRun s = true) (hon : (s.exc[drvOf n]).on = true)
    (hen : (s.rsv[n]).en = true) :
    ∃ t, exec (.demodPeriodEnd n chk) s = .next t ∧ (t.rsv[n]).periods = (s.rsv[n]).periods + 1 ∧
      (∀ m, m ≠ n → t.rsv[m] = s.rsv[m]) ∧ s.clk.tb ≤ t.clk.tb := by
  have hfrom (t : Nat) {u : State} (h : OnePeriod n (modRsv (toTick s t) n (fun r => { r with since := t })) u) :
      (u.rsv[n]).periods = (s.rsv[n]).periods + 1 ∧ (∀ m, m ≠ n → u.rsv[m] = s.rsv[m]) ∧ s.clk.tb ≤ u.clk.tb := by
    obtain ⟨hrsv, -, -, -, htb⟩ := toTick_keeps s t
    refine ⟨?_, fun m hm => ?_, htb.trans h.tb⟩
    · rw [h.periods, modRsv_at, hrsv]
    · rw [h.others m hm, modRsv_at_ne _ _ hm, hrsv]
  show ∃ t, execDemodPeriodEnd n chk s = .next t ∧ _
  unfold execDemodPeriodEnd
  simp only [hrun, hon, hen, Bool.and_self, if_true]
  split
  · exact ⟨_, rfl, hfrom _ (learnDemod_onePeriod _ n _ _ _)⟩
  · split
    · exact ⟨_, rfl, hfrom _ (OnePeriod.of_chan _ rfl)⟩
    · exact ⟨_, rfl, hfrom _ (armedPeriod_onePeriod _ n _ _ _ chk)⟩

end Sys2Proof.Machine
end

section
/-! O52, the end of an excitation period: each enabled channel of the driver is worked once, and what it keeps of the others. -/

namespace Sys2Proof.Machine

/-! ### What the work of the channels keeps of one of them -/

/-- The two states agree in the instant, in the drivers and in the events of RSV_EXC of a channel, and its current-limit flag stands where it
stood. -/
structure LimitKept (n : Axis) (s t : State) : Prop where
  tb : t.clk.tb = s.clk.tb
  exc : t.exc = s.exc
  events : eventsIn t.flt.srcs (axSrc n 17) = eventsIn s.flt.srcs (axSrc n 17)
  flag : rgB s (Sig.RSV_STAT n.val) 6 = true → rgB t (Sig.RSV_STAT n.val) 6 = true

theorem rsvStat_ne {m n : Axis} (h : m ≠ n) : Sig.RSV_STAT n.val ≠ Sig.RSV_STAT m.val := by
  have := Fin.val_ne_of_ne h
  unfold Sig.RSV_STAT
  omega

namespace LimitKept

variable {n : Axis}

theorem of_regs {s t : State} (htb : t.clk.tb = s.clk.tb) (he : t.exc = s.exc) (hf : t.flt.srcs = s.flt.srcs) (hr : t.regs = s.regs) :
    LimitKept n s t :=
  ⟨htb, he, by rw [hf], fun h => (rgB_of_regs hr _ _).trans h⟩

theorem refl (s : State) : LimitKept n s s := of_regs rfl rfl rfl rfl

theorem trans {s t u : State} (h : LimitKept n s t) (g : LimitKept n t u) : LimitKept n s u :=
  ⟨g.tb.trans h.tb, g.exc.trans h.exc, g.events.trans h.events, fun e => g.flag (h.flag e)⟩

theorem reg (s : State) {k : Nat} (v : Word) (hk : Sig.RSV_STAT n.val ≠ k) : LimitKept n s (setR s k v) :=
  ⟨rfl, rfl, rfl, fun h => (congrArg (fun w => w.getLsbD 6) (rg_setR_ne s v hk)).trans h⟩

/-- Setting a bit of RSV_STAT of any channel clears no flag. -/
theorem stat (s : State) (m : Axis) (i : Nat) : LimitKept n s (setB s (Sig.RSV_STAT m.val) i true) := by
  by_cases e : m = n
  · subst e
    refine ⟨rfl, rfl, rfl, fun h => ?_⟩
    rw [rgB_setB _ _ _ _ _ (by decide), h, ite_self]
  · exact reg s _ (rsvStat_ne e)

theorem frame : FaultFrame (LimitKept n) where
  refl := refl
  trans := trans
  posts _ _ _ _ _ := of_regs rfl rfl rfl rfl
  ledger s _ v hk := reg s v (fun e => rsvStat_not_ledger n (e ▸ hk))
  pwm _ _ _ := of_regs rfl rfl rfl rfl
  gd _ _ _ := of_regs rfl rfl rfl rfl
  loop _ _ _ _ := of_regs rfl rfl rfl rfl
  obs _ _ _ := of_regs rfl rfl rfl rfl
  sup _ _ _ _ := of_regs rfl rfl rfl rfl
  flt _ _ h := of_regs rfl rfl h rfl
  axSame _ _ _ _ := of_regs rfl rfl rfl rfl
  axFall _ _ _ _ := of_regs rfl rfl rfl rfl
  ofs _ _ _ := of_regs rfl rfl rfl rfl
  car _ _ _ := of_regs rfl rfl rfl rfl
  moveCls _ _ := of_regs rfl rfl rfl rfl
  mark _ _ _ := of_regs rfl rfl rfl rfl
  idle _ := of_regs rfl rfl rfl rfl

theorem ite {c : Prop} [Decidable c] {s a b : State} (ha : LimitKept n s a) (hb : LimitKept n s b) : LimitKept n s (if c then a else b) :=
  frame.toPostFrame.ite ha hb

theorem src (s : State) {code : Nat} (f : FltSrc) (hc : axSrc n 17 ≠ code) : LimitKept n s (setSrc s code f) :=
  ⟨rfl, rfl, by
    unfold eventsIn setSrc
    rw [cellGet_put_ne _ _ hc], id⟩

theorem tel (s : State) {k : Nat} (x : Rat) (hk : Sig.RSV_STAT n.val ≠ k) : LimitKept n s (setTel s k x) := by
  unfold setTel
  split
  · exact reg s _ hk
  · exact refl s

theorem chan (s : State) (m : Axis) (f : RsvAx → RsvAx) : LimitKept n s (modRsv s m f) := of_regs rfl rfl rfl rfl

/-- A check of a channel whose source is not RSV_EXC of this one. -/
theorem check (s : State) (m : Axis) (bad : Bool) (bit src : Nat) (hc : axSrc n 17 ≠ axSrc m src) :
    LimitKept n s (rsvCheck s m bad bit src) :=
  ite ((stat s m bit).trans (faultEvtB_keeps frame _ _ _ (fun t f => LimitKept.src t f hc))) (refl s)

end LimitKept

/-- The two states agree in every channel but one. -/
def OnlyChannel (m : Axis) (s t : State) : Prop := ∀ n, n ≠ m → t.rsv[n] = s.rsv[n]

namespace OnlyChannel

variable {m : Axis}

theorem of_rsv {s t : State} (h : t.rsv = s.rsv) : OnlyChannel m s t := fun n _ => by rw [h]

theorem refl (s : State) : OnlyChannel m s s := of_rsv rfl

theorem trans {s t u : State} (h : OnlyChannel m s t) (g : OnlyChannel m t u) : OnlyChannel m s u :=
  fun n hn => (g n hn).trans (h n hn)

theorem ite {c : Prop} [Decidable c] {s a b : State} (ha : OnlyChannel m s a) (hb : OnlyChannel m s b) :
    OnlyChannel m s (if c then a else b) := by
  split
  · exact ha
  · exact hb

theorem chan (s : State) (f : RsvAx → RsvAx) : OnlyChannel m s (modRsv s m f) := fun _ hn => modRsv_at_ne s f hn

theorem tel (s : State) (k : Nat) (x : Rat) : OnlyChannel m s (setTel s k x) := by
  unfold setTel
  split
  · exact of_rsv rfl
  · exact refl s

end OnlyChannel

theorem rsvCheck_rsv (s : State) (m : Axis) (bad : Bool) (bit src : Nat) : (rsvCheck s m bad bit src).rsv = s.rsv := by
  unfold rsvCheck
  split
  · exact (axFault_quiet _ m src).rsv
  · rfl

/-! ### The work of one channel (R345, R346, R352, R369) -/

/-- What the end of an excitation period gives its channels: whether headroom lacks, whether the current limit acted, the ticks between
which it ran, whether it belongs to the ramp, and its number. -/
structure ExcEnd where
  head : Bool
  limited : Bool
  lo : Nat
  hi : Nat
  ramp : Bool
  k : Nat

/-- A lack of headroom shown by a channel (R345). -/
def headShown (x : ExcEnd) (s : State) (n : Axis) : State := if x.head then setB s (Sig.RSV_STAT n.val) 7 true else s

/-- The current limit shown by a channel, and counted where it is not faulted (R346, R367). -/
def limitShown (x : ExcEnd) (s : State) (n : Axis) : State :=
  if x.limited && (s.rsv[n]).faulted then setB s (Sig.RSV_STAT n.val) 6 true else rsvCheck s n x.limited 6 17

/-- The learn, the offsets and the open-wire results of a channel (R348, R352, R369). -/
def excJudged (x : ExcEnd) (s : State) (n : Axis) : State :=
  excChannel (if (s.rsv[n]).learnPhase then learnExc s n x.k else s) n x.lo x.hi x.ramp

/-- One channel at the end of an excitation period. -/
def excWorked (x : ExcEnd) (s : State) (n : Axis) : State := excJudged x (limitShown x (headShown x s n) n) n

theorem learnExc_limitKept (s : State) (n m : Axis) (k : Nat) : LimitKept n s (learnExc s m k) := by
  unfold learnExc
  refine LimitKept.ite (.refl s) (LimitKept.ite (.chan s m _) ?_)
  exact ((LimitKept.chan s m _).trans (.chan _ m _)).trans (.chan _ m _)

theorem learnExc_only (s : State) (m : Axis) (k : Nat) : OnlyChannel m s (learnExc s m k) := by
  unfold learnExc
  refine OnlyChannel.ite (.refl s) (OnlyChannel.ite (.chan s _) ?_)
  exact ((OnlyChannel.chan s _).trans (.chan _ _)).trans (.chan _ _)

theorem offsets_ne_stat (n m : Axis) : Sig.RSV_STAT n.val ≠ Sig.RSV_OFS_S m.val ∧ Sig.RSV_STAT n.val ≠ Sig.RSV_OFS_C m.val := by
  unfold Sig.RSV_STAT Sig.RSV_OFS_S Sig.RSV_OFS_C
  omega

/-- Source 17 of one channel is no source of another number. -/
theorem axSrc_exc_ne (n m : Axis) {src : Nat} (h : src < 256) (h17 : src ≠ 17) : axSrc n 17 ≠ axSrc m src := by
  unfold axSrc
  omega

theorem axSrc_axis_ne {n m : Axis} (h : n ≠ m) (src : Nat) : axSrc n src ≠ axSrc m src := by
  have := Fin.val_ne_of_ne h
  unfold axSrc
  omega

theorem excChannel_limitKept (s : State) (n m : Axis) (lo hi : Nat) (ramp : Bool) : LimitKept n s (excChannel s m lo hi ramp) := by
  obtain ⟨hS, hC⟩ := offsets_ne_stat n m
  unfold excChannel
  refine LimitKept.ite ?_ ?_
  · exact ((LimitKept.chan s m _).trans (LimitKept.ite (.chan _ m _) (.refl _))).trans
      (.check _ m _ _ _ (axSrc_exc_ne n m (by decide) (by decide)))
  · exact ((((LimitKept.chan s m _).trans (.chan _ m _)).trans (.tel _ _ hS)).trans (.tel _ _ hC)).trans
      (.check _ m _ _ _ (axSrc_exc_ne n m (by decide) (by decide)))

theorem excChannel_only (s : State) (m : Axis) (lo hi : Nat) (ramp : Bool) : OnlyChannel m s (excChannel s m lo hi ramp) := by
  unfold excChannel
  refine OnlyChannel.ite ?_ ?_
  · exact ((OnlyChannel.chan s _).trans (OnlyChannel.ite (.chan _ _) (.refl _))).trans (.of_rsv (rsvCheck_rsv _ m _ _ _))
  · exact ((((OnlyChannel.chan s _).trans (.chan _ _)).trans (.tel _ _ _)).trans (.tel _ _ _)).trans (.of_rsv (rsvCheck_rsv _ m _ _ _))

theorem headShown_limitKept (x : ExcEnd) (s : State) (n m : Axis) : LimitKept n s (headShown x s m) := .ite (.stat s m 7) (.refl s)

theorem excJudged_limitKept (x : ExcEnd) (s : State) (n m : Axis) : LimitKept n s (excJudged x s m) :=
  (LimitKept.ite (learnExc_limitKept s n m x.k) (.refl s)).trans (excChannel_limitKept _ n m _ _ _)

theorem headShown_rsv (x : ExcEnd) (s : State) (m : Axis) : (headShown x s m).rsv = s.rsv := by
  unfold headShown
  split <;> rfl

theorem limitShown_rsv (x : ExcEnd) (s : State) (m : Axis) : (limitShown x s m).rsv = s.rsv := by
  unfold limitShown
  split
  · rfl
  · exact rsvCheck_rsv s m _ _ _

/-- The work of one channel leaves another as it was. -/
theorem excWorked_only (x : ExcEnd) (s : State) (m : Axis) : OnlyChannel m s (excWorked x s m) :=
  (((OnlyChannel.of_rsv (headShown_rsv x s m)).trans (.of_rsv (limitShown_rsv x _ m))).trans
    (OnlyChannel.ite (learnExc_only _ m x.k) (.refl _))).trans (excChannel_only _ m _ _ _)

theorem excWorked_limitKept (x : ExcEnd) (s : State) {n m : Axis} (h : n ≠ m) : LimitKept n s (excWorked x s m) :=
  ((headShown_limitKept x s n m).trans (LimitKept.ite (.stat _ m 6) (.check _ m _ _ _ (axSrc_axis_ne h 17)))).trans
    (excJudged_limitKept x _ n m)

/-- The current limit shows at a channel, and one event more of its source where the channel was not faulted (R346, R367). -/
structure LimitCounted (n : Axis) (s t : State) : Prop where
  flag : rgB t (Sig.RSV_STAT n.val) 6 = true
  count : (s.rsv[n]).faulted = false → Counts s t (axSrc n 17)

theorem LimitCounted.then {n : Axis} {s t u : State} (h : LimitCounted n s t) (g : LimitKept n t u) : LimitCounted n s u where
  flag := g.flag h.flag
  count hf := by
    have := h.count hf
    simp only [Counts, srcOf_events] at this ⊢
    rw [g.events, this]

theorem LimitCounted.after {n : Axis} {s t u : State} (g : LimitKept n s t) (hr : t.rsv[n] = s.rsv[n]) (h : LimitCounted n t u) :
    LimitCounted n s u where
  flag := h.flag
  count hf := by
    have := h.count (hr ▸ hf)
    simp only [Counts, srcOf_events] at this ⊢
    rw [this, g.events]

theorem limitShown_counts {x : ExcEnd} (s : State) (n : Axis) (hl : x.limited = true) : LimitCounted n s (limitShown x s n) := by
  have hset : rgB (setB s (Sig.RSV_STAT n.val) 6 true) (Sig.RSV_STAT n.val) 6 = true := by
    rw [rgB_setB _ _ _ _ _ (by decide), if_pos rfl]
  unfold limitShown rsvCheck
  cases hf : (s.rsv[n]).faulted
  · simp only [hl, Bool.and_false, Bool.false_eq_true, if_false, if_true]
    exact ⟨((axFault_quiet _ n 17).rgB 6 (rsvStat_not_ledger n)).trans hset,
      fun _ => counts_of_flt (w := setB s (Sig.RSV_STAT n.val) 6 true) rfl (faultEvtB_counts _ _ _)⟩
  · simp only [hl, Bool.and_self, if_true]
    exact ⟨hset, fun h => absurd (hf.symm.trans h) (by decide)⟩

/-- A channel that is worked shows the current limit and counts it. -/
theorem excWorked_counts {x : ExcEnd} (s : State) (n : Axis) (hl : x.limited = true) : LimitCounted n s (excWorked x s n) :=
  (LimitCounted.after (headShown_limitKept x s n n) (by rw [headShown_rsv]) (limitShown_counts _ n hl)).then (excJudged_limitKept x _ n n)

end Sys2Proof.Machine
end

section
/-! O52, the end of an excitation period of a driver, and the obligation. -/

namespace Sys2Proof.Machine

/-! ### One after another -/

theorem forEach_inv {α : Type} {Q : State → Prop} (f : State → α → State) (xs : List α) (hf : ∀ s, ∀ x ∈ xs, Q s → Q (f s x))
    {s : State} (hs : Q s) : Q (forEach xs s f) := by
  induction xs generalizing s with
  | nil => exact hs
  | cons x xs ih => exact ih (fun s y hy => hf s y (List.mem_cons_of_mem x hy)) (hf s x List.mem_cons_self hs)

/-- What holds once one of the things is done, where the others keep what it needs and what it gives. -/
theorem forEach_once {α : Type} {P Q : State → Prop} (f : State → α → State) {xs : List α} {x : α} (hx : x ∈ xs) (hnd : xs.Nodup)
    (hQ : ∀ s y, y ≠ x → Q s → Q (f s y)) (hreach : ∀ s, Q s → P (f s x)) (hP : ∀ s y, y ≠ x → P s → P (f s y)) {s : State} (hs : Q s) :
    P (forEach xs s f) := by
  obtain ⟨ys, zs, rfl⟩ := List.append_of_mem hx
  obtain ⟨hys, hzs⟩ : x ∉ ys ∧ x ∉ zs := by
    have h := (List.perm_middle.nodup_iff.mp hnd).notMem
    exact ⟨fun e => h (List.mem_append_left _ e), fun e => h (List.mem_append_right _ e)⟩
  have hsplit : forEach (ys ++ x :: zs) s f = forEach zs (f (forEach ys s f) x) f := List.foldl_append
  rw [hsplit]
  exact forEach_inv f zs (fun s y hy => hP s y (fun e => hzs (e ▸ hy)))
    (hreach _ (forEach_inv f ys (fun s y hy => hQ s y (fun e => hys (e ▸ hy))) hs))

/-! ### The end of a period of a driver -/

/-- The tick at which the running period of a driver began. -/
def excFrom (s : State) (drv : Fin 2) : Nat := psiTick s drv ((s.exc[drv]).periods : Rat)

/-- The tick at which the running period of a driver ends. -/
def excTo (s : State) (drv : Fin 2) : Nat := psiTick s drv (((s.exc[drv]).periods : Rat) + 1)

/-- The peak of a driver's current in the period, in LSB of its samples (R345). -/
def excPeak (s : State) (drv : Fin 2) : Nat :=
  (samplesIn (toTick s (excTo s drv)) 3 (if drv = 0 then 14 else 30) (excFrom s drv) (excTo s drv)).foldl
    (fun m x => max m ((x.2 : Int) - 2048).natAbs) 0

/-- What the end of the period gives the channels of a driver. -/
def excEnd (s : State) (drv : Fin 2) (limited : Bool) : ExcEnd where
  head := decide (1 < markOf (toTick s (excTo s drv)) keyHk) && noHeadroom (rgN (toTick s (excTo s drv)) Sig.VEXC_MV)
    (rgN (toTick s (excTo s drv)) (Sig.RSV_EXC_AMP (drvAxis drv).val))
  limited := limited
  lo := excFrom s drv
  hi := excTo s drv
  ramp := decide ((s.exc[drv]).periods < 10)
  k := (s.exc[drv]).periods + 1

/-- The driver at the end of its period: its count, and the current that its channels show (R345, R346). -/
def excCounted (s : State) (drv : Fin 2) : State :=
  forEach (drvAxes drv) (modExc (toTick s (excTo s drv)) drv (fun e => { e with periods := e.periods + 1 }))
    (fun t n => setTel t (Sig.RSV_EXC_IPK n.val) ((excPeak s drv : Rat) / 4))

/-- The enabled channels of a driver. -/
def excAxes (s : State) (drv : Fin 2) : List Axis := (drvAxes drv).filter (fun n => ((excCounted s drv).rsv[n]).en)

theorem execExcPeriodEnd_eq {s : State} {drv : Fin 2} (limited : Bool) (hrun : inRun s = true) (hon : (s.exc[drv]).on = true) :
    exec (.excPeriodEnd drv limited) s = .next (forEach (excAxes s drv) (excCounted s drv) (excWorked (excEnd s drv limited))) := by
  show execExcPeriodEnd drv limited s = _
  unfold execExcPeriodEnd
  simp only [hrun, hon, Bool.and_self, if_true]
  rfl

theorem setTel_rest (s : State) (k : Nat) (x : Rat) : ∃ regs, setTel s k x = { s with regs := regs } := by
  unfold setTel
  split
  · exact ⟨_, rfl⟩
  · exact ⟨_, rfl⟩

/-- Counting the period leaves the channels and the sources alone, and counts in the driver alone. -/
theorem excCounted_facts (s : State) (drv : Fin 2) :
    (excCounted s drv).rsv = s.rsv ∧ (excCounted s drv).flt = s.flt ∧ s.clk.tb ≤ (excCounted s drv).clk.tb ∧
      (excCounted s drv).exc = modV s.exc drv (fun e => { e with periods := e.periods + 1 }) := by
  obtain ⟨hrsv, hexc, hflt, -, htb⟩ := toTick_keeps s (excTo s drv)
  unfold excCounted
  refine forEach_inv (Q := fun t => t.rsv = s.rsv ∧ t.flt = s.flt ∧ s.clk.tb ≤ t.clk.tb ∧ t.exc = modV s.exc drv _) _ _
    (fun t n _ h => ?_) ⟨hrsv, hflt, htb, ?_⟩
  · obtain ⟨regs, e⟩ := setTel_rest t (Sig.RSV_EXC_IPK n.val) ((excPeak s drv : Rat) / 4)
    rw [e]
    exact h
  · rw [modExc, hexc]

/-- The work of a channel keeps the instant and the drivers. -/
theorem excWorked_time (x : ExcEnd) (s : State) (m : Axis) : (excWorked x s m).clk.tb = s.clk.tb ∧ (excWorked x s m).exc = s.exc := by
  have hlimit (u : State) : (limitShown x u m).clk.tb = u.clk.tb ∧ (limitShown x u m).exc = u.exc := by
    unfold limitShown rsvCheck
    split
    · exact ⟨rfl, rfl⟩
    · split
      · exact ⟨(axFault_quiet _ m 17).tb, (axFault_quiet _ m 17).exc⟩
      · exact ⟨rfl, rfl⟩
  have hhead := headShown_limitKept x s m m
  obtain ⟨htb, hexc⟩ := hlimit (headShown x s m)
  have hjudged := excJudged_limitKept x (limitShown x (headShown x s m) m) m m
  exact ⟨hjudged.tb.trans (htb.trans hhead.tb), hjudged.exc.trans (hexc.trans hhead.exc)⟩

/-- Each channel of a list is worked once. -/
theorem excWorked_each_counts {x : ExcEnd} {xs : List Axis} {n : Axis} (s : State) (hn : n ∈ xs) (hnd : xs.Nodup)
    (hl : x.limited = true) : LimitCounted n s (forEach xs s (excWorked x)) :=
  forEach_once (P := LimitCounted n s) (Q := fun t => LimitKept n s t ∧ t.rsv[n] = s.rsv[n]) (excWorked x) hn hnd
    (fun t m hm h => ⟨h.1.trans (excWorked_limitKept x t (Ne.symm hm)), (excWorked_only x t m n (Ne.symm hm)).trans h.2⟩)
    (fun t h => LimitCounted.after h.1 h.2 (excWorked_counts t n hl))
    (fun t m hm h => h.then (excWorked_limitKept x t (Ne.symm hm))) ⟨LimitKept.refl s, rfl⟩

theorem mem_drvAxes (n : Axis) (drv : Fin 2) : n ∈ drvAxes drv ↔ drvOf n = drv := by
  revert n drv
  decide

theorem drvAxes_nodup (drv : Fin 2) : (drvAxes drv).Nodup := by
  revert drv
  decide

theorem execExcPeriodEnd_ends (s : State) (drv : Fin 2) (limited : Bool) (hrun : inRun s = true) (hon : (s.exc[drv]).on = true) :
    ∃ t, exec (.excPeriodEnd drv limited) s = .next t ∧ (t.exc[drv]).periods = (s.exc[drv]).periods + 1 ∧ (t.exc[drv]).on = true ∧
      (∀ d, d ≠ drv → t.exc[d] = s.exc[d]) ∧ s.clk.tb ≤ t.clk.tb ∧
      (∀ n : Axis, drvOf n = drv → (s.rsv[n]).en = true → limited = true →
        rgB t (Sig.RSV_STAT n.val) 6 = true ∧ ((s.rsv[n]).faulted = false → Counts s t (axSrc n 17))) ∧
      ∀ n : Axis, drvOf n ≠ drv → t.rsv[n] = s.rsv[n] := by
  obtain ⟨hrsv, hflt, htb, hexc⟩ := excCounted_facts s drv
  refine ⟨_, execExcPeriodEnd_eq limited hrun hon, ?_⟩
  generalize hx : excEnd s drv limited = x
  have htime : (forEach (excAxes s drv) (excCounted s drv) (excWorked x)).clk.tb = (excCounted s drv).clk.tb ∧
      (forEach (excAxes s drv) (excCounted s drv) (excWorked x)).exc = (excCounted s drv).exc :=
    forEach_inv (Q := fun t => t.clk.tb = (excCounted s drv).clk.tb ∧ t.exc = (excCounted s drv).exc) _ _
      (fun t m _ h => ⟨(excWorked_time x t m).1.trans h.1, (excWorked_time x t m).2.trans h.2⟩) ⟨rfl, rfl⟩
  refine ⟨?_, ?_, fun d hd => ?_, htime.1 ▸ htb, fun n hn hen hl => ?_, fun n hn => ?_⟩
  · rw [htime.2, hexc, modV_same]
  · rw [htime.2, hexc, modV_same]
    exact hon
  · rw [htime.2, hexc, modV_ne _ _ (Ne.symm hd)]
  · have hmem : n ∈ excAxes s drv := List.mem_filter.mpr ⟨(mem_drvAxes n drv).mpr hn, by rw [hrsv]; exact hen⟩
    obtain ⟨hflag, hcount⟩ := excWorked_each_counts (x := x) (excCounted s drv) hmem ((drvAxes_nodup drv).filter _) (hx ▸ hl)
    rw [hrsv] at hcount
    exact ⟨hflag, fun hf => counts_of_flt hflt (hcount hf)⟩
  · have hout : ∀ m ∈ excAxes s drv, n ≠ m := fun m hm e =>
      hn (e ▸ (mem_drvAxes m drv).mp (List.mem_filter.mp hm).1)
    refine forEach_inv (Q := fun t => t.rsv[n] = s.rsv[n]) _ _ (fun t m hm h => ?_) (by rw [hrsv])
    exact (excWorked_only x t m n (hout m hm)).trans h

/-- Settles O52: what an accepted and a refused learn make of the channel, the one period that a channel or a driver counts, and what the
work of a channel keeps of the others. -/
theorem resolverPeriodsLearnsAndTablesEnd : Obligations.ResolverPeriodsLearnsAndTablesEnd :=
  ⟨execPhaseLearnEnd_learned, execPhaseLearnEnd_nominal, execPhaseLearnEnd_faults, execDemodPeriodEnd_counts, execExcPeriodEnd_ends,
    execOpenWireProbe_moves, execTableWriteEnd_completes⟩

end Sys2Proof.Machine
end

section
/-! The bytes, the rings and the register writes of the host link: what a ring holds after a store, what the bytes of a word spell, what a
change of one ring and a response posted leave of the others, and what a register write of a word is. -/

namespace Sys2Proof.Machine

/-! ### The bytes of a word (R114) -/

@[simp] theorem leBytes_length (n x : Nat) : (leBytes n x).length = n := by
  induction n generalizing x with
  | zero => rfl
  | succ n ih => simp [leBytes, ih]

theorem ofLe_leBytes (n x : Nat) : ofLe (leBytes n x) = x % 256 ^ n := by
  induction n generalizing x with
  | zero => simp [leBytes, ofLe, Nat.mod_one]
  | succ n ih =>
    rw [leBytes, ofLe, ih, BitVec.toNat_ofNat, Nat.pow_succ' (m := 256), Nat.mod_mul]

theorem ofLe_word {w : Nat} (hw : w < 2 ^ 32) : ofLe (leBytes 4 w) = w := by
  rw [ofLe_leBytes]
  exact Nat.mod_eq_of_lt hw

/-! ### The bytes of a ring (R119) -/

@[simp] theorem memBytesRing_length (m : Memory) (base size off n : Nat) : (memBytesRing m base size off n).length = n := by
  induction n generalizing off with
  | zero => rfl
  | succ n ih => simp [memBytesRing, ih]

theorem memBytesRing_take (m : Memory) (base size : Nat) {off k n : Nat} (h : k ≤ n) :
    (memBytesRing m base size off n).take k = memBytesRing m base size off k := by
  induction k generalizing off n with
  | zero => rfl
  | succ k ih =>
    cases n with
    | zero => exact absurd h (Nat.not_succ_le_zero k)
    | succ n => rw [memBytesRing, List.take_succ_cons, ih (Nat.le_of_succ_le_succ h), memBytesRing]

/-- A store in a ring leaves every address alone that none of its bytes goes to. -/
theorem memRead_storeRing_ne (m : Memory) (base size : Nat) {off a : Nat} {bs : List Byte}
    (h : ∀ i, i < bs.length → a ≠ base + (off + i) % size) : memRead (memStoreRing m base size off bs) a = memRead m a := by
  induction bs generalizing m off with
  | nil => rfl
  | cons b bs ih =>
    have hrest : ∀ i, i < bs.length → a ≠ base + (off + 1 + i) % size := fun i hi => by
      rw [Nat.add_assoc, Nat.add_comm 1 i]
      exact h (i + 1) (Nat.succ_lt_succ hi)
    have hfirst : a ≠ base + off % size := h 0 (Nat.succ_pos _)
    rw [memStoreRing, ih _ hrest, memRead_write_ne _ _ hfirst]

/-- Two offsets of a ring less than its size apart are two places. -/
theorem ringOffset_ne {size off i : Nat} (h : i + 1 < size) : off % size ≠ (off + 1 + i) % size := fun e => by
  have hdvd : size ∣ off + 1 + i - off := (Nat.modEq_iff_dvd' (by omega)).mp e
  have hle : size ≤ off + 1 + i - off := Nat.le_of_dvd (by omega) hdvd
  omega

/-- The bytes of a store in a ring read back as stored, where they are no more than the ring holds. -/
theorem memBytesRing_store (m : Memory) (base off : Nat) {size : Nat} {bs : List Byte} (h : bs.length ≤ size) :
    memBytesRing (memStoreRing m base size off bs) base size off bs.length = bs := by
  induction bs generalizing m off with
  | nil => rfl
  | cons b bs ih =>
    rw [List.length_cons] at h
    have hhead : memRead (memStoreRing (memWrite m (base + off % size) b) base size (off + 1) bs) (base + off % size) = b := by
      rw [memRead_storeRing_ne _ _ _ (fun i hi e => ringOffset_ne (by omega) (Nat.add_left_cancel e)), memRead_write_same]
    rw [memStoreRing, List.length_cons, memBytesRing, hhead, ih _ _ (by omega)]

/-! ### The registers of a ring -/

theorem setAt_eq_set {α : Type} (xs : List α) (i : Nat) (y : α) : setAt xs i y = xs.set i y := by
  induction xs generalizing i with
  | nil => rfl
  | cons x xs ih =>
    cases i with
    | zero => rfl
    | succ i => rw [setAt, ih, List.set_cons_succ]

theorem ringAt_modRing_same (s : State) {r : Nat} (f : Ring → Ring) (h : r < s.link.rings.length) :
    ringAt (modRing s r f) r = f (ringAt s r) := by
  show (setAt s.link.rings r (f (ringAt s r))).getD r Ring.init = _
  rw [setAt_eq_set, List.getD_eq_getElem?_getD, List.getElem?_set_self h, Option.getD_some]

theorem ringAt_modRing_ne (s : State) {r q : Nat} (f : Ring → Ring) (h : q ≠ r) : ringAt (modRing s r f) q = ringAt s q := by
  show (setAt s.link.rings r (f (ringAt s r))).getD q Ring.init = s.link.rings.getD q Ring.init
  rw [setAt_eq_set, List.getD_eq_getElem?_getD, List.getElem?_set_ne (Ne.symm h), List.getD_eq_getElem?_getD]

/-- A change of one ring of the link is seen in its registers and nowhere else. -/
theorem modRing_only (s : State) {r : Nat} (f : Ring → Ring) (h : r < s.link.rings.length) :
    OnlyLink s (modRing s r f) ∧ ringAt (modRing s r f) r = f (ringAt s r) ∧
      (∀ q, q ≠ r → ringAt (modRing s r f) q = ringAt s q) ∧ (modRing s r f).link.buf = s.link.buf :=
  ⟨rfl, ringAt_modRing_same s f h, fun _ hq => ringAt_modRing_ne s f hq, rfl⟩

theorem ringAt_restall (s : State) (rings : List Nat) (r : Nat) : ringAt (restall s rings) r = ringAt s r := rfl

theorem breaksRule_protoError (s : State) (c : Nat) : BreaksRule s (protoError s c) c := rfl

/-! ### Posting (R133) -/

/-- What posting a response keeps besides the other rings: the signals, the command handed over, RESYNC and the events. -/
theorem postBytes_fields (s : State) (r : Nat) (bs : List Byte) : (postBytes s r bs).regs = s.regs ∧
    (postBytes s r bs).rt.handed = s.rt.handed ∧ (postBytes s r bs).link.resync = s.link.resync ∧
    (postBytes s r bs).link.events = s.link.events := by
  unfold postBytes
  split <;> exact ⟨rfl, rfl, rfl, rfl⟩

theorem ringAt_ringPut_ne (s : State) {r q : Nat} (bs : List Byte) (h : q ≠ r) : ringAt (ringPut s r bs) q = ringAt s q := by
  unfold ringPut
  exact ringAt_modRing_ne _ _ h

theorem ringAt_postBytes_ne (s : State) {r q : Nat} (bs : List Byte) (h : q ≠ r) : ringAt (postBytes s r bs) q = ringAt s q := by
  unfold postBytes
  split
  · exact ringAt_ringPut_ne s bs h
  · rfl

/-! ### Register writes (R118, R120, R121) -/

/-- A register write of a word, by an instruction byte in order, has the effect of its register. -/
theorem linkWrite_word (s : State) {instr ring w : Nat} (raised : List Nat) (hwidth : txWidth instr ≠ 3) (hindex : txIndex instr ≤ 10)
    (hw : w < 2 ^ 32) : linkWrite s instr ring (leBytes 4 w) raised = writeLink s (txIndex instr) ring w raised := by
  rw [linkWrite, if_neg hwidth, if_neg (Nat.not_lt.mpr hindex), if_neg (by simp), ofLe_word hw]

end Sys2Proof.Machine
end

section
/-! O15: the data operations on rings and the register reads. -/

namespace Sys2Proof.Machine

/-! ### RING_DATA_WRITE (R113, R119, R120) -/

/-- The state with bytes stored in a ring from an offset. -/
def ringStored (s : State) (ring off : Nat) (bs : List Byte) : State :=
  { s with link := { s.link with buf := memStoreRing s.link.buf (ringBase ring) (ringAt s ring).bytes off bs } }

theorem ringStored_bytes (s : State) {ring : Nat} (off : Nat) {bs : List Byte} (h : bs.length ≤ (ringAt s ring).bytes) :
    memBytesRing (ringStored s ring off bs).link.buf (ringBase ring) (ringAt s ring).bytes off bs.length = bs :=
  memBytesRing_store _ _ _ h

theorem ringStored_elsewhere (s : State) {ring off a : Nat} {bs : List Byte}
    (h : ∀ i, i < bs.length → a ≠ ringBase ring + (off + i) % (ringAt s ring).bytes) :
    memRead (ringStored s ring off bs).link.buf a = memRead s.link.buf a := memRead_storeRing_ne _ _ _ h

theorem execRingDataWrite_ok {s : State} {instr ring off : Nat} (data : List Byte) (hup : linkUp s = true) (hop : txOp instr = 2)
    (hok : dataError s instr ring off (decide (ring ≤ 15)) = none) :
    exec (.ringDataWrite instr ring off data) s =
      .next (if data.length / 4 * 4 < data.length then protoError (ringStored s ring off (data.take (data.length / 4 * 4))) 6
        else ringStored s ring off (data.take (data.length / 4 * 4))) := by
  show execRingDataWrite instr ring off data s = _
  rw [execRingDataWrite, if_pos (by simp [hup, hop]), hok]
  rfl

theorem execRingDataWrite_words (s : State) (instr ring off : Nat) (data : List Byte) (hup : linkUp s = true) (hop : txOp instr = 2)
    (hok : dataError s instr ring off (decide (ring ≤ 15)) = none) (hwords : data.length % 4 = 0)
    (hfit : data.length ≤ (ringAt s ring).bytes) :
    ∃ t, exec (.ringDataWrite instr ring off data) s = .next t ∧ OnlyLink s t ∧ t.link.rings = s.link.rings ∧
      t.link.events = s.link.events ∧
      memBytesRing t.link.buf (ringBase ring) (ringAt s ring).bytes off data.length = data ∧
      ∀ a, (∀ i, i < data.length → a ≠ ringBase ring + (off + i) % (ringAt s ring).bytes) →
        memRead t.link.buf a = memRead s.link.buf a := by
  have hall : data.length / 4 * 4 = data.length := by omega
  have he := execRingDataWrite_ok data hup hop hok
  rw [hall, if_neg (Nat.lt_irrefl _), List.take_length] at he
  exact ⟨_, he, rfl, rfl, rfl, ringStored_bytes s off hfit, fun a ha => ringStored_elsewhere s ha⟩

theorem execRingDataWrite_partWord (s : State) (instr ring off : Nat) (data : List Byte) (hup : linkUp s = true) (hop : txOp instr = 2)
    (hok : dataError s instr ring off (decide (ring ≤ 15)) = none) (hpart : data.length % 4 ≠ 0)
    (hfit : data.length / 4 * 4 ≤ (ringAt s ring).bytes) :
    ∃ t, exec (.ringDataWrite instr ring off data) s = .next t ∧ t.link.protoErr = true ∧ t.link.peCode = 6 ∧
      memBytesRing t.link.buf (ringBase ring) (ringAt s ring).bytes off (data.length / 4 * 4) = data.take (data.length / 4 * 4) ∧
      ∀ a, (∀ i, i < data.length / 4 * 4 → a ≠ ringBase ring + (off + i) % (ringAt s ring).bytes) →
        memRead t.link.buf a = memRead s.link.buf a := by
  have hlt : data.length / 4 * 4 < data.length := by omega
  have hlen : (data.take (data.length / 4 * 4)).length = data.length / 4 * 4 := List.length_take_of_le hlt.le
  have he := execRingDataWrite_ok data hup hop hok
  rw [if_pos hlt] at he
  have hbytes := ringStored_bytes s (ring := ring) off (hlen.trans_le hfit)
  rw [hlen] at hbytes
  exact ⟨_, he, rfl, rfl, hbytes, fun a ha => ringStored_elsewhere s (hlen.symm ▸ ha)⟩

theorem execRingDataWrite_broken (s : State) (instr ring off : Nat) (data : List Byte) (c : Nat) (hup : linkUp s = true)
    (hop : txOp instr = 2) (herr : dataError s instr ring off (decide (ring ≤ 15)) = some c) :
    ∃ t, exec (.ringDataWrite instr ring off data) s = .next t ∧ BreaksRule s t c ∧ t.link.buf = s.link.buf := by
  refine ⟨protoError s c, ?_, breaksRule_protoError s c, rfl⟩
  show execRingDataWrite instr ring off data s = _
  rw [execRingDataWrite, if_pos (by simp [hup, hop]), herr]

/-! ### RING_DATA_READ: a register read (R115, R118, R120) -/

theorem execRingDataRead_reg {s : State} {instr : Nat} (ring off len : Nat) (hup : linkUp s = true) (hop : txOp instr = 0) :
    exec (.ringDataRead instr ring off len) s = .next (regReadTx s instr ring len) := by
  show execRingDataRead instr ring off len s = _
  rw [execRingDataRead, if_neg (fun h => h.1 hop), if_neg (by simp [hup]), if_pos hop]

theorem execRingDataRead_register (s : State) (instr ring off len : Nat) (hup : linkUp s = true) (hop : txOp instr = 0)
    (hok : regReadError instr ring = none) :
    ∃ t, exec (.ringDataRead instr ring off len) s = .next t ∧ { t with link := { t.link with out := s.link.out } } = s ∧
      t.link.out = (List.range len).map (fun i => (leBytes 4 (linkReg s (txIndex instr) ring)).getD (i % 4) 0) := by
  refine ⟨_, execRingDataRead_reg ring off len hup hop, ?_⟩
  rw [regReadTx, hok]
  exact ⟨rfl, rfl⟩

theorem execRingDataRead_register_broken (s : State) (instr ring off len c : Nat) (hup : linkUp s = true) (hop : txOp instr = 0)
    (herr : regReadError instr ring = some c) :
    ∃ t, exec (.ringDataRead instr ring off len) s = .next t ∧ BreaksRule s t c ∧ t.link.out = List.replicate len 0xFF := by
  refine ⟨_, execRingDataRead_reg ring off len hup hop, ?_⟩
  rw [regReadTx, herr]
  exact ⟨rfl, rfl⟩

theorem execRingDataRead_notReady (s : State) (instr ring off len : Nat) (hup : linkUp s = false) (hop : txOp instr = 0 ∨ txOp instr = 3) :
    ∃ t, exec (.ringDataRead instr ring off len) s = .next t ∧ { t with link := { t.link with out := s.link.out } } = s ∧
      t.link.out = List.replicate len 0xFF := by
  refine ⟨undriven s len, ?_, rfl, rfl⟩
  show execRingDataRead instr ring off len s = _
  rw [execRingDataRead, if_neg (by omega), if_pos (by simp [hup])]

/-! ### RING_DATA_READ: the bytes of a ring (R119, R120) -/

theorem execRingDataRead_bytes (s : State) (instr ring off len : Nat) (hup : linkUp s = true) (hop : txOp instr = 3)
    (hok : dataError s instr ring off (readableRing ring) = none) :
    ∃ t, exec (.ringDataRead instr ring off len) s = .next t ∧ { t with link := { t.link with out := s.link.out } } = s ∧
      t.link.out = memBytesRing s.link.buf (ringBase ring) (ringAt s ring).bytes off len := by
  refine ⟨drive s (memBytesRing s.link.buf (ringBase ring) (ringAt s ring).bytes off len), ?_, rfl, rfl⟩
  show execRingDataRead instr ring off len s = _
  rw [execRingDataRead, if_neg (fun h => h.2 hop), if_neg (by simp [hup]), if_neg (by omega), hok]

theorem execRingDataRead_broken (s : State) (instr ring off len c : Nat) (hup : linkUp s = true) (hop : txOp instr = 3)
    (herr : dataError s instr ring off (readableRing ring) = some c) :
    ∃ t, exec (.ringDataRead instr ring off len) s = .next t ∧ BreaksRule s t c ∧ t.link.out = List.replicate len 0xFF := by
  refine ⟨protoError (undriven s len) c, ?_, rfl, rfl⟩
  show execRingDataRead instr ring off len s = _
  rw [execRingDataRead, if_neg (fun h => h.2 hop), if_neg (by simp [hup]), if_neg (by omega), herr]

/-- Settles O15: a store in a ring reads back and leaves every other address alone, and each read's bytes by the rule that it keeps or
breaks. -/
theorem ringDataOperationsMoveBytes : Obligations.RingDataOperationsMoveBytes :=
  ⟨execRingDataWrite_words, execRingDataWrite_partWord, execRingDataRead_register, execRingDataRead_notReady,
    execRingDataRead_register_broken, execRingDataRead_bytes, execRingDataWrite_broken, execRingDataRead_broken⟩

end Sys2Proof.Machine
end

section
/-! O16: the writes of RING_HEAD, RING_TAIL and RING_CFG. -/

namespace Sys2Proof.Machine

theorem lt_rings_of_hostVisible {r : Nat} (h : hostVisible r = true) : r < 64 := by
  simp only [hostVisible, Bool.or_eq_true, Bool.and_eq_true, decide_eq_true_eq] at h
  omega

/-! ### RING_HEAD (R126) -/

theorem execRingHeadWrite_eq {s : State} {ring v : Nat} (hup : linkUp s = true) (hvis : hostVisible ring = true) (hv : v < 65536) :
    exec (.ringHeadWrite 0x18 ring (leBytes 4 v)) s = .next (writeHead s ring v) := by
  show execRingHeadWrite 0x18 ring (leBytes 4 v) s = _
  have hw : v < 2 ^ 32 := Nat.lt_trans hv (by decide)
  have hreg : writesReg 0x18 [8] = true := by decide
  have heff : writeLink s 8 ring v [] = writeHead s ring (v % 65536) := if_pos hvis
  rw [execRingHeadWrite, if_pos (by simp [hup, hreg]), linkWrite_word s [] (by decide) (by decide) hw]
  exact congrArg Host.Outcome.next (heff.trans (by rw [Nat.mod_eq_of_lt hv]))

theorem execRingHeadWrite_sets (s : State) (ring v : Nat) (hup : linkUp s = true) (hlen : s.link.rings.length = 64) (hring : ring ≤ 15)
    (halign : v % 4 = 0) (hv : v < 65536) (hin : v < (ringAt s ring).bytes) :
    ∃ t, exec (.ringHeadWrite 0x18 ring (leBytes 4 v)) s = .next t ∧ OnlyLink s t ∧ ringAt t ring = { ringAt s ring with head := v } ∧
      (∀ q, q ≠ ring → ringAt t q = ringAt s q) ∧ t.link.buf = s.link.buf := by
  have hvis : hostVisible ring = true := by simp [hostVisible]; omega
  refine ⟨_, execRingHeadWrite_eq hup hvis hv, ?_⟩
  rw [writeHead, if_neg (by omega)]
  exact modRing_only s (fun g => { g with head := v }) (by omega)

theorem execRingHeadWrite_broken (s : State) (ring v : Nat) (hup : linkUp s = true) (hvis : hostVisible ring = true) (hv : v < 65536)
    (hbad : 15 < ring ∨ v % 4 ≠ 0 ∨ (ringAt s ring).bytes ≤ v) :
    ∃ t, exec (.ringHeadWrite 0x18 ring (leBytes 4 v)) s = .next t ∧ BreaksRule s t 5 := by
  refine ⟨_, execRingHeadWrite_eq hup hvis hv, ?_⟩
  rw [writeHead, if_pos hbad]
  exact breaksRule_protoError s 5

/-! ### RING_TAIL (R126, R130) -/

theorem execRingTailWrite_eq {s : State} {ring v : Nat} (hup : linkUp s = true) (hvis : hostVisible ring = true) (hv : v < 65536) :
    exec (.ringTailWrite 0x19 ring (leBytes 4 v)) s = .next (writeTail s ring v) := by
  show execRingTailWrite 0x19 ring (leBytes 4 v) s = _
  have hw : v < 2 ^ 32 := Nat.lt_trans hv (by decide)
  have hreg : writesReg 0x19 [9] = true := by decide
  have heff : writeLink s 9 ring v [] = writeTail s ring (v % 65536) := if_pos hvis
  rw [execRingTailWrite, if_pos (by simp [hup, hreg]), linkWrite_word s [] (by decide) (by decide) hw]
  exact congrArg Host.Outcome.next (heff.trans (by rw [Nat.mod_eq_of_lt hv]))

theorem postBlocked_of_none {s : State} (h : s.rt.blocked = []) : postBlocked s = s := by
  have hrt : ({ s.rt with blocked := [] } : Rt) = s.rt := congrArg (fun b => ({ s.rt with blocked := b } : Rt)) h.symm
  rw [postBlocked, h, hrt]
  rfl

theorem writeTail_of_none {s : State} {ring v : Nat} (hok : ¬(ring ≤ 15 ∨ v % 4 ≠ 0 ∨ (ringAt s ring).bytes ≤ v))
    (hb : s.rt.blocked = []) :
    writeTail s ring v = restall (modRing s ring (fun g => { g with tail := v })) s.link.stalled := by
  have hpost : postBlocked (modRing s ring (fun g => { g with tail := v })) = modRing s ring (fun g => { g with tail := v }) :=
    postBlocked_of_none hb
  simp only [writeTail, if_neg hok, hpost, ite_self]
  rfl

theorem execRingTailWrite_sets (s : State) (ring v : Nat) (hup : linkUp s = true) (hlen : s.link.rings.length = 64)
    (hvis : hostVisible ring = true) (hring : 15 < ring) (halign : v % 4 = 0) (hv : v < 65536) (hin : v < (ringAt s ring).bytes)
    (hb : s.rt.blocked = []) :
    ∃ t, exec (.ringTailWrite 0x19 ring (leBytes 4 v)) s = .next t ∧ OnlyLink s t ∧ ringAt t ring = { ringAt s ring with tail := v } ∧
      (∀ q, q ≠ ring → ringAt t q = ringAt s q) ∧ t.link.buf = s.link.buf := by
  have hlt := lt_rings_of_hostVisible hvis
  refine ⟨_, execRingTailWrite_eq hup hvis hv, ?_⟩
  rw [writeTail_of_none (by omega) hb]
  obtain ⟨-, hsame, hother, hbuf⟩ := modRing_only s (fun g => { g with tail := v }) (r := ring) (by omega)
  simp only [ringAt_restall]
  exact ⟨rfl, hsame, hother, hbuf⟩

theorem execRingTailWrite_broken (s : State) (ring v : Nat) (hup : linkUp s = true) (hvis : hostVisible ring = true) (hv : v < 65536)
    (hbad : ring ≤ 15 ∨ v % 4 ≠ 0 ∨ (ringAt s ring).bytes ≤ v) :
    ∃ t, exec (.ringTailWrite 0x19 ring (leBytes 4 v)) s = .next t ∧ BreaksRule s t 5 := by
  refine ⟨_, execRingTailWrite_eq hup hvis hv, ?_⟩
  rw [writeTail, if_pos hbad]
  exact breaksRule_protoError s 5

/-! ### RING_CFG (R122, R125) -/

theorem linkWrite_ringCfg {s : State} {ring w : Nat} (hvis : hostVisible ring = true) (hw : w < 2 ^ 32) :
    linkWrite s 0x1A ring (leBytes 4 w) [] = writeRingCfg s ring w := by
  rw [linkWrite_word s [] (by decide) (by decide) hw]
  exact if_pos hvis

/-- A write of RING_CFG with a new SIZE, in order, starts the ring anew in that size (R125). -/
theorem writeRingCfg_size {s : State} {r w : Nat} (hne : w / 16 % 4 ≠ (ringAt s r).size)
    (hok : ¬(w / 16 % 4 = 3 ∨ (ringAt s r).empty = false ∨ 262144 < totalRings s - (ringAt s r).bytes + 4096 * 2 ^ (w / 16 % 4))) :
    ∃ prio drop, writeRingCfg s r w = modRing s r (fun _ => ⟨0, 0, w / 16 % 4, prio, drop⟩) := by
  simp only [writeRingCfg, if_neg hne, if_neg hok]
  exact ⟨_, _, rfl⟩

/-- A write of RING_CFG of a subscription ring with CLR_DROP and the SIZE that stands clears DROP_COUNT alone (R122). -/
theorem writeRingCfg_clrDrop {s : State} {r w : Nat} (hsize : w / 16 % 4 = (ringAt s r).size) (hbit : bitOf w 6 = true) (hr : 36 ≤ r) :
    writeRingCfg s r w = modRing s r (fun g => { g with drop := 0 }) := by
  simp only [writeRingCfg, hsize, if_true, hbit, Bool.true_and, decide_eq_true hr, if_neg (show ¬ r ≤ 15 by omega)]

theorem execRingCfgSize_sets (s : State) (ring size : Nat) (hup : linkUp s = true) (hlen : s.link.rings.length = 64)
    (hvis : hostVisible ring = true) (hsize : size ≤ 2) (hne : size ≠ (ringAt s ring).size) (hempty : (ringAt s ring).empty = true)
    (hfit : totalRings s - (ringAt s ring).bytes + 4096 * 2 ^ size ≤ 262144) :
    ∃ t, exec (.ringCfgSize 0x1A ring (leBytes 4 (16 * size))) s = .next t ∧ OnlyLink s t ∧ (ringAt t ring).size = size ∧
      (ringAt t ring).head = 0 ∧ (ringAt t ring).tail = 0 ∧ ∀ q, q ≠ ring → ringAt t q = ringAt s q := by
  have hlt := lt_rings_of_hostVisible hvis
  have hfield : 16 * size / 16 % 4 = size := by omega
  have hreg : writesReg 0x1A [10] = true := by decide
  have hok : ¬(size = 3 ∨ (ringAt s ring).empty = false ∨ 262144 < totalRings s - (ringAt s ring).bytes + 4096 * 2 ^ size) := by
    rw [hempty]
    simp only [Bool.true_eq_false, false_or, not_or]
    omega
  have he : exec (.ringCfgSize 0x1A ring (leBytes 4 (16 * size))) s = .next (writeRingCfg s ring (16 * size)) := by
    show execRingCfgSize 0x1A ring (leBytes 4 (16 * size)) s = _
    rw [execRingCfgSize, if_pos (by simp [hup, hreg]), linkWrite_ringCfg hvis (by omega)]
  obtain ⟨prio, drop, hset⟩ := writeRingCfg_size (s := s) (r := ring) (w := 16 * size) (by rwa [hfield]) (by rwa [hfield])
  obtain ⟨honly, hsame, hother, -⟩ := modRing_only s (fun _ => ⟨0, 0, 16 * size / 16 % 4, prio, drop⟩) (r := ring) (by omega)
  rw [hset] at he
  exact ⟨_, he, honly, by rw [hsame, hfield], by rw [hsame], by rw [hsame], hother⟩

/-- A word with SIZE and CLR_DROP (R122). -/
theorem clrDropWord_fields {size : Nat} (h : size ≤ 2) : (16 * size + 64) / 16 % 4 = size ∧ bitOf (16 * size + 64) 6 = true := by
  interval_cases size <;> decide

theorem execClrDrop_clears (s : State) (ring : Nat) (hup : linkUp s = true) (hlen : s.link.rings.length = 64) (hlo : 36 ≤ ring)
    (hhi : ring ≤ 43) (hsize : (ringAt s ring).size ≤ 2) :
    ∃ t, exec (.clrDrop 0x1A ring (leBytes 4 (16 * (ringAt s ring).size + 64))) s = .next t ∧ OnlyLink s t ∧
      ringAt t ring = { ringAt s ring with drop := 0 } ∧ ∀ q, q ≠ ring → ringAt t q = ringAt s q := by
  have hvis : hostVisible ring = true := by simp [hostVisible]; omega
  obtain ⟨hfield, hbit⟩ := clrDropWord_fields hsize
  have hreg : writesReg 0x1A [10] = true := by decide
  have hword : 16 * (ringAt s ring).size + 64 < 2 ^ 32 := by omega
  have he : exec (.clrDrop 0x1A ring (leBytes 4 (16 * (ringAt s ring).size + 64))) s =
      .next (writeRingCfg s ring (16 * (ringAt s ring).size + 64)) := by
    show execClrDrop 0x1A ring _ s = _
    rw [execClrDrop, if_pos (by simp [hup, hreg, ofLe_word hword, hbit]), linkWrite_ringCfg hvis hword]
  rw [writeRingCfg_clrDrop hfield hbit hlo] at he
  obtain ⟨honly, hsame, hother, -⟩ := modRing_only s (fun g => { g with drop := 0 }) (r := ring) (by omega)
  exact ⟨_, he, honly, hsame, hother⟩

/-- Settles O16: each write changes the ring that it names, where it is aligned, within the ring and the host's to make, and is refused with
code 5 where it is not. -/
theorem ringRegistersTakeTheirWrites : Obligations.RingRegistersTakeTheirWrites :=
  ⟨execRingHeadWrite_sets, execRingTailWrite_sets, execRingCfgSize_sets, execClrDrop_clears, execRingHeadWrite_broken,
    execRingTailWrite_broken⟩

end Sys2Proof.Machine
end

section
/-! O17: the writes of LINK_STAT, of the event masks and of the event words, and the register writes that break a rule. -/

namespace Sys2Proof.Machine

/-! ### LINK_REG_WRITE (R120, R121) -/

theorem execLinkRegWrite_eq {s : State} {instr : Nat} (ring : Nat) (data : List Byte) (hup : linkUp s = true) (hop : txOp instr = 1) :
    exec (.linkRegWrite instr ring data) s = .next (linkWrite s instr ring data []) := by
  show execLinkRegWrite instr ring data s = _
  rw [execLinkRegWrite, if_pos (by simp [hup, hop])]

theorem execLinkRegWrite_linkStat (s : State) (w : Nat) (hup : linkUp s = true) (hw : w < 2 ^ 32) :
    ∃ t, exec (.linkRegWrite 0x11 0 (leBytes 4 w)) s = .next t ∧ t.link.protoErr = (s.link.protoErr && !bitOf w 3) ∧
      t.link.resync = (s.link.resync && !bitOf w 4) ∧
      { t with link := { t.link with protoErr := s.link.protoErr, resync := s.link.resync } } = s := by
  refine ⟨_, execLinkRegWrite_eq 0 _ hup (by decide), ?_⟩
  rw [linkWrite_word s [] (by decide) (by decide) hw]
  exact ⟨rfl, rfl, rfl⟩

/-- A register write that breaks one rule or several shows the code of the first that it breaks: the width, the index, the length. -/
theorem linkWrite_broken (s : State) {instr : Nat} (ring : Nat) {data : List Byte} (raised : List Nat)
    (hbad : txWidth instr = 3 ∨ 10 < txIndex instr ∨ data.length ≠ 4) :
    linkWrite s instr ring data raised = protoError s (if txWidth instr = 3 then 1 else if 10 < txIndex instr then 2 else 8) := by
  rw [linkWrite]
  split
  · rfl
  · next hwidth =>
    split
    · rfl
    · next hindex => rw [if_pos (by tauto)]

theorem execLinkRegWrite_breaksOne (s : State) (instr ring c : Nat) (data : List Byte) (hup : linkUp s = true) (hop : txOp instr = 1)
    (_hindex : 1 ≤ txIndex instr)
    (hbad : (c = 1 ∧ txWidth instr = 3 ∧ txIndex instr ≤ 7 ∧ data.length = 4) ∨
      (c = 2 ∧ txWidth instr ≠ 3 ∧ 10 < txIndex instr ∧ data.length = 4) ∨
      (c = 8 ∧ txWidth instr ≠ 3 ∧ txIndex instr ≤ 7 ∧ data.length ≠ 4)) :
    exec (.linkRegWrite instr ring data) s = .next (protoError s c) := by
  rw [execLinkRegWrite_eq ring data hup hop]
  rcases hbad with ⟨rfl, hwidth, -, -⟩ | ⟨rfl, hwidth, hindex, -⟩ | ⟨rfl, hwidth, hindex, hlen⟩
  · rw [linkWrite_broken s ring [] (.inl hwidth), if_pos hwidth]
  · rw [linkWrite_broken s ring [] (.inr (.inl hindex)), if_neg hwidth, if_pos hindex]
  · rw [linkWrite_broken s ring [] (.inr (.inr hlen)), if_neg hwidth, if_neg (by omega)]

theorem execLinkRegWrite_breaksSome (s : State) (instr ring : Nat) (data : List Byte) (hup : linkUp s = true) (hop : txOp instr = 1)
    (_hindex : 1 ≤ txIndex instr) (hbad : txWidth instr = 3 ∨ 10 < txIndex instr ∨ data.length ≠ 4) :
    ∃ c, c ∈ [1, 2, 3, 5, 7, 8] ∧ exec (.linkRegWrite instr ring data) s = .next (protoError s c) := by
  refine ⟨_, ?_, (execLinkRegWrite_eq ring data hup hop).trans (congrArg _ (linkWrite_broken s ring [] hbad))⟩
  split_ifs <;> decide

/-! ### EVTMASKk (R121) -/

/-- The 32-bit field `k` of a number. -/
def field32 (m k : Nat) : Nat := m / 2 ^ (32 * k) % 2 ^ 32

/-- A field of three replaced: it reads as written and the other two as before. For given places the statement is linear in numerals. -/
theorem field32_replace {m w : Nat} (hm : m < 2 ^ 96) (hw : w < 2 ^ 32) (k j : Fin 3) :
    field32 (m - field32 m k * 2 ^ (32 * k.val) + w % 2 ^ 32 * 2 ^ (32 * k.val)) j = if j = k then w else field32 m j := by
  unfold field32
  fin_cases k <;> fin_cases j <;> simp <;> omega

theorem evtMask_eq_field32 (s : State) (k : Nat) : evtMask s k = field32 s.link.masks k := rfl

theorem writeMask_masks (s : State) (k w : Nat) :
    (writeMask s k w).link.masks = s.link.masks - field32 s.link.masks k * 2 ^ (32 * k) + w % 2 ^ 32 * 2 ^ (32 * k) := rfl

theorem execLinkRegWrite_evtMask (s : State) (k : Fin 3) (w : Nat) (hup : linkUp s = true) (hw : w < 2 ^ 32) (hm : s.link.masks < 2 ^ 96) :
    ∃ t, exec (.linkRegWrite (0x15 + k.val) 0 (leBytes 4 w)) s = .next t ∧ evtMask t k.val = w ∧
      (∀ j : Fin 3, j ≠ k → evtMask t j.val = evtMask s j.val) ∧ { t with link := { t.link with masks := s.link.masks } } = s := by
  have hcode : txOp (0x15 + k.val) = 1 ∧ txWidth (0x15 + k.val) ≠ 3 ∧ txIndex (0x15 + k.val) ≤ 10 := by
    revert k
    decide
  obtain ⟨hop, hwidth, hindex⟩ := hcode
  have hreg : writeLink s (txIndex (0x15 + k.val)) 0 w [] = writeMask s k w := by fin_cases k <;> rfl
  have he := execLinkRegWrite_eq 0 (leBytes 4 w) hup hop
  rw [linkWrite_word s [] hwidth hindex hw, hreg] at he
  have hmask (j : Fin 3) : evtMask (writeMask s k w) j = if j = k then w else evtMask s j := by
    rw [evtMask_eq_field32, writeMask_masks, field32_replace hm hw, evtMask_eq_field32]
  exact ⟨_, he, by rw [hmask, if_pos rfl], fun j hj => by rw [hmask, if_neg hj], rfl⟩

/-! ### EVTk (R139, R140) -/

/-- A number with the bits of a list set. -/
def orBits (m : Nat) (xs : List Nat) : Nat := xs.foldl (fun m i => m ||| 2 ^ i) m

theorem bitOf_orBits (xs : List Nat) (m i : Nat) : bitOf (orBits m xs) i = (bitOf m i || xs.contains i) := by
  induction xs generalizing m with
  | nil => exact (Bool.or_false _).symm
  | cons x xs ih =>
    have hfirst : bitOf (m ||| 2 ^ x) i = (bitOf m i || i == x) := by
      rw [bitOf, Nat.testBit_or, Nat.testBit_two_pow, beq_eq_decide, bitOf]
      exact congrArg _ (decide_eq_decide.mpr eq_comm)
    exact (ih (m ||| 2 ^ x)).trans (by rw [hfirst, List.contains_cons, Bool.or_assoc])

/-- The occurrences of several events set their bits and change nothing else. -/
theorem evts_eq (xs : List Nat) (s : State) :
    forEach xs s evt = { s with link := { s.link with events := orBits s.link.events xs } } := by
  induction xs generalizing s with
  | nil => rfl
  | cons x xs ih => exact ih (evt s x)

/-- The sticky events that a W1C write leaves: those of other words, and those that it does not write 1 (R140). -/
def keptEvents (s : State) (k w : Nat) : List Nat :=
  (List.range 96).filter (fun i => bitOf s.link.events i && !(decide (i / 32 = k) && bitOf w (i % 32)))

/-- The sticky events that occur on the edge of the write. -/
def raisedEvents (raised : List Nat) : List Nat := raised.filter (fun i => decide (i < 96) && !isLevel i)

/-- The sticky events after a W1C write. -/
def eventsWritten (s : State) (k w : Nat) (raised : List Nat) : Nat := orBits (orBits 0 (keptEvents s k w)) (raisedEvents raised)

theorem writeEvt_eq (s : State) (k w : Nat) (raised : List Nat) :
    writeEvt s k w raised = { s with link := { s.link with events := eventsWritten s k w raised } } := evts_eq _ _

theorem evtBit_level {i : Nat} (s : State) (h : isLevel i = true) : evtBit s i = levelEvent s i := if_pos h

theorem evtBit_sticky {i : Nat} (s : State) (h : isLevel i = false) : evtBit s i = bitOf s.link.events i := by
  rw [evtBit, h]
  rfl

theorem writeEvt_sticky (s : State) (k w : Nat) (raised : List Nat) {i : Nat} (hi : i < 96) (hs : isLevel i = false) :
    evtBit (writeEvt s k w raised) i = ((evtBit s i && !(decide (i / 32 = k) && bitOf w (i % 32))) || raised.contains i) := by
  have hkept : (keptEvents s k w).contains i = (bitOf s.link.events i && !(decide (i / 32 = k) && bitOf w (i % 32))) := by
    rw [Bool.eq_iff_iff, List.contains_iff_mem, keptEvents, List.mem_filter]
    exact and_iff_right (List.mem_range.mpr hi)
  have hraised : (raisedEvents raised).contains i = raised.contains i := by
    rw [Bool.eq_iff_iff, List.contains_iff_mem, List.contains_iff_mem, raisedEvents, List.mem_filter]
    exact and_iff_left (by simp [hi, hs])
  rw [evtBit_sticky _ hs, evtBit_sticky _ hs, writeEvt_eq, eventsWritten, bitOf_orBits, bitOf_orBits, hkept, hraised, bitOf,
    Nat.zero_testBit, Bool.false_or]

theorem execEvtClear_eq {s : State} (k : Fin 3) {w : Nat} (raised : List Nat) (hup : linkUp s = true) (hw : w < 2 ^ 32) :
    exec (.evtClear (0x12 + k.val) 0 (leBytes 4 w) raised) s = .next (writeEvt s k w raised) := by
  have hcode : writesReg (0x12 + k.val) [2, 3, 4] = true ∧ txWidth (0x12 + k.val) ≠ 3 ∧ txIndex (0x12 + k.val) ≤ 10 := by
    revert k
    decide
  obtain ⟨hreg, hwidth, hindex⟩ := hcode
  have heff : writeLink s (txIndex (0x12 + k.val)) 0 w raised = writeEvt s k w raised := by fin_cases k <;> rfl
  show execEvtClear (0x12 + k.val) 0 (leBytes 4 w) raised s = _
  rw [execEvtClear, if_pos (by simp [hup, hreg]), linkWrite_word s raised hwidth hindex hw, heff]

theorem execEvtClear_clears (s : State) (k : Fin 3) (w : Nat) (raised : List Nat) (hup : linkUp s = true) (hw : w < 2 ^ 32) :
    ∃ t, exec (.evtClear (0x12 + k.val) 0 (leBytes 4 w) raised) s = .next t ∧ OnlyLink s t ∧ t.link.buf = s.link.buf ∧
      t.link.rings = s.link.rings ∧
      (∀ i, i < 96 → isLevel i = true → evtBit t i = evtBit s i) ∧
      ∀ i, i < 96 → isLevel i = false →
        evtBit t i = ((evtBit s i && !(decide (i / 32 = k.val) && bitOf w (i % 32))) || raised.contains i) := by
  refine ⟨_, execEvtClear_eq k raised hup hw, ?_, ?_, ?_, fun i _ hl => ?_, fun i hi hs => writeEvt_sticky s k w raised hi hs⟩
  · rw [writeEvt_eq]
    rfl
  · rw [writeEvt_eq]
  · rw [writeEvt_eq]
  · rw [evtBit_level _ hl, evtBit_level _ hl, writeEvt_eq]
    rfl

/-- Settles O17: what a write of each register sets, the code of the first rule that a write breaks, and the events that a W1C write keeps. -/
theorem linkRegistersClearAsWritten : Obligations.LinkRegistersClearAsWritten :=
  ⟨execLinkRegWrite_linkStat, execLinkRegWrite_evtMask, execLinkRegWrite_breaksOne, execLinkRegWrite_breaksSome, execEvtClear_clears⟩

end Sys2Proof.Machine
end

section
/-! O18: the frames that the device takes from a request ring and over the Emquin ring. -/

namespace Sys2Proof.Machine

/-! ### Handing over (R151, R152) -/

/-- The state with a command handed over to the runtime. -/
def commandHanded (s : State) (i : Instr) : State := { s with rt := { s.rt with handed := some i } }

/-- A frame whose selection and payload are well formed is handed over as its command and changes nothing else. -/
theorem handOver_commands {s : State} {r : Req} {op : Nat} {p : List Byte} {i : Instr}
    (hsel : selectionOk op r.axisSel r.devSel = true) (hgroup : emptyGroup r op = false) (hparse : parseCmd r op p = some i) :
    handOver s r op p = commandHanded s i := by
  rw [handOver, if_neg (by simp [hsel, hgroup]), hparse]
  rfl

/-- A frame of a request ring that names this device is handed over, not sent on. -/
theorem routeFrame_here {s : State} {r : Req} (op : Nat) (p bs : List Byte) (h : r.devSel = ringId s) :
    routeFrame s r op p bs = handOver s r op p := by
  have hid : ringId s < 16 := Nat.mod_lt _ (by decide)
  rw [routeFrame, if_neg (by omega), if_pos h]

/-- A frame counted and remembered (R165, R175). -/
def frameCounted (s : State) (ring : Nat) (h : Hdr) : State := remember (incR s Sig.CMD_COUNT) ring h.tag h.opcode

/-- A command handed over from a frame that is counted and remembered. -/
theorem commandHanded_counted (s : State) (ring : Nat) (h : Hdr) (i : Instr) :
    (commandHanded (frameCounted s ring h) i).rt.handed = some i ∧
      rg (commandHanded (frameCounted s ring h) i) Sig.CMD_COUNT = rg s Sig.CMD_COUNT + 1 ∧
      (commandHanded (frameCounted s ring h) i).rt.taken.head? = some ⟨ring, h.tag, h.opcode, none⟩ :=
  ⟨rfl, rg_incR_same s _, rfl⟩

theorem commandHanded_counted_signals (s : State) (ring : Nat) (h : Hdr) (i : Instr) :
    SignalsBut [Sig.CMD_COUNT] s (commandHanded (frameCounted s ring h) i) :=
  fun _ hk _ => rg_incR_ne s (fun e => hk (e ▸ List.mem_singleton_self _))

/-! ### The frame at RING_TAIL (R119, R129, R135) -/

/-- The request that the next frame of a ring makes. -/
def hostReq (s : State) (ring : Nat) : Req := reqFrom s (headHdr s ring) ring (respRingOf ring (headHdr s ring).b12) false (ringId s)

/-- The bytes of the next frame of a ring. -/
def headBytes (s : State) (ring : Nat) : List Byte :=
  memBytesRing s.link.buf (ringBase ring) (ringAt s ring).bytes (ringAt s ring).tail (frameLen (headHdr s ring).length)

/-- The bytes of the next frame of a ring that its CRC-32 covers. -/
def headBody (s : State) (ring : Nat) : List Byte :=
  memBytesRing s.link.buf (ringBase ring) (ringAt s ring).bytes (ringAt s ring).tail (16 + ((headHdr s ring).length + 3) / 4 * 4)

/-- Whether the CRC-32 of the next frame of a ring is the one that its bytes give. -/
def HeadSound (s : State) (ring : Nat) : Prop :=
  crc32 (headBody s ring) = wordAt (headBytes s ring) (16 + ((headHdr s ring).length + 3) / 4 * 4)

theorem headBytes_take (s : State) (ring : Nat) : (headBytes s ring).take (16 + ((headHdr s ring).length + 3) / 4 * 4) = headBody s ring :=
  memBytesRing_take _ _ _ (Nat.le_add_right _ 4)

theorem frameLen_sub (len : Nat) : frameLen len - 4 = 16 + (len + 3) / 4 * 4 := Nat.add_sub_cancel _ 4

/-- A ring served: it is the last one, and the idle time begins again (R67, R131). -/
def ringServed (s : State) (ring : Nat) : State :=
  { s with link := { s.link with lastServed := ring }, pwr := { s.pwr with idleUs := s.clk.us } }

/-- The next frame of a ring taken out of it. -/
def frameRemoved (s : State) (ring : Nat) : State :=
  modRing (ringServed s ring) ring (fun g => { g with tail := (g.tail + frameLen (headHdr s ring).length) % g.bytes })

theorem takeFrame_sound {s : State} {ring : Nat} (hlen : (headHdr s ring).length ≤ 1008) (hcrc : HeadSound s ring)
    (hbad : badHeader (headHdr s ring) = false) :
    takeFrame s ring = routeFrame (frameCounted (frameRemoved s ring) ring (headHdr s ring)) (hostReq s ring) (headHdr s ring).opcode
      (((headBytes s ring).drop 16).take (headHdr s ring).length) (headBytes s ring) := by
  have hpass : ¬crc32 ((headBytes s ring).take (frameLen (headHdr s ring).length - 4)) ≠
      wordAt (headBytes s ring) (frameLen (headHdr s ring).length - 4) := by
    rw [frameLen_sub, headBytes_take]
    exact not_not_intro hcrc
  unfold takeFrame
  exact (if_neg (Nat.not_lt.mpr hlen)).trans ((if_neg hpass).trans (if_neg (by simp [hbad])))

/-! ### FRAME_TAKE (R131) -/

/-- FRAME_TAKE takes from the first ring in the order of R131 whose frame is there and whose response ring has room. -/
theorem execFrameTake_eq {s : State} {ring : Nat} (hserves : serves s = true) (hready : s.pwr.ready = true) (hnone : s.rt.handed = none)
    (hnext : ((serveOrder s).filter (fun q => frameThere s q && respRoom s q)).head? = some ring) :
    exec (.frameTake .good) s = .next (takeFrame (restall s (List.range 16)) ring) := by
  have hfind : ((serveOrder s).filter (frameThere s)).find? (respRoom s) = some ring := by
    rw [List.find?_filter, ← hnext, List.head?_filter]
    simp only [Bool.decide_and, Bool.decide_eq_true]
  have hrestalled : ((serveOrder (restall s (List.range 16))).filter (frameThere (restall s (List.range 16)))).find?
      (respRoom (restall s (List.range 16))) = some ring := hfind
  show execFrameTake .good s = _
  unfold execFrameTake
  rw [if_pos (by simp [hserves, hready, hnone])]
  dsimp only
  rw [hrestalled]
  rfl

/-- A sound frame of a request ring that names this device is counted, remembered, taken out of its ring and handed over. -/
theorem takeFrame_hands {s : State} {ring : Nat} {i : Instr} (hring : ring < s.link.rings.length)
    (hlen : (headHdr s ring).length ≤ 1008) (hbad : badHeader (headHdr s ring) = false) (hdev : (headHdr s ring).devSel = ringId s)
    (hsel : selectionOk (headHdr s ring).opcode (headHdr s ring).axisSel (headHdr s ring).devSel = true)
    (hgroup : emptyGroup (hostReq s ring) (headHdr s ring).opcode = false) (hcrc : HeadSound s ring)
    (hparse : parseCmd (hostReq s ring) (headHdr s ring).opcode (((headBytes s ring).drop 16).take (headHdr s ring).length) = some i) :
    takeFrame s ring = commandHanded (frameCounted (frameRemoved s ring) ring (headHdr s ring)) i ∧
      ringAt (frameRemoved s ring) ring =
        { ringAt s ring with tail := ((ringAt s ring).tail + frameLen (headHdr s ring).length) % (ringAt s ring).bytes } := by
  have hhere : (hostReq s ring).devSel = ringId (frameCounted (frameRemoved s ring) ring (headHdr s ring)) := hdev
  refine ⟨?_, ringAt_modRing_same (ringServed s ring) _ hring⟩
  rw [takeFrame_sound hlen hcrc hbad, routeFrame_here _ _ _ hhere]
  exact handOver_commands hsel hgroup hparse

theorem execFrameTake_hands (s : State) (ring : Nat) (i : Instr) (hserves : serves s = true) (hready : s.pwr.ready = true)
    (hnone : s.rt.handed = none) (hrings : s.link.rings.length = 64) (hring : ring ≤ 15)
    (hnext : ((serveOrder s).filter (fun q => frameThere s q && respRoom s q)).head? = some ring)
    (hlen : (headHdr s ring).length ≤ 1008) (hbad : badHeader (headHdr s ring) = false) (hdev : (headHdr s ring).devSel = ringId s)
    (hsel : selectionOk (headHdr s ring).opcode (headHdr s ring).axisSel (headHdr s ring).devSel = true)
    (hgroup : emptyGroup (hostReq s ring) (headHdr s ring).opcode = false) (hcrc : HeadSound s ring)
    (hparse : parseCmd (hostReq s ring) (headHdr s ring).opcode (((headBytes s ring).drop 16).take (headHdr s ring).length) = some i) :
    ∃ t, exec (.frameTake .good) s = .next t ∧ t.rt.handed = some i ∧ rg t Sig.CMD_COUNT = rg s Sig.CMD_COUNT + 1 ∧
      (ringAt t ring).tail = ((ringAt s ring).tail + frameLen (headHdr s ring).length) % (ringAt s ring).bytes ∧
      t.rt.taken.head? = some ⟨ring, (headHdr s ring).tag, (headHdr s ring).opcode, none⟩ ∧ t.link.buf = s.link.buf := by
  have hin : ring < s.link.rings.length := by omega
  obtain ⟨htake, htail⟩ := takeFrame_hands (s := restall s (List.range 16)) hin hlen hbad hdev hsel hgroup hcrc hparse
  have he := execFrameTake_eq hserves hready hnone hnext
  rw [htake] at he
  obtain ⟨hhanded, hcount, htaken⟩ := commandHanded_counted (frameRemoved (restall s (List.range 16)) ring) ring (headHdr s ring) i
  exact ⟨_, he, hhanded, hcount, congrArg Ring.tail htail, htaken, rfl⟩

/-! ### Damaged frames of a request ring (R129, R137) -/

/-- A response ring is no request ring (R137). -/
theorem respRingOf_ge (r x : Nat) : 16 ≤ respRingOf r x := by
  unfold respRingOf
  split
  · next h =>
    obtain ⟨hx, hok⟩ := h
    simp only [respRingOk, Bool.or_eq_true, beq_iff_eq, hx, false_or, Bool.and_eq_true, decide_eq_true_eq] at hok
    exact hok.1
  · exact Nat.le_add_left 16 r

/-- The rest of a ring discarded: RING_TAIL at RING_HEAD, RESYNC and event 90 (R129). -/
theorem resync_shows (s : State) {r : Nat} (h : r < s.link.rings.length) :
    (resync s r).link.resync = true ∧ bitOf (resync s r).link.events 90 = true ∧ (ringAt (resync s r) r).tail = (ringAt s r).head :=
  ⟨rfl, evt_bit _ 90 90,
    congrArg Ring.tail (ringAt_modRing_same { s with link := { s.link with resync := true } } (fun g => { g with tail := g.head }) h)⟩

/-- A frame refused with CRC_ERR is counted in CMD_FAIL_COUNT and shown in LAST_FAIL (R175). -/
theorem countFail_crcErr (s : State) (r : Req) (op : Nat) :
    rg (countFail s r op stCrcErr) Sig.CMD_COUNT = rg s Sig.CMD_COUNT ∧
      rg (countFail s r op stCrcErr) Sig.LAST_FAIL = BitVec.ofNat 32 (r.tag * 65536 + op * 256 + stCrcErr) :=
  ⟨(rg_setN_ne (incR s Sig.CMD_FAIL_COUNT) _ (by decide)).trans (rg_incR_ne s (by decide)),
    rg_setN_same (incR s Sig.CMD_FAIL_COUNT) _ _⟩

/-- The state with a host frame answered with CRC_ERR. -/
def crcErrSent (s : State) (r : Req) (op : Nat) : State := sendResp (countFail s r op stCrcErr) r op stCrcErr []

theorem crcErrSent_eq (s : State) {r : Req} (op : Nat) (hhost : r.fwd = false) :
    crcErrSent s r op = postBytes (countFail s r op stCrcErr) r.resp (respFrame (countFail s r op stCrcErr) r op stCrcErr []) :=
  if_neg (by simp [hhost])

theorem crcErrSent_link (s : State) {r : Req} (op : Nat) (hhost : r.fwd = false) :
    (crcErrSent s r op).rt.handed = s.rt.handed ∧ (crcErrSent s r op).link.resync = s.link.resync ∧
      (crcErrSent s r op).link.events = s.link.events ∧ ∀ q, q ≠ r.resp → ringAt (crcErrSent s r op) q = ringAt s q := by
  rw [crcErrSent_eq s op hhost]
  obtain ⟨-, hhanded, hresync, hevents⟩ :=
    postBytes_fields (countFail s r op stCrcErr) r.resp (respFrame (countFail s r op stCrcErr) r op stCrcErr [])
  exact ⟨hhanded, hresync, hevents, fun q hq => ringAt_postBytes_ne (countFail s r op stCrcErr) _ hq⟩

theorem crcErrSent_signals (s : State) {r : Req} (op : Nat) (hhost : r.fwd = false) :
    rg (crcErrSent s r op) Sig.CMD_COUNT = rg s Sig.CMD_COUNT ∧
      rg (crcErrSent s r op) Sig.LAST_FAIL = BitVec.ofNat 32 (r.tag * 65536 + op * 256 + stCrcErr) := by
  obtain ⟨hregs, -⟩ :=
    postBytes_fields (countFail s r op stCrcErr) r.resp (respFrame (countFail s r op stCrcErr) r op stCrcErr [])
  rw [crcErrSent_eq s op hhost]
  simp only [rg, hregs]
  exact countFail_crcErr s r op

theorem takeFrame_damaged {s : State} {ring : Nat} (hlen : (headHdr s ring).length ≤ 1008) (hcrc : ¬HeadSound s ring) :
    takeFrame s ring = crcErrSent (resync (ringServed s ring) ring) (hostReq s ring) (headHdr s ring).opcode := by
  have hfail : crc32 ((headBytes s ring).take (frameLen (headHdr s ring).length - 4)) ≠
      wordAt (headBytes s ring) (frameLen (headHdr s ring).length - 4) := by
    rw [frameLen_sub, headBytes_take]
    exact hcrc
  unfold takeFrame
  exact (if_neg (Nat.not_lt.mpr hlen)).trans (if_pos hfail)

/-- A damaged frame of a request ring is answered with CRC_ERR, and the rest of its ring is discarded. -/
theorem takeFrame_refuses {s : State} {ring : Nat} (hring : ring ≤ 15) (hin : ring < s.link.rings.length)
    (hlen : (headHdr s ring).length ≤ 1008) (hcrc : ¬HeadSound s ring) :
    (takeFrame s ring).rt.handed = s.rt.handed ∧ (ringAt (takeFrame s ring) ring).tail = (ringAt s ring).head ∧
      (takeFrame s ring).link.resync = true ∧ bitOf (takeFrame s ring).link.events 90 = true ∧
      rg (takeFrame s ring) Sig.CMD_COUNT = rg s Sig.CMD_COUNT ∧
      rg (takeFrame s ring) Sig.LAST_FAIL =
        BitVec.ofNat 32 ((headHdr s ring).tag * 65536 + (headHdr s ring).opcode * 256 + stCrcErr) := by
  have hne : ring ≠ (hostReq s ring).resp := by
    have : 16 ≤ (hostReq s ring).resp := respRingOf_ge ring (headHdr s ring).b12
    omega
  obtain ⟨hresync, hevent, htail⟩ := resync_shows (ringServed s ring) hin
  obtain ⟨hhanded, hresync', hevents, hother⟩ :=
    crcErrSent_link (resync (ringServed s ring) ring) (headHdr s ring).opcode (r := hostReq s ring) rfl
  obtain ⟨hcount, hlast⟩ := crcErrSent_signals (resync (ringServed s ring) ring) (headHdr s ring).opcode (r := hostReq s ring) rfl
  rw [takeFrame_damaged hlen hcrc]
  exact ⟨hhanded, by rw [hother ring hne, htail]; rfl, by rw [hresync', hresync], by rw [hevents, hevent], hcount, hlast⟩

theorem execFrameTake_refuses (s : State) (ring : Nat) (hserves : serves s = true) (hready : s.pwr.ready = true)
    (hnone : s.rt.handed = none) (hrings : s.link.rings.length = 64) (hring : ring ≤ 15)
    (hnext : ((serveOrder s).filter (fun q => frameThere s q && respRoom s q)).head? = some ring)
    (hlen : (headHdr s ring).length ≤ 1008) (hcrc : ¬HeadSound s ring) :
    ∃ t, exec (.frameTake .good) s = .next t ∧ t.rt.handed = none ∧ (ringAt t ring).tail = (ringAt s ring).head ∧
      t.link.resync = true ∧ bitOf t.link.events 90 = true ∧ rgN t Sig.CMD_COUNT = rgN s Sig.CMD_COUNT ∧
      rg t Sig.LAST_FAIL = BitVec.ofNat 32 ((headHdr s ring).tag * 65536 + (headHdr s ring).opcode * 256 + stCrcErr) := by
  have hin : ring < s.link.rings.length := by omega
  obtain ⟨hhanded, htail, hresync, hevent, hcount, hlast⟩ := takeFrame_refuses (s := restall s (List.range 16)) hring hin hlen hcrc
  exact ⟨_, execFrameTake_eq hserves hready hnone hnext, hhanded.trans hnone, htail, hresync, hevent, congrArg BitVec.toNat hcount, hlast⟩

/-! ### FORWARDED_FRAME (R161, R552) -/

/-- A frame taken out of the inbox of the Emquin ring. -/
def inboxTaken (s : State) (src : Nat) (bs : List Byte) : State :=
  { s with emq := { s.emq with inbox := s.emq.inbox.erase (src, bs) } }

/-- The request that a forwarded frame makes, under its entry device. -/
def forwardedReq (s : State) (src : Nat) (h : Hdr) : Req := reqFrom s h (64 + src) (respRingOf 0 h.b12) true src

theorem execForwardedFrame_request {s : State} (src : Nat) {bs : List Byte} (hserves : serves s = true) (hnone : s.rt.handed = none)
    (hwhole : bs.length = frameLen (parseHdr bs).length) (hlen : (parseHdr bs).length ≤ 1008)
    (hcrc : crc32 (bs.take (bs.length - 4)) = wordAt bs (bs.length - 4)) (hstream : bitOf (parseHdr bs).flags 5 = false)
    (hresp : bitOf (parseHdr bs).flags 7 = false) :
    exec (.forwardedFrame src bs) s = .next (takeForwarded (inboxTaken s src bs) src (parseHdr bs) bs) := by
  show execForwardedFrame src bs s = _
  have hsound : (decide (bs.length ≠ frameLen (parseHdr bs).length) || decide (1008 < (parseHdr bs).length) ||
      decide (crc32 (bs.take (frameLen (parseHdr bs).length - 4)) ≠ wordAt bs (frameLen (parseHdr bs).length - 4))) = false := by
    rw [← hwhole]
    simp [hlen, hcrc]
  simp only [execForwardedFrame, hserves, hsound, hstream, hresp, hnone]
  rfl

theorem execForwardedFrame_damaged (s : State) (src : Nat) (bs : List Byte) (hserves : serves s = true)
    (hwhole : bs.length = frameLen (parseHdr bs).length) (hcrc : crc32 (bs.take (bs.length - 4)) ≠ wordAt bs (bs.length - 4)) :
    exec (.forwardedFrame src bs) s = .next (inboxTaken s src bs) := by
  show execForwardedFrame src bs s = _
  have hbroken : (decide (bs.length ≠ frameLen (parseHdr bs).length) || decide (1008 < (parseHdr bs).length) ||
      decide (crc32 (bs.take (frameLen (parseHdr bs).length - 4)) ≠ wordAt bs (frameLen (parseHdr bs).length - 4))) = true := by
    rw [← hwhole, decide_eq_true hcrc, Bool.or_true]
  simp only [execForwardedFrame, hserves, hbroken]
  rfl

/-- A request of another device, while the device sees a lead, is counted, remembered and handed over (R160, R552). -/
theorem takeForwarded_commands {s : State} {src : Nat} {h : Hdr} {bs : List Byte} {i : Instr} (hlead : s.emq.noLead = false)
    (hknown : knownOp h.opcode = true) (hsel : selectionOk h.opcode h.axisSel h.devSel = true)
    (hgroup : emptyGroup (forwardedReq s src h) h.opcode = false)
    (hparse : parseCmd (forwardedReq s src h) h.opcode ((bs.drop 16).take h.length) = some i) :
    takeForwarded s src h bs = commandHanded (frameCounted (idleAgain s) (64 + src) h) i := by
  have hlead' : ¬(frameCounted (idleAgain s) (64 + src) h).emq.noLead = true := by rw [Bool.not_eq_true]; exact hlead
  unfold takeForwarded
  exact (if_neg (by simp [hknown])).trans ((if_neg hlead').trans (handOver_commands hsel hgroup hparse))

theorem execForwardedFrame_hands (s : State) (src : Nat) (bs : List Byte) (i : Instr) (hserves : serves s = true)
    (hnone : s.rt.handed = none) (hlead : s.emq.noLead = false) (hwhole : bs.length = frameLen (parseHdr bs).length)
    (hlen : (parseHdr bs).length ≤ 1008) (hcrc : crc32 (bs.take (bs.length - 4)) = wordAt bs (bs.length - 4))
    (hstream : bitOf (parseHdr bs).flags 5 = false) (hresp : bitOf (parseHdr bs).flags 7 = false)
    (hknown : knownOp (parseHdr bs).opcode = true)
    (hsel : selectionOk (parseHdr bs).opcode (parseHdr bs).axisSel (parseHdr bs).devSel = true)
    (hgroup : emptyGroup (forwardedReq s src (parseHdr bs)) (parseHdr bs).opcode = false)
    (hparse : parseCmd (forwardedReq s src (parseHdr bs)) (parseHdr bs).opcode ((bs.drop 16).take (parseHdr bs).length) = some i) :
    ∃ t, exec (.forwardedFrame src bs) s = .next t ∧ t.rt.handed = some i ∧ rg t Sig.CMD_COUNT = rg s Sig.CMD_COUNT + 1 ∧
      t.rt.taken.head? = some ⟨64 + src, (parseHdr bs).tag, (parseHdr bs).opcode, none⟩ ∧
        SignalsBut [Sig.CMD_COUNT] s t ∧ t.ax = s.ax := by
  have he := execForwardedFrame_request src hserves hnone hwhole hlen hcrc hstream hresp
  rw [takeForwarded_commands (s := inboxTaken s src bs) hlead hknown hsel hgroup hparse] at he
  obtain ⟨hhanded, hcount, htaken⟩ := commandHanded_counted (idleAgain (inboxTaken s src bs)) (64 + src) (parseHdr bs) i
  exact ⟨_, he, hhanded, hcount, htaken, commandHanded_counted_signals (idleAgain (inboxTaken s src bs)) (64 + src) (parseHdr bs) i, rfl⟩

/-- Settles O18: the ring that FRAME_TAKE serves, what it makes of a sound and of a damaged frame, and the same over the Emquin ring. -/
theorem framesAreTakenAsCommands : Obligations.FramesAreTakenAsCommands :=
  ⟨execFrameTake_hands, execFrameTake_refuses, execForwardedFrame_hands, execForwardedFrame_damaged⟩

end Sys2Proof.Machine
end

section
/-! A command that one device or one axis carries out: its meaning on the state that no longer hands it over, and its answer; what answers
leave alone, the frame that one posts and the counts of a refusal (R133, R154, R175). -/

namespace Sys2Proof.Machine

/-! ### The command taken (R162) -/

/-- A command that is carried out is no longer handed over. -/
theorem unhand_handed (s : State) (r : Req) : ∃ i, unhand s r = { s with rt := { s.rt with handed := i } } := by
  unfold unhand
  split
  · split <;> exact ⟨_, rfl⟩
  · exact ⟨_, rfl⟩

theorem unhand_rcd (s : State) (r : Req) : (unhand s r).rcd = s.rcd := by
  obtain ⟨i, e⟩ := unhand_handed s r
  rw [e]

theorem unhand_quiet (s : State) (r : Req) : Quiet s (unhand s r) := by
  obtain ⟨i, e⟩ := unhand_handed s r
  rw [e]
  exact Quiet.upd_open s _ _ _ _ _

/-- The answer of a command to its one target: none yet where it answers later. -/
def answered (r : Req) (op : Nat) (x : State × Ans) : State :=
  if x.2.later then x.1 else answer (latchAns x.1 r x.2) r op x.2.status x.2.payload

/-- A command of one device that nothing bars: its meaning and its answer. -/
theorem devCmd_eq {s : State} {r : Req} {op : Nat} {special : Bool} (ha : Accepted s r op special) (f : State → State × Ans) :
    devCmd s r op special f = answered r op (f (unhand s r)) := by
  obtain ⟨i, e⟩ := unhand_handed s r
  have hlate : lateReq (unhand s r) r = false := by rw [e]; exact ha.intime
  have hbar : commandBar (unhand s r) op special = stOk := by rw [e]; exact ha.unbarred
  simp [devCmd, hlate, hbar, runDev, ha.single, answered]

/-- A command of one axis that nothing bars: its meaning for the axis and its answer. -/
theorem axCmd_eq {s : State} {r : Req} {op : Nat} {special : Bool} {n : Axis} (ha : Accepted s r op special) (hn : r.axisSel = n.val)
    (f : State → Axis → State × Ans) : axCmd s r op special f = answered r op (f (unhand s r) n) := by
  obtain ⟨i, e⟩ := unhand_handed s r
  have hlate : lateReq (unhand s r) r = false := by rw [e]; exact ha.intime
  have hbar : commandBar (unhand s r) op special = stOk := by rw [e]; exact ha.unbarred
  simp [axCmd, hlate, hbar, runAx, ha.single, hn, answered]

/-! ### What answers leave alone -/

/-- A state with the signals, the link, the forward queues, the completions, the responses that wait for room and the collections of
another. -/
def withAnswersOf (s t : State) : State :=
  { t with regs := s.regs, link := s.link, emq := s.emq,
           rt := { t.rt with taken := s.rt.taken, blocked := s.rt.blocked, aggs := s.rt.aggs } }

/-- The two states agree in everything but what answers change. -/
def AnswersOnly (s t : State) : Prop := withAnswersOf s t = s

namespace AnswersOnly

theorem refl (s : State) : AnswersOnly s s := rfl

theorem trans {s t u : State} (h : AnswersOnly s t) (g : AnswersOnly t u) : AnswersOnly s u :=
  (congrArg (withAnswersOf s) g).trans h

theorem ite {c : Prop} [Decidable c] {s a b : State} (ha : AnswersOnly s a) (hb : AnswersOnly s b) : AnswersOnly s (if c then a else b) := by
  split
  · exact ha
  · exact hb

theorem each {α : Type} (xs : List α) (f : State → α → State) (hf : ∀ s x, AnswersOnly s (f s x)) (s : State) :
    AnswersOnly s (forEach xs s f) := by
  induction xs generalizing s with
  | nil => exact refl s
  | cons x xs ih => exact (hf s x).trans (ih (f s x))

theorem axSt {s t : State} (h : AnswersOnly s t) (n : Axis) : axSt t n = axSt s n :=
  (congrArg (fun u => Machine.axSt u n) (show withAnswersOf s t = s from h) :)

theorem setR (s : State) (k : Nat) (v : Word) : AnswersOnly s (setR s k v) := rfl

theorem ringPut (s : State) (r : Nat) (bs : List Byte) : AnswersOnly s (ringPut s r bs) := rfl

theorem postBytes (s : State) (r : Nat) (bs : List Byte) : AnswersOnly s (postBytes s r bs) := ite (ringPut s r bs) rfl

theorem forwardBytes (s : State) (hi re : Bool) (d : Nat) (due : Option Nat) (key : Option (Nat × Nat)) (bs : List Byte) :
    AnswersOnly s (forwardBytes s hi re d due key bs) := rfl

theorem countFail (s : State) (r : Req) (op st : Nat) : AnswersOnly s (countFail s r op st) :=
  ite (refl s) ((setR s _ _).trans (setR _ _ _))

theorem answer (s : State) (r : Req) (op st : Nat) (p : List Byte) : AnswersOnly s (answer s r op st p) :=
  (countFail s r op st).trans (ite (refl _) (ite (forwardBytes _ _ _ _ _ _ _) (postBytes _ _ _)))

theorem answerAgg (s : State) (r : Req) (op : Nat) (got : List TRes) (late : Bool) : AnswersOnly s (answerAgg s r op got late) :=
  (countFail s r op _).trans (ite (refl _) (ite (forwardBytes _ _ _ _ _ _ _) (postBytes _ _ _)))

theorem latch (s : State) (r : Req) : AnswersOnly s (latch s r) := rfl

theorem latchAns (s : State) (r : Req) (a : Ans) : AnswersOnly s (latchAns s r a) := ite (refl s) (latch s r)

theorem aggOpen (s : State) (r : Req) (op : Nat) : AnswersOnly s (aggOpen s r op) := ite (refl s) rfl

theorem aggAdd (s : State) (r : Req) (got : List TRes) : AnswersOnly s (aggAdd s r got) := by
  refine trans ?_ (each _ _ (fun s _ => answerAgg s _ _ _ _) _)
  rfl

theorem finishDev (s : State) (r : Req) (op st : Nat) (p : List Byte) : AnswersOnly s (finishDev s r op st p) :=
  ite ((latch s r).trans (aggAdd _ _ _)) ((latch s r).trans (answer _ _ _ _ _))

theorem finishWait (s : State) (w : Wait) (st : Nat) (p : List Byte) : AnswersOnly s (finishWait s w st p) := by
  unfold Machine.finishWait
  split
  · exact ite ((ite (refl s) (latch s _)).trans (aggAdd _ _ _)) ((latch s _).trans (answer _ _ _ _ _))
  · exact finishDev s _ _ _ _

theorem answerDeferred (s : State) (d : Deferred) (st : Nat) (p : List Byte) : AnswersOnly s (answerDeferred s d st p) :=
  ite ((latch s _).trans (answerAgg _ _ _ _ _)) ((latch s _).trans (answer _ _ _ _ _))

/-- The answers of an axis command whose meaning leaves the state as it is. -/
theorem runAx (s : State) (r : Req) (op : Nat) (f : State → Axis → Ans) : AnswersOnly s (runAx s r op (fun s n => (s, f s n))) := by
  unfold Machine.runAx
  split
  · refine (aggOpen s r op).trans (trans (t := if _ then _ else _) ?_ (aggAdd _ _ _))
    rw [runAxes_of_answers]
    exact ite (latch _ _) (refl _)
  · split
    · exact ite (refl s) ((latchAns s r _).trans (answer _ _ _ _ _))
    · exact (latch s r).trans (answer _ _ _ _ _)

end AnswersOnly

theorem answered_only (r : Req) (op : Nat) (x : State × Ans) : AnswersOnly x.1 (answered r op x) :=
  AnswersOnly.ite (AnswersOnly.refl _) ((AnswersOnly.latchAns _ r _).trans (AnswersOnly.answer _ _ _ _ _))

theorem answered_quiet (r : Req) (op : Nat) (x : State × Ans) : Quiet x.1 (answered r op x) :=
  Quiet.ite (Quiet.refl _) ((latchAns_quiet _ r _).trans (answer_quiet _ _ _ _ _))

/-- An answer of OK leaves the signals as they are. -/
theorem answered_ok_regs {r : Req} {op : Nat} {x : State × Ans} (h : x.2.status = stOk) : (answered r op x).regs = x.1.regs := by
  have hlatch : (latchAns x.1 r x.2).regs = x.1.regs := by
    unfold latchAns
    split <;> rfl
  unfold answered answer countFail sendResp
  rw [h, if_pos (show (stOk == stOk || stOk == stDoneBeforeAbort || stOk == stBusyDeferred) = true from rfl)]
  split
  · rfl
  · dsimp only
    split
    · exact hlatch
    · split
      · exact hlatch
      · exact (postBytes_fields _ _ _).1.trans hlatch

/-! ### A refusal (R154, R175) -/

/-- Whether a final status is a failure (R175). -/
def Fails (st : Nat) : Prop := st ≠ stOk ∧ st ≠ stDoneBeforeAbort ∧ st ≠ stBusyDeferred

/-- A refusal is counted and noted in LAST_FAIL. -/
theorem answered_fails {r : Req} {op : Nat} {s : State} {a : Ans} (hlater : a.later = false) (h : Fails a.status) :
    rg (answered r op (s, a)) Sig.LAST_FAIL = BitVec.ofNat 32 (r.tag * 65536 + op * 256 + a.status) ∧
      rg (answered r op (s, a)) Sig.CMD_FAIL_COUNT = rg s Sig.CMD_FAIL_COUNT + 1 := by
  obtain ⟨hok, hdone, hbusy⟩ := h
  have hlatch : (latchAns s r a).regs = s.regs := by
    unfold latchAns
    split <;> rfl
  have hcount (u : State) : countFail u r op a.status =
      setN (incR u Sig.CMD_FAIL_COUNT) Sig.LAST_FAIL (r.tag * 65536 + op * 256 + a.status) :=
    if_neg (by simp [hok, hdone, hbusy])
  have hregs : (answered r op (s, a)).regs =
      (setN (incR (latchAns s r a) Sig.CMD_FAIL_COUNT) Sig.LAST_FAIL (r.tag * 65536 + op * 256 + a.status)).regs := by
    unfold answered answer sendResp
    dsimp only
    rw [hlater, if_neg (by decide), hcount, if_neg (by simp [hok])]
    split
    · rfl
    · exact (postBytes_fields _ _ _).1
  refine ⟨(rg_of_regs hregs _).trans (rg_setR_same _ _ _), (rg_of_regs hregs _).trans ?_⟩
  exact (rg_setR_ne _ _ (by decide)).trans ((rg_setR_same _ _ _).trans (congrArg (· + 1) (rg_of_regs hlatch _)))

/-! ### The response frame (R133, R135) -/

theorem zeros_length (n : Nat) : (zeros n).length = n := List.length_replicate

theorem pad4_length (bs : List Byte) : (pad4 bs).length = (bs.length + 3) / 4 * 4 := by
  rw [pad4, List.length_append, zeros_length]
  omega

theorem frameBytes_length (h : Hdr) (p : List Byte) : (frameBytes h p).length = frameLen p.length := by
  simp only [frameBytes, hdrBytes, wordBytes, List.length_append, leBytes_length, pad4_length, frameLen]

/-- A frame put into a ring with room stands there (R127, R133). -/
theorem postBytes_posted {s : State} {ring : Nat} {bs : List Byte} (hc : CanPost s ring bs.length) :
    Posted s (postBytes s ring bs) ring bs := by
  have hput : postBytes s ring bs = ringPut s ring bs := if_pos (by simp [hc.running, hc.room, hc.first])
  have hfit : bs.length ≤ (ringAt s ring).bytes := by
    have := hc.room
    simp only [Ring.room, decide_eq_true_eq] at this
    omega
  have hring := ringAt_modRing_same (ringStored s ring (ringAt s ring).head bs)
    (fun g => { g with head := (g.head + bs.length) % g.bytes }) hc.exists_
  rw [hput]
  exact ⟨memBytesRing_store _ _ _ hfit, (congrArg Ring.head hring :), (congrArg Ring.tail hring :), (congrArg Ring.size hring :)⟩

/-- The response of a command of the host that is carried out at once stands in its ring, where nothing keeps it from there (R133, R164). -/
theorem answered_posted {s : State} {r : Req} {op : Nat} {x : State × Ans} {p : List Byte} (hlink : x.1.link = s.link)
    (hblocked : x.1.rt.blocked = s.rt.blocked) (hdbg : x.1.dbg = s.dbg) (hpwr : x.1.pwr = s.pwr) (hlater : x.2.later = false)
    (hpay : x.2.payload = p) (hcarries : (statusPayload x.2.status || op == 0x01 || op == 0x02) = true)
    (hreply : x.2.status = stOk → r.noReply = false) (hhost : r.fwd = false) (hc : CanPost s r.resp (frameLen p.length)) :
    Posted s (answered r op x) r.resp (respFrame s r op x.2.status p) := by
  subst hpay
  obtain ⟨t, a⟩ := x
  dsimp only at hlink hblocked hdbg hpwr hlater hreply hcarries hc ⊢
  have hset (u : State) (hl : u.link = s.link) (hb : u.rt.blocked = s.rt.blocked) (hd : u.dbg = s.dbg) (hp : u.pwr = s.pwr) :
      Posted s (sendResp u r op a.status a.payload) r.resp (respFrame s r op a.status a.payload) := by
    have hframe : respFrame u r op a.status a.payload = respFrame s r op a.status a.payload := by
      simp only [respFrame, ringId, hp]
    have hlen : (respFrame s r op a.status a.payload).length = frameLen a.payload.length := by
      simp only [respFrame, hcarries, if_true, frameBytes_length]
    have hring : ringAt u r.resp = ringAt s r.resp := congrArg (fun l : Link => l.rings.getD r.resp Ring.init) hl
    have hu : CanPost u r.resp (respFrame s r op a.status a.payload).length := by
      rw [hlen]
      exact ⟨hl ▸ hc.exists_, hd ▸ hc.running, hb ▸ hc.first, hring ▸ hc.room⟩
    have hpost := postBytes_posted hu
    unfold sendResp
    rw [hframe, hhost, if_neg (by decide)]
    exact ⟨hring ▸ hpost.bytes, hring ▸ hpost.head, hring ▸ hpost.tail, hring ▸ hpost.size⟩
  have hnot : ¬(a.status == stOk && r.noReply && !r.fwd) = true := by
    by_cases h : a.status = stOk
    · simp [hreply h]
    · simp [h]
  have hkeep : (countFail (latchAns t r a) r op a.status).link = t.link ∧ (countFail (latchAns t r a) r op a.status).rt.blocked = t.rt.blocked ∧
      (countFail (latchAns t r a) r op a.status).dbg = t.dbg ∧ (countFail (latchAns t r a) r op a.status).pwr = t.pwr := by
    unfold countFail latchAns
    split <;> split <;> exact ⟨rfl, rfl, rfl, rfl⟩
  obtain ⟨kl, kb, kd, kp⟩ := hkeep
  unfold answered answer
  dsimp only
  rw [hlater, if_neg (by decide), if_neg hnot]
  exact hset _ (kl.trans hlink) (kb.trans hblocked) (kd.trans hdbg) (kp.trans hpwr)

end Sys2Proof.Machine
end

section
/-! O19: SIG_READ. -/

namespace Sys2Proof.Machine

/-! ### The checks of a list of SIDs (R147) -/

theorem fuseHidden_handed (s : State) (i : Option Instr) (key : Nat) :
    fuseHidden { s with rt := { s.rt with handed := i } } key = fuseHidden s key := by
  unfold fuseHidden
  cases fuseItemWord (key - 0x8800) <;> rfl

theorem readStatus_unhand (s : State) (r : Req) (any : Bool) (w : Word) : readStatus (unhand s r) any w = readStatus s any w := by
  obtain ⟨i, e⟩ := unhand_handed s r
  have hrow : sidRow { s with rt := { s.rt with handed := i } } any w = sidRow s any w := rfl
  rw [e]
  unfold readStatus
  rw [hrow]
  cases sidRow s any w with
  | none => rfl
  | some x =>
    dsimp only
    rw [fuseHidden_handed]

theorem viewKey_handed (s : State) (i : Option Instr) (key : Nat) : viewKey { s with rt := { s.rt with handed := i } } key = viewKey s key := rfl

theorem viewKey_unhand (s : State) (r : Req) (key : Nat) : viewKey (unhand s r) key = viewKey s key := by
  obtain ⟨i, e⟩ := unhand_handed s r
  rw [e]
  exact viewKey_handed s i key

/-- A frame that one device answers is not for any device (R143). -/
theorem anyDevice_false {r : Req} {op : Nat} (h : aggregated r op = false) : (r.devSel == 0x1F) = false := (Bool.or_eq_false_iff.mp h).1

/-- A SIG_READ of up to 250 SIDs is answered by the list of them (R155). -/
theorem execSigRead_eq {s : State} {r : Req} {sids : List Word} (ha : Accepted s r opSigRead (sids.all deviceSid)) (hne : sids ≠ [])
    (hlen : sids.length ≤ 250) : exec (.sigRead r false sids) s = .next (answered r opSigRead (sigReadAns (unhand s r) r false sids)) := by
  have hlist : ¬(sids.isEmpty || decide ((if false = true then 125 else 250) < sids.length)) = true := by simp [hne, hlen]
  show execSigRead r false sids s = _
  rw [execSigRead, if_pos ha.serves, readCmd, devCmd_eq ha, if_neg hlist]

/-! ### A list that reads (R150, R154, R155) -/

/-- Signals that a read does not change are read in order from one state. -/
theorem readSteps_unchanged {s : State} {sids : List Word} (he : ∀ w ∈ sids, readEffect s (w.toNat % 0x10000) = s) (bs : List Byte) :
    sids.foldl (fun (x : State × List Byte) (w : Word) =>
        (readEffect x.1 (w.toNat % 0x10000), x.2 ++ wordBytes (viewKey x.1 (w.toNat % 0x10000)))) (s, bs) =
      (s, bs ++ sids.flatMap (fun w => wordBytes (viewKey s (w.toNat % 0x10000)))) := by
  induction sids generalizing bs with
  | nil => simp
  | cons w ws ih =>
    rw [List.foldl_cons, he w List.mem_cons_self, ih (fun v hv => he v (List.mem_cons_of_mem w hv)), List.flatMap_cons, List.append_assoc]

theorem sigReadAns_reads {s : State} {r : Req} {sids : List Word} (hany : (r.devSel == 0x1F) = false)
    (hok : ∀ w ∈ sids, readStatus s false w = stOk) (he : ∀ w ∈ sids, readEffect s (w.toNat % 0x10000) = s) :
    sigReadAns s r false sids =
      (s, ansOk (countPayload sids.length 0xFFFF ++ sids.flatMap (fun w => wordBytes (viewKey s (w.toNat % 0x10000))))) := by
  have hnone : (sids.map (readStatus s false)).findIdx? (fun st => st != stOk) = none := by
    simpa [List.findIdx?_eq_none_iff] using hok
  unfold sigReadAns
  dsimp only
  rw [hany, hnone]
  dsimp only
  rw [if_neg (by decide), readSteps_unchanged he]
  rfl

theorem countPayload_length (a b : Nat) : (countPayload a b).length = 4 := by simp [countPayload]

theorem wordsPayload_length (f : Word → Word) (sids : List Word) :
    (sids.flatMap (fun w => wordBytes (f w))).length = 4 * sids.length := by
  induction sids with
  | nil => rfl
  | cons w ws ih =>
    rw [List.flatMap_cons, List.length_append, ih, List.length_cons, wordBytes, leBytes_length]
    omega

theorem execSigRead_reads (s : State) (r : Req) (sids : List Word) (ha : Accepted s r opSigRead (sids.all deviceSid)) (hne : sids ≠ [])
    (hlen : sids.length ≤ 250) (hok : ∀ w ∈ sids, readStatus s false w = stOk)
    (he : ∀ w ∈ sids, readEffect (unhand s r) (w.toNat % 0x10000) = unhand s r) (hreply : r.noReply = false) (hhost : r.fwd = false)
    (hc : CanPost s r.resp (frameLen (4 + 4 * sids.length))) :
    ∃ t, exec (.sigRead r false sids) s = .next t ∧ t.regs = s.regs ∧
      Posted s t r.resp (respFrame s r opSigRead stOk
        (countPayload sids.length 0xFFFF ++ sids.flatMap (fun w => wordBytes (viewKey s (w.toNat % 0x10000))))) := by
  have hans := sigReadAns_reads (s := unhand s r) (anyDevice_false ha.single)
    (fun w hw => (readStatus_unhand s r false w).trans (hok w hw)) he
  simp only [viewKey_unhand] at hans
  have hpay : (countPayload sids.length 0xFFFF ++ sids.flatMap (fun w => wordBytes (viewKey s (w.toNat % 0x10000)))).length =
      4 + 4 * sids.length := by
    rw [List.length_append, countPayload_length, wordsPayload_length (fun w => viewKey s (w.toNat % 0x10000))]
  obtain ⟨i, e⟩ := unhand_handed s r
  refine ⟨_, execSigRead_eq ha hne hlen, ?_, ?_⟩
  · rw [hans, answered_ok_regs rfl, e]
  · rw [hans, e]
    exact answered_posted rfl rfl rfl rfl rfl rfl rfl (fun _ => hreply) hhost (hpay ▸ hc)

/-! ### A list that is refused (R147, R154, R155) -/

theorem findIdx?_append_first {α : Type} (p : α → Bool) (xs : List α) (y : α) (ys : List α) (hxs : ∀ x ∈ xs, p x = false)
    (hy : p y = true) : (xs ++ y :: ys).findIdx? p = some xs.length := by
  induction xs with
  | nil => simp [List.findIdx?_cons, hy]
  | cons x xs ih =>
    rw [List.cons_append, List.findIdx?_cons, hxs x List.mem_cons_self, ih (fun z hz => hxs z (List.mem_cons_of_mem x hz))]
    rfl

theorem sigReadAns_refuses {s : State} {r : Req} {good : List Word} {bad : Word} {rest : List Word} (hany : (r.devSel == 0x1F) = false)
    (hgood : ∀ w ∈ good, readStatus s false w = stOk) (hbad : readStatus s false bad ≠ stOk) :
    ∃ d, sigReadAns s r false (good ++ bad :: rest) = (s, ⟨readStatus s false bad, countPayload 0 good.length, d, false⟩) := by
  have hidx : ((good ++ bad :: rest).map (readStatus s false)).findIdx? (fun st => st != stOk) = some good.length := by
    rw [List.map_append, List.map_cons,
      findIdx?_append_first _ _ _ _ (by simpa using hgood) (by simpa using hbad), List.length_map]
  have hst : ((good ++ bad :: rest).map (readStatus s false)).getD good.length stOk = readStatus s false bad := by
    simp [List.getD_eq_getElem?_getD]
  unfold sigReadAns
  dsimp only
  rw [hany, hidx]
  dsimp only
  rw [hst]
  exact ⟨_, rfl⟩

theorem execSigRead_refuses (s : State) (r : Req) (good : List Word) (bad : Word) (rest : List Word)
    (ha : Accepted s r opSigRead ((good ++ bad :: rest).all deviceSid)) (hlen : (good ++ bad :: rest).length ≤ 250)
    (hgood : ∀ w ∈ good, readStatus s false w = stOk) (hbad : readStatus s false bad ≠ stOk) (hhost : r.fwd = false)
    (hc : CanPost s r.resp (frameLen 4)) :
    ∃ t, exec (.sigRead r false (good ++ bad :: rest)) s = .next t ∧ Quiet s t ∧
      Posted s t r.resp (respFrame s r opSigRead (readStatus s false bad) (countPayload 0 good.length)) := by
  obtain ⟨d, hans⟩ := sigReadAns_refuses (s := unhand s r) (r := r) (rest := rest) (anyDevice_false ha.single)
    (fun w hw => (readStatus_unhand s r false w).trans (hgood w hw)) (by rwa [readStatus_unhand])
  rw [readStatus_unhand] at hans
  obtain ⟨i, e⟩ := unhand_handed s r
  refine ⟨_, execSigRead_eq ha (by simp) hlen, ?_, ?_⟩
  · rw [hans]
    exact (unhand_quiet s r).trans (answered_quiet r opSigRead (_, _))
  · rw [hans, e]
    exact answered_posted rfl rfl rfl rfl rfl rfl (by simp) (fun h => absurd h hbad) hhost (by rwa [countPayload_length])

/-- Settles O19: a SIG_READ that reads, and one that its first refused SID ends. -/
theorem sigReadAnswersThePresentValues : Obligations.SigReadAnswersThePresentValues := ⟨execSigRead_reads, execSigRead_refuses⟩

end Sys2Proof.Machine
end

section
/-! O21: SIG_SUBSCRIBE, SIG_LIMIT and the instants of a subscription. -/

namespace Sys2Proof.Machine

/-! ### Handles and slots (R168, R173) -/

theorem sidsStatus_unhand (s : State) (r : Req) (sids : List Word) : sidsStatus (unhand s r) sids = sidsStatus s sids := by
  unfold sidsStatus
  rw [funext (readStatus_unhand s r false)]

theorem getD_setAt_same {α : Type} (xs : List α) {i : Nat} (y d : α) (h : i < xs.length) : (setAt xs i y).getD i d = y := by
  rw [setAt_eq_set, List.getD_eq_getElem?_getD, List.getElem?_set_self h, Option.getD_some]

/-- A place of a list given its default value reads so, whether the list has it or not. -/
theorem getD_setAt_default {α : Type} (xs : List α) (i : Nat) (d : α) : (setAt xs i d).getD i d = d := by
  by_cases h : i < xs.length
  · exact getD_setAt_same xs d d h
  · rw [setAt_eq_set, List.getD_eq_default _ _ (by simpa using h)]

theorem subOf_putSub_same (s : State) {h : Nat} (u : Option Sub) (h0 : h ≠ 0) (hlt : h - 1 < s.rt.subs.length) :
    subOf (putSub s h u) h = u := by
  rw [subOf, if_neg h0]
  exact getD_setAt_same s.rt.subs u none hlt

theorem subOf_putSub_none (s : State) (h : Nat) : subOf (putSub s h none) h = none := by
  unfold subOf
  split
  · rfl
  · exact getD_setAt_default s.rt.subs (h - 1) none

/-- The handle of a subscription names a place of the table. -/
theorem subOf_some {s : State} {h : Nat} {u : Sub} (hu : subOf s h = some u) : h ≠ 0 ∧ h - 1 < s.rt.subs.length := by
  unfold subOf at hu
  split at hu
  case isTrue => cases hu
  case isFalse h0 =>
    refine ⟨h0, ?_⟩
    by_contra hge
    rw [List.getD_eq_default _ _ (Nat.le_of_not_lt hge)] at hu
    cases hu

theorem AnswersOnly.subOf {s t : State} (h : AnswersOnly s t) (k : Nat) : subOf t k = subOf s k :=
  (congrArg (fun u => Machine.subOf u k) (show withAnswersOf s t = s from h) :)

theorem AnswersOnly.lims {s t : State} (h : AnswersOnly s t) : t.rt.lims = s.rt.lims :=
  (congrArg (fun u : State => u.rt.lims) (show withAnswersOf s t = s from h) :)

/-! ### SIG_SUBSCRIBE (R152, R167, R168, R173) -/

theorem execSigSubscribe_eq {s : State} {r : Req} {h ring mode period deadband : Nat} {sids : List Word}
    (ha : Accepted s r opSigSubscribe false) : exec (.sigSubscribe r h ring mode period deadband sids) s =
      .next (answered r opSigSubscribe (subscribeAns (unhand s r) r h ring mode period deadband sids)) := by
  show execSigSubscribe r h ring mode period deadband sids s = _
  rw [execSigSubscribe, if_pos ha.serves, devCmd_eq ha]

/-- The subscription that a request asks for, due one period from now. -/
def newSub (s : State) (r : Req) (ring mode period deadband : Nat) (sids : List Word) : Sub :=
  ⟨ring, mode, period, deadband, sids, [], s.clk.us + 10 * period, 0, r.entry, r.fwd⟩

/-- What SIG_SUBSCRIBE checks of a subscription besides its handle (R152, R168). -/
structure SubSound (s : State) (ring mode period : Nat) (sids : List Word) : Prop where
  ring : streamRing ring = true
  modeLow : 1 ≤ mode
  modeHigh : mode ≤ 2
  periodLow : 1 ≤ period
  periodHigh : period ≤ 1000000
  some_ : 1 ≤ sids.length
  few : sids.length ≤ 32
  reads : sidsStatus s sids = stOk

/-- A sound subscription with room in the load takes its place of the table. -/
theorem subscribeAns_takes {s : State} {r : Req} {h i ring mode period deadband : Nat} {sids : List Word}
    (hs : SubSound s ring mode period sids) (hh : h ≤ 32) (hused : h ≠ 0 → (subOf s h).isSome = true)
    (hplace : (if h = 0 then s.rt.subs.findIdx? Option.isNone else some (h - 1)) = some i)
    (hload : subLoad (setAt s.rt.subs i (some (newSub s r ring mode period deadband sids))) ≤ 500000) :
    subscribeAns s r h ring mode period deadband sids =
      (putSub s (i + 1) (some (newSub s r ring mode period deadband sids)), ansOk (leBytes 1 (i + 1) ++ zeros 3)) := by
  have hhandle : ¬(32 < h ∨ 2 < mode ∨ (h ≠ 0 ∧ (subOf s h).isSome = false)) := by
    rintro (e | e | ⟨h0, e⟩)
    · omega
    · exact absurd hs.modeHigh (by omega)
    · exact absurd (hused h0) (by simp [e])
  have hmode : mode ≠ 0 := Nat.ne_of_gt hs.modeLow
  have hfields : ¬(streamRing ring = false ∨ period = 0 ∨ 1000000 < period ∨ sids.length = 0 ∨ 32 < sids.length) := by
    obtain ⟨hring, -, -, hp1, hp2, hl1, hl2, -⟩ := hs
    rintro (e | e | e | e | e)
    · rw [hring] at e
      cases e
    all_goals omega
  have hover : ¬500000 < subLoad (putSub s (i + 1) (some (newSub s r ring mode period deadband sids))).rt.subs := not_lt.mpr hload
  unfold subscribeAns
  dsimp only
  rw [if_neg hhandle, if_neg hmode, if_neg hfields, if_neg (not_not_intro hs.reads), hplace]
  exact if_neg hover

theorem execSigSubscribe_takes {s : State} {r : Req} {h i ring mode period deadband : Nat} {sids : List Word}
    (ha : Accepted s r opSigSubscribe false) (hs : SubSound s ring mode period sids) (hh : h ≤ 32)
    (hused : h ≠ 0 → (subOf s h).isSome = true)
    (hplace : (if h = 0 then s.rt.subs.findIdx? Option.isNone else some (h - 1)) = some i) (hi : i < s.rt.subs.length)
    (hload : subLoad (setAt s.rt.subs i (some (newSub s r ring mode period deadband sids))) ≤ 500000) :
    ∃ t, exec (.sigSubscribe r h ring mode period deadband sids) s = .next t ∧
      subOf t (i + 1) = some (newSub s r ring mode period deadband sids) ∧ t.regs = s.regs := by
  have hreads := (sidsStatus_unhand s r sids).trans hs.reads
  refine ⟨_, execSigSubscribe_eq ha, ?_⟩
  obtain ⟨x, e⟩ := unhand_handed s r
  rw [e] at hreads ⊢
  rw [subscribeAns_takes { hs with reads := hreads } hh hused hplace hload]
  exact ⟨(AnswersOnly.subOf (answered_only r opSigSubscribe (_, _)) (i + 1)).trans (subOf_putSub_same _ _ (Nat.succ_ne_zero i) hi),
    answered_ok_regs rfl⟩

theorem execSigSubscribe_first (s : State) (r : Req) (ring mode period deadband i : Nat) (sids : List Word)
    (ha : Accepted s r opSigSubscribe false) (hring : streamRing ring = true) (hm1 : 1 ≤ mode) (hm2 : mode ≤ 2) (hp1 : 1 ≤ period)
    (hp2 : period ≤ 1000000) (hl1 : 1 ≤ sids.length) (hl2 : sids.length ≤ 32) (hreads : sidsStatus s sids = stOk)
    (hfree : s.rt.subs.findIdx? Option.isNone = some i) (_hi : i < 32)
    (hload : subLoad (setAt s.rt.subs i (some ⟨ring, mode, period, deadband, sids, [], s.clk.us + 10 * period, 0, r.entry, r.fwd⟩)) ≤ 500000) :
    ∃ t, exec (.sigSubscribe r 0 ring mode period deadband sids) s = .next t ∧
      subOf t (i + 1) = some ⟨ring, mode, period, deadband, sids, [], s.clk.us + 10 * period, 0, r.entry, r.fwd⟩ ∧ t.regs = s.regs :=
  have hlt : i < s.rt.subs.length := (List.findIdx?_eq_some_iff_findIdx_eq.mp hfree).1
  execSigSubscribe_takes ha ⟨hring, hm1, hm2, hp1, hp2, hl1, hl2, hreads⟩ (Nat.zero_le 32) (fun h => absurd rfl h) hfree hlt hload

theorem execSigSubscribe_replaces (s : State) (r : Req) (ring mode period deadband h : Nat) (sids : List Word)
    (ha : Accepted s r opSigSubscribe false) (hring : streamRing ring = true) (hm1 : 1 ≤ mode) (hm2 : mode ≤ 2) (hp1 : 1 ≤ period)
    (hp2 : period ≤ 1000000) (hl1 : 1 ≤ sids.length) (hl2 : sids.length ≤ 32) (hreads : sidsStatus s sids = stOk) (hh : h ≤ 32)
    (_hlen : s.rt.subs.length = 32) (hused : (subOf s h).isSome = true)
    (hload : subLoad (setAt s.rt.subs (h - 1) (some ⟨ring, mode, period, deadband, sids, [], s.clk.us + 10 * period, 0, r.entry, r.fwd⟩)) ≤
      500000) :
    ∃ t, exec (.sigSubscribe r h ring mode period deadband sids) s = .next t ∧
      subOf t h = some ⟨ring, mode, period, deadband, sids, [], s.clk.us + 10 * period, 0, r.entry, r.fwd⟩ ∧ t.regs = s.regs := by
  obtain ⟨u, hu⟩ := Option.isSome_iff_exists.mp hused
  obtain ⟨h0, hlt⟩ := subOf_some hu
  have ht := execSigSubscribe_takes ha ⟨hring, hm1, hm2, hp1, hp2, hl1, hl2, hreads⟩ hh (fun _ => hused) (if_neg h0) hlt hload
  rwa [Nat.sub_add_cancel (Nat.one_le_iff_ne_zero.mpr h0)] at ht

theorem execSigSubscribe_ends (s : State) (r : Req) (ring period deadband h : Nat) (ha : Accepted s r opSigSubscribe false) (hh : h ≤ 32)
    (hused : (subOf s h).isSome = true) :
    ∃ t, exec (.sigSubscribe r h ring 0 period deadband []) s = .next t ∧ subOf t h = none ∧ t.regs = s.regs := by
  refine ⟨_, execSigSubscribe_eq ha, ?_⟩
  obtain ⟨x, e⟩ := unhand_handed s r
  rw [e]
  have hused' : (subOf { s with rt := { s.rt with handed := x } } h).isSome = true := hused
  have hans : subscribeAns { s with rt := { s.rt with handed := x } } r h ring 0 period deadband [] =
      (putSub { s with rt := { s.rt with handed := x } } h none, ansOk (zeros 4)) := by
    unfold subscribeAns
    dsimp only
    rw [if_neg (by simp [hused', hh]), if_pos rfl, if_pos (by simp [hused'])]
  rw [hans]
  exact ⟨(AnswersOnly.subOf (answered_only r opSigSubscribe (_, _)) h).trans (subOf_putSub_none _ h), answered_ok_regs rfl⟩

/-! ### SIG_LIMIT (R152, R170, R173) -/

theorem execSigLimit_eq {s : State} {r : Req} {slot ring qual : Nat} {enable : Bool} {sid low high hyst : Word}
    (ha : Accepted s r opSigLimit false) : exec (.sigLimit r slot enable ring sid low high hyst qual) s =
      .next (answered r opSigLimit (limitAns (unhand s r) r slot (if enable then 1 else 0) ring sid low high hyst qual)) := by
  show execSigLimit r slot enable ring sid low high hyst qual s = _
  rw [execSigLimit, if_pos ha.serves, devCmd_eq ha]

theorem execSigLimit_sets (s : State) (r : Req) (slot ring qual : Nat) (sid low high hyst : Word) (key : Nat) (row : SigRow)
    (ha : Accepted s r opSigLimit false) (hslot : slot < 64) (hlen : s.rt.lims.length = 64) (hring : ring = 0 ∨ streamRing ring = true)
    (hq1 : 1 ≤ qual) (hq2 : qual ≤ 10000) (hrow : sidRow s false sid = some (key, row)) (hshown : fuseHidden s key = false)
    (hty : row.ty ≠ .bits32) (hacc : row.acc ≠ .wo) (hlow : slotCoded row.ty low = true) (hhigh : slotCoded row.ty high = true) :
    ∃ t, exec (.sigLimit r slot true ring sid low high hyst qual) s = .next t ∧
      t.rt.lims.getD slot none = some ⟨ring, sid, low, high, hyst, qual, 0, false, 0, r.entry, r.fwd⟩ ∧ t.regs = s.regs := by
  refine ⟨_, execSigLimit_eq ha, ?_⟩
  obtain ⟨x, e⟩ := unhand_handed s r
  rw [e]
  have hrow' : sidRow { s with rt := { s.rt with handed := x } } false sid = some (key, row) := hrow
  have hfields : ¬((ring ≠ 0 ∧ streamRing ring = false) ∨ qual = 0 ∨ 10000 < qual) := by
    rintro (⟨h0, hr⟩ | hq | hq)
    · rcases hring with hr0 | hr1
      · exact h0 hr0
      · rw [hr1] at hr
        cases hr
    all_goals omega
  have hans : limitAns { s with rt := { s.rt with handed := x } } r slot (if true then 1 else 0) ring sid low high hyst qual =
      (putLim { s with rt := { s.rt with handed := x } } slot (some ⟨ring, sid, low, high, hyst, qual, 0, false, 0, r.entry, r.fwd⟩),
        ansOk (leBytes 1 slot ++ zeros 3)) := by
    unfold limitAns
    rw [if_neg (by simp [hslot]), if_neg (by simp), if_neg hfields, hrow']
    dsimp only
    rw [fuseHidden_handed, hshown, if_neg (by decide), if_neg (by simp [hty, hacc, hlow, hhigh])]
  rw [hans]
  exact ⟨(congrArg (fun l => l.getD slot none) (AnswersOnly.lims (answered_only r opSigLimit (_, _)))).trans
    (getD_setAt_same s.rt.lims _ none (hlen ▸ hslot)), answered_ok_regs rfl⟩

theorem execSigLimit_clears (s : State) (r : Req) (slot ring qual : Nat) (sid low high hyst : Word) (ha : Accepted s r opSigLimit false)
    (hslot : slot < 64) :
    ∃ t, exec (.sigLimit r slot false ring sid low high hyst qual) s = .next t ∧ t.rt.lims.getD slot none = none ∧ t.regs = s.regs := by
  refine ⟨_, execSigLimit_eq ha, ?_⟩
  obtain ⟨x, e⟩ := unhand_handed s r
  rw [e]
  have hans (u : State) : limitAns u r slot (if false then 1 else 0) ring sid low high hyst qual =
      (putLim u slot none, ansOk (leBytes 1 slot ++ zeros 3)) := by
    unfold limitAns
    rw [if_neg (by simp [hslot]), if_pos (by simp)]
  rw [hans]
  exact ⟨(congrArg (fun l => l.getD slot none) (AnswersOnly.lims (answered_only r opSigLimit (_, _)))).trans
    (getD_setAt_default s.rt.lims slot none), answered_ok_regs rfl⟩

/-! ### SUBSCRIPTION_PERIOD (R154, R167) -/

theorem sendStream_subs (s : State) (ring entry : Nat) (fwd : Bool) (bs : List Byte) : (sendStream s ring entry fwd bs).rt = s.rt := by
  unfold sendStream streamBytes
  split
  · rfl
  · split <;> rfl

/-- The check of a subscription makes it due again one period later; one that sends captures the values in force and numbers its frame. -/
theorem subCheck_after {s : State} {h : Nat} {u : Sub} (h0 : h ≠ 0) (hlt : h - 1 < s.rt.subs.length) :
    ∃ v, subOf (subCheck s h u) h = some v ∧ v.due = u.due + 10 * u.period ∧ v.sids = u.sids ∧
      (subSends u (u.sids.map (sidValue s)) = true → v.seq = u.seq + 1 ∧ v.lastVals = u.sids.map (sidValue s)) := by
  unfold subCheck
  dsimp only
  split
  case isTrue =>
    exact ⟨_, subOf_putSub_same _ _ h0 (by rw [sendStream_subs]; exact hlt), rfl, rfl, fun _ => ⟨rfl, rfl⟩⟩
  case isFalse hs => exact ⟨_, subOf_putSub_same _ _ h0 hlt, rfl, rfl, fun hsends => absurd hsends hs⟩

theorem execSubscriptionPeriod_advances (s : State) (h : Nat) (u : Sub) (hu : subOf s h = some u) (hp : linkPowered s = true)
    (hh : s.dbg.haltMp = false) :
    ∃ t v, exec (.subscriptionPeriod h) s = .next t ∧ subOf t h = some v ∧ v.due = u.due + 10 * u.period ∧ v.sids = u.sids ∧
      (u.mode = 1 → v.seq = u.seq + 1 ∧ v.lastVals = u.sids.map (sidValue (toUs s u.due))) := by
  obtain ⟨h0, hlt⟩ := subOf_some hu
  obtain ⟨clk, pwm, e⟩ := toUs_rest s u.due
  have hlt' : h - 1 < (toUs s u.due).rt.subs.length := by rw [e]; exact hlt
  obtain ⟨v, hv, hdue, hsids, hsends⟩ := subCheck_after (u := u) h0 hlt'
  have he : exec (.subscriptionPeriod h) s = .next (subCheck (toUs s u.due) h u) := by
    show execSubscriptionPeriod h s = _
    rw [execSubscriptionPeriod, hu]
    exact if_pos (by simp [hp, hh])
  exact ⟨_, v, he, hv, hdue, hsids, fun hm => hsends (by simp [subSends, hm])⟩

/-- Settles O21: the handles of SIG_SUBSCRIBE, the slots of SIG_LIMIT, and the end of a period. -/
theorem subscriptionsAndLimitsAreKept : Obligations.SubscriptionsAndLimitsAreKept :=
  ⟨execSigSubscribe_first, execSigSubscribe_replaces, execSigSubscribe_ends, execSigLimit_sets, execSigLimit_clears,
    execSubscriptionPeriod_advances⟩

end Sys2Proof.Machine
end

section
/-! O22: SET_GAINS, GROUP_SET and MODE_SET. -/

namespace Sys2Proof.Machine

/-! ### SET_GAINS (R156, R301, R302) -/

theorem execSetGains_eq {s : State} {r : Req} {n : Axis} {loop : Nat} {kp ki : Word} (ha : Accepted s r opSetGains false)
    (hn : r.axisSel = n.val) :
    exec (.setGains r loop kp ki) s = .next (answered r opSetGains (gainsAns (unhand s r) n loop kp ki)) := by
  show execSetGains r loop kp ki s = _
  rw [execSetGains, if_pos ha.serves, axCmd_eq ha hn]

/-- What SET_GAINS answers for one axis: it writes both gains, or it refuses and leaves the state as it is. -/
theorem gainsAns_cases (s : State) (n : Axis) (loop : Nat) (kp ki : Word) :
    gainsAns s n loop kp ki = (s, ansSt stRange) ∨
      (gainClosed s n (0x210 + 2 * loop) = true ∧ gainsAns s n loop kp ki = (s, ansSt stLoopClosed)) ∨
      (gainClosed s n (0x210 + 2 * loop) = false ∧ gainsAns s n loop kp ki =
        (setR (setR s (Sig.LP_KP_D n.val + 2 * loop) kp) (Sig.LP_KP_D n.val + 2 * loop + 1) ki, ansOk [])) := by
  unfold gainsAns
  dsimp only
  split
  · exact .inl rfl
  · split
    · exact .inl rfl
    · split
      · exact .inr (.inl ⟨by assumption, rfl⟩)
      · exact .inr (.inr ⟨Bool.eq_false_iff.mpr (by assumption), rfl⟩)

theorem execSetGains_writes (s : State) (r : Req) (n : Axis) (loop : Fin 4) (kp ki : Word) (ha : Accepted s r opSetGains false)
    (hn : r.axisSel = n.val) (hok : (gainsAns (unhand s r) n loop.val kp ki).2.status = stOk) :
    ∃ t, exec (.setGains r loop.val kp ki) s = .next t ∧ rg t (Sig.LP_KP_D n.val + 2 * loop.val) = kp ∧
      rg t (Sig.LP_KP_D n.val + 2 * loop.val + 1) = ki ∧
      ∀ k, k ≠ Sig.LP_KP_D n.val + 2 * loop.val → k ≠ Sig.LP_KP_D n.val + 2 * loop.val + 1 → k ∉ ledgerKeys → rg t k = rg s k := by
  rcases gainsAns_cases (unhand s r) n loop.val kp ki with h | ⟨-, h⟩ | ⟨-, h⟩
  · rw [h] at hok
    cases hok
  · rw [h] at hok
    cases hok
  · have hregs := rg_of_regs (answered_ok_regs (r := r) (op := opSetGains) hok)
    rw [h] at hregs
    refine ⟨_, execSetGains_eq ha hn, ?_⟩
    rw [h]
    refine ⟨(hregs _).trans ?_, (hregs _).trans (rg_setR_same _ _ _), fun k hp hi hk => (hregs k).trans ?_⟩
    · exact (rg_setR_ne _ _ (Nat.ne_of_lt (Nat.lt_succ_self _))).trans (rg_setR_same _ _ _)
    · exact (rg_setR_ne _ _ hi).trans ((rg_setR_ne _ _ hp).trans ((unhand_quiet s r).keys k hk))

theorem loopClosed_fails : Fails stLoopClosed := ⟨by decide, by decide, by decide⟩

theorem gainClosed_unhand (s : State) (r : Req) (n : Axis) (i : Nat) : gainClosed (unhand s r) n i = gainClosed s n i := by
  obtain ⟨x, e⟩ := unhand_handed s r
  rw [e]
  rfl

theorem execSetGains_refuses (s : State) (r : Req) (n : Axis) (loop : Fin 4) (kp ki : Word) (ha : Accepted s r opSetGains false)
    (hn : r.axisSel = n.val) (hclosed : gainClosed s n (0x210 + 2 * loop.val) = true)
    (hrange : (gainsAns (unhand s r) n loop.val kp ki).2.status ≠ stRange) :
    ∃ t, exec (.setGains r loop.val kp ki) s = .next t ∧ Quiet s t ∧
      rg t Sig.LAST_FAIL = BitVec.ofNat 32 (r.tag * 65536 + opSetGains * 256 + stLoopClosed) := by
  refine ⟨_, execSetGains_eq ha hn, ?_⟩
  rcases gainsAns_cases (unhand s r) n loop.val kp ki with h | ⟨-, h⟩ | ⟨hopen, -⟩
  · exact absurd (by rw [h]; rfl) hrange
  · rw [h]
    exact ⟨(unhand_quiet s r).trans (answered_quiet r opSetGains (_, _)), (answered_fails rfl loopClosed_fails).1⟩
  · rw [gainClosed_unhand, hclosed] at hopen
    cases hopen

/-! ### GROUP_SET (R156) -/

theorem execGroupSet_writes (s : State) (r : Req) (group : Fin 4) (mask : Nat) (ha : Accepted s r opGroupSet false) (hm : mask < 256) :
    ∃ t, exec (.groupSet r group.val mask) s = .next t ∧ rgN t (Sig.GROUP group.val) = mask ∧
      ∀ k, k ≠ Sig.GROUP group.val → k ∉ ledgerKeys → rg t k = rg s k := by
  have hans (u : State) : groupAns u group.val mask = (setN u (Sig.GROUP group.val) mask, ansOk []) :=
    if_neg (by omega)
  have he : exec (.groupSet r group.val mask) s =
      .next (answered r opGroupSet (setN (unhand s r) (Sig.GROUP group.val) mask, ansOk [])) := by
    show execGroupSet r group.val mask s = _
    rw [execGroupSet, if_pos ha.serves, devCmd_eq ha, hans]
  have hregs := rg_of_regs (answered_ok_regs (r := r) (op := opGroupSet) (x := (setN (unhand s r) (Sig.GROUP group.val) mask, ansOk [])) rfl)
  refine ⟨_, he, ?_, fun k hk hl => (hregs k).trans ((rg_setN_ne _ _ hk).trans ((unhand_quiet s r).keys k hl))⟩
  exact (congrArg BitVec.toNat (hregs _)).trans (rgN_setN _ _ _ (by omega))

/-! ### MODE_SET (R307, R494 to R496) -/

/-- What a change of passes of an axis without tasks keeps: the drive mode, the axis states, and the passes that are as the mode gives them. -/
structure PassesSettled (mode mask : Nat) (s t : State) : Prop where
  bisc : t.bisc = s.bisc
  ax : t.ax = s.ax
  settled : ∀ m : Axis, (s.loop[m]).passes = modePasses mode mask m → (t.loop[m]).passes = modePasses mode mask m

theorem PassesSettled.refl (mode mask : Nat) (s : State) : PassesSettled mode mask s s := ⟨rfl, rfl, fun _ => id⟩

theorem PassesSettled.trans {mode mask : Nat} {s t u : State} (h : PassesSettled mode mask s t) (g : PassesSettled mode mask t u) :
    PassesSettled mode mask s u :=
  ⟨g.bisc.trans h.bisc, g.ax.trans h.ax, fun m hm => g.settled m (h.settled m hm)⟩

theorem setPasses_passes (s : State) (n : Axis) (p : Nat) : ((setPasses s n p).loop[n]).passes = p := by
  unfold setPasses
  rw [setN_loop, modLoop, modV_same]

theorem setPasses_loop_ne (s : State) {n m : Axis} (p : Nat) (h : n ≠ m) : (setPasses s n p).loop[m] = s.loop[m] := by
  unfold setPasses
  rw [setN_loop, modLoop, modV_ne _ _ h]

/-- An axis that runs no tasks changes its passes at once (R307). -/
theorem passChange_settles (s : State) (mode mask : Nat) (n : Axis) (hidle : (axSt s n).runsTasks = false) :
    PassesSettled mode mask s (passChange s mode mask n) ∧ ((passChange s mode mask n).loop[n]).passes = modePasses mode mask n := by
  unfold passChange
  dsimp only
  rw [hidle, if_neg (by decide)]
  split
  case isTrue h => exact ⟨PassesSettled.refl mode mask s, h⟩
  case isFalse =>
    refine ⟨⟨rfl, rfl, fun m hm => ?_⟩, setPasses_passes s n _⟩
    by_cases h : n = m
    · rw [h]
      exact setPasses_passes s m _
    · rw [setPasses_loop_ne s _ h]
      exact hm

theorem passChanges_settle (mode mask : Nat) (ns : List Axis) (s : State) (hidle : ∀ n, (axSt s n).runsTasks = false) :
    PassesSettled mode mask s (forEach ns s (fun s n => passChange s mode mask n)) ∧
      ∀ n ∈ ns, ((forEach ns s (fun s n => passChange s mode mask n)).loop[n]).passes = modePasses mode mask n := by
  induction ns generalizing s with
  | nil => exact ⟨PassesSettled.refl mode mask s, fun _ hn => absurd hn List.not_mem_nil⟩
  | cons m ms ih =>
    obtain ⟨hkeep, hset⟩ := passChange_settles s mode mask m (hidle m)
    obtain ⟨hrest, hall⟩ := ih (passChange s mode mask m) (fun n => by rw [SameAx.axSt hkeep.ax]; exact hidle n)
    refine ⟨hkeep.trans hrest, fun n hn => ?_⟩
    rcases List.mem_cons.mp hn with rfl | hn
    · exact hrest.settled n hset
    · exact hall n hn

/-- The state of a MODE_SET with the mode in force, before the axes change (R496, R497). -/
def modeInForce (s : State) (mode mask : Nat) : State :=
  let s := if needsPermit s mode mask then setB s Sig.BISC_STAT 9 true else s
  { s with bisc := { s.bisc with mode := mode, mask := mask } }

theorem modeInForce_rest (s : State) (mode mask : Nat) : (modeInForce s mode mask).bisc.mode = mode ∧
    (modeInForce s mode mask).bisc.mask = mask ∧ (modeInForce s mode mask).ax = s.ax := by
  unfold modeInForce
  dsimp only
  split <;> exact ⟨rfl, rfl, rfl⟩

/-- The state of a MODE_SET with the mode in force and the changes of the axes begun (R307). -/
def modeSet (s : State) (mode mask : Nat) : State := forEach allAxes (modeInForce s mode mask) (fun s n => passChange s mode mask n)

/-- A MODE_SET that is not refused is answered at once, or once every axis has changed (R166, R307). -/
theorem modeAns_accepted {s : State} (r : Req) {mode mask : Nat} {permit : Word} (hok : modeStatus s mode mask permit = stOk) :
    modeAns s r mode mask permit = (modeSet s mode mask, ansOk (modePayload (modeSet s mode mask))) ∨
      modeAns s r mode mask permit = (addWait (latch (modeSet s mode mask) r) ⟨r, opModeSet, none, 0, 0⟩, ansLater) := by
  have h : modeAns s r mode mask permit = if allAxes.all (fun n => ((modeSet s mode mask).loop[n]).passPend.isNone) then
      (modeSet s mode mask, ansOk (modePayload (modeSet s mode mask)))
      else (addWait (latch (modeSet s mode mask) r) ⟨r, opModeSet, none, 0, 0⟩, ansLater) := by
    unfold modeAns modeSet modeInForce
    exact if_neg (not_not_intro hok)
  rw [h]
  split
  · exact .inl rfl
  · exact .inr rfl

theorem answered_modeAns {s : State} {r : Req} {mode mask : Nat} {permit : Word} (hok : modeStatus s mode mask permit = stOk) :
    (answered r opModeSet (modeAns s r mode mask permit)).bisc = (modeSet s mode mask).bisc ∧
      (answered r opModeSet (modeAns s r mode mask permit)).loop = (modeSet s mode mask).loop := by
  rcases modeAns_accepted r hok with h | h
  · rw [h]
    generalize modeSet s mode mask = u
    have hlast := answered_only r opModeSet (u, ansOk (modePayload u))
    exact ⟨(congrArg State.bisc hlast :), (congrArg State.loop hlast :)⟩
  · rw [h]
    generalize modeSet s mode mask = u
    have hlast := answered_only r opModeSet (addWait (latch u r) ⟨r, opModeSet, none, 0, 0⟩, ansLater)
    exact ⟨(congrArg State.bisc hlast :), (congrArg State.loop hlast :)⟩

theorem execModeSet_sets (s : State) (r : Req) (mode mask : Nat) (permit : Word) (ha : Accepted s r opModeSet false)
    (hok : modeStatus s mode mask permit = stOk) (hidle : ∀ n, (axSt s n).runsTasks = false)
    (_hnone : ∀ n : Axis, (s.loop[n]).passPend = none) :
    ∃ t, exec (.modeSet r mode mask permit) s = .next t ∧ t.bisc.mode = mode ∧ t.bisc.mask = mask ∧
      ∀ n : Axis, (t.loop[n]).passes = modePasses mode mask n := by
  have he : exec (.modeSet r mode mask permit) s = .next (answered r opModeSet (modeAns (unhand s r) r mode mask permit)) := by
    show execModeSet r mode mask permit s = _
    rw [execModeSet, if_pos ha.serves, devCmd_eq ha]
  obtain ⟨x, e⟩ := unhand_handed s r
  have hok' : modeStatus (unhand s r) mode mask permit = stOk := by rw [e]; exact hok
  obtain ⟨hmode, hmask, hax⟩ := modeInForce_rest (unhand s r) mode mask
  have hidle' (n : Axis) : (axSt (modeInForce (unhand s r) mode mask) n).runsTasks = false := by
    rw [SameAx.axSt hax, e]
    exact hidle n
  obtain ⟨hkeep, hall⟩ := passChanges_settle mode mask allAxes _ hidle'
  obtain ⟨hb, hl⟩ := answered_modeAns (r := r) hok'
  have hbisc := hb.trans hkeep.bisc
  exact ⟨_, he, (congrArg Bisc.mode hbisc).trans hmode, (congrArg Bisc.mask hbisc).trans hmask,
    fun n => (congrArg (fun v => (v[n]).passes) hl).trans (hall n (mem_allAxes n))⟩

/-- Settles O22: the gains of an axis, the mask of a group, and the drive mode with the pass counts. -/
theorem gainsGroupsAndModesAreSet : Obligations.GainsGroupsAndModesAreSet :=
  ⟨execSetGains_writes, execSetGains_refuses, execGroupSet_writes, execModeSet_sets⟩

end Sys2Proof.Machine
end

section
/-! O23, the changes of axis state: AXIS_STATE into DISABLED, into PRECHARGE, among the states with tasks, and refused. -/

namespace Sys2Proof.Machine

/-! ### A change of state leaves bridge and loop alone -/

/-- The axis states, the modules, the loops and the requests to the DS left as they are. -/
structure BridgeStands (s t : State) : Prop where
  ax : t.ax = s.ax
  pwm : t.pwm = s.pwm
  loop : t.loop = s.loop
  sup : t.sup = s.sup

theorem bridgeStands_post : PostFrame BridgeStands where
  refl _ := ⟨rfl, rfl, rfl, rfl⟩
  trans h g := ⟨g.ax.trans h.ax, g.pwm.trans h.pwm, g.loop.trans h.loop, g.sup.trans h.sup⟩
  posts _ _ _ _ _ := ⟨rfl, rfl, rfl, rfl⟩
  ledger _ _ _ _ := ⟨rfl, rfl, rfl, rfl⟩

theorem AnswersOnly.bridge {s t : State} (h : AnswersOnly s t) : BridgeStands s t :=
  have e : withAnswersOf s t = s := h
  ⟨(congrArg State.ax e :), (congrArg State.pwm e :), (congrArg State.loop e :), (congrArg State.sup e :)⟩

theorem discardPlan_bridge (s : State) (n : Axis) : BridgeStands s (discardPlan s n) := ⟨rfl, rfl, rfl, rfl⟩

theorem leavePosition_bridge (s : State) (n : Axis) : BridgeStands s (leavePosition s n) :=
  bridgeStands_post.trans (bridgeStands_post.trans (discardPlan_bridge s n) (endWaits_keeps bridgeStands_post _ _ _))
    (dropDeferred_keeps bridgeStands_post _ _ _)

/-- A change of axis state writes the state, and of bridge, loop and requests nothing (R296). -/
theorem axisTo_change {s : State} {n : Axis} {st : AxState} (h : axSt s n ≠ st) :
    ∃ b : AxBase, b.st = st ∧ b.goal = (s.ax[n]).goal ∧ BridgeStands (modAx s n (fun _ => b)) (axisTo s n st) := by
  unfold axisTo
  dsimp only
  rw [if_neg (show (s.ax[n]).st ≠ st from h)]
  refine ⟨{ s.ax[n] with st := st, held := if st = .hold then (s.ax[n]).st else .disabled, holdByFault := false, serve := false }, rfl, rfl,
    bridgeStands_post.trans ?_ (endWaits_keeps bridgeStands_post _ _ _)⟩
  exact bridgeStands_post.trans (evt_keeps bridgeStands_post _ _)
    (bridgeStands_post.ite (leavePosition_bridge _ n) (bridgeStands_post.refl _))

/-- The axis is in the state that it is taken to, its goal as before, bridge, loop and requests untouched. -/
theorem axisTo_arrives (s : State) (n : Axis) (st : AxState) : axSt (axisTo s n st) n = st ∧
    ((axisTo s n st).ax[n]).goal = (s.ax[n]).goal ∧ (axisTo s n st).pwm = s.pwm ∧ (axisTo s n st).loop = s.loop ∧
    (axisTo s n st).sup = s.sup := by
  by_cases h : axSt s n = st
  · have he : axisTo s n st = s := if_pos h
    rw [he]
    exact ⟨h, rfl, rfl, rfl, rfl⟩
  · obtain ⟨b, hst, hgoal, hb⟩ := axisTo_change h
    have hax : (axisTo s n st).ax[n] = b := by
      rw [hb.ax]
      exact modV_same s.ax n (fun _ => b)
    exact ⟨(congrArg AxBase.st hax).trans hst, (congrArg AxBase.goal hax).trans hgoal, hb.pwm, hb.loop, hb.sup⟩

theorem axSt_unhand (s : State) (r : Req) (n : Axis) : axSt (unhand s r) n = axSt s n := by
  obtain ⟨i, e⟩ := unhand_handed s r
  rw [e]
  rfl

/-! ### AXIS_STATE for one axis (R153, R489) -/

/-- A safety task of the MP whose checkpoint passes, with no debug writes to replay. -/
theorem mpTask_pass {s : State} (f held : State → State) (h : s.bisc.logs.getD 2 0 = 0) : mpTask s Check.pass f held = f s := by
  have hreplay : replayLog s 2 = s := if_pos h
  unfold mpTask
  rw [hreplay]
  rfl

/-- An AXIS_STATE for a state that a request may name is carried out for its axis, in RUN or for DISABLED. -/
theorem execAxisState_eq {s : State} {r : Req} {n : Axis} {x : AxState} (ha : Accepted s r opAxisState (x.code == 0))
    (hn : r.axisSel = n.val) (hlog : s.bisc.logs.getD 2 0 = 0)
    (hx : x = .disabled ∨ x = .opn ∨ x = .torque ∨ x = .speed ∨ x = .position ∨ x = .hold) (hrun : inRun s = true ∨ x = .disabled) :
    exec (.axisState r x.code false Check.pass) s = .next (answered r opAxisState (axisAns (unhand s r) r n x false s.clk.tb)) := by
  have hcode : (if x.code = 1 ∨ 6 < x.code ∨ (false = true ∧ aggregated r opAxisState = true) then none
      else AxState.ofCode x.code) = some x := by
    rcases hx with rfl | rfl | rfl | rfl | rfl | rfl <;> rfl
  have hneeds : needsRun s r x = false := by
    rcases hrun with h | h <;> simp [needsRun, h]
  have hpass : ¬(lateReq s r || commandBar s opAxisState (x.code == 0) != stOk) = true := by simp [ha.intime, ha.unbarred]
  have hstand (u : State) (hu : inRun u = inRun s) : ¬(!inRun u && x != .disabled && axSt u n == .disabled) = true := by
    rcases hrun with h | h <;> simp [hu, h]
  show execAxisState r x.code false Check.pass s = _
  rw [execAxisState, if_pos ha.serves, mpTask_pass _ _ hlog]
  unfold axisStateRun
  rw [hcode]
  dsimp only
  rw [if_neg hpass, hneeds, Bool.false_and, if_neg (by decide), axCmd_eq ha hn]
  obtain ⟨i, e⟩ := unhand_handed s r
  rw [if_neg (hstand (unhand s r) (by rw [e]; rfl))]

theorem stateAns_now (s : State) (r : Req) (n : Axis) (x : AxState) : stateAns s r n x false = (s, ansOk (statePayload s n)) := rfl

/-! ### Into DISABLED (R295, R296) -/

theorem modeDone_bridge (s : State) : BridgeStands s (modeDone s) := modeDone_keeps bridgeStands_post s

theorem setPasses_bankA (s : State) (n m : Axis) (p : Nat) : ((setPasses s n p).loop[m]).bankA = (s.loop[m]).bankA := by
  unfold setPasses
  rw [setN_loop]
  exact modV_view s.loop n _ LoopAx.bankA (by exact fun _ => rfl) m

/-- A pass count that settles leaves the true bank of a loop, the modules, the axis states and the requests alone (R307). -/
theorem passSettle_rest (s : State) (n : Axis) : (∀ m : Axis, ((passSettle s n).loop[m]).bankA = (s.loop[m]).bankA) ∧
    (passSettle s n).pwm = s.pwm := by
  unfold passSettle
  split
  case h_1 x _ =>
    have h := modeDone_bridge (setPasses s n x.1)
    exact ⟨fun m => h.loop ▸ setPasses_bankA s n m x.1, h.pwm⟩
  case h_2 => exact ⟨fun _ => rfl, rfl⟩

/-- An axis with no precharge sequence, its request to the DS withdrawn and its sensorless continuation ended (R241, R403). -/
def requestEnded (s : State) (n : Axis) : State :=
  modObs (setReq (modGd s n GdAx.noPulses) n false) n (fun o => { o with sens := false, est := 0, enter := none })

theorem requestEnded_facts (s : State) (n : Axis) : bitOf (requestEnded s n).sup.req n.val = false ∧ (requestEnded s n).loop = s.loop ∧
    (requestEnded s n).pwm = s.pwm := by
  refine ⟨?_, rfl, rfl⟩
  rw [requestEnded, modObs_sup, setReq_off_bit]
  simp

/-- The axis before it enters DISABLED: gates off, the counter stopped, the loops open, the request withdrawn. -/
def powerDown (s : State) (n : Axis) : State :=
  requestEnded (passSettle (openLoops (modPwm (gatesOff s n) n PwmAx.stop) n) n) n

theorem powerDown_facts (s : State) (n : Axis) : bitOf (powerDown s n).sup.req n.val = false ∧
    ((powerDown s n).loop[n]).bankA = Bank.init ∧ ((powerDown s n).pwm[n]).running = false := by
  obtain ⟨hbank, hpwm⟩ := passSettle_rest (openLoops (modPwm (gatesOff s n) n PwmAx.stop) n) n
  obtain ⟨hreq, hloop, hmod⟩ := requestEnded_facts (passSettle (openLoops (modPwm (gatesOff s n) n PwmAx.stop) n) n) n
  refine ⟨hreq, ?_, ?_⟩
  · rw [powerDown, hloop, hbank n, openLoops, modLoop, modV_same]
  · rw [powerDown, hmod, hpwm, openLoops, modLoop_pwm, modPwm, modV_same]
    rfl

theorem idleLearn_bridge (s : State) (n : Axis) :
    BridgeStands s (if inRun (idleAgain s) then beginLearn (idleAgain s) n else idleAgain s) := by
  split <;> exact ⟨rfl, rfl, rfl, rfl⟩

theorem toDisabled_of_enabled {s : State} {n : Axis} (h : axSt s n ≠ .disabled) :
    BridgeStands (axisTo (powerDown s n) n .disabled) (toDisabled s n) := by
  have he : toDisabled s n = if inRun (idleAgain (axisTo (powerDown s n) n .disabled)) then
      beginLearn (idleAgain (axisTo (powerDown s n) n .disabled)) n else idleAgain (axisTo (powerDown s n) n .disabled) := by
    unfold toDisabled powerDown requestEnded
    exact if_neg h
  rw [he]
  exact idleLearn_bridge _ n

theorem toDisabled_powersDown {s : State} {n : Axis} (h : axSt s n ≠ .disabled) : axSt (toDisabled s n) n = .disabled ∧
    bitOf (toDisabled s n).sup.req n.val = false ∧ ((toDisabled s n).loop[n]).bankA = Bank.init ∧
    ((toDisabled s n).pwm[n]).running = false := by
  have hu := toDisabled_of_enabled h
  obtain ⟨hst, -, hpwm, hloop, hsup⟩ := axisTo_arrives (powerDown s n) n .disabled
  obtain ⟨hreq, hbank, hrun⟩ := powerDown_facts s n
  rw [SameAx.axSt hu.ax, hu.sup, hu.loop, hu.pwm, hpwm, hloop, hsup]
  exact ⟨hst, hreq, hbank, hrun⟩

theorem execAxisState_disables (s : State) (r : Req) (n : Axis) (ha : Accepted s r opAxisState true) (hn : r.axisSel = n.val)
    (hlog : s.bisc.logs.getD 2 0 = 0) :
    ∃ t, exec (.axisState r 0 false Check.pass) s = .next t ∧ axSt t n = .disabled ∧
      (axSt s n ≠ .disabled → bitOf t.sup.req n.val = false ∧ (t.loop[n]).bankA = Bank.init ∧ (t.pwm[n]).running = false) := by
  refine ⟨_, execAxisState_eq (x := .disabled) ha hn hlog (.inl rfl) (.inr rfl), ?_⟩
  have hst := axSt_unhand s r n
  have hlast := (answered_only r opAxisState (axisAns (unhand s r) r n .disabled false s.clk.tb)).bridge
  by_cases hd : axSt (unhand s r) n = .disabled
  · have hans : axisAns (unhand s r) r n .disabled false s.clk.tb = (unhand s r, ansOk (statePayload (unhand s r) n)) := if_pos hd
    refine ⟨?_, fun h => absurd (hst.symm.trans hd) h⟩
    rw [SameAx.axSt hlast.ax, hans]
    exact hd
  · have hans : axisAns (unhand s r) r n .disabled false s.clk.tb =
        (toDisabled (unhand s r) n, ansOk (statePayload (toDisabled (unhand s r) n) n)) := (if_neg hd).trans (if_pos rfl)
    obtain ⟨hoff, hreq, hbank, hrun⟩ := toDisabled_powersDown hd
    rw [SameAx.axSt hlast.ax, hlast.sup, hlast.loop, hlast.pwm, hans]
    exact ⟨hoff, fun _ => ⟨hreq, hbank, hrun⟩⟩

/-! ### Out of DISABLED (R241, R295) -/

/-- An axis that enters PRECHARGE: towards the state asked for, its counter starting at the next valley (R180, R241). -/
theorem enterPrecharge_facts (s : State) (n : Axis) (x : AxState) : axSt (enterPrecharge s n x) n = .precharge ∧
    ((enterPrecharge s n x).ax[n]).goal = x ∧ ((enterPrecharge s n x).pwm[n]).startPend = true := by
  unfold enterPrecharge
  dsimp only
  obtain ⟨hst, hgoal, hpwm, -, -⟩ := axisTo_arrives (modAx _ n (fun b => { b with goal := x })) n .precharge
  refine ⟨hst, hgoal.trans ?_, ?_⟩
  · rw [modAx, modV_same]
  · rw [hpwm]
    simp only [modAx_pwm, modLoop_pwm, modOfs_pwm, modPwm, modV_same]

/-- A request that the DS grants takes the axis into PRECHARGE (R241). -/
theorem enableAxis_enters {s : State} {n : Axis} {x : AxState} {t0 : Nat} (h : (enableAxis s n x t0).2 = true) :
    ∃ u, (enableAxis s n x t0).1 = enterPrecharge u n x := by
  unfold enableAxis at h ⊢
  split
  case isTrue hm => simp [hm] at h
  case isFalse hm =>
    rw [if_neg hm] at h
    split
    case isTrue hg => simp [hg] at h
    case isFalse hg =>
      rw [if_neg hg] at h
      dsimp only at h ⊢
      split
      case isTrue => exact ⟨_, rfl⟩
      case isFalse hgrant => simp [hgrant] at h

/-- A request for a state with tasks out of DISABLED is a request to the DS (R241, R295). -/
theorem axisAns_of_disabled {s : State} {r : Req} {n : Axis} {x : AxState} (t0 : Nat) (hd : axSt s n = .disabled)
    (hx : x = .opn ∨ x = .torque ∨ x = .speed ∨ x = .position) :
    axisAns s r n x false t0 = if s.emq.noLead then (s, ansSt stNoLead)
      else if (enableAxis s n x t0).2 then stateAns (enableAxis s n x t0).1 r n x false
      else ((enableAxis s n x t0).1, ansNotInState (enableAxis s n x t0).1 n) := by
  unfold axisAns
  rw [hd]
  rcases hx with rfl | rfl | rfl | rfl <;> rfl

theorem code_ne_zero {x : AxState} (h : x ≠ .disabled) : (x.code == 0) = false := by
  cases x
  case disabled => exact absurd rfl h
  all_goals rfl

theorem execAxisState_precharges (s : State) (r : Req) (n : Axis) (x : AxState) (ha : Accepted s r opAxisState false)
    (hn : r.axisSel = n.val) (hlog : s.bisc.logs.getD 2 0 = 0) (hrun : inRun s = true) (hd : axSt s n = .disabled)
    (hx : x = .opn ∨ x = .torque ∨ x = .speed ∨ x = .position) (hlead : s.emq.noLead = false)
    (hgrant : (enableAxis (unhand s r) n x s.clk.tb).2 = true) :
    ∃ t, exec (.axisState r x.code false Check.pass) s = .next t ∧ axSt t n = .precharge ∧ (t.ax[n]).goal = x ∧
      (t.pwm[n]).startPend = true := by
  have hcode : (x.code == 0) = false := code_ne_zero (by rcases hx with rfl | rfl | rfl | rfl <;> decide)
  refine ⟨_, execAxisState_eq (hcode ▸ ha) hn hlog (.inr (hx.imp_right (Or.imp_right (Or.imp_right .inl)))) (.inl hrun), ?_⟩
  have hd' : axSt (unhand s r) n = .disabled ∧ (unhand s r).emq.noLead = false := by
    obtain ⟨i, e⟩ := unhand_handed s r
    rw [e]
    exact ⟨hd, hlead⟩
  obtain ⟨u, hu⟩ := enableAxis_enters hgrant
  have hlast := (answered_only r opAxisState (axisAns (unhand s r) r n x false s.clk.tb)).bridge
  rw [axisAns_of_disabled _ hd'.1 hx, hd'.2, if_neg (by decide), hgrant, if_pos rfl, stateAns_now, hu] at hlast ⊢
  rw [SameAx.axSt hlast.ax, hlast.ax, hlast.pwm]
  exact enterPrecharge_facts u n x

theorem execAxisState_stays (s : State) (r : Req) (n : Axis) (ha : Accepted s r opAxisState false) (hn : r.axisSel = n.val)
    (hlog : s.bisc.logs.getD 2 0 = 0) (hrun : inRun s = true) (hd : axSt s n = .disabled) (hno : mayEnable s n .torque = false) :
    ∃ t, exec (.axisState r 3 false Check.pass) s = .next t ∧ Quiet s t ∧ axSt t n = .disabled := by
  refine ⟨_, execAxisState_eq (x := .torque) ha hn hlog (by simp) (.inl hrun), ?_⟩
  have hd' : axSt (unhand s r) n = .disabled ∧ mayEnable (unhand s r) n .torque = false := by
    obtain ⟨i, e⟩ := unhand_handed s r
    rw [e]
    exact ⟨hd, hno⟩
  have hask : enableAxis (unhand s r) n .torque s.clk.tb = (unhand s r, false) := if_pos (by rw [hd'.2]; rfl)
  have hsame : (axisAns (unhand s r) r n .torque false s.clk.tb).1 = unhand s r := by
    rw [axisAns_of_disabled _ hd'.1 (by simp), hask]
    split <;> rfl
  have hquiet := answered_quiet r opAxisState (axisAns (unhand s r) r n .torque false s.clk.tb)
  have hlast := (answered_only r opAxisState (axisAns (unhand s r) r n .torque false s.clk.tb)).bridge
  rw [hsame] at hquiet hlast
  exact ⟨(unhand_quiet s r).trans hquiet, (SameAx.axSt hlast.ax n).trans hd'.1⟩

/-! ### Among the states with tasks (R296) -/

theorem pendState_pend (s : State) (n : Axis) (x : AxState) : ((pendState s n x).loop[n]).pend = some (x, s.clk.tb) := by
  rw [pendState, modLoop, modV_same]

theorem axisAns_of_enabled {s : State} {r : Req} {n : Axis} {x : AxState} (t0 : Nat)
    (hcur : axSt s n = .opn ∨ axSt s n = .torque ∨ axSt s n = .speed ∨ axSt s n = .position) (hne : axSt s n ≠ x) (hx : x ≠ .disabled)
    (hclose : closeRefused s n x = false) :
    axisAns s r n x false t0 = (pendState s n x, ansOk (statePayload (pendState s n x) n)) := by
  have hgo : (if closeRefused s n x = true then (s, ansNotInState s n) else stateAns (pendState s n x) r n x false) =
      (pendState s n x, ansOk (statePayload (pendState s n x) n)) := if_neg (by simp [hclose])
  unfold axisAns
  dsimp only
  rw [if_neg hne, if_neg hx]
  rcases hcur with h | h | h | h <;> rw [h] <;> exact hgo

theorem execAxisState_pends (s : State) (r : Req) (n : Axis) (x : AxState) (ha : Accepted s r opAxisState false) (hn : r.axisSel = n.val)
    (hlog : s.bisc.logs.getD 2 0 = 0) (hrun : inRun s = true)
    (hcur : axSt s n = .opn ∨ axSt s n = .torque ∨ axSt s n = .speed ∨ axSt s n = .position)
    (hx : x = .opn ∨ x = .torque ∨ x = .speed ∨ x = .position ∨ x = .hold) (hne : axSt s n ≠ x) (hclose : closeRefused s n x = false) :
    ∃ t, exec (.axisState r x.code false Check.pass) s = .next t ∧ (t.loop[n]).pend = some (x, s.clk.tb) ∧ axSt t n = axSt s n := by
  have hdis : x ≠ .disabled := by rcases hx with rfl | rfl | rfl | rfl | rfl <;> decide
  refine ⟨_, execAxisState_eq ((code_ne_zero hdis).symm ▸ ha) hn hlog (.inr hx) (.inl hrun), ?_⟩
  have hlast := (answered_only r opAxisState (axisAns (unhand s r) r n x false s.clk.tb)).bridge
  have hst := axSt_unhand s r n
  have hclose' : closeRefused (unhand s r) n x = false := by
    obtain ⟨i, e⟩ := unhand_handed s r
    rw [e]
    exact hclose
  rw [axisAns_of_enabled _ (hst ▸ hcur) (hst ▸ hne) hdis hclose'] at hlast ⊢
  rw [hlast.loop, SameAx.axSt hlast.ax]
  exact ⟨(pendState_pend (unhand s r) n x).trans (by rw [(unhand_quiet s r).tb]), hst⟩

end Sys2Proof.Machine
end

section
/-! O23, motion: STOP, MOVE, and the obligation. -/

namespace Sys2Proof.Machine

/-! ### Triggers of Caramel -/

/-- A trigger of a replan changes Caramel's block, and of the runtime only for what the waits wait (R319 to R321, R325). -/
theorem carTrigger_rest (s : State) (n : Axis) : ∃ (f : Wait → Wait) (car : Vector CarAx 8), (∀ w, (f w).req = w.req) ∧
    carTrigger s n = { s with rt := { s.rt with waits := s.rt.waits.map f }, car := car } := by
  have hid (u : State) (car : Vector CarAx 8) : ∃ (f : Wait → Wait) (c : Vector CarAx 8), (∀ w, (f w).req = w.req) ∧
      { u with car := car } = { u with rt := { u.rt with waits := u.rt.waits.map f }, car := c } :=
    ⟨id, car, fun _ => rfl, by rw [List.map_id]⟩
  have htakes (u : State) : ∃ (f : Wait → Wait) (car : Vector CarAx 8), (∀ w, (f w).req = w.req) ∧
      replanTakes u n = { u with rt := { u.rt with waits := u.rt.waits.map f }, car := car } := by
    unfold replanTakes
    split
    · refine ⟨_, _, fun w => ?_, rfl⟩
      split
      · split
        · rfl
        · split <;> rfl
      · rfl
    · exact hid u _
  unfold carTrigger
  split
  · exact htakes (modCar s n _)
  · split
    · exact htakes s
    · exact hid s _

theorem carTrigger_ax (s : State) (n : Axis) : (carTrigger s n).ax = s.ax := by
  obtain ⟨f, car, -, e⟩ := carTrigger_rest s n
  rw [e]

theorem carTrigger_hcAx (s : State) (n : Axis) : (carTrigger s n).hcAx = s.hcAx := (carTrigger_sameGrants s n).hcAx

/-- What a new MOVE or STOP ends on its axis is answered, and no more (R156). -/
theorem endOldMotion_keeps {R : State → State → Prop} (h : PostFrame R) (s : State) (n : Axis) : R s (endOldMotion s n) :=
  h.trans (endWaits_keeps h s _ _) (dropDeferred_keeps h _ _ _)

theorem axSt_endOldMotion (s : State) (n m : Axis) : axSt (endOldMotion s n) m = axSt s m :=
  SameAx.axSt (endOldMotion_keeps sameAx_frame.toPostFrame s n) m

/-! ### STOP (R156, R300) -/

theorem execStop_eq {s : State} {r : Req} {n : Axis} {kind : Nat} (ha : Accepted s r opStop false) (hn : r.axisSel = n.val) :
    exec (.stop r kind false) s = .next (answered r opStop (stopAns (unhand s r) r n kind false)) := by
  show execStop r kind false s = _
  rw [execStop, if_pos ha.serves, axCmd_eq ha hn]

/-- A STOP of a known KIND that is not to wait does what the state of its axis asks for. -/
theorem stopAns_known {r : Req} {kind : Fin 2} : ¬(1 < kind.val ∨ (false = true ∧ aggregated r opStop = true)) := by
  have := kind.isLt
  simp
  omega

theorem stopRef_now (s : State) (r : Req) (n : Axis) (there : Bool) (us : Nat) :
    ∃ p, stopRef s r n false there us = (s, ansOk p) := by
  unfold stopRef
  split
  · exact ⟨_, rfl⟩
  · exact ⟨_, if_neg (by decide)⟩

/-- A reference of an axis written 0. -/
theorem setI_zero (s : State) (k : Nat) : rg (setI s k 0) k = 0 := rg_setR_same s k _

theorem stopAns_opn {s : State} {r : Req} {n : Axis} (kind : Fin 2) (h : axSt s n = .opn) : stopAns s r n kind.val false =
    (setI (setI (endOldMotion s n) (Sig.LP_VD_OL n.val) 0) (Sig.LP_VQ_OL n.val) 0, ansOk (movePayload 0 0)) := by
  unfold stopAns
  rw [if_neg stopAns_known, h]

theorem execStop_opn (s : State) (r : Req) (n : Axis) (kind : Fin 2) (ha : Accepted s r opStop false) (hn : r.axisSel = n.val)
    (h : axSt s n = .opn) :
    ∃ t, exec (.stop r kind.val false) s = .next t ∧ rg t (Sig.LP_VD_OL n.val) = 0 ∧ rg t (Sig.LP_VQ_OL n.val) = 0 ∧
      axSt t n = .opn := by
  refine ⟨_, execStop_eq ha hn, ?_⟩
  rw [stopAns_opn kind ((axSt_unhand s r n).trans h)]
  generalize hu : endOldMotion (unhand s r) n = u
  have hst : axSt u n = .opn := by rw [← hu, axSt_endOldMotion, axSt_unhand, h]
  have hregs := rg_of_regs (answered_ok_regs (r := r) (op := opStop)
    (x := (setI (setI u (Sig.LP_VD_OL n.val) 0) (Sig.LP_VQ_OL n.val) 0, ansOk (movePayload 0 0))) rfl)
  have hne : Sig.LP_VD_OL n.val ≠ Sig.LP_VQ_OL n.val := by simp [Sig.LP_VD_OL, Sig.LP_VQ_OL]
  exact ⟨(hregs _).trans ((rg_setR_ne _ _ hne).trans (setI_zero _ _)), (hregs _).trans (setI_zero _ _),
    ((answered_only r opStop (_, _)).axSt n).trans hst⟩

theorem stopAns_torque {s : State} {r : Req} {n : Axis} (kind : Fin 2) (h : axSt s n = .torque) :
    ∃ p, stopAns s r n kind.val false = (setI (endOldMotion s n) (Sig.LP_IQ_REF n.val) 0, ansOk p) := by
  unfold stopAns
  rw [if_neg stopAns_known, h]
  exact stopRef_now _ r n _ _

theorem execStop_torque (s : State) (r : Req) (n : Axis) (kind : Fin 2) (ha : Accepted s r opStop false) (hn : r.axisSel = n.val)
    (h : axSt s n = .torque) :
    ∃ t, exec (.stop r kind.val false) s = .next t ∧ rg t (Sig.LP_IQ_REF n.val) = 0 ∧ axSt t n = .torque := by
  refine ⟨_, execStop_eq ha hn, ?_⟩
  obtain ⟨p, hans⟩ := stopAns_torque (r := r) kind ((axSt_unhand s r n).trans h)
  rw [hans]
  have hst : axSt (endOldMotion (unhand s r) n) n = .torque := by rw [axSt_endOldMotion, axSt_unhand, h]
  have hregs := rg_of_regs (answered_ok_regs (r := r) (op := opStop)
    (x := (setI (endOldMotion (unhand s r) n) (Sig.LP_IQ_REF n.val) 0, ansOk p)) rfl)
  exact ⟨(hregs _).trans (setI_zero _ _), ((answered_only r opStop (_, _)).axSt n).trans hst⟩

/-- A STOP in SPEED clears the speed reference; the loop ramps at the rate that it keeps (R300). -/
theorem stopAns_speed {s : State} {r : Req} {n : Axis} (kind : Fin 2) (h : axSt s n = .speed) :
    ∃ f p, stopAns s r n kind.val false = (modLoop (setI (endOldMotion s n) (Sig.LP_SPD_REF n.val) 0) n f, ansOk p) := by
  have hloop : loopState (endOldMotion s n) n = .speed := by
    unfold loopState
    rw [axSt_endOldMotion, h]
    rfl
  unfold stopAns
  rw [if_neg stopAns_known, h]
  dsimp only
  rw [if_pos hloop]
  exact ⟨_, stopRef_now _ r n _ _⟩

theorem execStop_speed (s : State) (r : Req) (n : Axis) (kind : Fin 2) (ha : Accepted s r opStop false) (hn : r.axisSel = n.val)
    (h : axSt s n = .speed) :
    ∃ t, exec (.stop r kind.val false) s = .next t ∧ rg t (Sig.LP_SPD_REF n.val) = 0 ∧ axSt t n = .speed := by
  refine ⟨_, execStop_eq ha hn, ?_⟩
  obtain ⟨f, p, hans⟩ := stopAns_speed (r := r) kind ((axSt_unhand s r n).trans h)
  rw [hans]
  have hst : axSt (endOldMotion (unhand s r) n) n = .speed := by rw [axSt_endOldMotion, axSt_unhand, h]
  have hregs := rg_of_regs (answered_ok_regs (r := r) (op := opStop)
    (x := (modLoop (setI (endOldMotion (unhand s r) n) (Sig.LP_SPD_REF n.val) 0) n f, ansOk p)) rfl)
  exact ⟨(hregs _).trans (setI_zero _ _), ((answered_only r opStop (_, _)).axSt n).trans hst⟩

theorem moveCls_carTrigger {s : State} {n : Axis} {c : Option Nat} (h : (s.hcAx[n]).moveCls = c) :
    ((carTrigger s n).hcAx[n]).moveCls = c := by
  rw [carTrigger_hcAx]
  exact h

/-- A STOP of Caramel ends the class of the move and leaves the axis states (R300, R467). -/
theorem stopMotion_facts (s : State) (r : Req) (n : Axis) (kind : Nat) :
    ((stopMotion s r n kind false).1.hcAx[n]).moveCls = none ∧ (stopMotion s r n kind false).1.ax = s.ax := by
  unfold stopMotion
  dsimp only
  split
  · exact ⟨moveCls_carTrigger (congrArg HcAx.moveCls (modV_same s.hcAx n _)), carTrigger_ax _ n⟩
  · exact ⟨moveCls_carTrigger (congrArg HcAx.moveCls (modV_same s.hcAx n _)), carTrigger_ax _ n⟩

theorem execStop_position (s : State) (r : Req) (n : Axis) (kind : Fin 2) (ha : Accepted s r opStop false) (hn : r.axisSel = n.val)
    (h : axSt s n = .position) :
    ∃ t, exec (.stop r kind.val false) s = .next t ∧ (t.hcAx[n]).moveCls = none ∧ axSt t n = .position := by
  have hans : stopAns (unhand s r) r n kind.val false = stopMotion (endOldMotion (unhand s r) n) r n kind.val false := by
    unfold stopAns
    rw [if_neg stopAns_known, axSt_unhand, h]
  have hst : axSt (endOldMotion (unhand s r) n) n = .position := by rw [axSt_endOldMotion, axSt_unhand, h]
  refine ⟨_, execStop_eq ha hn, ?_⟩
  rw [hans]
  obtain ⟨hcls, hax⟩ := stopMotion_facts (endOldMotion (unhand s r) n) r n kind.val
  have hlast := answered_only r opStop (stopMotion (endOldMotion (unhand s r) n) r n kind.val false)
  generalize stopMotion (endOldMotion (unhand s r) n) r n kind.val false = x at hcls hax hlast
  have hhc : (answered r opStop x).hcAx = x.1.hcAx := (congrArg State.hcAx (show withAnswersOf _ _ = x.1 from hlast) :)
  exact ⟨hhc ▸ hcls, (hlast.axSt n).trans ((SameAx.axSt hax n).trans hst)⟩

theorem notInState_fails : Fails stNotInState := ⟨by decide, by decide, by decide⟩

theorem execStop_refused (s : State) (r : Req) (n : Axis) (kind : Fin 2) (ha : Accepted s r opStop false) (hn : r.axisSel = n.val)
    (h : axSt s n = .fault ∨ axSt s n = .safeShort) :
    ∃ t, exec (.stop r kind.val false) s = .next t ∧ Quiet s t ∧ t.ax = s.ax ∧
      rg t Sig.LAST_FAIL = BitVec.ofNat 32 (r.tag * 65536 + opStop * 256 + stNotInState) := by
  have hans : stopAns (unhand s r) r n kind.val false = (unhand s r, ansNotInState (unhand s r) n) := by
    unfold stopAns
    rw [if_neg stopAns_known, axSt_unhand]
    rcases h with h | h <;> rw [h]
  refine ⟨_, execStop_eq ha hn, ?_⟩
  rw [hans]
  obtain ⟨i, e⟩ := unhand_handed s r
  refine ⟨(unhand_quiet s r).trans (answered_quiet r opStop (_, _)), ?_, (answered_fails rfl notInState_fails).1⟩
  exact ((answered_only r opStop (_, _)).bridge.ax).trans (by rw [e])

/-! ### MOVE (R156, R317, R467) -/

theorem moveStatus_unhand (s : State) (r : Req) (m : MoveArgs) (n : Axis) : moveStatus (unhand s r) r m n = moveStatus s r m n := by
  obtain ⟨i, e⟩ := unhand_handed s r
  rw [e]
  rfl

theorem axSt_of_moveStatus {s : State} {r : Req} {m : MoveArgs} {n : Axis} (h : moveStatus s r m n = stOk) : axSt s n = .position := by
  by_contra hne
  unfold moveStatus at h
  rw [if_pos hne] at h
  split at h <;> cases h

/-- A MOVE of class 0 or 1 that its one axis takes starts at once, what it replaces ended first (R156, R467). -/
theorem execMove_starts {s : State} {r : Req} {n : Axis} {m : MoveArgs} (ha : Accepted s r opMove false) (hn : r.axisSel = n.val)
    (hok : moveStatus s r m n = stOk) (hcls : m.cls < 2) :
    exec (.move r m) s = .next (startMove (endOldMotion (unhand s r) n) r n (moveTaken (unhand s r) n m) 1) := by
  have hsel : selAxes r opMove = [n] := by simp [selAxes, ha.single, hn]
  show execMove r m s = _
  rw [execMove, if_neg (by simp [ha.serves]), if_neg (by simp [ha.intime, ha.unbarred])]
  unfold moveRun
  rw [hsel]
  simp only [List.filter_cons, List.filter_nil, moveStatus_unhand, hok, beq_self_eq_true, if_true, List.isEmpty_cons, Bool.false_eq_true,
    if_false, ha.single, List.map_cons, List.map_nil, hcls, true_or, startMoves]
  rfl

theorem reportTarget_ax (s : State) (n : Axis) : (reportTarget s n).ax = s.ax := by
  unfold reportTarget
  split
  · dsimp only
    refine (endWaits_keeps bridgeStands_post _ _ _).ax.trans ?_
    split <;> rfl
  · rfl

/-- A MOVE that starts gives its axis its class and leaves the axis states (R319, R467). -/
theorem startMove_facts (s : State) (r : Req) (n : Axis) (m : MoveArgs) (scale : Rat) :
    ((startMove s r n m scale).hcAx[n]).moveCls = some m.cls ∧ (startMove s r n m scale).ax = s.ax := by
  unfold startMove
  dsimp only
  exact ⟨moveCls_carTrigger (congrArg HcAx.moveCls (modV_same (reportTarget s n).hcAx n _)), (carTrigger_ax _ n).trans (reportTarget_ax s n)⟩

theorem execMove_moves (s : State) (r : Req) (n : Axis) (m : MoveArgs) (ha : Accepted s r opMove false) (hn : r.axisSel = n.val)
    (hok : moveStatus s r m n = stOk) (hcls : m.cls < 2) :
    ∃ t, exec (.move r m) s = .next t ∧ (t.hcAx[n]).moveCls = some m.cls ∧ axSt t n = .position := by
  obtain ⟨hset, hax⟩ := startMove_facts (endOldMotion (unhand s r) n) r n (moveTaken (unhand s r) n m) 1
  refine ⟨_, execMove_starts ha hn hok hcls, hset, (SameAx.axSt hax n).trans ?_⟩
  rw [axSt_endOldMotion, axSt_unhand, axSt_of_moveStatus hok]

/-- Settles O23: AXIS_STATE out of and into DISABLED and among the states with tasks, STOP in each state, and a MOVE of class 0 or 1. -/
theorem axisCommandsMoveTheAxis : Obligations.AxisCommandsMoveTheAxis :=
  ⟨execAxisState_disables, execAxisState_precharges, execAxisState_pends, execAxisState_stays, execStop_opn, execStop_speed, execStop_torque,
    execStop_position, execStop_refused, execMove_moves⟩

end Sys2Proof.Machine
end

section
/-! O24: ABORT. -/

namespace Sys2Proof.Machine

theorem execAbort_eq {s : State} {r : Req} {tag ring : Nat} (ha : Accepted s r opAbort false) :
    exec (.abort r tag ring) s = .next (answered r opAbort (abortAns (unhand s r) r tag ring)) := by
  show execAbort r tag ring s = _
  rw [execAbort, if_pos ha.serves, devCmd_eq ha]

theorem ringKey_host {r : Req} {ring : Nat} (h : r.fwd = false) : ringKey r ring = ring := by
  rw [ringKey, h]
  rfl

/-! ### A frame that is not remembered, and one that has completed (R165) -/

theorem abortAns_unknown {s : State} {r : Req} {tag ring : Nat} (hhost : r.fwd = false)
    (hno : ∀ x ∈ s.rt.taken, ¬(x.ring = ring ∧ x.tag = tag)) : abortAns s r tag ring = (s, ansSt stRange) := by
  have hnone : s.rt.taken.find? (fun t => t.ring == ring && t.tag == tag &&
      !(t.ring == r.ring && t.tag == r.tag && t.opcode == opAbort && t.done.isNone)) = none := by
    refine List.find?_eq_none.mpr fun x hx h => hno x hx ?_
    simp only [Bool.and_eq_true, beq_iff_eq] at h
    exact h.1
  unfold abortAns
  split
  · rfl
  · dsimp only
    rw [ringKey_host hhost, hnone]

theorem range_fails : Fails stRange := ⟨by decide, by decide, by decide⟩

theorem execAbort_unknown (s : State) (r : Req) (tag ring : Nat) (ha : Accepted s r opAbort false) (_ : ring ≤ 15) (hhost : r.fwd = false)
    (hno : ∀ x ∈ s.rt.taken, ¬(x.ring = ring ∧ x.tag = tag)) :
    ∃ t, exec (.abort r tag ring) s = .next t ∧ Quiet s t ∧
      rg t Sig.LAST_FAIL = BitVec.ofNat 32 (r.tag * 65536 + opAbort * 256 + stRange) := by
  have hno' : ∀ x ∈ (unhand s r).rt.taken, ¬(x.ring = ring ∧ x.tag = tag) := by
    obtain ⟨i, e⟩ := unhand_handed s r
    rw [e]
    exact hno
  refine ⟨_, execAbort_eq ha, ?_⟩
  rw [abortAns_unknown hhost hno']
  exact ⟨(unhand_quiet s r).trans (answered_quiet r opAbort (_, _)), (answered_fails rfl range_fails).1⟩

/-- An ABORT that wins: what it does to its target, which completes ABORTED at the instant at which the ABORT was taken. -/
def abortWon (s : State) (r : Req) (tag ring : Nat) : State × Ans :=
  let s := abortTarget s ring tag
  ({ s with rt := { s.rt with taken := latchIn r.taken ring tag s.rt.taken } }, ansOk (leBytes 4 (r.taken % 2 ^ 32)))

/-- The target of an ABORT is the first remembered frame of its ring and TAG, where that is not the ABORT's own. -/
theorem abortAns_found {s : State} {r : Req} {tag ring : Nat} {x : Taken} {xs : List Taken} (hring : ring ≤ 15) (hhost : r.fwd = false)
    (htaken : s.rt.taken = x :: xs) (hxr : x.ring = ring) (hxt : x.tag = tag)
    (hmine : (x.ring == r.ring && x.tag == r.tag && x.opcode == opAbort && x.done.isNone) = false) :
    abortAns s r tag ring = match x.done with
      | some d => if usAtOrBefore d r.taken then (s, ⟨stDoneBeforeAbort, leBytes 4 (d % 2 ^ 32), 0, false⟩) else abortWon s r tag ring
      | none => abortWon s r tag ring := by
  have hfind : s.rt.taken.find? (fun t => t.ring == ring && t.tag == tag &&
      !(t.ring == r.ring && t.tag == r.tag && t.opcode == opAbort && t.done.isNone)) = some x := by
    rw [htaken]
    exact List.find?_cons_of_pos (by rw [hmine, hxr, hxt]; simp)
  unfold abortAns
  rw [if_neg (Nat.not_lt.mpr hring)]
  dsimp only
  rw [ringKey_host hhost, hfind]
  rfl

theorem execAbort_completed (s : State) (r : Req) (tag ring d : Nat) (x : Taken) (xs : List Taken) (ha : Accepted s r opAbort false)
    (hring : ring ≤ 15) (hhost : r.fwd = false) (htaken : s.rt.taken = x :: xs) (hxr : x.ring = ring) (hxt : x.tag = tag)
    (hdone : x.done = some d) (hbefore : usAtOrBefore d r.taken = true) (_ : r.noReply = false) (hc : CanPost s r.resp (frameLen 4)) :
    ∃ t, exec (.abort r tag ring) s = .next t ∧ Quiet s t ∧
      Posted s t r.resp (respFrame s r opAbort stDoneBeforeAbort (leBytes 4 (d % 2 ^ 32))) := by
  obtain ⟨i, e⟩ := unhand_handed s r
  have hans : abortAns (unhand s r) r tag ring = (unhand s r, ⟨stDoneBeforeAbort, leBytes 4 (d % 2 ^ 32), 0, false⟩) := by
    rw [abortAns_found hring hhost (x := x) (xs := xs) (by rw [e]; exact htaken) hxr hxt (by simp [hdone]), hdone]
    exact if_pos hbefore
  refine ⟨_, execAbort_eq ha, ?_⟩
  rw [hans]
  refine ⟨(unhand_quiet s r).trans (answered_quiet r opAbort (_, _)), ?_⟩
  rw [e]
  exact answered_posted rfl rfl rfl rfl rfl rfl rfl (fun h => nomatch h) hhost (by rwa [leBytes_length])

/-! ### Steps that hand over no command (R165, R166) -/

/-- From one state to the other no command is queued, handed over or left to answer later. -/
structure NoneAdded (s t : State) : Prop where
  waits : ∀ w ∈ t.rt.waits, ∃ v ∈ s.rt.waits, v.req = w.req
  defq : ∀ d ∈ t.rt.defq, d ∈ s.rt.defq
  notes : ∀ y ∈ t.rcd.noteWaits, y ∈ s.rcd.noteWaits
  handed : ∀ i, t.rt.handed = some i → s.rt.handed = some i

namespace NoneAdded

theorem refl (s : State) : NoneAdded s s := ⟨fun w h => ⟨w, h, rfl⟩, fun _ => id, fun _ => id, fun _ => id⟩

theorem trans {s t u : State} (h : NoneAdded s t) (g : NoneAdded t u) : NoneAdded s u where
  waits w hw := by
    obtain ⟨v, hv, hvw⟩ := g.waits w hw
    obtain ⟨v', hv', hvv⟩ := h.waits v hv
    exact ⟨v', hv', hvv.trans hvw⟩
  defq d hd := h.defq d (g.defq d hd)
  notes y hy := h.notes y (g.notes y hy)
  handed i hi := h.handed i (g.handed i hi)

theorem each {α : Type} (xs : List α) (f : State → α → State) (hf : ∀ s x, NoneAdded s (f s x)) (s : State) : NoneAdded s (forEach xs s f) :=
  forEach_inv (Q := NoneAdded s) f xs (fun t x _ h => h.trans (hf t x)) (refl s)

/-- Where the queues and the notes stand, nothing is added. -/
theorem of_same {s t : State} (hw : t.rt.waits = s.rt.waits) (hd : t.rt.defq = s.rt.defq) (hn : t.rcd.noteWaits = s.rcd.noteWaits)
    (hh : t.rt.handed = s.rt.handed) : NoneAdded s t :=
  ⟨fun w h => ⟨w, hw ▸ h, rfl⟩, fun _ h => hd ▸ h, fun _ h => hn ▸ h, fun _ h => hh ▸ h⟩

theorem of_answers {s t : State} (h : AnswersOnly s t) : NoneAdded s t :=
  have e : withAnswersOf s t = s := h
  of_same (congrArg (fun u => u.rt.waits) e :) (congrArg (fun u => u.rt.defq) e :) (congrArg (fun u => u.rcd.noteWaits) e :)
    (congrArg (fun u => u.rt.handed) e :)

theorem carTrigger (s : State) (n : Axis) : NoneAdded s (carTrigger s n) := by
  obtain ⟨f, car, hreq, e⟩ := carTrigger_rest s n
  rw [e]
  refine ⟨fun w hw => ?_, fun _ => id, fun _ => id, fun _ => id⟩
  obtain ⟨v, hv, rfl⟩ := List.mem_map.mp hw
  exact ⟨v, hv, (hreq v).symm⟩

theorem abortMotion (s : State) (n : Axis) : NoneAdded s (abortMotion s n) := by
  unfold Machine.abortMotion
  split
  · dsimp only
    exact trans (t := modCar (modHcAx s n _) n _) (of_same rfl rfl rfl rfl) (carTrigger _ n)
  · exact of_same rfl rfl rfl rfl

theorem setUpd (s : State) (k : Nat) : NoneAdded s (setUpd s k) := by
  unfold Machine.setUpd stageEvent
  dsimp only
  split
  · exact refl s
  · split <;> exact of_same rfl rfl rfl rfl

theorem stopProbe (s : State) : NoneAdded s (stopProbe s) := by
  unfold Machine.stopProbe
  split <;> exact of_same rfl rfl rfl rfl

end NoneAdded

/-! ### Commands of a name that are gone -/

/-- No answer of the request that an ABORT names is pending. -/
def NoWaitOf (ring tag : Nat) (s : State) : Prop := ∀ w ∈ s.rt.waits, named ring tag w.req = false

/-- No command of it is in the deferral queue. -/
def NoEntryOf (ring tag : Nat) (s : State) : Prop := ∀ d ∈ s.rt.defq, named ring tag d.req = false

/-- No note of it waits for room. -/
def NoNoteOf (ring tag : Nat) (s : State) : Prop := ∀ y ∈ s.rcd.noteWaits, named ring tag y.1 = false

/-- The command handed over is not the one named. -/
def NotHanded (ring tag : Nat) (s : State) : Prop := ∀ i q, s.rt.handed = some i → reqOf i = some q → named ring tag q = false

section
variable {ring tag : Nat} {s t : State}

theorem NoneAdded.noWait (h : NoneAdded s t) (hs : NoWaitOf ring tag s) : NoWaitOf ring tag t := fun w hw => by
  obtain ⟨v, hv, hvw⟩ := h.waits w hw
  exact hvw ▸ hs v hv

theorem NoneAdded.noEntry (h : NoneAdded s t) (hs : NoEntryOf ring tag s) : NoEntryOf ring tag t := fun d hd => hs d (h.defq d hd)

theorem NoneAdded.noNote (h : NoneAdded s t) (hs : NoNoteOf ring tag s) : NoNoteOf ring tag t := fun y hy => hs y (h.notes y hy)

theorem NoneAdded.notHanded (h : NoneAdded s t) (hs : NotHanded ring tag s) : NotHanded ring tag t := fun i q hi => hs i q (h.handed i hi)

end

/-- The waits that a test picks are gone, and nothing is added. -/
theorem endWaits_gone (s : State) (p : Wait → Bool) (f : State → Wait → Nat × List Byte) :
    NoneAdded s (endWaits s p f) ∧ ∀ w ∈ (endWaits s p f).rt.waits, p w = false := by
  have hans : AnswersOnly { s with rt := { s.rt with waits := s.rt.waits.filter (fun w => !p w) } } (endWaits s p f) :=
    AnswersOnly.each _ _ (fun s w => AnswersOnly.finishWait s w _ _) _
  have hwaits : (endWaits s p f).rt.waits = s.rt.waits.filter (fun w => !p w) :=
    (congrArg (fun u => u.rt.waits) (show withAnswersOf _ _ = _ from hans) :)
  have hkept : NoneAdded s { s with rt := { s.rt with waits := s.rt.waits.filter (fun w => !p w) } } :=
    ⟨fun w h => ⟨w, (List.mem_filter.mp h).1, rfl⟩, fun _ => id, fun _ => id, fun _ => id⟩
  refine ⟨hkept.trans (.of_answers hans), ?_⟩
  intro w hw
  rw [hwaits] at hw
  simpa using (List.mem_filter.mp hw).2

/-- The entries of the deferral queue that a test picks are gone, and nothing is added. -/
theorem dropDeferred_gone (s : State) (p : Deferred → Bool) (st : Nat) :
    NoneAdded s (dropDeferred s p st) ∧ ∀ d ∈ (dropDeferred s p st).rt.defq, p d = false := by
  have hans : AnswersOnly { s with rt := { s.rt with defq := s.rt.defq.filter (fun d => !p d) } } (dropDeferred s p st) :=
    AnswersOnly.each _ _ (fun s d => AnswersOnly.answerDeferred s d _ _) _
  have hdefq : (dropDeferred s p st).rt.defq = s.rt.defq.filter (fun d => !p d) :=
    (congrArg (fun u => u.rt.defq) (show withAnswersOf _ _ = _ from hans) :)
  have hkept : NoneAdded s { s with rt := { s.rt with defq := s.rt.defq.filter (fun d => !p d) } } :=
    ⟨fun w h => ⟨w, h, rfl⟩, fun _ h => (List.mem_filter.mp h).1, fun _ => id, fun _ => id⟩
  refine ⟨hkept.trans (.of_answers hans), ?_⟩
  intro d hd
  rw [hdefq] at hd
  simpa using (List.mem_filter.mp hd).2

/-! ### A winning ABORT (R166) -/

/-- The motion of the target stops, its pending answers and its deferred entries end. -/
def abortCommands (s : State) (ring tag : Nat) : State :=
  dropDeferred (endWaits (forEach (moveAxes s ring tag) s abortMotion) (fun w => named ring tag w.req) (fun _ _ => (stAborted, [])))
    (fun d => named ring tag d.req) stAborted

/-- The record without the notes of the target. -/
def notesGone (s : State) (ring tag : Nat) : State :=
  { s with rcd := { s.rcd with
    noteWaits := s.rcd.noteWaits.filter (fun x => !named ring tag x.1)
    staged := s.rcd.staged.filter (fun x => (x.req.filter (named ring tag)).isNone) } }

/-- The notes of the target end, waiting and staged. -/
def abortNotes (s : State) (ring tag : Nat) : State :=
  forEach ((s.rcd.noteWaits.filter (fun x => named ring tag x.1)).map Prod.fst ++
    s.rcd.staged.filterMap (fun x => x.req.filter (named ring tag))) (notesGone s ring tag) (fun s r => finishDev s r opRecNote stAborted [])

/-- An update that the target verifies ends without a record. -/
def abortUpdate (s : State) (ring tag : Nat) : State :=
  match s.upd.commit.filter (named ring tag) with
  | some r => finishDev (setUpd { s with upd := ⟨none, false, false⟩ } 1) r opImgCommit stAborted []
  | none => s

/-- A probe of the target ramps down. -/
def abortProbe (s : State) (ring tag : Nat) : State :=
  match (s.hc.probe.bind Probe.req).filter (named ring tag) with
  | some r => finishDev (stopProbe s) r opProbe stAborted []
  | none => s

/-- A command that is handed over answered ABORTED (R166). -/
def abortAnswered (s : State) (i : Instr) (r : Req) : State :=
  let s := { s with rt := { s.rt with handed := none } }
  if axisOpcode (opOf i) then runAx s r (opOf i) (fun s _ => (s, ansSt stAborted)) else finishDev s r (opOf i) stAborted []

/-- The command handed over under the target is not carried out. -/
def abortHanded (s : State) (ring tag : Nat) : State :=
  match s.rt.handed with
  | some i =>
    match (reqOf i).filter (named ring tag) with
    | some r => abortAnswered s i r
    | none => s
  | none => s

theorem abortTarget_eq (s : State) (ring tag : Nat) :
    abortTarget s ring tag = abortHanded (abortProbe (abortUpdate (abortNotes (abortCommands s ring tag) ring tag) ring tag) ring tag) ring tag := by
  unfold abortTarget
  extract_lets moved ended dropped notes held record unnoted noted updated probed
  have hcommands : dropped = abortCommands s ring tag := rfl
  have hnotes : noted = abortNotes dropped ring tag := rfl
  have hupdate : updated = abortUpdate noted ring tag := rfl
  have hprobe : probed = abortProbe updated ring tag := rfl
  rw [← hcommands, ← hnotes, ← hupdate, ← hprobe]
  rfl

theorem abortCommands_gone (s : State) (ring tag : Nat) :
    NoWaitOf ring tag (abortCommands s ring tag) ∧ NoEntryOf ring tag (abortCommands s ring tag) := by
  obtain ⟨-, hwaits⟩ := endWaits_gone (forEach (moveAxes s ring tag) s abortMotion) (fun w => named ring tag w.req) (fun _ _ => (stAborted, []))
  obtain ⟨hnone, hdefq⟩ := dropDeferred_gone (endWaits (forEach (moveAxes s ring tag) s abortMotion) (fun w => named ring tag w.req)
    (fun _ _ => (stAborted, []))) (fun d => named ring tag d.req) stAborted
  exact ⟨hnone.noWait hwaits, hdefq⟩

theorem abortNotes_gone (s : State) (ring tag : Nat) : NoneAdded s (abortNotes s ring tag) ∧ NoNoteOf ring tag (abortNotes s ring tag) := by
  have hgone : NoneAdded s (notesGone s ring tag) :=
    ⟨fun w h => ⟨w, h, rfl⟩, fun _ => id, fun _ h => (List.mem_filter.mp h).1, fun _ => id⟩
  have hno : NoNoteOf ring tag (notesGone s ring tag) := fun y hy => by simpa using (List.mem_filter.mp hy).2
  have hans : NoneAdded (notesGone s ring tag) (abortNotes s ring tag) :=
    .of_answers (AnswersOnly.each _ _ (fun s r => AnswersOnly.finishDev s r _ _ _) _)
  exact ⟨hgone.trans hans, hans.noNote hno⟩

theorem abortUpdate_noneAdded (s : State) (ring tag : Nat) : NoneAdded s (abortUpdate s ring tag) := by
  unfold abortUpdate
  split
  · have hupd : NoneAdded s { s with upd := ⟨none, false, false⟩ } := .of_same rfl rfl rfl rfl
    exact (hupd.trans (.setUpd _ 1)).trans (.of_answers (AnswersOnly.finishDev _ _ _ _ _))
  · exact .refl s

theorem abortProbe_noneAdded (s : State) (ring tag : Nat) : NoneAdded s (abortProbe s ring tag) := by
  unfold abortProbe
  split
  · exact (NoneAdded.stopProbe s).trans (.of_answers (AnswersOnly.finishDev _ _ _ _ _))
  · exact .refl s

theorem abortAnswered_gone (s : State) (ring tag : Nat) (i : Instr) (r : Req) :
    NoneAdded s (abortAnswered s i r) ∧ NotHanded ring tag (abortAnswered s i r) := by
  have hcleared : NoneAdded s { s with rt := { s.rt with handed := none } } :=
    ⟨fun w h => ⟨w, h, rfl⟩, fun _ => id, fun _ => id, fun _ h => nomatch h⟩
  have hno : NotHanded ring tag { s with rt := { s.rt with handed := none } } := fun _ _ h => nomatch h
  have hans : NoneAdded { s with rt := { s.rt with handed := none } } (abortAnswered s i r) :=
    .of_answers (AnswersOnly.ite (AnswersOnly.runAx _ _ _ (fun _ _ => ansSt stAborted)) (AnswersOnly.finishDev _ _ _ _ _))
  exact ⟨hcleared.trans hans, hans.notHanded hno⟩

theorem abortHanded_gone (s : State) (ring tag : Nat) : NoneAdded s (abortHanded s ring tag) ∧ NotHanded ring tag (abortHanded s ring tag) := by
  unfold abortHanded
  split
  case h_1 i hi =>
    split
    case h_1 => exact abortAnswered_gone s ring tag i _
    case h_2 hnone =>
      refine ⟨.refl s, fun j q hj hq => ?_⟩
      obtain rfl : i = j := Option.some.inj (hi.symm.trans hj)
      simpa [hq] using hnone
  case h_2 hnone => exact ⟨.refl s, fun i q hi => absurd (hnone.symm.trans hi) (by simp)⟩

theorem abortTarget_gone (s : State) (ring tag : Nat) : NoWaitOf ring tag (abortTarget s ring tag) ∧
    NoEntryOf ring tag (abortTarget s ring tag) ∧ NoNoteOf ring tag (abortTarget s ring tag) ∧ NotHanded ring tag (abortTarget s ring tag) := by
  rw [abortTarget_eq]
  obtain ⟨hwait, hentry⟩ := abortCommands_gone s ring tag
  obtain ⟨hnotes, hnote⟩ := abortNotes_gone (abortCommands s ring tag) ring tag
  obtain ⟨hhand, hhanded⟩ := abortHanded_gone (abortProbe (abortUpdate (abortNotes (abortCommands s ring tag) ring tag) ring tag) ring tag)
    ring tag
  have hlate := ((abortUpdate_noneAdded (abortNotes (abortCommands s ring tag) ring tag) ring tag).trans
    (abortProbe_noneAdded _ ring tag)).trans hhand
  exact ⟨(hnotes.trans hlate).noWait hwait, (hnotes.trans hlate).noEntry hentry, hlate.noNote hnote, hhanded⟩

theorem abortWon_noneAdded (s : State) (r : Req) (tag ring : Nat) : NoneAdded (abortTarget s ring tag) (abortWon s r tag ring).1 := by
  unfold abortWon
  generalize abortTarget s ring tag = t
  exact .of_same rfl rfl rfl rfl

theorem execAbort_wins (s : State) (r : Req) (tag ring : Nat) (x : Taken) (xs : List Taken) (ha : Accepted s r opAbort false)
    (hring : ring ≤ 15) (hhost : r.fwd = false) (htaken : s.rt.taken = x :: xs) (hxr : x.ring = ring) (hxt : x.tag = tag)
    (hdone : ∀ d, x.done = some d → usAtOrBefore d r.taken = false) (hother : ¬(r.ring = ring ∧ r.tag = tag)) :
    ∃ t, exec (.abort r tag ring) s = .next t ∧ NoEntryOf ring tag t ∧ NoNoteOf ring tag t ∧ NoWaitOf ring tag t ∧
      NotHanded ring tag t := by
  obtain ⟨i, e⟩ := unhand_handed s r
  have hmine : (x.ring == r.ring && x.tag == r.tag && x.opcode == opAbort && x.done.isNone) = false := by
    refine Bool.eq_false_iff.mpr fun h => hother ?_
    simp only [Bool.and_eq_true, beq_iff_eq] at h
    obtain ⟨⟨⟨hr, ht⟩, -⟩, -⟩ := h
    exact ⟨hr.symm.trans hxr, ht.symm.trans hxt⟩
  have hans : abortAns (unhand s r) r tag ring = abortWon (unhand s r) r tag ring := by
    rw [abortAns_found hring hhost (x := x) (xs := xs) (by rw [e]; exact htaken) hxr hxt hmine]
    split
    case h_1 d hd => rw [hdone d hd, if_neg (by decide)]
    case h_2 => rfl
  obtain ⟨hwait, hentry, hnote, hhanded⟩ := abortTarget_gone (unhand s r) ring tag
  have hlast : NoneAdded (abortTarget (unhand s r) ring tag) (answered r opAbort (abortAns (unhand s r) r tag ring)) := by
    rw [hans]
    exact (abortWon_noneAdded (unhand s r) r tag ring).trans (.of_answers (answered_only r opAbort _))
  exact ⟨_, execAbort_eq ha, hlast.noEntry hentry, hlast.noNote hnote, hlast.noWait hwait, hlast.notHanded hhanded⟩

/-- Settles O24: ABORT of a frame that is not remembered, of one that completed first, and of one that had not. -/
theorem abortEndsWhatItNames : Obligations.AbortEndsWhatItNames := ⟨execAbort_unknown, execAbort_completed, execAbort_wins⟩

end Sys2Proof.Machine
end

section
/-! O25: REC_READ and REC_NOTE. -/

namespace Sys2Proof.Machine

/-! ### REC_READ (R591, R592) -/

theorem execRecRead_eq {s : State} {r : Req} {seq off maxLen fails : Nat} {next : Bool} (ha : Accepted s r opRecRead false) :
    exec (.recRead r seq off maxLen next fails) s = .next (answered r opRecRead (recReadAns (unhand s r) seq off maxLen next fails)) := by
  show execRecRead r seq off maxLen next fails s = _
  rw [execRecRead, if_pos ha.serves, devCmd_eq ha]

theorem readSlice_unhand (s : State) (r : Req) (seq : Nat) (next : Bool) : readSlice (unhand s r) seq next = readSlice s seq next := by
  obtain ⟨i, e⟩ := unhand_handed s r
  rw [e]
  rfl

theorem kindOpen_unhand (s : State) (r : Req) (kind : Nat) : kindOpen (unhand s r) kind = kindOpen s kind := by
  obtain ⟨i, e⟩ := unhand_handed s r
  rw [e]
  rfl

/-- A length that REC_READ takes. -/
theorem readLength {maxLen : Nat} (hlo : 4 ≤ maxLen) (hhi : maxLen ≤ 1000) (hmod : maxLen % 4 = 0) :
    ¬(maxLen < 4 ∨ 1000 < maxLen ∨ maxLen % 4 ≠ 0) := by omega

theorem recReadAns_reads {s : State} {seq off maxLen fails : Nat} {next : Bool} {x : Slice} (hlo : 4 ≤ maxLen) (hhi : maxLen ≤ 1000)
    (hmod : maxLen % 4 = 0) (hx : readSlice s seq next = some x) (hopen : kindOpen s x.kind = true) (hoff : off < x.total) (hf : fails < 2) :
    recReadAns s seq off maxLen next fails =
      (s, ansOk (leBytes 4 x.seq ++ leBytes 2 x.total ++ leBytes 2 off ++ (x.bytes.drop off).take maxLen)) := by
  unfold recReadAns
  rw [if_neg (readLength hlo hhi hmod), hx]
  dsimp only
  rw [hopen, if_neg (by decide), if_neg (Nat.not_le.mpr hoff), if_neg (Nat.not_le.mpr hf)]

theorem recReadAns_denied {s : State} {seq off maxLen fails : Nat} {next : Bool} {x : Slice} (hlo : 4 ≤ maxLen) (hhi : maxLen ≤ 1000)
    (hmod : maxLen % 4 = 0) (hx : readSlice s seq next = some x) (hshut : kindOpen s x.kind = false) :
    recReadAns s seq off maxLen next fails = (s, ansSt stDeniedLifecycle) := by
  unfold recReadAns
  rw [if_neg (readLength hlo hhi hmod), hx]
  dsimp only
  rw [hshut]
  exact if_pos (by decide)

theorem answered_rcd (r : Req) (op : Nat) (x : State × Ans) : (answered r op x).rcd = x.1.rcd :=
  (congrArg State.rcd (show withAnswersOf x.1 _ = x.1 from answered_only r op x) :)

theorem execRecRead_reads (s : State) (r : Req) (seq off maxLen fails : Nat) (next : Bool) (x : Slice) (ha : Accepted s r opRecRead false)
    (hlo : 4 ≤ maxLen) (hhi : maxLen ≤ 1000) (hmod : maxLen % 4 = 0) (hx : readSlice s seq next = some x)
    (hopen : kindOpen s x.kind = true) (hoff : off < x.total) (hf : fails < 2) (hreply : r.noReply = false) (hhost : r.fwd = false)
    (hc : CanPost s r.resp (frameLen (8 + ((x.bytes.drop off).take maxLen).length))) :
    ∃ t, exec (.recRead r seq off maxLen next fails) s = .next t ∧ Quiet s t ∧ t.rcd = s.rcd ∧
      Posted s t r.resp (respFrame s r opRecRead stOk
        (leBytes 4 x.seq ++ leBytes 2 x.total ++ leBytes 2 off ++ (x.bytes.drop off).take maxLen)) := by
  have hans := recReadAns_reads (s := unhand s r) hlo hhi hmod ((readSlice_unhand s r seq next).trans hx)
    ((kindOpen_unhand s r x.kind).trans hopen) hoff hf
  have hlen : (leBytes 4 x.seq ++ leBytes 2 x.total ++ leBytes 2 off ++ (x.bytes.drop off).take maxLen).length =
      8 + ((x.bytes.drop off).take maxLen).length := by
    simp only [List.length_append, leBytes_length]
  refine ⟨_, execRecRead_eq ha, ?_⟩
  rw [hans]
  refine ⟨(unhand_quiet s r).trans (answered_quiet r opRecRead (_, _)), (answered_rcd r opRecRead (_, _)).trans (unhand_rcd s r), ?_⟩
  obtain ⟨i, e⟩ := unhand_handed s r
  rw [e]
  exact answered_posted rfl rfl rfl rfl rfl rfl rfl (fun _ => hreply) hhost (hlen ▸ hc)

theorem deniedLifecycle_fails : Fails stDeniedLifecycle := ⟨by decide, by decide, by decide⟩

theorem execRecRead_denied (s : State) (r : Req) (seq off maxLen fails : Nat) (next : Bool) (x : Slice) (ha : Accepted s r opRecRead false)
    (hlo : 4 ≤ maxLen) (hhi : maxLen ≤ 1000) (hmod : maxLen % 4 = 0) (hx : readSlice s seq next = some x)
    (hshut : kindOpen s x.kind = false) :
    ∃ t, exec (.recRead r seq off maxLen next fails) s = .next t ∧ Quiet s t ∧ t.rcd = s.rcd ∧
      rg t Sig.LAST_FAIL = BitVec.ofNat 32 (r.tag * 65536 + opRecRead * 256 + stDeniedLifecycle) := by
  have hans := recReadAns_denied (s := unhand s r) (off := off) (fails := fails) hlo hhi hmod ((readSlice_unhand s r seq next).trans hx)
    ((kindOpen_unhand s r x.kind).trans hshut)
  refine ⟨_, execRecRead_eq ha, ?_⟩
  rw [hans]
  exact ⟨(unhand_quiet s r).trans (answered_quiet r opRecRead (_, _)), (answered_rcd r opRecRead (_, _)).trans (unhand_rcd s r),
    (answered_fails rfl deniedLifecycle_fails).1⟩

/-! ### REC_NOTE (R158, R579) -/

/-- A note waits for room in staging behind the notes that wait. -/
def noteWaiting (s : State) (r : Req) (note : List Byte) : State :=
  { s with rcd := { s.rcd with noteWaits := s.rcd.noteWaits ++ [(r, note)] } }

/-- A note of 1 to 256 bytes waits for room in staging, and its answer for its commit. -/
theorem execRecNote_eq {s : State} {r : Req} {note : List Byte} (ha : Accepted s r opRecNote false) (hlo : 0 < note.length)
    (hhi : note.length ≤ 256) :
    exec (.recNote r note) s =
      .next (admitNotes (s.rcd.noteWaits.length + 1) (noteWaiting (unhand s r) r note)) := by
  have hnote (u : State) : noteAns u r note = (admitNotes (u.rcd.noteWaits.length + 1) (noteWaiting u r note), ansLater) := by
    have hlen : (noteWaiting u r note).rcd.noteWaits.length = u.rcd.noteWaits.length + 1 := by simp [noteWaiting]
    rw [← hlen]
    exact if_neg (by omega)
  show execRecNote r note s = _
  rw [execRecNote, if_pos ha.serves, devCmd_eq ha, hnote, unhand_rcd]
  rfl

/-- Where staging is full, the notes wait. -/
theorem admitNotes_full {s : State} {fuel : Nat} (h : 61440 ≤ stagedBytes s) : admitNotes fuel s = s := by
  cases fuel with
  | zero => rfl
  | succ fuel =>
    unfold admitNotes
    split
    · rfl
    · exact if_neg (Nat.not_lt.mpr h)

theorem execRecNote_stages (s : State) (r : Req) (note : List Byte) (ha : Accepted s r opRecNote false) (hlo : 0 < note.length)
    (hhi : note.length ≤ 256) (hnone : s.rcd.noteWaits = []) (hroom : stagedBytes s < 61440) :
    ∃ t, exec (.recNote r note) s = .next t ∧
      t.rcd = { s.rcd with staged := s.rcd.staged ++ [⟨kindNote, note, false, some r, instantNow s⟩] } ∧
      t.regs = s.regs := by
  have hadmit (u : State) (hu : u.rcd = s.rcd) : admitNotes 1 (noteWaiting u r note) =
      pushStaged { u with rcd := { u.rcd with noteWaits := [] } } ⟨kindNote, note, false, some r, (0, 0)⟩ := by
    have hwaits : (noteWaiting u r note).rcd.noteWaits = [(r, note)] := by rw [noteWaiting, hu, hnone]; rfl
    have hbytes : stagedBytes (noteWaiting u r note) < 61440 := by rw [stagedBytes, noteWaiting, hu]; exact hroom
    unfold admitNotes
    rw [hwaits]
    exact if_pos hbytes
  refine ⟨_, execRecNote_eq ha hlo hhi, ?_⟩
  obtain ⟨i, e⟩ := unhand_handed s r
  rw [hnone, e]
  rw [List.length_nil, Nat.zero_add, hadmit { s with rt := { s.rt with handed := i } } rfl]
  refine ⟨?_, rfl⟩
  rw [← hnone]
  rfl

theorem execRecNote_waits (s : State) (r : Req) (note : List Byte) (ha : Accepted s r opRecNote false) (hlo : 0 < note.length)
    (hhi : note.length ≤ 256) (hfull : 61440 ≤ stagedBytes s) :
    ∃ t, exec (.recNote r note) s = .next t ∧ t.rcd = { s.rcd with noteWaits := s.rcd.noteWaits ++ [(r, note)] } ∧ t.regs = s.regs := by
  refine ⟨_, execRecNote_eq ha hlo hhi, ?_⟩
  obtain ⟨i, e⟩ := unhand_handed s r
  rw [admitNotes_full (by rw [stagedBytes, noteWaiting, unhand_rcd]; exact hfull), e]
  exact ⟨rfl, rfl⟩

/-- Settles O25: REC_READ of an open slice and of a closed one, REC_NOTE with room and without. -/
theorem recordReadsAndNotes : Obligations.RecordReadsAndNotes :=
  ⟨execRecRead_reads, execRecRead_denied, execRecNote_stages, execRecNote_waits⟩

end Sys2Proof.Machine
end

section
/-! O27: FUSE_PROGRAM. -/

namespace Sys2Proof.Machine

/-! ### Pulses (R607) -/

/-- The pulses of a list in order. -/
def pulsed (ps : List (Bool × Nat × Nat)) (s : State) : State := ps.foldl (fun s p => pulse s p.1 p.2.1 p.2.2) s

theorem runPulses_all (ps : List (Bool × Nat × Nat)) (s : State) : runPulses ps none s = (pulsed ps s, none) := by
  induction ps generalizing s with
  | nil => rfl
  | cons p ps ih => exact ih (pulse s p.1 p.2.1 p.2.2)

/-- Pulses change the copies of the words, and nothing else. -/
theorem pulsed_rest (ps : List (Bool × Nat × Nat)) (s : State) :
    ∃ a b, pulsed ps s = { s with fuse := { s.fuse with copyA := a, copyB := b } } := by
  induction ps generalizing s with
  | nil => exact ⟨_, _, rfl⟩
  | cons p ps ih =>
    obtain ⟨a, b, e⟩ := ih (pulse s p.1 p.2.1 p.2.2)
    refine ⟨a, b, e.trans ?_⟩
    unfold pulse
    cases p.1 <;> rfl

theorem copyOf_pulse_same (s : State) (b : Bool) (w i : Nat) : copyOf (pulse s b w i) b w = copyOf s b w ||| BitVec.ofNat 32 (2 ^ i) := by
  cases b <;> simp [copyOf, pulse, cellGet_put_same]

theorem copyOf_pulse_ne (s : State) {b c : Bool} {w x : Nat} (i : Nat) (h : ¬(c = b ∧ x = w)) :
    copyOf (pulse s b w i) c x = copyOf s c x := by
  cases b <;> cases c
  case false.true => rfl
  case true.false => rfl
  all_goals
    have hx : x ≠ w := fun e => h ⟨rfl, e⟩
    simp [copyOf, pulse, cellGet_put_ne _ _ hx]

/-- A bit of a copy is set after pulses where it was, or where a pulse was its. -/
theorem getLsbD_pulsed (ps : List (Bool × Nat × Nat)) (s : State) (b : Bool) (w i : Nat) (hi : i < 32) :
    (copyOf (pulsed ps s) b w).getLsbD i = ((copyOf s b w).getLsbD i || decide ((b, w, i) ∈ ps)) := by
  induction ps generalizing s with
  | nil => simp [pulsed]
  | cons p ps ih =>
    obtain ⟨c, x, j⟩ := p
    refine (ih (pulse s c x j)).trans ?_
    have hbit : (copyOf (pulse s c x j) b w).getLsbD i = ((copyOf s b w).getLsbD i || decide ((b, w, i) = (c, x, j))) := by
      by_cases h : b = c ∧ w = x
      · obtain ⟨rfl, rfl⟩ := h
        rw [copyOf_pulse_same, BitVec.getLsbD_or, BitVec.getLsbD_ofNat, Nat.testBit_two_pow]
        simp [hi, eq_comm]
      · rw [copyOf_pulse_ne s j h]
        have hne : (b, w, i) ≠ (c, x, j) := fun e => by cases e; exact h ⟨rfl, rfl⟩
        simp [hne]
    rw [hbit, Bool.or_assoc]
    congr 1
    simp only [List.mem_cons, Bool.decide_or]

theorem mem_missing_map (s : State) (b c : Bool) (w x : Nat) (v : Word) (i : Nat) :
    (c, x, i) ∈ (missingBits s b w v).map (fun i => (b, w, i)) ↔
      c = b ∧ x = w ∧ i < 32 ∧ v.getLsbD i = true ∧ (copyOf s b w).getLsbD i = false := by
  simp only [missingBits, List.mem_map, List.mem_filter, List.mem_range, Bool.and_eq_true, Bool.not_eq_true', Prod.mk.injEq]
  constructor
  · rintro ⟨j, ⟨hj, hv, hc⟩, rfl, rfl, rfl⟩
    exact ⟨rfl, rfl, hj, hv, hc⟩
  · rintro ⟨rfl, rfl, hi, hv, hc⟩
    exact ⟨i, ⟨hi, hv, hc⟩, rfl, rfl, rfl⟩

/-- A copy has a pulse for each bit that the value sets and the copy lacks. -/
theorem mem_pulsesOf (s : State) (w x : Nat) (v : Word) (b : Bool) (i : Nat) :
    (b, x, i) ∈ pulsesOf s w v false ↔ x = w ∧ i < 32 ∧ v.getLsbD i = true ∧ (copyOf s b w).getLsbD i = false := by
  unfold pulsesOf
  rw [if_neg (by decide), List.mem_append, mem_missing_map, mem_missing_map]
  cases b
  · exact ⟨fun h => h.elim And.right (fun h => nomatch h.1), fun h => .inl ⟨rfl, h⟩⟩
  · exact ⟨fun h => h.elim (fun h => nomatch h.1) And.right, fun h => .inr ⟨rfl, h⟩⟩

/-- The pulses of a word set the bits of its value in both copies. -/
theorem copyOf_programmed (s : State) (w : Nat) (v : Word) (b : Bool) :
    copyOf (pulsed (pulsesOf s w v false) s) b w = copyOf s b w ||| v := by
  refine BitVec.eq_of_getLsbD_eq fun i hi => ?_
  rw [getLsbD_pulsed _ s b w i hi, BitVec.getLsbD_or]
  simp only [mem_pulsesOf, hi, true_and]
  cases (copyOf s b w).getLsbD i <;> cases v.getLsbD i <;> rfl

/-- They leave the copies of every other word. -/
theorem copyOf_programmed_ne (s : State) {w x : Nat} (v : Word) (b : Bool) (hx : x ≠ w) :
    copyOf (pulsed (pulsesOf s w v false) s) b x = copyOf s b x := by
  refine BitVec.eq_of_getLsbD_eq fun i hi => ?_
  rw [getLsbD_pulsed _ s b x i hi]
  simp [mem_pulsesOf, hx]

/-! ### A word programmed and verified (R599, R607) -/

/-- A word whose shadow register follows its copies reads the OR of them. -/
theorem fuseWord_sensed {s : State} (h : s.fuse.unsensed = []) (w : Nat) : fuseWord s w = copyOf s false w ||| copyOf s true w := by
  unfold fuseWord
  rw [h]
  rfl

/-- A word programmed with its value, verified, every other word as it was. -/
structure Programmed (s t : State) (w : Nat) (v : Word) : Prop where
  rest : ∃ a b m, t = { s with fuse := { s.fuse with copyA := a, copyB := b, margin := m } }
  word : fuseWord t w = v
  sound : fuseMarginal t w = false
  others : ∀ x, x ≠ w → fuseWord t x = fuseWord s x

/-- A state after the pulses of a word, as it is sensed with nothing marginal. -/
def sensedAfter (s : State) (w : Nat) (v : Word) : State :=
  let t := pulsed (pulsesOf s w v false) s
  { t with fuse := { t.fuse with margin := cellDel t.fuse.margin w } }

/-- A value that needs no fuse unblown is what its word reads after its pulses. -/
theorem programmed_word {a b v : Word} (h : (a ||| b) &&& ~~~v = 0) : a ||| v ||| (b ||| v) = v := by
  refine BitVec.eq_of_getLsbD_eq fun i hi => ?_
  have hbit := congrArg (fun x : Word => x.getLsbD i) h
  simp only [BitVec.getLsbD_and, BitVec.getLsbD_or, BitVec.getLsbD_not, hi, decide_true, Bool.true_and] at hbit
  simp only [BitVec.getLsbD_or]
  revert hbit
  cases a.getLsbD i <;> cases b.getLsbD i <;> cases v.getLsbD i <;> simp

theorem sensedAfter_programmed {s : State} {w : Nat} {v : Word} (hsense : s.fuse.unsensed = []) (hmargin : w ∉ s.fuse.marginCommit)
    (hv : fuseWord s w &&& ~~~v = 0) : Programmed s (sensedAfter s w v) w v := by
  obtain ⟨a, b, e⟩ := pulsed_rest (pulsesOf s w v false) s
  have hrest : sensedAfter s w v = { s with fuse := { s.fuse with copyA := a, copyB := b, margin := cellDel s.fuse.margin w } } := by
    unfold sensedAfter
    rw [e]
  have hcopy (c : Bool) (x : Nat) : copyOf (sensedAfter s w v) c x = copyOf (pulsed (pulsesOf s w v false) s) c x := rfl
  have hword (x : Nat) : fuseWord (sensedAfter s w v) x =
      copyOf (pulsed (pulsesOf s w v false) s) false x ||| copyOf (pulsed (pulsesOf s w v false) s) true x := by
    rw [fuseWord_sensed (by rw [hrest]; exact hsense), hcopy, hcopy]
  refine ⟨⟨a, b, _, hrest⟩, ?_, ?_, fun x hx => ?_⟩
  · rw [hword, copyOf_programmed, copyOf_programmed]
    exact programmed_word (fuseWord_sensed hsense w ▸ hv)
  · have hm : (sensedAfter s w v).fuse.marginCommit = s.fuse.marginCommit := by rw [hrest]
    have hread : marginWord (sensedAfter s w v) w = fuseWord (sensedAfter s w v) w := by
      have hnone : cellGet (sensedAfter s w v).fuse.margin w = none := by
        rw [hrest]
        exact cellGet_del_same _ _
      rw [marginWord, hnone]
      rfl
    simp [fuseMarginal, hread, hm, hmargin]
  · rw [hword, copyOf_programmed_ne _ _ _ hx, copyOf_programmed_ne _ _ _ hx, fuseWord_sensed hsense]

/-- A word that is not a lock word, programmed where its surroundings let every bit read. -/
theorem progWord_done {s : State} {e : FuseEnv} {w : Nat} {v : Word} (he : e.sense = []) (hw : ¬(w = 252 ∨ w = 253))
    (hsense : s.fuse.unsensed = []) (hmargin : w ∉ s.fuse.marginCommit) (hv : fuseWord s w &&& ~~~v = 0) :
    progWord s e none w v false = (sensedAfter s w v, none, .done) := by
  obtain ⟨-, hword, hsound, -⟩ := sensedAfter_programmed hsense hmargin hv
  obtain ⟨a, b, hp⟩ := pulsed_rest (pulsesOf s w v false) s
  have hstate : senseWord s { pulsed (pulsesOf s w v false) s with fuse := { (pulsed (pulsesOf s w v false) s).fuse with
      unsensed := cellDel (pulsed (pulsesOf s w v false) s).fuse.unsensed w } } e w = sensedAfter s w v := by
    unfold senseWord sensedAfter
    rw [he, hp]
    simp [hsense, cellDel]
  unfold progWord
  simp only [if_neg hw, List.flatMap_cons, List.flatMap_nil, List.append_nil, runPulses_all, List.foldl_cons, List.foldl_nil, hstate,
    List.all_cons, List.all_nil, hword, hsound, beq_self_eq_true, Bool.not_false, Bool.and_self, Bool.false_eq_true, if_true, if_false]

/-! ### The judgement (R606) -/

theorem execFuseProgram_eq {s : State} {r : Req} {kind index : Nat} {words : List Word} {sig : List Byte} {env : FuseEnv}
    (ha : Accepted s r opFuseProgram false) :
    exec (.fuseProgram r kind index words sig env) s =
      .next (answered r opFuseProgram (fuseProgramAns (unhand s r) kind index words sig env)) := by
  show execFuseProgram r kind index words sig env s = _
  rw [execFuseProgram, if_pos ha.serves, devCmd_eq ha]

theorem fuseStatus_unhand (s : State) (r : Req) (env : FuseEnv) (kind index : Nat) (words : List Word) (sig : List Byte) :
    fuseStatus (readFuseEnv (unhand s r) env) kind index words sig env = fuseStatus (readFuseEnv s env) kind index words sig env := by
  obtain ⟨i, e⟩ := unhand_handed s r
  rw [e]
  rfl

theorem answered_fuse (r : Req) (op : Nat) (x : State × Ans) : (answered r op x).fuse = x.1.fuse :=
  (congrArg State.fuse (show withAnswersOf x.1 _ = x.1 from answered_only r op x) :)

/-- A status that is OK or a failure. -/
def Judged (st : Nat) : Prop := st = stOk ∨ Fails st

theorem Judged.ite {c : Prop} [Decidable c] {a b : Nat} (ha : Judged a) (hb : Judged b) : Judged (if c then a else b) := by
  split
  · exact ha
  · exact hb

theorem fuseStatus_judged (s : State) (kind index : Nat) (words : List Word) (sig : List Byte) (env : FuseEnv) :
    Judged (fuseStatus s kind index words sig env) := by
  have hlocked : Judged stLocked := .inr ⟨by decide, by decide, by decide⟩
  have hsafety : Judged stRefusedSafety := .inr ⟨by decide, by decide, by decide⟩
  have hok : Judged stOk := .inl rfl
  exact .ite (.inr deniedLifecycle_fails) (.ite (.inr range_fails) (.ite hlocked (.ite hsafety
    (.ite (.ite hok hsafety) (.ite hsafety hok)))))

theorem execFuseProgram_refused (s : State) (r : Req) (kind index : Nat) (words : List Word) (sig : List Byte) (env : FuseEnv)
    (ha : Accepted s r opFuseProgram false) (hst : fuseStatus (readFuseEnv s env) kind index words sig env ≠ stOk) :
    ∃ t, exec (.fuseProgram r kind index words sig env) s = .next t ∧ t.fuse = { s.fuse with tempOk := t.fuse.tempOk } ∧
      rg t Sig.CMD_FAIL_COUNT = rg s Sig.CMD_FAIL_COUNT + 1 := by
  have hst' := (fuseStatus_unhand s r env kind index words sig).symm ▸ hst
  have hans : fuseProgramAns (unhand s r) kind index words sig env =
      (readFuseEnv (unhand s r) env, ansSt (fuseStatus (readFuseEnv (unhand s r) env) kind index words sig env)) := if_pos hst'
  refine ⟨_, execFuseProgram_eq ha, ?_⟩
  rw [hans]
  obtain ⟨i, e⟩ := unhand_handed s r
  refine ⟨?_, (answered_fails rfl ((fuseStatus_judged _ _ _ _ _ _).resolve_left hst')).2.trans (congrArg (· + 1) ?_)⟩
  · rw [answered_fuse, e]
    rfl
  · rw [readFuseEnv, rg_setB_ne _ _ _ (by decide), e]
    rfl

/-! ### One word of KIND 0 (R602, R605 to R608) -/

/-- A state whose fuses read alike: words, commit bits and margins. -/
structure SameFuses (s t : State) : Prop where
  word : ∀ w, fuseWord t w = fuseWord s w
  committed : ∀ w, committed t w = committed s w
  marginal : ∀ w, fuseMarginal t w = fuseMarginal s w

theorem SameFuses.trans {s t u : State} (h : SameFuses s t) (g : SameFuses t u) : SameFuses s u :=
  ⟨fun w => (g.word w).trans (h.word w), fun w => (g.committed w).trans (h.committed w), fun w => (g.marginal w).trans (h.marginal w)⟩

theorem SameFuses.of_fuse {s t : State} (h : t.fuse = s.fuse) : SameFuses s t where
  word w := congrArg (fun f => fuseWord { s with fuse := f } w) h
  committed w := congrArg (fun f => Machine.committed { s with fuse := f } w) h
  marginal w := congrArg (fun f => fuseMarginal { s with fuse := f } w) h

theorem readFuseEnv_sameFuses (s : State) (r : Req) (env : FuseEnv) : SameFuses s (readFuseEnv (unhand s r) env) := by
  obtain ⟨i, e⟩ := unhand_handed s r
  rw [e]
  exact ⟨fun _ => rfl, fun _ => rfl, fun _ => rfl⟩

theorem readFuseEnv_shadows (s : State) (r : Req) (env : FuseEnv) : (readFuseEnv (unhand s r) env).fuse.unsensed = s.fuse.unsensed ∧
    (readFuseEnv (unhand s r) env).fuse.marginCommit = s.fuse.marginCommit := by
  obtain ⟨i, e⟩ := unhand_handed s r
  rw [e]
  exact ⟨rfl, rfl⟩

/-- The fuses with the life cycle that they hold as programmed (R615). -/
def withCycle (s : State) : State := { s with fuse := { s.fuse with lcNow := decodeLc s } }

theorem withCycle_sameFuses (s : State) : SameFuses s (withCycle s) := ⟨fun _ => rfl, fun _ => rfl, fun _ => rfl⟩

/-- The words that a request of KIND 0 programs (R605, R615). -/
def fusePlan (s : State) (index : Nat) (v : Word) : List (Nat × Word) :=
  match lcRequest index v with
  | some c => if 16 ≤ index ∧ index < 24 then lcPairs s c else [(index, v)]
  | none => [(index, v)]

theorem fusePlan_word (s : State) {index : Nat} (v : Word) (h : ¬(16 ≤ index ∧ index < 24)) : fusePlan s index v = [(index, v)] := by
  unfold fusePlan
  split
  · exact if_neg h
  · rfl

/-- The answer to what programming came to (R154, R608). -/
def fuseResult (q : State × FuseEnd) (w : Nat) : State × Ans :=
  match q.2 with
  | .done => (q.1, ansOk (wordBytes (fuseWord q.1 w) ++ leBytes 1 (bitIf (fuseMarginal q.1 w) 0) ++ zeros 3))
  | .aborted => (q.1, ansSt stAborted)
  | _ => (q.1, ansSt stRefusedSafety)

theorem fuseResult_state (q : State × FuseEnd) (w : Nat) : (fuseResult q w).1 = q.1 := by
  unfold fuseResult
  split <;> rfl

theorem fuseProgramAns_accepted {u : State} {index : Nat} {v : Word} {sig : List Byte} {env : FuseEnv}
    (hok : fuseStatus (readFuseEnv u env) 0 index [v] sig env = stOk) : fuseProgramAns u 0 index [v] sig env =
      fuseResult (programAll (readFuseEnv u env) env false (fusePlan (readFuseEnv u env) index v)) index := by
  unfold fuseProgramAns fuseResult fusePlan
  exact if_neg (not_not.mpr hok)

/-- What a judgement of OK says of a word of KIND 0: no fuse would have to be unblown, and it is not committed (R606). -/
theorem fuseStatus_ok_word {s : State} {index : Nat} {v : Word} {sig : List Byte} {env : FuseEnv} (h : ¬(16 ≤ index ∧ index < 24))
    (hok : fuseStatus s 0 index [v] sig env = stOk) :
    fuseWord s index &&& ~~~v = 0 ∧ (commitWords.contains index && committed s index) = false := by
  have hrange : fuseRange s 0 index [v] = false := by
    by_contra hr
    rw [fuseStatus, if_pos (Bool.not_eq_false _ |>.mp hr)] at hok
    split at hok <;> cases hok
  have hlock : fuseLocked s 0 index [v] = false := by
    by_contra hl
    rw [fuseStatus, hrange, if_neg Bool.false_ne_true, if_pos (Bool.not_eq_false _ |>.mp hl)] at hok
    split at hok <;> cases hok
  constructor
  · simp only [fuseRange, fusePairs, if_neg h, if_true, Bool.or_eq_false_iff] at hrange
    obtain ⟨⟨⟨-, hv⟩, -⟩, -⟩ := hrange
    simpa using hv
  · simp only [fuseLocked, if_neg (show ¬(0 = 1) by decide), Bool.or_eq_false_iff] at hlock
    exact hlock.1.2

theorem commitWord_rest (s : State) (w : Nat) : ∃ a b, commitWord s w = { s with fuse := { s.fuse with commitA := a, commitB := b } } := by
  unfold commitWord
  split <;> exact ⟨_, _, rfl⟩

theorem fuseWord_commitWord (s : State) (w x : Nat) : fuseWord (commitWord s w) x = fuseWord s x := by
  obtain ⟨a, b, e⟩ := commitWord_rest s w
  rw [e]
  rfl

theorem fuseMarginal_commitWord (s : State) (w x : Nat) : fuseMarginal (commitWord s w) x = fuseMarginal s x := by
  obtain ⟨a, b, e⟩ := commitWord_rest s w
  rw [e]
  rfl

theorem committed_commitWord_ne (s : State) {w x : Nat} (h : x ≠ w) : committed (commitWord s w) x = committed s x := by
  unfold commitWord
  split
  · simp [committed, h]
  · rfl

theorem committed_commitWord_same {s : State} {w : Nat} (hw : w ∈ commitWords) (hm : w ∉ s.fuse.marginCommit) :
    committed (commitWord s w) w = true := by
  simp [commitWord, committed, hw, hm]

theorem Programmed.committed {s t : State} {w : Nat} {v : Word} (h : Programmed s t w v) (x : Nat) : committed t x = committed s x := by
  obtain ⟨a, b, m, e⟩ := h.rest
  rw [e]
  rfl

section
variable {u : State} {env : FuseEnv} {w : Nat} {v : Word} (hsense : env.sense = []) (hcut : env.cut = none)
  (hun : u.fuse.unsensed = []) (hmargin : w ∉ u.fuse.marginCommit) (hlock : ¬(w = 252 ∨ w = 253)) (hv : fuseWord u w &&& ~~~v = 0)
  (hnew : (commitWords.contains w && Machine.committed u w) = false)
include hsense hcut hun hmargin hlock hv hnew

/-- One word that nothing cuts off or aborts: programmed, then its commit bit (R607). -/
theorem programAll_word (hab : env.abort = none) :
    programAll u env false [(w, v)] = (withCycle (commitWord (sensedAfter u w v) w), .done) := by
  have hwords : progWords env false [(w, v)] none none u = (commitWord (sensedAfter u w v) w, .done) := by
    simp only [progWords, hnew, Bool.false_and, Bool.false_eq_true, if_false, progWord_done hsense hlock hun hmargin hv]
    rfl
  unfold programAll
  rw [hcut, hab, hwords]
  rfl

/-- One word that an ABORT leaves without its commit bit (R166, R607). -/
theorem programAll_word_aborted (hab : env.abort = some 0) :
    programAll u env false [(w, v)] = (withCycle (sensedAfter u w v), .aborted) := by
  have hwords : progWords env false [(w, v)] none (some 0) u = (sensedAfter u w v, .aborted) := by
    simp only [progWords, hnew, Bool.false_and, Bool.false_eq_true, if_false, progWord_done hsense hlock hun hmargin hv, if_true]
  unfold programAll
  rw [hcut, hab, hwords]
  rfl

end

theorem execFuseProgram_programs (s : State) (r : Req) (index : Nat) (v : Word) (sig : List Byte) (env : FuseEnv)
    (ha : Accepted s r opFuseProgram false) (hlc : ¬(16 ≤ index ∧ index < 24)) (hidx : index < 252) (hsense : env.sense = [])
    (hcut : env.cut = none) (hab : env.abort = none) (hmargin : index ∉ s.fuse.marginCommit) (hun : s.fuse.unsensed = [])
    (hok : fuseStatus (readFuseEnv s env) 0 index [v] sig env = stOk) :
    ∃ t, exec (.fuseProgram r 0 index [v] sig env) s = .next t ∧ fuseWord t index = v ∧ fuseMarginal t index = false ∧
      (index ∈ commitWords → committed t index = true) ∧
      ∀ w, w ≠ index → fuseWord t w = fuseWord s w ∧ committed t w = committed s w := by
  have hok' := (fuseStatus_unhand s r env 0 index [v] sig).trans hok
  have hsame := readFuseEnv_sameFuses s r env
  obtain ⟨hv, hnew⟩ := fuseStatus_ok_word hlc hok'
  obtain ⟨hun', hmargin'⟩ := readFuseEnv_shadows s r env
  generalize hu : readFuseEnv (unhand s r) env = u at hok' hsame hv hnew hun' hmargin'
  rw [hun] at hun'
  rw [← hmargin'] at hmargin
  have hp := sensedAfter_programmed hun' hmargin hv
  refine ⟨_, execFuseProgram_eq ha, ?_⟩
  have hstate : (fuseProgramAns (unhand s r) 0 index [v] sig env).1 = withCycle (commitWord (sensedAfter u index v) index) := by
    rw [fuseProgramAns_accepted (hu.symm ▸ hok'), fuseResult_state, hu, fusePlan_word u v hlc,
      programAll_word hsense hcut hun' hmargin (by omega) hv hnew hab]
  have hlast : SameFuses (commitWord (sensedAfter u index v) index) (answered r opFuseProgram (fuseProgramAns (unhand s r) 0 index [v] sig env)) :=
    (withCycle_sameFuses _).trans (.of_fuse ((answered_fuse r opFuseProgram _).trans (congrArg State.fuse hstate)))
  have hm : index ∉ (sensedAfter u index v).fuse.marginCommit := by
    obtain ⟨a, b, m, e⟩ := hp.rest
    rw [e]
    exact hmargin
  refine ⟨?_, ?_, fun hc => ?_, fun w hw => ⟨?_, ?_⟩⟩
  · rw [hlast.word, fuseWord_commitWord, hp.word]
  · rw [hlast.marginal, fuseMarginal_commitWord, hp.sound]
  · rw [hlast.committed, committed_commitWord_same hc hm]
  · rw [hlast.word, fuseWord_commitWord, hp.others w hw, hsame.word]
  · rw [hlast.committed, committed_commitWord_ne _ hw, hp.committed, hsame.committed]

theorem of_mem_commitWords {w : Nat} (h : w ∈ commitWords) : ¬(16 ≤ w ∧ w < 24) ∧ w < 252 := by
  simp only [commitWords, List.mem_append, List.mem_range, List.mem_map] at h
  rcases h with h | ⟨j, hj, rfl⟩ <;> omega

theorem aborted_fails : Fails stAborted := ⟨by decide, by decide, by decide⟩

theorem execFuseProgram_aborted (s : State) (r : Req) (index : Nat) (v : Word) (sig : List Byte) (env : FuseEnv)
    (ha : Accepted s r opFuseProgram false) (hidx : index ∈ commitWords) (hsense : env.sense = []) (hcut : env.cut = none)
    (hab : env.abort = some 0) (hmargin : index ∉ s.fuse.marginCommit) (hun : s.fuse.unsensed = [])
    (hok : fuseStatus (readFuseEnv s env) 0 index [v] sig env = stOk) :
    ∃ t, exec (.fuseProgram r 0 index [v] sig env) s = .next t ∧ fuseWord t index = v ∧ (∀ w, committed t w = committed s w) ∧
      rg t Sig.LAST_FAIL = BitVec.ofNat 32 (r.tag * 65536 + opFuseProgram * 256 + stAborted) := by
  obtain ⟨hlc, hlt⟩ := of_mem_commitWords hidx
  have hok' := (fuseStatus_unhand s r env 0 index [v] sig).trans hok
  have hsame := readFuseEnv_sameFuses s r env
  obtain ⟨hv, hnew⟩ := fuseStatus_ok_word hlc hok'
  obtain ⟨hun', hmargin'⟩ := readFuseEnv_shadows s r env
  generalize hu : readFuseEnv (unhand s r) env = u at hok' hsame hv hnew hun' hmargin'
  rw [hun] at hun'
  rw [← hmargin'] at hmargin
  have hp := sensedAfter_programmed hun' hmargin hv
  have hans : fuseProgramAns (unhand s r) 0 index [v] sig env = (withCycle (sensedAfter u index v), ansSt stAborted) := by
    rw [fuseProgramAns_accepted (hu.symm ▸ hok'), hu, fusePlan_word u v hlc,
      programAll_word_aborted hsense hcut hun' hmargin (by omega) hv hnew hab]
    rfl
  refine ⟨_, execFuseProgram_eq ha, ?_⟩
  rw [hans]
  have hlast : SameFuses (sensedAfter u index v) (answered r opFuseProgram (withCycle (sensedAfter u index v), ansSt stAborted)) :=
    (withCycle_sameFuses _).trans (.of_fuse (answered_fuse r opFuseProgram _))
  refine ⟨(hlast.word _).trans hp.word, fun w => ?_, (answered_fails rfl aborted_fails).1⟩
  rw [hlast.committed, hp.committed, hsame.committed]

/-! ### A request for FIELD (R615) -/

/-- A word with every fuse blown. -/
abbrev blownWord : Word := 0xFFFFFFFF

theorem blownWord_or (x : Word) : blownWord ||| x = blownWord := BitVec.allOnes_or

/-- Life-cycle words, each to be blown in full. -/
def CyclePlan (ps : List (Nat × Word)) : Prop := ∀ p ∈ ps, 16 ≤ p.1 ∧ p.1 < 24 ∧ p.2 = blownWord

theorem lcPairs_cyclePlan (s : State) (code : Nat) : CyclePlan (lcPairs s code) := by
  intro p hp
  obtain ⟨g, hg, hp⟩ := List.mem_flatMap.mp hp
  have hg4 := List.mem_range.mp hg
  split at hp
  · simp only [List.mem_cons, List.not_mem_nil, or_false] at hp
    rcases hp with rfl | rfl
    · exact ⟨by dsimp only; omega, by dsimp only; omega, rfl⟩
    · exact ⟨by dsimp only; omega, by dsimp only; omega, rfl⟩
  · cases hp

/-- Life-cycle words with nothing marginal blow in full one after another; a word blown before stays so. -/
theorem progWords_cycle {env : FuseEnv} (hsense : env.sense = []) (ps : List (Nat × Word)) (hps : CyclePlan ps) {s : State}
    (hun : s.fuse.unsensed = []) (hmargin : s.fuse.marginCommit = []) :
    ∃ t, progWords env false ps none none s = (t, .done) ∧ t.fuse.lc = s.fuse.lc ∧
      (∀ w, fuseWord s w = blownWord → fuseWord t w = blownWord) ∧ ∀ p ∈ ps, fuseWord t p.1 = blownWord := by
  induction ps generalizing s with
  | nil => exact ⟨s, rfl, rfl, fun _ => id, by simp⟩
  | cons p ps ih =>
    obtain ⟨w, v⟩ := p
    obtain ⟨hlo, hhi, hv⟩ := hps (w, v) List.mem_cons_self
    dsimp only at hlo hhi hv
    subst hv
    have hnocommit : commitWords.contains w = false := by
      rw [Bool.eq_false_iff]
      intro h
      exact (of_mem_commitWords (List.contains_iff_mem.mp h)).1 ⟨hlo, hhi⟩
    have hm : w ∉ s.fuse.marginCommit := by simp [hmargin]
    have hfits : fuseWord s w &&& ~~~blownWord = 0 := BitVec.and_zero
    have hp := sensedAfter_programmed hun hm hfits
    have hplain : commitWord (sensedAfter s w blownWord) w = sensedAfter s w blownWord := if_neg (by rw [hnocommit]; decide)
    have hstep : progWords env false ((w, blownWord) :: ps) none none s = progWords env false ps none none (sensedAfter s w blownWord) := by
      simp only [progWords, hnocommit, Bool.false_and, Bool.false_eq_true, if_false, progWord_done hsense (by omega) hun hm hfits, hplain]
      rfl
    obtain ⟨a, b, m, e⟩ := hp.rest
    obtain ⟨t, hdone, hlc, hkeep, hblown⟩ := ih (fun q hq => hps q (List.mem_cons_of_mem _ hq)) (s := sensedAfter s w blownWord)
      (by rw [e]; exact hun) (by rw [e]; exact hmargin)
    refine ⟨t, hstep.trans hdone, hlc.trans (by rw [e]), fun x hx => hkeep x ?_, fun q hq => ?_⟩
    · by_cases hxw : x = w
      · exact hxw ▸ hp.word
      · exact (hp.others x hxw).trans hx
    · rcases List.mem_cons.mp hq with rfl | hq
      · exact hkeep w hp.word
      · exact hblown q hq

theorem fieldPlan (s : State) : fusePlan s 20 blownWord = lcPairs s 3 := rfl

theorem mem_lcPairs_field (s : State) : (20, blownWord) ∈ lcPairs s 3 ∧ (21, blownWord) ∈ lcPairs s 3 := by
  constructor <;> exact List.mem_flatMap.mpr ⟨2, by decide, by simp⟩

/-- A request for FIELD in DEVELOP passes the judgement where VFSRC and the temperatures let programming run (R606, R615). -/
theorem fuseStatus_field {s : State} {sig : List Byte} {env : FuseEnv} (hlc : fuseCycle s = .develop) (hvfsrc : env.vfsrcOk = true)
    (htemps : ∀ c ∈ env.temps, 0 ≤ c ∧ c ≤ 85) : fuseStatus s 0 20 [blownWord] sig env = stOk := by
  have hrange : fuseRange s 0 20 [blownWord] = false := by
    show decide (3 ≤ (fuseCycle s).code) = false
    rw [hlc]
    rfl
  have hlock : fuseLocked s 0 20 [blownWord] = false := by
    have hregion : writeLocked s 20 = false := rfl
    have hcommit : commitWords.contains 20 = false := by decide
    rw [fuseLocked, hregion, hcommit]
    simp
  have hrun : fuseRunnable env = true := by simpa [fuseRunnable, hvfsrc] using htemps
  unfold fuseStatus
  rw [hlc, hrange, hlock, hrun]
  rfl

theorem execFuseProgram_field (s : State) (r : Req) (sig : List Byte) (env : FuseEnv) (ha : Accepted s r opFuseProgram false)
    (hsense : env.sense = []) (hcut : env.cut = none) (hab : env.abort = none) (hun : s.fuse.unsensed = [])
    (hlc : fuseCycle s = .develop) (hvfsrc : env.vfsrcOk = true) (htemps : ∀ c ∈ env.temps, 0 ≤ c ∧ c ≤ 85)
    (hmargin : s.fuse.marginCommit = []) :
    ∃ t, exec (.fuseProgram r 0 20 [0xFFFFFFFF] sig env) s = .next t ∧ groupBlown t 2 = true ∧ fuseWord t 20 = 0xFFFFFFFF ∧
      fuseWord t 21 = 0xFFFFFFFF ∧ t.fuse.lc = s.fuse.lc := by
  obtain ⟨hun', hmargin'⟩ := readFuseEnv_shadows s r env
  have hcycle : fuseCycle (readFuseEnv (unhand s r) env) = fuseCycle s ∧ (readFuseEnv (unhand s r) env).fuse.lc = s.fuse.lc := by
    obtain ⟨i, e⟩ := unhand_handed s r
    rw [e]
    exact ⟨rfl, rfl⟩
  have hok := fuseStatus_field (sig := sig) (hcycle.1.trans hlc) hvfsrc htemps
  obtain ⟨t, hdone, hlct, -, hblown⟩ := progWords_cycle hsense _ (lcPairs_cyclePlan (readFuseEnv (unhand s r) env) 3)
    (hun'.trans hun) (hmargin'.trans hmargin)
  have hall : programAll (readFuseEnv (unhand s r) env) env false (lcPairs (readFuseEnv (unhand s r) env) 3) = (withCycle t, .done) := by
    unfold programAll
    rw [hcut, hab, hdone]
    rfl
  have hstate : (fuseProgramAns (unhand s r) 0 20 [blownWord] sig env).1 = withCycle t := by
    rw [fuseProgramAns_accepted hok, fuseResult_state, fieldPlan, hall]
  have hfuse := (answered_fuse r opFuseProgram (fuseProgramAns (unhand s r) 0 20 [blownWord] sig env)).trans (congrArg State.fuse hstate)
  have hlast := (withCycle_sameFuses t).trans (.of_fuse hfuse)
  have hword (w : Nat) (hw : (w, blownWord) ∈ lcPairs (readFuseEnv (unhand s r) env) 3) :
      fuseWord (answered r opFuseProgram (fuseProgramAns (unhand s r) 0 20 [blownWord] sig env)) w = blownWord :=
    (hlast.word w).trans (hblown _ hw)
  obtain ⟨h20, h21⟩ := mem_lcPairs_field (readFuseEnv (unhand s r) env)
  refine ⟨_, execFuseProgram_eq ha, ?_, hword 20 h20, hword 21 h21, ?_⟩
  · have hgroup : cautiousWord (answered r opFuseProgram (fuseProgramAns (unhand s r) 0 20 [blownWord] sig env)) 20 = blownWord := by
      rw [cautiousWord, hword 20 h20, blownWord_or]
    show (cautiousWord _ 20 ||| cautiousWord _ 21 != 0) = true
    rw [hgroup, blownWord_or]
    rfl
  · rw [hfuse]
    exact hlct.trans hcycle.2

/-- Settles O27: FUSE_PROGRAM refused, of one word, of one that an ABORT stops, and of FIELD. -/
theorem fuseProgramBlowsWhatItNames : Obligations.FuseProgramBlowsWhatItNames :=
  ⟨execFuseProgram_refused, execFuseProgram_programs, execFuseProgram_aborted, execFuseProgram_field⟩

end Sys2Proof.Machine
end

section
/-! O28: SELFTEST. -/

namespace Sys2Proof.Machine

/-! ### The tests of one axis (R244, R245) -/

/-- The answer of an axis that took a test: OK with the results, or ABORTED where an ABORT won before a test that was asked for. -/
def testAns (s : State) (tests all : Nat) (biscOk : Bool) : Ans :=
  if tests ≠ all then ansSt stAborted
  else ansOk (protFail s ++ leBytes 1 (if bitOf tests 1 then (if biscOk then 1 else 2) else 0) ++ zeros 3)

/-- The tests that run, of those asked for. -/
def testsRun (tests : Nat) (run : TestRun) : Nat :=
  match run.ended with
  | some m => tests &&& m
  | none => tests

/-- The tests of one axis answered. -/
def tested (s : State) (r : Req) (n : Axis) (tests : Nat) (fails : List (Axis × Nat)) (run : TestRun) : State :=
  let s := runTests s (testsRun tests run) [n] fails run.biscOk
  answered r opSelftest (s, testAns s (testsRun tests run) tests run.biscOk)

theorem selAxes_single {s : State} {r : Req} {op : Nat} {special : Bool} {n : Axis} (ha : Accepted s r op special) (hn : r.axisSel = n.val) :
    selAxes r op = [n] := by
  simp [selAxes, ha.single, hn]

theorem runAx_single {s u : State} {r : Req} {op : Nat} {special : Bool} {n : Axis} (ha : Accepted s r op special) (hn : r.axisSel = n.val)
    (f : State → Axis → State × Ans) : runAx u r op f = answered r op (f u n) := by
  simp [runAx, ha.single, hn, answered]

theorem execSelftest_eq {s : State} {r : Req} {tests : Nat} {fails : List (Axis × Nat)} {run : TestRun}
    (ha : Accepted s r opSelftest false) (htests : tests ≤ 3) :
    exec (.selftest r tests fails run) s = .next (selftestRun (unhand s r) r tests fails run) := by
  show execSelftest r tests fails run s = _
  rw [execSelftest, if_neg (by simp [ha.serves]), if_neg (by simp [ha.intime, ha.unbarred, htests])]

theorem testRefused_unhand (s : State) (r : Req) (tests : Nat) (n : Axis) : testRefused (unhand s r) tests n = testRefused s tests n := by
  obtain ⟨i, e⟩ := unhand_handed s r
  rw [e]
  rfl

section
variable {s : State} {r : Req} {n : Axis} {tests : Nat} (fails : List (Axis × Nat)) (run : TestRun) (ha : Accepted s r opSelftest false)
  (hn : r.axisSel = n.val) (htests : tests ≤ 3)
include ha hn htests

/-- A SELFTEST that its axis takes: the tests, the answer, and then the verdict on Biscotti. -/
theorem execSelftest_runs (hgo : testRefused s tests n = false) :
    exec (.selftest r tests fails run) s = .next (if bitOf (testsRun tests run) 1 then
      proofVerdict (tested (unhand s r) r n tests fails run) run.biscOk else tested (unhand s r) r n tests fails run) := by
  have hno : [n].filter (testRefused (unhand s r) tests) = [] := by simp [testRefused_unhand, hgo]
  have hsel : [n].filter (fun n => !testRefused (unhand s r) tests n) = [n] := by simp [testRefused_unhand, hgo]
  rw [execSelftest_eq ha htests, selftestRun, selAxes_single ha hn, hno, hsel, if_neg (show ¬[n].isEmpty = true from Bool.false_ne_true)]
  dsimp only
  rw [runAx_single ha hn, List.contains_nil, if_neg Bool.false_ne_true]
  unfold tested testAns testsRun
  dsimp only
  rw [apply_ite (Prod.mk _)] <;> rfl

/-- A SELFTEST that its axis does not take. -/
theorem execSelftest_refuses (hgo : testRefused s tests n = true) : exec (.selftest r tests fails run) s =
    .next (answered r opSelftest (unhand s r, ansNotInState (unhand s r) n)) := by
  have hsel : [n].filter (fun n => !testRefused (unhand s r) tests n) = [] := by simp [testRefused_unhand, hgo]
  rw [execSelftest_eq ha htests, selftestRun, selAxes_single ha hn, hsel, if_pos (by decide), runAx_single ha hn]

end

/-! ### The protection test (R244, R247) -/

theorem storeTest_axis (s : State) (n : Axis) (fail : Nat) : rgN (storeTest s n fail) (Sig.GD_PST_RESULT n.val) = 2 ^ 31 + fail % 64 ∧
    (storeTest s n fail).ax = s.ax := by
  have hne : Sig.GD_PST_RESULT n.val ≠ Sig.BOOT_STAT := by
    revert n
    decide
  have hval : rgN (setN s (Sig.GD_PST_RESULT n.val) (2 ^ 31 + fail % 64)) (Sig.GD_PST_RESULT n.val) = 2 ^ 31 + fail % 64 := by
    rw [rgN_setN]
    omega
  unfold storeTest
  dsimp only
  split
  · exact ⟨hval, rfl⟩
  · exact ⟨(congrArg BitVec.toNat (rg_setB_ne _ _ _ hne)).trans hval, rfl⟩

theorem pstResult_quiet {n : Axis} : Sig.GD_PST_RESULT n.val ∉ ledgerKeys := by
  revert n
  decide

theorem rgN_quiet {s t : State} (h : Quiet s t) {k : Nat} (hk : k ∉ ledgerKeys) : rgN t k = rgN s k := congrArg BitVec.toNat (h.keys k hk)

/-- The event slice of the tests is staged, or its loss counted, and no more. -/
theorem runTests_staged (s : State) (tests : Nat) (ns : List Axis) (fails : List (Axis × Nat)) (biscOk : Bool) :
    ∃ u data, u = (if bitOf tests 0 then forEach ns (toUs s (s.clk.us + 1980)) (fun s n => storeTest s n (testFails fails n)) else s) ∧
      runTests s tests ns fails biscOk = stageEvent u 0x0020 0xFFFF 1 data := ⟨_, _, rfl, rfl⟩

/-- The protection test of one axis stores its result, and no axis changes its state. -/
theorem runTests_protection {s : State} {n : Axis} {tests : Nat} {fails : List (Axis × Nat)} {biscOk : Bool} (hbit : bitOf tests 0 = true) :
    rgN (runTests s tests [n] fails biscOk) (Sig.GD_PST_RESULT n.val) = 2 ^ 31 + testFails fails n % 64 ∧
      (runTests s tests [n] fails biscOk).ax = s.ax := by
  obtain ⟨u, data, hu, e⟩ := runTests_staged s tests [n] fails biscOk
  rw [if_pos hbit] at hu
  obtain ⟨hval, hax⟩ := storeTest_axis (toUs s (s.clk.us + 1980)) n (testFails fails n)
  obtain ⟨clk, pwm, he⟩ := toUs_rest s (s.clk.us + 1980)
  have hu' : u = storeTest (toUs s (s.clk.us + 1980)) n (testFails fails n) := hu
  rw [e, rgN_quiet (stageEvent_quiet u _ _ _ data) pstResult_quiet, hu']
  exact ⟨hval, ((stageEvent_keeps sameAx_frame.toPostFrame _ _ _ _ _ : SameAx _ _) : _ = _).trans (hax.trans (by rw [he]))⟩

/-- With no protection test only the event slice is staged. -/
theorem runTests_none {s : State} {ns : List Axis} {tests : Nat} {fails : List (Axis × Nat)} {biscOk : Bool} (hbit : bitOf tests 0 = false) :
    Quiet s (runTests s tests ns fails biscOk) ∧ (runTests s tests ns fails biscOk).ax = s.ax ∧
      (runTests s tests ns fails biscOk).flt = s.flt := by
  obtain ⟨u, data, hu, e⟩ := runTests_staged s tests ns fails biscOk
  rw [hbit, if_neg (by decide)] at hu
  subst hu
  rw [e]
  refine ⟨stageEvent_quiet u _ _ _ data, (stageEvent_keeps sameAx_frame.toPostFrame u _ _ _ data : SameAx _ _), ?_⟩
  unfold stageEvent
  split <;> rfl

/-- The verdict on Biscotti leaves the results of the protection test, and an axis in DISABLED stays there (R491, R493). -/
theorem proofVerdict_keeps (s : State) (pass : Bool) (n : Axis) :
    rg (proofVerdict s pass) (Sig.GD_PST_RESULT n.val) = rg s (Sig.GD_PST_RESULT n.val) ∧
    (axSt s n = .disabled → axSt (proofVerdict s pass) n = .disabled) := by
  have hne : Sig.GD_PST_RESULT n.val ≠ Sig.BISC_PROOF_COUNT ∧ Sig.GD_PST_RESULT n.val ≠ Sig.BISC_STAT ∧
      Sig.GD_PST_RESULT n.val ≠ Sig.BOOT_STAT := by
    revert n
    decide
  obtain ⟨hcount, hbisc, hboot⟩ := hne
  cases pass
  case true => exact ⟨rg_setR_ne s _ hcount, id⟩
  case false =>
    have hstay : StaysOut n (setB (setB s Sig.BISC_STAT 7 true) Sig.BOOT_STAT 2 true) (proofVerdict s false) :=
      devFault_keeps (StaysOut.frame n) _ 38 (fun t f => StaysOut.setSrc t _ f)
    exact ⟨((devFault_quiet _ 38).keys _ pstResult_quiet).trans ((rg_setB_ne _ _ _ hboot).trans (rg_setB_ne _ _ _ hbisc)), hstay.dis⟩

/-! ### The proof of Biscotti (R492, R493) -/

theorem tested_none {s : State} {r : Req} {n : Axis} {tests : Nat} {fails : List (Axis × Nat)} {run : TestRun}
    (hbit : bitOf (testsRun tests run) 0 = false) : Quiet s (tested s r n tests fails run) ∧ (tested s r n tests fails run).ax = s.ax ∧
      (tested s r n tests fails run).flt = s.flt := by
  obtain ⟨hquiet, hax, hflt⟩ := runTests_none (s := s) (ns := [n]) (fails := fails) (biscOk := run.biscOk) hbit
  have hlast := answered_only r opSelftest (runTests s (testsRun tests run) [n] fails run.biscOk,
    testAns (runTests s (testsRun tests run) [n] fails run.biscOk) (testsRun tests run) tests run.biscOk)
  exact ⟨hquiet.trans (answered_quiet r opSelftest (_, _)), hlast.bridge.ax.trans hax,
    (congrArg State.flt (show withAnswersOf _ _ = _ from hlast) :).trans hflt⟩

theorem unhand_ax (s : State) (r : Req) : (unhand s r).ax = s.ax ∧ (unhand s r).flt = s.flt := by
  obtain ⟨i, e⟩ := unhand_handed s r
  rw [e]
  exact ⟨rfl, rfl⟩

theorem not_testRefused {s : State} {n : Axis} {tests : Nat} (hlock : s.ds.vdrvLock = false) (hd : axSt s n = .disabled) :
    testRefused s tests n = false := by
  simp [testRefused, hlock, hd]

theorem execSelftest_protects (s : State) (r : Req) (n : Axis) (tests : Nat) (fails : List (Axis × Nat)) (biscOk : Bool)
    (ha : Accepted s r opSelftest false) (hn : r.axisSel = n.val) (htests : tests = 1 ∨ tests = 3) (hlock : s.ds.vdrvLock = false)
    (hd : axSt s n = .disabled) :
    ∃ t, exec (.selftest r tests fails ⟨biscOk, none⟩) s = .next t ∧ rgN t (Sig.GD_PST_RESULT n.val) = 2 ^ 31 + testFails fails n % 64 ∧
      axSt t n = .disabled := by
  refine ⟨_, execSelftest_runs fails ⟨biscOk, none⟩ ha hn (by omega) (not_testRefused hlock hd), ?_⟩
  have hbit : bitOf (testsRun tests ⟨biscOk, none⟩) 0 = true := by
    show bitOf tests 0 = true
    rcases htests with rfl | rfl <;> decide
  obtain ⟨hval, hax⟩ := runTests_protection (s := unhand s r) (n := n) (fails := fails) (biscOk := biscOk) hbit
  have hval' : rgN (tested (unhand s r) r n tests fails ⟨biscOk, none⟩) (Sig.GD_PST_RESULT n.val) = 2 ^ 31 + testFails fails n % 64 :=
    (rgN_quiet (answered_quiet r opSelftest (_, _)) pstResult_quiet).trans hval
  have hst : axSt (tested (unhand s r) r n tests fails ⟨biscOk, none⟩) n = .disabled :=
    ((answered_only r opSelftest (_, _)).axSt n).trans ((SameAx.axSt hax n).trans ((axSt_unhand s r n).trans hd))
  obtain ⟨hkeep, hdis⟩ := proofVerdict_keeps (tested (unhand s r) r n tests fails ⟨biscOk, none⟩) biscOk n
  split
  · exact ⟨(congrArg BitVec.toNat hkeep).trans hval', hdis hst⟩
  · exact ⟨hval', hst⟩

section
variable (s : State) (r : Req) (n : Axis) (fails : List (Axis × Nat)) (ha : Accepted s r opSelftest false) (hn : r.axisSel = n.val)
include ha hn

theorem execSelftest_proves : ∃ t, exec (.selftest r 2 fails ⟨true, none⟩) s = .next t ∧
    rg t Sig.BISC_PROOF_COUNT = rg s Sig.BISC_PROOF_COUNT + 1 ∧ t.ax = s.ax ∧ SignalsBut [Sig.BISC_PROOF_COUNT] s t := by
  refine ⟨_, execSelftest_runs fails ⟨true, none⟩ ha hn (by decide) rfl, ?_⟩
  obtain ⟨hquiet, hax, -⟩ := tested_none (s := unhand s r) (r := r) (n := n) (tests := 2) (fails := fails) (run := ⟨true, none⟩) rfl
  have hq := (unhand_quiet s r).trans hquiet
  rw [if_pos (show bitOf (testsRun 2 ⟨true, none⟩) 1 = true from rfl)]
  generalize tested (unhand s r) r n 2 fails ⟨true, none⟩ = u at hax hq
  refine ⟨?_, hax.trans (unhand_ax s r).1, fun k hk hl => ?_⟩
  · exact (rg_incR_same u _).trans (congrArg (· + 1) (hq.keys _ (by decide)))
  · exact (rg_setR_ne u _ (fun e => hk (List.mem_singleton.mpr e))).trans (hq.keys k hl)

theorem execSelftest_fails : ∃ t, exec (.selftest r 2 fails ⟨false, none⟩) s = .next t ∧ rgB t Sig.BISC_STAT 7 = true ∧
    Counts s t (devSrc 38) := by
  refine ⟨_, execSelftest_runs fails ⟨false, none⟩ ha hn (by decide) rfl, ?_⟩
  obtain ⟨-, -, hflt⟩ := tested_none (s := unhand s r) (r := r) (n := n) (tests := 2) (fails := fails) (run := ⟨false, none⟩) rfl
  rw [if_pos (show bitOf (testsRun 2 ⟨false, none⟩) 1 = true from rfl)]
  generalize tested (unhand s r) r n 2 fails ⟨false, none⟩ = u at hflt
  have hshown : rgB (setB (setB u Sig.BISC_STAT 7 true) Sig.BOOT_STAT 2 true) Sig.BISC_STAT 7 = true :=
    (rgB_setB_ne _ _ _ _ (by decide)).trans (setB_shows u _ 7 true (by decide)).1
  have hsrc : srcOf (setB (setB u Sig.BISC_STAT 7 true) Sig.BOOT_STAT 2 true) (devSrc 38) = srcOf s (devSrc 38) :=
    srcOf_of_cell (congrArg (fun f => cellGet f.srcs (devSrc 38)) (show u.flt = s.flt from hflt.trans (unhand_ax s r).2))
      (fun m hm => by cases hm)
  have hcount := faultEvtB_counts (setB (setB u Sig.BISC_STAT 7 true) Sig.BOOT_STAT 2 true) (devSrc 38)
  exact ⟨(congrArg (fun w : Word => w.getLsbD 7) ((devFault_quiet _ 38).keys Sig.BISC_STAT (by decide))).trans hshown,
    (hcount _).trans (congrArg (fun x : FltSrc => x.events + 1) hsrc)⟩

end

theorem execSelftest_aborts (s : State) (r : Req) (n : Axis) (fails : List (Axis × Nat)) (biscOk : Bool)
    (ha : Accepted s r opSelftest false) (hn : r.axisSel = n.val) (hlock : s.ds.vdrvLock = false) (hd : axSt s n = .disabled) :
    ∃ t, exec (.selftest r 3 fails ⟨biscOk, some 0⟩) s = .next t ∧ Quiet s t ∧ t.ax = s.ax ∧
      rg t Sig.LAST_FAIL = BitVec.ofNat 32 (r.tag * 65536 + opSelftest * 256 + stAborted) := by
  refine ⟨_, execSelftest_runs fails ⟨biscOk, some 0⟩ ha hn (by decide) (not_testRefused hlock hd), ?_⟩
  obtain ⟨hquiet, hax, -⟩ := tested_none (s := unhand s r) (r := r) (n := n) (tests := 3) (fails := fails) (run := ⟨biscOk, some 0⟩)
    (show bitOf (3 &&& 0) 0 = false by decide)
  rw [if_neg (show ¬bitOf (testsRun 3 ⟨biscOk, some 0⟩) 1 = true from (by decide : ¬bitOf (3 &&& 0) 1 = true))]
  refine ⟨(unhand_quiet s r).trans hquiet, hax.trans (unhand_ax s r).1, (answered_fails rfl ?_).1⟩
  exact aborted_fails

theorem execSelftest_refused (s : State) (r : Req) (n : Axis) (tests : Nat) (fails : List (Axis × Nat)) (biscOk : Bool)
    (ha : Accepted s r opSelftest false) (hn : r.axisSel = n.val) (htests : tests = 1 ∨ tests = 3)
    (hbar : s.ds.vdrvLock = true ∨ axSt s n ≠ .disabled) :
    ∃ t, exec (.selftest r tests fails ⟨biscOk, none⟩) s = .next t ∧ Quiet s t ∧ t.ax = s.ax ∧
      rg t Sig.LAST_FAIL = BitVec.ofNat 32 (r.tag * 65536 + opSelftest * 256 + stNotInState) := by
  have hbit : bitOf tests 0 = true := by rcases htests with rfl | rfl <;> decide
  have hrefused : testRefused s tests n = true := by simpa [testRefused, hbit] using hbar
  exact ⟨_, execSelftest_refuses fails ⟨biscOk, none⟩ ha hn (by omega) hrefused, (unhand_quiet s r).trans (answered_quiet r opSelftest (_, _)),
    (answered_only r opSelftest (_, _)).bridge.ax.trans (unhand_ax s r).1, (answered_fails rfl notInState_fails).1⟩

/-- Settles O28: the protection test, the proof of Biscotti passed and failed, a SELFTEST that an ABORT ends, and one refused. -/
theorem selftestsRecordTheirResults : Obligations.SelftestsRecordTheirResults :=
  ⟨execSelftest_protects, execSelftest_proves, execSelftest_fails, execSelftest_aborts, execSelftest_refused⟩

end Sys2Proof.Machine
end

section
/-! O29: PROBE_COUPLING, PROBE_START and PROBE_RAIL_END. -/

namespace Sys2Proof.Machine

/-! ### The probe's operations on the state -/

/-- HC_LIVE shows the probe; no other signal changes (R452). -/
theorem probeLive_rest (s : State) : ∃ regs, probeLive s = { s with regs := regs } ∧ ∀ k, k ≠ Sig.HC_LIVE → regRead regs k = rg s k :=
  ⟨(probeLive s).regs, rfl, fun _ hk => (rg_setF_ne _ _ _ _ hk).trans ((rg_setF_ne _ _ _ _ hk).trans (rg_setB_ne _ _ _ hk))⟩

/-- The demand that starts take is noted in Honeycomb alone (R467). -/
theorem takeNeeds_rest (s : State) (c : Nat) (xs : List (Fin 4 × Rat)) : ∃ hc, takeNeeds s c xs = { s with hc := hc } := by
  refine forEach_inv (Q := fun t => ∃ hc, t = { s with hc := hc }) _ xs (fun t x _ ht => ?_) ⟨s.hc, rfl⟩
  obtain ⟨hc, rfl⟩ := ht
  exact ⟨_, rfl⟩

theorem coupleNote_rest (s : State) (note : List Byte) : ∃ rcd, coupleNote s note = { s with rcd := rcd } := by
  unfold coupleNote
  split <;> exact ⟨_, rfl⟩

/-- The rails that can be probed do not depend on the runtime, the record or Honeycomb's own state (R452). -/
theorem nextRail_open (s : State) (rt : Rt) (rcd : Rec) (hc : Hc) (ms : List (Fin 4)) :
    nextRail { s with rt := rt, rcd := rcd, hc := hc } ms = nextRail s ms := by
  induction ms with
  | nil => rfl
  | cons m ms ih =>
    have haxis : probeAxis { s with rt := rt, rcd := rcd, hc := hc } m = probeAxis s m := rfl
    have hstill (n : Axis) : otherStill { s with rt := rt, rcd := rcd, hc := hc } n = otherStill s n := rfl
    unfold nextRail
    simp only [haxis, hstill, ih]

/-- A probe that begins runs on the first rail that can be probed (R453, R455). -/
theorem beginProbe_rail {s : State} {req : Option Req} {m : Fin 4} {n : Axis} {ms : List (Fin 4)}
    (h : nextRail s allRails = some (m, n, ms)) :
    ∃ p, (beginProbe s req).hc.probe = some p ∧ p.rail = m ∧ p.axis = n ∧ p.todo = ms ∧ p.start = s.clk.tb ∧ p.req = req ∧
      p.stopped = none ∧ (beginProbe s req).hc.scheduled = (s.hc.scheduled && req.isSome) ∧ (beginProbe s req).ax = s.ax := by
  have hnext : nextRail { s with hc := { s.hc with scheduled := s.hc.scheduled && req.isSome } } allRails = some (m, n, ms) :=
    (nextRail_open s s.rt s.rcd _ allRails).trans h
  unfold beginProbe
  dsimp only
  rw [hnext]
  exact ⟨_, rfl, rfl, rfl, rfl, rfl, rfl, rfl, rfl, rfl⟩

/-! ### PROBE_COUPLING (R163, R467, R468, R588) -/

theorem execProbeCoupling_eq {s : State} {r : Req} {noteOnly : Bool} {note : List Byte} (ha : Accepted s r opProbe false) :
    exec (.probeCoupling r noteOnly note) s = .next (answered r opProbe (probeAns (unhand s r) r noteOnly note)) := by
  show execProbeCoupling r noteOnly note s = _
  rw [execProbeCoupling, if_pos ha.serves, devCmd_eq ha]

theorem probeFits_unhand (s : State) (r : Req) : probeFits (unhand s r) = probeFits s ∧ queueAhead (unhand s r) 4 = queueAhead s 4 := by
  obtain ⟨i, e⟩ := unhand_handed s r
  rw [e]
  exact ⟨rfl, rfl⟩

/-- A note stands for the coupling that is open, or for the next one (R588). -/
theorem coupleNote_kept (s : State) (note : List Byte) : (s.rcd.coupling = none → (coupleNote s note).rcd.nextNote = note) ∧
    ∀ c, s.rcd.coupling = some c → (coupleNote s note).rcd.coupling = some (c.1, note) := by
  refine ⟨fun h => ?_, fun c h => ?_⟩
  all_goals
    unfold coupleNote
    rw [h]

theorem execProbeCoupling_notes (s : State) (r : Req) (note : List Byte) (ha : Accepted s r opProbe false) (hlen : note.length ≤ 64) :
    ∃ t, exec (.probeCoupling r true note) s = .next t ∧ Quiet s t ∧ t.rt.defq = s.rt.defq ∧
      (s.rcd.coupling = none → t.rcd.nextNote = note) ∧ ∀ c, s.rcd.coupling = some c → t.rcd.coupling = some (c.1, note) := by
  have hans : probeAns (unhand s r) r true note = (coupleNote (unhand s r) note, ansOk (mohmBytes noMohm)) :=
    (if_neg (Nat.not_lt.mpr hlen)).trans (if_pos rfl)
  obtain ⟨hnext, hopen⟩ := coupleNote_kept (unhand s r) note
  rw [unhand_rcd] at hnext hopen
  obtain ⟨rcd, e⟩ := coupleNote_rest (unhand s r) note
  have hquiet : Quiet (unhand s r) (coupleNote (unhand s r) note) := by
    rw [e]
    exact Quiet.upd_open (unhand s r) _ _ _ _ _
  have hdefq : (coupleNote (unhand s r) note).rt.defq = s.rt.defq := by
    obtain ⟨i, he⟩ := unhand_handed s r
    rw [e, he]
  refine ⟨_, execProbeCoupling_eq ha, ?_⟩
  rw [hans]
  refine ⟨((unhand_quiet s r).trans hquiet).trans (answered_quiet r opProbe (_, _)), ?_, ?_⟩
  · exact (congrArg (fun u => u.rt.defq) (show withAnswersOf _ _ = _ from answered_only r opProbe (coupleNote (unhand s r) note, _)) :).trans hdefq
  · rw [answered_rcd]
    exact ⟨hnext, hopen⟩

theorem execProbeCoupling_starts (s : State) (r : Req) (note : List Byte) (m : Fin 4) (n : Axis) (ms : List (Fin 4))
    (ha : Accepted s r opProbe false) (hlen : note.length ≤ 64) (hfits : probeFits s = true) (hqueue : queueAhead s 4 = false)
    (hrail : nextRail s allRails = some (m, n, ms)) :
    ∃ t p, exec (.probeCoupling r false note) s = .next t ∧ t.hc.probe = some p ∧ p.rail = m ∧ p.axis = n ∧ p.todo = ms ∧
      p.start = s.clk.tb ∧ p.req = some r ∧ p.stopped = none ∧ t.ax = s.ax := by
  obtain ⟨hfits', hqueue'⟩ := probeFits_unhand s r
  have hans : probeAns (unhand s r) r false note = (probeNow (unhand s r) r note, ansLater) :=
    (if_neg (Nat.not_lt.mpr hlen)).trans ((if_neg (by decide)).trans (if_pos (by rw [hfits', hqueue', hfits, hqueue]; rfl)))
  obtain ⟨u, hu, hnow⟩ : ∃ u, (∃ rt rcd hc, u = { s with rt := rt, rcd := rcd, hc := hc }) ∧
      probeNow (unhand s r) r note = beginProbe u (some r) := by
    refine ⟨_, ?_, rfl⟩
    obtain ⟨i, e⟩ := unhand_handed s r
    have hnote : ∃ rcd, (if note.isEmpty then unhand s r else coupleNote (unhand s r) note) = { unhand s r with rcd := rcd } := by
      split
      · exact ⟨_, rfl⟩
      · exact coupleNote_rest _ note
    obtain ⟨rcd, hn⟩ := hnote
    obtain ⟨hc, ht⟩ := takeNeeds_rest { unhand s r with rcd := rcd } 4 (probeNeeds { unhand s r with rcd := rcd })
    rw [hn, ht, e]
    exact ⟨_, _, _, rfl⟩
  obtain ⟨rt, rcd, hc, rfl⟩ := hu
  obtain ⟨p, hp, hr, hx, htodo, hstart, hreq, hstop, -, hax⟩ := beginProbe_rail (req := some r) ((nextRail_open s rt rcd hc allRails).trans hrail)
  refine ⟨_, p, execProbeCoupling_eq ha, ?_⟩
  rw [hans, hnow]
  exact ⟨hp, hr, hx, htodo, hstart, hreq, hstop, hax⟩

theorem execProbeCoupling_defers (s : State) (r : Req) (note : List Byte) (ha : Accepted s r opProbe false) (hlen : note.length ≤ 64)
    (hnot : (probeFits s && !queueAhead s 4) = false) (hroom : s.rt.defq.length < 64) :
    ∃ t, exec (.probeCoupling r false note) s = .next t ∧ Quiet s t ∧
      t.rt.defq = insertEntry ⟨r, none, [], [], note, s.clk.us⟩ s.rt.defq := by
  obtain ⟨hfits, hqueue⟩ := probeFits_unhand s r
  obtain ⟨i, e⟩ := unhand_handed s r
  have hans : ∃ a, probeAns (unhand s r) r false note = (deferEntry (unhand s r) ⟨r, none, [], [], note, s.clk.us⟩, a) := by
    have hfull : ¬64 ≤ (unhand s r).rt.defq.length := by
      rw [e]
      exact Nat.not_le.mpr hroom
    have hus : (unhand s r).clk.us = s.clk.us := (unhand_quiet s r).us
    unfold probeAns
    rw [if_neg (Nat.not_lt.mpr hlen), if_neg (by decide), hfits, hqueue, hnot, if_neg (by decide), if_neg hfull, hus]
    exact ⟨_, rfl⟩
  obtain ⟨a, hans⟩ := hans
  refine ⟨_, execProbeCoupling_eq ha, ?_⟩
  rw [hans]
  have hquiet : Quiet (unhand s r) (deferEntry (unhand s r) ⟨r, none, [], [], note, s.clk.us⟩) := Quiet.upd_open (unhand s r) _ _ _ _ _
  refine ⟨((unhand_quiet s r).trans hquiet).trans (answered_quiet r opProbe (_, _)), ?_⟩
  have hdefq : (deferEntry (unhand s r) ⟨r, none, [], [], note, s.clk.us⟩).rt.defq =
      insertEntry ⟨r, none, [], [], note, s.clk.us⟩ s.rt.defq := by
    rw [e]
    rfl
  exact (congrArg (fun u => u.rt.defq) (show withAnswersOf _ _ = _ from answered_only r opProbe (deferEntry (unhand s r) _, a)) :).trans hdefq

/-! ### PROBE_START (R450, R455, R467) -/

/-- A rail that can be probed has a probe axis. -/
theorem probeAxis_of_nextRail {s : State} {ms : List (Fin 4)} {x : Fin 4 × Axis × List (Fin 4)} (h : nextRail s ms = some x) :
    ∃ m ∈ ms, probeAxis s m ≠ none := by
  induction ms with
  | nil => cases h
  | cons m ms ih =>
    unfold nextRail at h
    split at h
    case h_1 n hn => exact ⟨m, List.mem_cons_self, by simp [hn]⟩
    case h_2 =>
      obtain ⟨k, hk, hax⟩ := ih h
      exact ⟨k, List.mem_cons_of_mem m hk, hax⟩

theorem probeSet_ne_nil {s : State} {x : Fin 4 × Axis × List (Fin 4)} (h : nextRail s allRails = some x) : (probeSet s).isEmpty = false := by
  obtain ⟨m, hm, hax⟩ := probeAxis_of_nextRail h
  obtain ⟨n, hn⟩ := Option.ne_none_iff_exists'.mp hax
  have hmem : n ∈ probeSet s := List.mem_filterMap.mpr ⟨m, hm, hn⟩
  exact List.isEmpty_eq_false_iff.mpr (List.ne_nil_of_mem hmem)

theorem execProbeStart_starts (s : State) (m : Fin 4) (n : Axis) (ms : List (Fin 4)) (hrun : inRun s = true)
    (hsched : s.hc.scheduled = true) (hnone : s.hc.probe = none) (hrail : nextRail s allRails = some (m, n, ms))
    (hready : probeReady s = true) (hreserve : reserveLow s = false) (hfits : needsFit s 4 (probeNeeds s) = true) :
    ∃ t p, exec .probeStart s = .next t ∧ t.hc.probe = some p ∧ p.rail = m ∧ p.axis = n ∧ p.start = s.clk.tb ∧ p.req = none ∧
      t.hc.scheduled = false ∧ t.ax = s.ax := by
  have hstep : exec .probeStart s = .next (beginProbe (takeNeeds s 4 (probeNeeds s)) none) :=
    if_pos (by simp [hrun, hsched, hnone, probeSet_ne_nil hrail, hready, hreserve, hfits])
  obtain ⟨hc, e⟩ := takeNeeds_rest s 4 (probeNeeds s)
  rw [e] at hstep
  obtain ⟨p, hp, hr, hx, -, hstart, hreq, -, hoff, hax⟩ :=
    beginProbe_rail (req := none) ((nextRail_open s s.rt s.rcd hc allRails).trans hrail)
  exact ⟨_, p, hstep, hp, hr, hx, hstart, hreq, hoff.trans (Bool.and_false _), hax⟩

/-! ### PROBE_RAIL_END (R453, R454) -/

/-- The estimates of the rails, the time of the last result and HC_STAT left as they are. -/
structure EstimatesKept (s t : State) : Prop where
  rails : t.hcRail = s.hcRail
  at_ : t.hc.probeAt = s.hc.probeAt
  stat : rg t Sig.HC_STAT = rg s Sig.HC_STAT

namespace EstimatesKept

theorem trans {s t u : State} (h : EstimatesKept s t) (g : EstimatesKept t u) : EstimatesKept s u :=
  ⟨g.rails.trans h.rails, g.at_.trans h.at_, g.stat.trans h.stat⟩

theorem of_quiet {s t : State} (h : Quiet s t) : EstimatesKept s t := ⟨h.hcRail, congrArg Hc.probeAt h.hc, h.keys _ (by decide)⟩

/-- The running probe replaced, and HC_LIVE after it. -/
theorem probeLive (s : State) (p : Option Probe) : EstimatesKept s (probeLive { s with hc := { s.hc with probe := p } }) := by
  obtain ⟨regs, e, hregs⟩ := probeLive_rest { s with hc := { s.hc with probe := p } }
  rw [e]
  exact ⟨rfl, rfl, hregs _ (by decide)⟩

theorem endProbe (s : State) (results : List Nat) (failed : Bool) (req : Option Req) : EstimatesKept s (endProbe s results failed req) := by
  have hclose := (probeLive s none).trans (of_quiet (closeCoupling_keeps quiet_post _ (if failed then 1 else 0) results))
  cases req with
  | some r => exact hclose.trans (of_quiet (finishDev_quiet _ r opProbe stOk (mohmBytes results)))
  | none => exact hclose

theorem probeOn (s : State) (p : Probe) : EstimatesKept s (probeOn s p) := by
  unfold Machine.probeOn
  split
  · exact probeLive s _
  · split
    · exact endProbe s _ _ _
    · split
      · exact probeLive s _
      · exact endProbe s _ _ _

end EstimatesKept

/-- Where another rail can be probed, the probe goes on there with the rails that are to be done again (R454). -/
theorem probeOn_next {s : State} {p : Probe} {m : Fin 4} {n : Axis} {ms : List (Fin 4)} (h : nextRail s p.todo = some (m, n, ms)) :
    ∃ q, (probeOn s p).hc.probe = some q ∧ q.again = p.again := by
  unfold probeOn
  rw [h]
  exact ⟨_, rfl, rfl⟩

/-- What a rail's probe measured: its two means of voltage and current, and whether the other axis was steady (R453, R454). -/
def railResult (p : Probe) (v1 i1 v2 i2 : Int) (steady : Bool) : Option (Rat × Rat) :=
  probeResult (windowMean p.win1 v1 i1).1 (windowMean p.win1 v1 i1).2 (windowMean p.win2 v2 i2).1 (windowMean p.win2 v2 i2).2
    (otherSteady p.other steady)

/-- The state in which a result of a rail is taken over (R454). -/
def railAdopted (s : State) (m : Fin 4) (r v : Rat) : State :=
  let s := modHcRail s m (fun h => { h with rsrc := some r, voc := v })
  let s := setTel (setTel s (Sig.HC_RSRC m.val) (r * 1000)) (Sig.HC_VOC m.val) (v * 1000)
  { setB s Sig.HC_STAT 6 true with hc := { s.hc with probeAt := some (lfSeconds s) } }

theorem railAdopted_facts (s : State) (m : Fin 4) (r v : Rat) : ((railAdopted s m r v).hcRail[m]).rsrc = some r ∧
    ((railAdopted s m r v).hcRail[m]).voc = v ∧ (∀ k, k ≠ m → (railAdopted s m r v).hcRail[k] = s.hcRail[k]) ∧
    rgB (railAdopted s m r v) Sig.HC_STAT 6 = true ∧ (railAdopted s m r v).hc.probeAt = some (lfSeconds s) := by
  obtain ⟨regs, e⟩ := setTel_rest (modHcRail s m (fun h => { h with rsrc := some r, voc := v })) (Sig.HC_RSRC m.val) (r * 1000)
  obtain ⟨regs', e'⟩ := setTel_rest { modHcRail s m (fun h => { h with rsrc := some r, voc := v }) with regs := regs }
    (Sig.HC_VOC m.val) (v * 1000)
  have hsame := modV_same s.hcRail m (fun h => { h with rsrc := some r, voc := v })
  unfold railAdopted
  dsimp only
  rw [e, e']
  refine ⟨(congrArg HcRail.rsrc hsame :), (congrArg HcRail.voc hsame :), fun k hk => modV_ne s.hcRail _ (Ne.symm hk), ?_, rfl⟩
  exact (setB_shows _ Sig.HC_STAT 6 true (by decide)).1

/-- A probe that goes on after a result of its rail (R454). -/
def afterResult (s : State) (p : Probe) (r v : Rat) : State :=
  let t := railAdopted (toTick s (p.start + 4400000)) p.rail r v
  probeOn t { p with results := setAt p.results p.rail.val (rgN t (Sig.HC_RSRC p.rail.val)) }

/-- A probe that goes on after its rail gave no result: that rail once more, or as failed (R454). -/
def afterFailure (s : State) (p : Probe) : State :=
  let t := toTick s (p.start + 4400000)
  if p.retry then probeOn (setB t Sig.HC_STAT 7 true) { p with failed := true }
  else probeOn t { p with again := p.again ++ [p.rail] }

section
variable {s : State} {p : Probe} (v1 i1 v2 i2 : Int) (steady : Bool) (hrun : inRun s = true) (hp : s.hc.probe = some p)
include hrun hp

/-- A rail's probe that was not stopped ends 11 ms after it began: its result taken over, or the rail marked as failed (R453, R454). -/
theorem execProbeRailEnd_eq (hstop : p.stopped = none) : exec (.probeRailEnd p.rail v1 i1 v2 i2 steady) s =
    match railResult p v1 i1 v2 i2 steady with
    | some (r, v) => .next (afterResult s p r v)
    | none => .next (afterFailure s p) := by
  have hfail : (if p.retry then Host.Outcome.next (probeOn (setB (toTick s (p.start + 4400000)) Sig.HC_STAT 7 true) { p with failed := true })
      else .next (probeOn (toTick s (p.start + 4400000)) { p with again := p.again ++ [p.rail] }) : Host.Outcome State Fault Refusal) =
      .next (afterFailure s p) := (apply_ite Host.Outcome.next _ _ _).symm
  show execProbeRailEnd p.rail v1 i1 v2 i2 steady s = _
  unfold execProbeRailEnd
  rw [hp]
  dsimp only
  rw [if_neg (by simp [hrun])]
  split
  case h_1 k hk => exact absurd (hstop.symm.trans hk) (by simp)
  case h_2 =>
    rw [hfail]
    rfl

end

theorem execProbeRailEnd_adopts (s : State) (p : Probe) (v1 i1 v2 i2 : Int) (steady : Bool) (r v : Rat) (hrun : inRun s = true)
    (hp : s.hc.probe = some p) (hstop : p.stopped = none) (hresult : railResult p v1 i1 v2 i2 steady = some (r, v)) :
    ∃ t, exec (.probeRailEnd p.rail v1 i1 v2 i2 steady) s = .next t ∧ (t.hcRail[p.rail]).rsrc = some r ∧ (t.hcRail[p.rail]).voc = v ∧
      (∀ m, m ≠ p.rail → t.hcRail[m] = s.hcRail[m]) ∧ rgB t Sig.HC_STAT 6 = true ∧
      t.hc.probeAt = some (lfSeconds (toTick s (p.start + 4400000))) := by
  have hstep := execProbeRailEnd_eq v1 i1 v2 i2 steady hrun hp hstop
  rw [hresult] at hstep
  refine ⟨_, hstep, ?_⟩
  unfold afterResult
  dsimp only
  obtain ⟨hrsrc, hvoc, hothers, hstat, hat⟩ := railAdopted_facts (toTick s (p.start + 4400000)) p.rail r v
  have hkept := EstimatesKept.probeOn (railAdopted (toTick s (p.start + 4400000)) p.rail r v)
    { p with results := setAt p.results p.rail.val (rgN (railAdopted (toTick s (p.start + 4400000)) p.rail r v) (Sig.HC_RSRC p.rail.val)) }
  have hrails : (toTick s (p.start + 4400000)).hcRail = s.hcRail := by
    obtain ⟨clk, pwm, e⟩ := toTick_rest s (p.start + 4400000)
    rw [e]
  rw [hkept.rails, hkept.at_, rgB, hkept.stat]
  exact ⟨hrsrc, hvoc, fun m hm => (hothers m hm).trans (by rw [hrails]), hstat, hat⟩

theorem execProbeRailEnd_repeats (s : State) (p : Probe) (v1 i1 v2 i2 : Int) (steady : Bool) (hrun : inRun s = true)
    (hp : s.hc.probe = some p) (hstop : p.stopped = none) (hresult : railResult p v1 i1 v2 i2 steady = none) (hretry : p.retry = false) :
    ∃ t, exec (.probeRailEnd p.rail v1 i1 v2 i2 steady) s = .next t ∧ t.hcRail = s.hcRail ∧ rg t Sig.HC_STAT = rg s Sig.HC_STAT ∧
      ∀ m n ms, nextRail (toTick s (p.start + 4400000)) p.todo = some (m, n, ms) → ∃ q, t.hc.probe = some q ∧ p.rail ∈ q.again := by
  have hstep := execProbeRailEnd_eq v1 i1 v2 i2 steady hrun hp hstop
  rw [hresult] at hstep
  refine ⟨_, hstep, ?_⟩
  unfold afterFailure
  dsimp only
  rw [if_neg (by simp [hretry])]
  obtain ⟨clk, pwm, e⟩ := toTick_rest s (p.start + 4400000)
  have hkept := EstimatesKept.probeOn (toTick s (p.start + 4400000)) { p with again := p.again ++ [p.rail] }
  refine ⟨hkept.rails.trans (by rw [e]), hkept.stat.trans (by rw [e]; rfl), fun m n ms hnext => ?_⟩
  obtain ⟨q, hq, hagain⟩ := probeOn_next (p := { p with again := p.again ++ [p.rail] }) hnext
  exact ⟨q, hq, hagain ▸ List.mem_append_right _ List.mem_cons_self⟩

theorem execProbeRailEnd_fails (s : State) (p : Probe) (v1 i1 v2 i2 : Int) (steady : Bool) (hrun : inRun s = true)
    (hp : s.hc.probe = some p) (hstop : p.stopped = none) (hresult : railResult p v1 i1 v2 i2 steady = none) (hretry : p.retry = true) :
    ∃ t, exec (.probeRailEnd p.rail v1 i1 v2 i2 steady) s = .next t ∧ t.hcRail = s.hcRail ∧ rgB t Sig.HC_STAT 7 = true := by
  have hstep := execProbeRailEnd_eq v1 i1 v2 i2 steady hrun hp hstop
  rw [hresult] at hstep
  refine ⟨_, hstep, ?_⟩
  unfold afterFailure
  dsimp only
  rw [if_pos hretry]
  obtain ⟨clk, pwm, e⟩ := toTick_rest s (p.start + 4400000)
  have hkept := EstimatesKept.probeOn (setB (toTick s (p.start + 4400000)) Sig.HC_STAT 7 true) { p with failed := true }
  refine ⟨hkept.rails.trans (by rw [e]; rfl), ?_⟩
  rw [rgB, hkept.stat]
  exact (setB_shows _ Sig.HC_STAT 7 true (by decide)).1

theorem execProbeRailEnd_stopped (s : State) (p : Probe) (v1 i1 v2 i2 : Int) (steady : Bool) (k : Nat) (hrun : inRun s = true)
    (hp : s.hc.probe = some p) (hstop : p.stopped = some k) :
    ∃ t, exec (.probeRailEnd p.rail v1 i1 v2 i2 steady) s = .next t ∧ t.hcRail = s.hcRail ∧ t.hc.probe = none := by
  have hstep : exec (.probeRailEnd p.rail v1 i1 v2 i2 steady) s =
      .next (probeLive { toTick s (k + 400000) with hc := { s.hc with probe := none } }) := by
    show execProbeRailEnd p.rail v1 i1 v2 i2 steady s = _
    unfold execProbeRailEnd
    rw [hp]
    dsimp only
    rw [if_neg (by simp [hrun]), hstop]
  refine ⟨_, hstep, ?_⟩
  obtain ⟨clk, pwm, e⟩ := toTick_rest s (k + 400000)
  obtain ⟨regs, he, -⟩ := probeLive_rest { toTick s (k + 400000) with hc := { s.hc with probe := none } }
  rw [he, e]
  exact ⟨rfl, rfl⟩

/-- Settles O29: PROBE_COUPLING of a note, started and deferred; PROBE_START; PROBE_RAIL_END with a result, without one the first time and
the second, and of a probe that was stopped. -/
theorem couplingProbesMeasureTheRails : Obligations.CouplingProbesMeasureTheRails :=
  ⟨execProbeCoupling_notes, execProbeCoupling_starts, execProbeCoupling_defers, execProbeStart_starts, execProbeRailEnd_adopts,
    execProbeRailEnd_repeats, execProbeRailEnd_fails, execProbeRailEnd_stopped⟩

end Sys2Proof.Machine
end

section
/-! What the edges of the gate lines and the passing of time leave of a module (chapters 7 and 8): the channels, the gates, and the place
of the counter in its period. -/

namespace Sys2Proof.Machine

/-! ### The channels of a module -/

@[simp] theorem ch_modCh_same (p : PwmAx) (ph : Fin 3) (f : Chan → Chan) : (p.modCh ph f).ch ph = f (p.ch ph) := by
  match ph with
  | 0 | 1 | 2 => rfl

theorem ch_modCh_ne (p : PwmAx) {ph q : Fin 3} (f : Chan → Chan) (h : q ≠ ph) : (p.modCh ph f).ch q = p.ch q := by
  match ph, q with
  | 0, 0 | 1, 1 | 2, 2 => exact absurd rfl h
  | 0, 1 | 0, 2 | 1, 0 | 1, 2 | 2, 0 | 2, 1 => rfl

@[simp] theorem ch_mapCh (p : PwmAx) (f : Chan → Chan) (ph : Fin 3) : (p.mapCh f).ch ph = f (p.ch ph) := by
  match ph with
  | 0 | 1 | 2 => rfl

theorem ch_lines (p : PwmAx) (l0 l1 t : Nat) (ph : Fin 3) : (p.lines l0 l1 t).ch ph = (p.ch ph).turnOns ph l0 l1 t := by
  match ph with
  | 0 | 1 | 2 => rfl

@[simp] theorem modPwm_module (s : State) (n : Axis) (f : PwmAx → PwmAx) : (modPwm s n f).pwm[n] = f (s.pwm[n]) := modV_same _ _ _

/-! ### The gate lines -/

/-- A mask of the six gates has the bit of a gate where the gate is in it. -/
theorem bitOf_gateMask (v : Gate → Bool) (g : Gate) :
    bitOf (allGates.foldl (fun m g => m + bitIf (v g) (gateBit g)) 0) (gateBit g) = v g := by
  have hbits : ∀ a b c d e f : Bool,
      (List.range 6).map (bitOf (0 + bitIf a 0 + bitIf b 1 + bitIf c 2 + bitIf d 3 + bitIf e 4 + bitIf f 5)) = [a, b, c, d, e, f] := by
    decide +kernel
  have h := hbits (v ⟨0, true⟩) (v ⟨0, false⟩) (v ⟨1, true⟩) (v ⟨1, false⟩) (v ⟨2, true⟩) (v ⟨2, false⟩)
  simp only [List.range_succ, List.range_zero, List.nil_append, List.cons_append, List.map_cons, List.map_nil, List.cons.injEq, and_true] at h
  obtain ⟨h0, h1, h2, h3, h4, h5⟩ := h
  obtain ⟨ph, hi⟩ := g
  match ph, hi with
  | 0, true => exact h0
  | 0, false => exact h1
  | 1, true => exact h2
  | 1, false => exact h3
  | 2, true => exact h4
  | 2, false => exact h5

theorem bitOf_lineMask (s : State) (n : Axis) (g : Gate) : bitOf (lineMask s n) (gateBit g) = gateOn s n g :=
  bitOf_gateMask (gateOn s n) g

/-- Two states in which the DS, the state of the axis, its latches, what is out of service and the two commands of a phase agree drive its
gates alike. -/
theorem gateOn_congr {s t : State} {n : Axis} {ph : Fin 3} (hds : t.ds = s.ds) (hax : t.ax = s.ax) (hgd : t.gd = s.gd)
    (hl : rg t (Sig.GD_LATCH n.val) = rg s (Sig.GD_LATCH n.val)) (hc : ∀ hi, cmdOf t n ⟨ph, hi⟩ = cmdOf s n ⟨ph, hi⟩) (hi : Bool) :
    gateOn t n ⟨ph, hi⟩ = gateOn s n ⟨ph, hi⟩ := by
  have hst : axSt t n = axSt s n := SameAx.axSt hax n
  have hiso : isolated t n ph = isolated s n ph := by simp only [isolated, latchByte, rgF, rgN, hl, hgd]
  have hcd : cdDemand t n = cdDemand s n := by unfold cdDemand; rw [hst, hax]
  have hgr : dsGrants t n = dsGrants s n := by simp only [dsGrants, dsReady, hds]
  have hpat : patShort t n = patShort s n := congrArg (fun d : Ds => bitOf d.pats n.val) hds
  have hdd : ddDemand t n = ddDemand s n := by unfold ddDemand; rw [hst, hgr, hpat, hgd]
  simp only [gateOn, hds, hiso, hcd, hdd, hc]

/-- The interlock keeps a gate off while the other one of its phase is commanded (R223). -/
theorem gateOn_of_other {s : State} {n : Axis} {ph : Fin 3} {hi : Bool} (h : cmdOf s n ⟨ph, !hi⟩ = true) : gateOn s n ⟨ph, hi⟩ = false := by
  simp [gateOn, h]

/-- An isolated half-bridge has both gates off (R235). -/
theorem gateOn_of_isolated {s : State} {n : Axis} {g : Gate} (h : isolated s n g.ph = true) : gateOn s n g = false := by
  simp [gateOn, h]

/-! ### Changes of the modules alone -/

/-- The two states agree in everything but the modules. -/
def OnlyModules (s t : State) : Prop := ∃ pwm, t = { s with pwm := pwm }

namespace OnlyModules

theorem refl (s : State) : OnlyModules s s := ⟨s.pwm, rfl⟩

theorem trans {s t u : State} (h : OnlyModules s t) (g : OnlyModules t u) : OnlyModules s u := by
  obtain ⟨pwm, rfl⟩ := h
  obtain ⟨pwm', rfl⟩ := g
  exact ⟨pwm', rfl⟩

variable {s t : State} (h : OnlyModules s t)
include h

theorem ax : t.ax = s.ax := by obtain ⟨pwm, rfl⟩ := h; rfl
theorem regs : t.regs = s.regs := by obtain ⟨pwm, rfl⟩ := h; rfl
theorem gd : t.gd = s.gd := by obtain ⟨pwm, rfl⟩ := h; rfl
theorem clk : t.clk = s.clk := by obtain ⟨pwm, rfl⟩ := h; rfl
theorem link : t.link = s.link := by obtain ⟨pwm, rfl⟩ := h; rfl
theorem flt : t.flt = s.flt := by obtain ⟨pwm, rfl⟩ := h; rfl
theorem loop : t.loop = s.loop := by obtain ⟨pwm, rfl⟩ := h; rfl

end OnlyModules

/-! ### Edges -/

/-- A change to a bridge with its edges is the change itself but for the modules. -/
theorem withEdges_rest (s : State) (n : Axis) (f : State → State) : OnlyModules (f s) (withEdges s n f) := by
  have hlines : OnlyModules (f s) (withLines s n f) := by
    unfold withLines
    dsimp only
    split
    · exact .refl (f s)
    · exact ⟨_, rfl⟩
  unfold withEdges
  dsimp only
  split
  · exact hlines
  · exact forEach_inv (Q := OnlyModules (f s)) _ _ (fun t m _ ht => ht.trans ⟨(atcRestart t m).pwm, rfl⟩) hlines

/-- A view of a module that neither the log of its edges nor the restart of its blanking window changes. -/
structure EdgeFree {α : Type} (view : PwmAx → α) : Prop where
  lines : ∀ p l0 l1 t, view (p.lines l0 l1 t) = view p
  atc : ∀ (p : PwmAx) o c, view { p with atcOpenAt := o, atcCloseAt := c } = view p

/-- The restarts of blanking windows keep such a view. -/
theorem atcRestarts_view {α : Type} {view : PwmAx → α} (hatc : ∀ (p : PwmAx) o c, view { p with atcOpenAt := o, atcCloseAt := c } = view p)
    (xs : List Axis) (s : State) (m : Axis) : view ((forEach xs s atcRestart).pwm[m]) = view (s.pwm[m]) :=
  forEach_inv (Q := fun t => view (t.pwm[m]) = view (s.pwm[m])) _ _ (fun t x _ ht => (modV_view t.pwm x _ view (fun p => hatc p _ _) m).trans ht) rfl

theorem withEdges_view {α : Type} {view : PwmAx → α} (hv : EdgeFree view) (s : State) (n : Axis) (f : State → State) (m : Axis) :
    view ((withEdges s n f).pwm[m]) = view ((f s).pwm[m]) := by
  have hlines : view ((withLines s n f).pwm[m]) = view ((f s).pwm[m]) := by
    unfold withLines
    dsimp only
    split
    · rfl
    · exact modV_view (f s).pwm n _ view (fun p => hv.lines p _ _ _) m
  unfold withEdges
  dsimp only
  split
  · exact hlines
  · exact (atcRestarts_view hv.atc _ _ m).trans hlines

/-- The ticks of the turn-ons of a channel whose gate lines go from one pair of levels to another (R225, R231). -/
def Chan.turned (c : Chan) (l0 l1 : Bool → Bool) (t : Nat) : Chan :=
  { c with onH := if !l0 true && l1 true then t else c.onH, onL := if !l0 false && l1 false then t else c.onL }

theorem turnOns_same (c : Chan) (ph : Fin 3) (l t : Nat) : c.turnOns ph l l t = c := by
  simp [Chan.turnOns]

theorem turned_same (c : Chan) (l : Bool → Bool) (t : Nat) : c.turned l l t = c := by
  simp [Chan.turned]

theorem turnOns_lineMask (c : Chan) (ph : Fin 3) (s u : State) (n : Axis) (t : Nat) :
    c.turnOns ph (lineMask s n) (lineMask u n) t = c.turned (fun hi => gateOn s n ⟨ph, hi⟩) (fun hi => gateOn u n ⟨ph, hi⟩) t := by
  have hb (v : State) (hi : Bool) : bitOf (lineMask v n) (2 * ph.val + if hi then 0 else 1) = gateOn v n ⟨ph, hi⟩ :=
    bitOf_lineMask v n ⟨ph, hi⟩
  have hH (v : State) : bitOf (lineMask v n) (2 * ph.val) = gateOn v n ⟨ph, true⟩ := hb v true
  have hL (v : State) : bitOf (lineMask v n) (2 * ph.val + 1) = gateOn v n ⟨ph, false⟩ := hb v false
  simp only [Chan.turnOns, Chan.turned, hH, hL]

/-- A change to a bridge with its edges leaves each channel as the change does, but for the ticks of the turn-ons. -/
theorem withEdges_ch (s : State) (n : Axis) (f : State → State) (ph : Fin 3) : ((withEdges s n f).pwm[n]).ch ph =
    (((f s).pwm[n]).ch ph).turned (fun hi => gateOn s n ⟨ph, hi⟩) (fun hi => gateOn (f s) n ⟨ph, hi⟩) (f s).clk.tb := by
  rw [← turnOns_lineMask]
  have hlines : ((withLines s n f).pwm[n]).ch ph = (((f s).pwm[n]).ch ph).turnOns ph (lineMask s n) (lineMask (f s) n) (f s).clk.tb := by
    unfold withLines
    dsimp only
    split
    case isTrue e => exact (turnOns_same _ ph _ _).symm.trans (congrArg (fun l => Chan.turnOns _ ph _ l _) e)
    case isFalse => rw [modPwm_module, ch_lines]
  unfold withEdges
  dsimp only
  split
  · exact hlines
  · refine (atcRestarts_view (view := fun p => p.ch ph) (fun p o c => ?_) _ _ n).trans hlines
    match ph with
    | 0 | 1 | 2 => rfl

/-- The commands of a channel are those that the change gives. -/
theorem withEdges_cmdOf (s : State) (n : Axis) (f : State → State) (g : Gate) : cmdOf (withEdges s n f) n g = cmdOf (f s) n g := by
  unfold cmdOf
  rw [withEdges_ch]
  rfl

theorem withEdges_gateOn (s : State) (n : Axis) (f : State → State) (g : Gate) : gateOn (withEdges s n f) n g = gateOn (f s) n g := by
  obtain ⟨pwm, e⟩ := withEdges_rest s n f
  have hc (hi : Bool) := withEdges_cmdOf s n f ⟨g.ph, hi⟩
  rw [e] at hc ⊢
  exact gateOn_congr (s := f s) (t := { f s with pwm := pwm }) (ph := g.ph) rfl rfl rfl rfl hc g.hi

/-! ### Time -/

/-- Time has passed from one state to the other, or none: clocks and counters moved on, the rest as it was. -/
structure Later (s t : State) : Prop where
  rest : { t with clk := s.clk, pwm := s.pwm } = s
  tb : s.clk.tb ≤ t.clk.tb
  modules : ∀ m : Axis, ∃ c d, t.pwm[m] = { s.pwm[m] with cnt := c, down := d }

namespace Later

theorem refl (s : State) : Later s s := ⟨rfl, le_rfl, fun _ => ⟨_, _, rfl⟩⟩

theorem trans {s t u : State} (h : Later s t) (g : Later t u) : Later s u where
  rest := (congrArg (fun v : State => { v with clk := s.clk, pwm := s.pwm }) g.rest).trans h.rest
  tb := h.tb.trans g.tb
  modules m := by
    obtain ⟨c, d, e⟩ := g.modules m
    obtain ⟨c', d', e'⟩ := h.modules m
    exact ⟨c, d, by rw [e, e']⟩

variable {s t : State} (h : Later s t)
include h

theorem ax : t.ax = s.ax := (congrArg State.ax h.rest :)
theorem regs : t.regs = s.regs := (congrArg State.regs h.rest :)
theorem gd : t.gd = s.gd := (congrArg State.gd h.rest :)
theorem ds : t.ds = s.ds := (congrArg State.ds h.rest :)
theorem eng : t.eng = s.eng := (congrArg State.eng h.rest :)
theorem flt : t.flt = s.flt := (congrArg State.flt h.rest :)
theorem rg (k : Nat) : rg t k = rg s k := rg_of_regs h.regs k
theorem rgN (k : Nat) : rgN t k = rgN s k := congrArg BitVec.toNat (h.rg k)
theorem perOf (n : Axis) : perOf t n = perOf s n := h.rgN _

theorem ch (m : Axis) (ph : Fin 3) : (t.pwm[m]).ch ph = (s.pwm[m]).ch ph := by
  obtain ⟨c, d, e⟩ := h.modules m
  rw [e]
  match ph with
  | 0 | 1 | 2 => rfl

theorem j (m : Axis) : (t.pwm[m]).j = (s.pwm[m]).j := by
  obtain ⟨c, d, e⟩ := h.modules m
  rw [e]

theorem gateOn (n : Axis) (g : Gate) : gateOn t n g = gateOn s n g :=
  gateOn_congr (ph := g.ph) h.ds h.ax h.gd (h.rg _) (fun hi => by unfold cmdOf; rw [h.ch]) g.hi

end Later

theorem toTick_later (s : State) (t : Nat) : Later s (toTick s t) := by
  unfold toTick
  split
  case isFalse => exact Later.refl s
  case isTrue h =>
    refine ⟨rfl, ?_, fun m => ?_⟩
    · simp only [Bool.and_eq_true, decide_eq_true_eq] at h
      exact h.2.le
    · simp only [Fin.getElem_fin, Vector.getElem_ofFn, PwmAx.tick]
      split <;> exact ⟨_, _, rfl⟩

theorem setMark_later (s : State) (k t : Nat) : Later s (setMark s k t) := ⟨rfl, le_rfl, fun _ => ⟨_, _, rfl⟩⟩

theorem toPos_later (s : State) (n : Axis) (key : Nat) (ps : List Nat) : Later s (toPos s n key ps) := by
  unfold toPos
  dsimp only
  split
  · exact Later.refl s
  · exact (toTick_later s _).trans (setMark_later _ _ _)

end Sys2Proof.Machine
end

section
/-! O43: the start of a counter, its valleys and its peaks. -/

namespace Sys2Proof.Machine

/-! ### The place of a counter in its period (R176, R177) -/

/-- A counter that stands in its period: between 0 and PER, and above 0 on the down-slope. -/
structure InPeriod (p : PwmAx) (per : Nat) : Prop where
  pos : 0 < per
  top : p.cnt ≤ per
  down : p.down = true → 0 < p.cnt

theorem InPeriod.pos_lt {p : PwmAx} {per : Nat} (h : InPeriod p per) : p.pos per < 2 * per := by
  have hpos := h.pos
  have htop := h.top
  unfold PwmAx.pos
  split
  case isTrue hd =>
    have := h.down hd
    omega
  case isFalse => omega

/-- A running counter moved on stands as many ticks further in its period, and below PER where it counts up. -/
theorem tick_pos {p : PwmAx} {per : Nat} (h : InPeriod p per) (hr : p.running = true) (d : Nat) :
    (p.tick per d).pos per = (p.pos per + d) % (2 * per) ∧ InPeriod (p.tick per d) per ∧
      ((p.tick per d).down = false → (p.tick per d).cnt < per) := by
  have hpos := h.pos
  have hlt : (p.pos per + d) % (2 * per) < 2 * per := Nat.mod_lt _ (by omega)
  have hc : countOn per p.cnt p.down d = if (p.pos per + d) % (2 * per) < per then ((p.pos per + d) % (2 * per), false)
      else (2 * per - (p.pos per + d) % (2 * per), true) := by
    unfold countOn
    rw [if_neg (by omega)]
    rfl
  unfold PwmAx.tick
  rw [if_pos hr]
  dsimp only
  rw [hc]
  generalize (p.pos per + d) % (2 * per) = q at hlt
  by_cases hq : q < per
  · rw [if_pos hq]
    exact ⟨rfl, ⟨hpos, hq.le, fun e => absurd e Bool.false_ne_true⟩, fun _ => hq⟩
  · rw [if_neg hq]
    refine ⟨?_, ⟨hpos, ?_, fun _ => ?_⟩, fun e => absurd e.symm Bool.false_ne_true⟩
    · show 2 * per - (2 * per - q) = q
      omega
    · show 2 * per - q ≤ per
      omega
    · show 0 < 2 * per - q
      omega

/-- The ticks from an instant to the next one at which the counter of a module stands at a position. -/
def ticksTo (s : State) (n : Axis) (t0 q : Nat) : Nat :=
  (q + 2 * perOf s n - ((s.pwm[n]).pos (perOf s n) + (t0 - s.clk.tb)) % (2 * perOf s n)) % (2 * perOf s n)

theorem toPos_eq (s : State) (n : Axis) (key : Nat) {ps : List Nat} (hne : ps ≠ []) : ∃ q ∈ ps, toPos s n key ps =
    setMark (toTick s (max s.clk.tb (markOf s key) + ticksTo s n (max s.clk.tb (markOf s key)) q)) key
      (max s.clk.tb (markOf s key) + ticksTo s n (max s.clk.tb (markOf s key)) q + 1) := by
  obtain ⟨q0, rest, rfl⟩ := List.exists_cons_of_ne_nil hne
  obtain ⟨q, hq, hd⟩ : ∃ q ∈ q0 :: rest, ticksTo s n (max s.clk.tb (markOf s key)) q =
      (rest.map (ticksTo s n (max s.clk.tb (markOf s key)))).foldl min (ticksTo s n (max s.clk.tb (markOf s key)) q0) :=
    List.mem_map.mp (List.min?_mem (xs := (q0 :: rest).map (ticksTo s n (max s.clk.tb (markOf s key)))) rfl)
  refine ⟨q, hq, ?_⟩
  rw [hd]
  rfl

/-- As many ticks on, the counter stands at the position. -/
theorem pos_after_ticksTo {s : State} {n : Axis} (hp : InPeriod (s.pwm[n]) (perOf s n)) {t0 q : Nat} (hle : s.clk.tb ≤ t0)
    (hq : q < 2 * perOf s n) :
    ((s.pwm[n]).pos (perOf s n) + (t0 + ticksTo s n t0 q - s.clk.tb)) % (2 * perOf s n) = q := by
  have hpos := hp.pos
  unfold ticksTo
  generalize (s.pwm[n]).pos (perOf s n) = a
  generalize hM : 2 * perOf s n = M at hq
  have hlt : (a + (t0 - s.clk.tb)) % M < M := Nat.mod_lt _ (by omega)
  calc (a + (t0 + (q + M - (a + (t0 - s.clk.tb)) % M) % M - s.clk.tb)) % M
      = (a + (t0 - s.clk.tb) + (q + M - (a + (t0 - s.clk.tb)) % M) % M) % M := by congr 1; omega
    _ = ((a + (t0 - s.clk.tb)) % M + (q + M - (a + (t0 - s.clk.tb)) % M)) % M := by rw [Nat.add_mod_mod, Nat.mod_add_mod]
    _ = q := by
      rw [show (a + (t0 - s.clk.tb)) % M + (q + M - (a + (t0 - s.clk.tb)) % M) = q + M by omega, Nat.add_mod_right, Nat.mod_eq_of_lt hq]

section
variable {s : State} {n : Axis} (hrun : counting s n = true) (hp : InPeriod (s.pwm[n]) (perOf s n))
include hrun hp

/-- Time brought forward leaves a running module where it is, or moves it on by the ticks that pass. -/
theorem toTick_pos (t : Nat) : ((toTick s t).pwm[n]).pos (perOf s n) = ((s.pwm[n]).pos (perOf s n) + (max s.clk.tb t - s.clk.tb)) % (2 * perOf s n) ∧
    InPeriod ((toTick s t).pwm[n]) (perOf s n) ∧
    (((s.pwm[n]).down = false → (s.pwm[n]).cnt < perOf s n) → ((toTick s t).pwm[n]).down = false → ((toTick s t).pwm[n]).cnt < perOf s n) := by
  obtain ⟨hin, hr⟩ := Bool.and_eq_true_iff.mp hrun
  by_cases ht : s.clk.tb < t
  · have e : (toTick s t).pwm[n] = (s.pwm[n]).tick (perOf s n) (t - s.clk.tb) := by
      unfold toTick
      rw [if_pos (by simp [hin, ht])]
      simp only [Fin.getElem_fin, Vector.getElem_ofFn]
      rfl
    rw [e, Nat.max_eq_right ht.le]
    obtain ⟨h1, h2, h3⟩ := tick_pos hp hr (t - s.clk.tb)
    exact ⟨h1, h2, fun _ => h3⟩
  · have e : toTick s t = s := if_neg (by simp [ht])
    rw [e, Nat.max_eq_left (Nat.le_of_not_lt ht), Nat.sub_self, Nat.add_zero, Nat.mod_eq_of_lt hp.pos_lt]
    exact ⟨rfl, hp, id⟩

/-- Time brought forward to one of a list of positions: the counter stands at one of them. -/
theorem toPos_at (key : Nat) {ps : List Nat} (hne : ps ≠ []) (hlt : ∀ q ∈ ps, q < 2 * perOf s n) :
    ((toPos s n key ps).pwm[n]).pos (perOf s n) ∈ ps ∧ InPeriod ((toPos s n key ps).pwm[n]) (perOf s n) ∧
      (((s.pwm[n]).down = false → (s.pwm[n]).cnt < perOf s n) →
        ((toPos s n key ps).pwm[n]).down = false → ((toPos s n key ps).pwm[n]).cnt < perOf s n) := by
  obtain ⟨q, hq, e⟩ := toPos_eq s n key hne
  have hle : s.clk.tb ≤ max s.clk.tb (markOf s key) := Nat.le_max_left _ _
  rw [e]
  generalize max s.clk.tb (markOf s key) = t0 at hle
  obtain ⟨hat, hin, hup⟩ := toTick_pos hrun hp (t0 + ticksTo s n t0 q)
  rw [Nat.max_eq_right (hle.trans (Nat.le_add_right _ _)), pos_after_ticksTo hp hle (hlt q hq)] at hat
  exact ⟨hat.symm ▸ hq, hin, hup⟩

end

/-- A counter at the start of its period stands at 0 on the up-slope. -/
theorem InPeriod.at_valley {p : PwmAx} {per : Nat} (h : InPeriod p per) (hz : p.pos per = 0) : p.cnt = 0 ∧ p.down = false := by
  have hpos := h.pos
  have htop := h.top
  unfold PwmAx.pos at hz
  split at hz
  case isTrue => omega
  case isFalse hd => exact ⟨hz, Bool.eq_false_of_not_eq_true hd⟩

/-- In the first half of its period a counter stands at its position. -/
theorem InPeriod.cnt_of_le {p : PwmAx} {per : Nat} (h : InPeriod p per) (hz : p.pos per ≤ per) : p.cnt = p.pos per := by
  have htop := h.top
  unfold PwmAx.pos at *
  split at hz
  case isTrue hd =>
    rw [if_pos hd]
    omega
  case isFalse hd => rw [if_neg hd]

/-- In the second half of its period a counter stands as far below the end of the period as its position. -/
theorem InPeriod.cnt_of_ge {p : PwmAx} {per : Nat} (h : InPeriod p per) (hz : per ≤ p.pos per) : p.cnt = 2 * per - p.pos per := by
  have htop := h.top
  unfold PwmAx.pos at *
  split at hz
  case isTrue hd =>
    rw [if_pos hd]
    omega
  case isFalse hd =>
    rw [if_neg hd]
    omega

/-! ### The stages behind the compares (R186 to R192) -/

/-- A module without what the stages behind its compares, the log of its edges and the restarts of its blanking window change. -/
def PwmAx.settled (p : PwmAx) : PwmAx :=
  { p.mapCh (fun c => { Chan.init with act := c.act }) with edges := [], atcOpenAt := none, atcCloseAt := none }

theorem settled_edgeFree : EdgeFree PwmAx.settled := ⟨fun _ _ _ _ => rfl, fun _ _ _ => rfl⟩

theorem act_of_settled {p q : PwmAx} (h : p.settled = q.settled) (ph : Fin 3) : (p.ch ph).act = (q.ch ph).act := by
  have hs (r : PwmAx) : (r.settled.ch ph).act = (r.ch ph).act := by
    match ph with
    | 0 | 1 | 2 => rfl
  exact (hs p).symm.trans ((congrArg (fun r => (PwmAx.ch r ph).act) h).trans (hs q))

theorem settled_modCh (p : PwmAx) (ph : Fin 3) {f : Chan → Chan} (hf : ∀ c, (f c).act = c.act) : (p.modCh ph f).settled = p.settled := by
  have hc (c : Chan) : ({ Chan.init with act := (f c).act } : Chan) = { Chan.init with act := c.act } := by rw [hf]
  match ph with
  | 0 => exact congrArg (fun c => { p.settled with chU := c }) (hc p.chU)
  | 1 => exact congrArg (fun c => { p.settled with chV := c }) (hc p.chV)
  | 2 => exact congrArg (fun c => { p.settled with chW := c }) (hc p.chW)

/-- The axis states, the clock, and of every module the counter, the active registers and the compares stand. -/
structure Settled (s t : State) : Prop where
  ax : t.ax = s.ax
  clk : t.clk = s.clk
  modules : ∀ m : Axis, (t.pwm[m]).settled = (s.pwm[m]).settled

namespace Settled

theorem refl (s : State) : Settled s s := ⟨rfl, rfl, fun _ => rfl⟩

theorem trans {s t u : State} (h : Settled s t) (g : Settled t u) : Settled s u :=
  ⟨g.ax.trans h.ax, g.clk.trans h.clk, fun m => (g.modules m).trans (h.modules m)⟩

end Settled

theorem edge_act (c : Chan) (x : Bool) (t mode minpw predicted bsref : Nat) : (c.edge x t mode minpw predicted bsref).1.act = c.act := by
  have hlevel (c : Chan) (x : Bool) : (c.level x t bsref).act = c.act := by cases x <;> rfl
  unfold Chan.edge
  dsimp only
  split_ifs
  case neg => exact hlevel _ x
  all_goals rfl

theorem chanStep_settled (s : State) (n : Axis) (ph : Fin 3) {f : Chan → Chan} (hf : ∀ c, (f c).act = c.act) :
    Settled s (chanStep s n ph f) := by
  refine ⟨(withEdges_rest s n _).ax, (withEdges_rest s n _).clk, fun m => (withEdges_view settled_edgeFree s n _ m).trans ?_⟩
  refine modV_view s.pwm n _ PwmAx.settled (fun p => settled_modCh p ph (fun c => ?_)) m
  dsimp only
  split <;> exact hf c

theorem filterFlag_settled (s : State) (n : Axis) (a : FilterAct) : Settled s (filterFlag s n a) := by
  cases a <;> exact ⟨rfl, rfl, fun _ => rfl⟩

theorem setIdeal_settled (s : State) (n : Axis) (ph : Fin 3) (x : Bool) : Settled s (setIdeal s n ph x) :=
  (chanStep_settled s n ph (fun c => edge_act c x _ _ _ _ _)).trans (filterFlag_settled _ n _)

theorem judgeCompares_settled (s : State) (n : Axis) : Settled s (judgeCompares s n) := by
  unfold judgeCompares
  split
  · exact forEach_inv (Q := Settled s) _ _ (fun t ph _ ht => ht.trans (setIdeal_settled t n ph _)) (Settled.refl s)
  · exact Settled.refl s

theorem beginPeriod_settled (s : State) (n : Axis) : Settled s (beginPeriod s n) :=
  ⟨rfl, rfl, modV_view s.pwm n _ PwmAx.settled (fun _ => rfl)⟩

/-- A load strobe works on the analogue outputs alone (R434). -/
theorem aoStrobe_rest (s : State) : ∃ ao, aoStrobe s = { s with ao := ao } := by
  have hch (u : State) (k : Fin 6) : ∃ ao, aoStrobeCh u k = { u with ao := ao } := by
    unfold aoStrobeCh
    dsimp only
    split_ifs <;> exact ⟨_, rfl⟩
  unfold aoStrobe
  split
  · exact ⟨_, rfl⟩
  · refine forEach_inv (Q := fun t => ∃ ao, t = { s with ao := ao }) _ _ (fun t k _ ht => ?_) ⟨s.ao, rfl⟩
    obtain ⟨ao, rfl⟩ := ht
    exact hch _ k

theorem aoStrobe_settled (s : State) : Settled s (aoStrobe s) := by
  obtain ⟨ao, e⟩ := aoStrobe_rest s
  rw [e]
  exact ⟨rfl, rfl, fun _ => rfl⟩

/-! ### Reload points (R190, R196, R207) -/

/-- A module with every shadow loaded but the compares (R196, R207). -/
def PwmAx.loadTags (p : PwmAx) (s : State) (n : Axis) : PwmAx :=
  { p with trgA := rgN s (Sig.PWM_TRGA n.val), slopeA := rgN s (Sig.PWM_TRGA_SLOPE n.val),
           trgB := rgN s (Sig.PWM_TRGB n.val), slopeB := rgN s (Sig.PWM_TRGB_SLOPE n.val) }

/-- A module with the compare shadows loaded (R190). -/
def PwmAx.loadCompares (p : PwmAx) (s : State) (n : Axis) : PwmAx :=
  { p with live := true, chU := { p.chU with act := cmpShadow s n 0 }, chV := { p.chV with act := cmpShadow s n 1 },
           chW := { p.chW with act := cmpShadow s n 2 } }

theorem reload_rest (s : State) (n : Axis) : (reload s n).ax = s.ax ∧ (reload s n).clk = s.clk ∧ (reload s n).pwm[n] =
    if hostCompares s n then ((s.pwm[n]).loadTags s n).loadCompares s n else (s.pwm[n]).loadTags s n := by
  have hflag (b : Bool) (u : State) : (if b then setB u (Sig.PWM_STAT n.val) 3 true else u).ax = u.ax ∧
      (if b then setB u (Sig.PWM_STAT n.val) 3 true else u).clk = u.clk ∧
      (if b then setB u (Sig.PWM_STAT n.val) 3 true else u).pwm = u.pwm := by
    cases b <;> exact ⟨rfl, rfl, rfl⟩
  obtain ⟨hax, hclk, hpwm⟩ := hflag _ (modPwm s n (fun p =>
    if hostCompares s n then (p.loadTags s n).loadCompares s n else p.loadTags s n))
  exact ⟨hax, hclk, (congrArg (fun v => v[n]) hpwm).trans (modPwm_module s n _)⟩

theorem act_loadCompares (p : PwmAx) (s : State) (n : Axis) (ph : Fin 3) : ((p.loadCompares s n).ch ph).act = cmpShadow s n ph := by
  match ph with
  | 0 | 1 | 2 => rfl

/-- The tag compares and slopes of a module in force are those of the shadows of an axis. -/
structure TagsLoaded (s : State) (n : Axis) (p : PwmAx) : Prop where
  trgA : p.trgA = rgN s (Sig.PWM_TRGA n.val)
  slopeA : p.slopeA = rgN s (Sig.PWM_TRGA_SLOPE n.val)
  trgB : p.trgB = rgN s (Sig.PWM_TRGB n.val)
  slopeB : p.slopeB = rgN s (Sig.PWM_TRGB_SLOPE n.val)

theorem TagsLoaded.of_settled {s : State} {n : Axis} {p q : PwmAx} (h : TagsLoaded s n p) (e : q.settled = p.settled) : TagsLoaded s n q where
  trgA := (congrArg PwmAx.trgA e :).trans h.trgA
  slopeA := (congrArg PwmAx.slopeA e :).trans h.slopeA
  trgB := (congrArg PwmAx.trgB e :).trans h.trgB
  slopeB := (congrArg PwmAx.slopeB e :).trans h.slopeB

theorem reload_tags (s : State) (n : Axis) : TagsLoaded s n ((reload s n).pwm[n]) := by
  rw [(reload_rest s n).2.2]
  split <;> exact ⟨rfl, rfl, rfl, rfl⟩

theorem reload_compares {s : State} {n : Axis} (h : hostCompares s n = true) (ph : Fin 3) :
    (((reload s n).pwm[n]).ch ph).act = cmpShadow s n ph := by
  rw [(reload_rest s n).2.2, if_pos h]
  exact act_loadCompares _ s n ph

theorem reload_keeps_compares {s : State} {n : Axis} (h : hostCompares s n = false) (ph : Fin 3) :
    (((reload s n).pwm[n]).ch ph).act = ((s.pwm[n]).ch ph).act := by
  rw [(reload_rest s n).2.2, if_neg (by simp [h])]
  match ph with
  | 0 | 1 | 2 => rfl

/-- The count of a module: its counter, slope, start and dither. -/
def PwmAx.count (p : PwmAx) : Nat × Bool × Bool × Bool × Nat := (p.cnt, p.down, p.running, p.startPend, p.j)

theorem reload_count (s : State) (n : Axis) : ((reload s n).pwm[n]).count = (s.pwm[n]).count := by
  rw [(reload_rest s n).2.2]
  split <;> rfl

theorem count_of_settled {p q : PwmAx} (h : p.settled = q.settled) : p.count = q.count := (congrArg PwmAx.count h :)

/-- The module at a valley or a peak: reloaded where PWM_RELOAD selects it (R196). -/
def atReload (s : State) (n : Axis) (peak : Bool) : State := if reloadsAt s n peak then reload s n else s

theorem atReload_rest (s : State) (n : Axis) (peak : Bool) : (atReload s n peak).ax = s.ax ∧ (atReload s n peak).clk = s.clk ∧
    ((atReload s n peak).pwm[n]).count = (s.pwm[n]).count := by
  unfold atReload
  split
  · exact ⟨(reload_rest s n).1, (reload_rest s n).2.1, reload_count s n⟩
  · exact ⟨rfl, rfl, rfl⟩

theorem hostCompares_congr {s u : State} (hr : u.regs = s.regs) (hax : u.ax = s.ax) (n : Axis) : hostCompares u n = hostCompares s n := by
  unfold hostCompares rgN
  rw [rg_of_regs hr, SameAx.axSt hax]

/-- A module after a valley or a peak: where that is a reload point the shadows are in force, the compares with PWM_SRC 1, and where it is
none the compares stand (R190, R196, R207). -/
structure ReloadPoint (s : State) (n : Axis) (peak : Bool) (p : PwmAx) : Prop where
  tags : reloadsAt s n peak = true → TagsLoaded s n p
  loaded : reloadsAt s n peak = true → hostCompares s n = true → ∀ ph, (p.ch ph).act = cmpShadow s n ph
  kept : reloadsAt s n peak = false ∨ hostCompares s n = false → ∀ ph, (p.ch ph).act = ((s.pwm[n]).ch ph).act

theorem reloadPoint {s u t : State} {n : Axis} (peak : Bool) (hr : u.regs = s.regs) (hax : u.ax = s.ax)
    (hact : ∀ ph, ((u.pwm[n]).ch ph).act = ((s.pwm[n]).ch ph).act) (ht : Settled (atReload u n peak) t) :
    ReloadPoint s n peak (t.pwm[n]) := by
  have hrg (k : Nat) : rgN u k = rgN s k := congrArg BitVec.toNat (rg_of_regs hr k)
  have hre : reloadsAt u n peak = reloadsAt s n peak := by unfold reloadsAt; rw [hrg]
  have hhost : hostCompares u n = hostCompares s n := hostCompares_congr hr hax n
  have hm := ht.modules n
  unfold atReload at hm
  rw [hre] at hm
  by_cases hl : reloadsAt s n peak = true
  · rw [if_pos hl] at hm
    refine ⟨fun _ => ?_, fun _ hh ph => ?_, fun hno ph => ?_⟩
    · obtain ⟨ha, hsa, hb, hsb⟩ := (reload_tags u n).of_settled hm
      exact ⟨ha.trans (hrg _), hsa.trans (hrg _), hb.trans (hrg _), hsb.trans (hrg _)⟩
    · rw [act_of_settled hm, reload_compares (hhost.trans hh)]
      exact hrg _
    · have hh : hostCompares s n = false := hno.resolve_left (by simp [hl])
      rw [act_of_settled hm, reload_keeps_compares (hhost.trans hh), hact]
  · rw [if_neg hl] at hm
    refine ⟨fun h => absurd h hl, fun h => absurd h hl, fun _ ph => ?_⟩
    rw [act_of_settled hm, hact]

/-! ### COUNTER_START (R179, R180, R188) -/

/-- The next tick of a grid with a phase lies as far past a multiple of its period as the phase says. -/
theorem nextTick_phase (t : Nat) {p : Nat} (hp : 0 < p) (phase : Nat) : t ≤ nextTick t p phase ∧ nextTick t p phase % p = phase % p := by
  unfold nextTick
  rw [if_neg (by omega)]
  refine ⟨Nat.le_add_right _ _, ?_⟩
  have hlt := Nat.mod_lt t hp
  calc (t + (p - t % p + phase) % p) % p = (t % p + (p - t % p + phase)) % p := by rw [Nat.add_mod_mod, Nat.mod_add_mod]
    _ = (phase + p) % p := by congr 1; omega
    _ = phase % p := Nat.add_mod_right _ _

/-- A tick of a grid whose phase is an instant lies a whole number of periods from the instant. -/
theorem grid_of_phase {T p : Nat} (hp : 0 < p) (x : Int) (h : T % p = (x % (p : Int)).toNat % p) : ((T : Int) - x) % (p : Int) = 0 := by
  have hne : (p : Int) ≠ 0 := by omega
  have hcast : (T : Int) % p = x % p := by
    have h' : ((T % p : Nat) : Int) = (((x % (p : Int)).toNat % p : Nat) : Int) := congrArg Nat.cast h
    rw [Int.natCast_emod, Int.natCast_emod, Int.toNat_of_nonneg (Int.emod_nonneg _ hne), Int.emod_emod_of_dvd _ dvd_rfl] at h'
    exact h'
  exact Int.emod_eq_emod_iff_emod_sub_eq_zero.mp hcast

/-- The first valley of R179 after the request. -/
def startTick (s : State) (n : Axis) : Nat :=
  nextTick (s.clk.tb + 1) (2 * perOf s n) ((s.clk.epoch + (pwmOffset s n : Int)) % (2 * perOf s n : Int)).toNat

theorem startTick_valley (s : State) (n : Axis) (hper : 0 < perOf s n) : s.clk.tb < startTick s n ∧
    ((startTick s n : Int) - s.clk.epoch - (pwmOffset s n : Int)) % (2 * perOf s n : Int) = 0 := by
  obtain ⟨hlt, hgrid⟩ := nextTick_phase (s.clk.tb + 1) (p := 2 * perOf s n) (by omega)
    ((s.clk.epoch + (pwmOffset s n : Int)) % (2 * perOf s n : Int)).toNat
  have h := grid_of_phase (T := startTick s n) (p := 2 * perOf s n) (by omega) (s.clk.epoch + (pwmOffset s n : Int)) (by
    rw [Int.natCast_mul]
    exact hgrid)
  rw [← Int.sub_sub, Int.natCast_mul] at h
  exact ⟨hlt, h⟩

/-- A module whose counter starts. -/
def PwmAx.started (p : PwmAx) : PwmAx := { p with cnt := 0, down := false, running := true, startPend := false, j := 0 }

theorem started_act (p : PwmAx) (ph : Fin 3) : (p.started.ch ph).act = (p.ch ph).act := by
  match ph with
  | 0 | 1 | 2 => rfl

/-- The module at its first valley: every shadow loaded, and the counter started (R180, R188). -/
def valleyStarted (s : State) (n : Axis) : State := modPwm (reload s n) n PwmAx.started

theorem valleyStarted_module (s : State) (n : Axis) : (valleyStarted s n).pwm[n] = ((reload s n).pwm[n]).started := modPwm_module _ n _

theorem valleyStarted_tags (s : State) (n : Axis) : TagsLoaded s n ((valleyStarted s n).pwm[n]) := by
  obtain ⟨ha, hsa, hb, hsb⟩ := reload_tags s n
  rw [valleyStarted_module]
  exact ⟨ha, hsa, hb, hsb⟩

theorem execCounterStart_starts (s : State) (n : Axis) (hrun : inRun s = true) (hpend : (s.pwm[n]).startPend = true) (hper : 0 < perOf s n) :
    ∃ t, exec (.counterStart n) s = .next t ∧ (t.pwm[n]).running = true ∧ (t.pwm[n]).startPend = false ∧ (t.pwm[n]).cnt = 0 ∧
      (t.pwm[n]).down = false ∧ (t.pwm[n]).j = 0 ∧ (t.pwm[n]).trgA = rgN s (Sig.PWM_TRGA n.val) ∧
      (t.pwm[n]).trgB = rgN s (Sig.PWM_TRGB n.val) ∧ (t.pwm[n]).slopeA = rgN s (Sig.PWM_TRGA_SLOPE n.val) ∧
      (t.pwm[n]).slopeB = rgN s (Sig.PWM_TRGB_SLOPE n.val) ∧
      (hostCompares s n = true → ∀ ph, ((t.pwm[n]).ch ph).act = cmpShadow s n ph) ∧ s.clk.tb < t.clk.tb ∧
      ((t.clk.tb : Int) - s.clk.epoch - (pwmOffset s n : Int)) % (2 * perOf s n : Int) = 0 ∧ t.ax = s.ax := by
  obtain ⟨hlt, hgrid⟩ := startTick_valley s n hper
  obtain ⟨u, he, hlater, htb⟩ : ∃ u, exec (.counterStart n) s = .next (beginPeriod (judgeCompares (valleyStarted u n) n) n) ∧ Later s u ∧
      u.clk.tb = startTick s n := by
    refine ⟨setMark (toTick s (startTick s n)) (keyValley n) (startTick s n + 1), ?_, (toTick_later s _).trans (setMark_later _ _ _),
      (toTick_tb _ hrun).trans (Nat.max_eq_right hlt.le)⟩
    show execCounterStart n s = _
    rw [execCounterStart, if_pos (by rw [hrun, hpend]; rfl)]
    rfl
  obtain ⟨hrax, hrclk, -⟩ := reload_rest u n
  have hs := (judgeCompares_settled (valleyStarted u n) n).trans (beginPeriod_settled _ n)
  generalize beginPeriod (judgeCompares (valleyStarted u n) n) n = t at he hs
  have hm := hs.modules n
  have hcount := count_of_settled hm
  rw [valleyStarted_module] at hcount
  obtain ⟨ha, hsa, hb, hsb⟩ := (valleyStarted_tags u n).of_settled hm
  have hclk : t.clk.tb = startTick s n := by rw [hs.clk, ← htb, ← hrclk]; rfl
  refine ⟨t, he, (congrArg (fun x => x.2.2.1) hcount :), (congrArg (fun x => x.2.2.2.1) hcount :), (congrArg (fun x => x.1) hcount :),
    (congrArg (fun x => x.2.1) hcount :), (congrArg (fun x => x.2.2.2.2) hcount :), ha.trans (hlater.rgN _), hb.trans (hlater.rgN _),
    hsa.trans (hlater.rgN _), hsb.trans (hlater.rgN _), fun hh ph => ?_, hclk ▸ hlt, hclk ▸ hgrid, ?_⟩
  · rw [act_of_settled hm, valleyStarted_module, started_act, reload_compares ((hostCompares_congr hlater.regs hlater.ax n).trans hh)]
    exact hlater.rgN _
  · exact hs.ax.trans (hrax.trans hlater.ax)

/-! ### CARRIER_VALLEY and CARRIER_PEAK (R176, R177, R188, R196) -/

/-- A module that begins a period: the bootstrap counts judged, the dither counter advanced (R188, R204). -/
def PwmAx.nextPeriod (bsn : Nat) (pump : Bool) (p : PwmAx) : PwmAx :=
  { p.mapCh (fun c => c.bootstrap bsn pump) with j := (p.j + 1) % 16 }

theorem bootstrap_act (c : Chan) (bsn : Nat) (pump : Bool) : (c.bootstrap bsn pump).act = c.act := by
  unfold Chan.bootstrap
  dsimp only
  generalize (if c.wholeOn then c.bsCount + 1 else c.bsCount) = k
  split <;> rfl

theorem nextPeriod_act (bsn : Nat) (pump : Bool) (p : PwmAx) (ph : Fin 3) : ((p.nextPeriod bsn pump).ch ph).act = (p.ch ph).act := by
  match ph with
  | 0 | 1 | 2 => exact bootstrap_act _ bsn pump

/-- The valley event as a load strobe, where it is selected (R434). -/
def valleyStrobe (s : State) (n : Axis) : State :=
  if rgB s Sig.AO_LOAD_SRC 2 && rgN s Sig.AO_LOAD_PWM == n.val then aoStrobe s else s

theorem valleyStrobe_settled (s : State) (n : Axis) : Settled s (valleyStrobe s n) := by
  unfold valleyStrobe
  split
  · exact aoStrobe_settled s
  · exact Settled.refl s

section
variable (s : State) (n : Axis) (hrun : counting s n = true) (hp : InPeriod (s.pwm[n]) (perOf s n))
include hrun hp

theorem execCarrierValley_counts :
    ∃ t, exec (.carrierValley n) s = .next t ∧ (t.pwm[n]).cnt = 0 ∧ (t.pwm[n]).down = false ∧
      (t.pwm[n]).j = ((s.pwm[n]).j + 1) % 16 ∧ s.clk.tb ≤ t.clk.tb ∧ t.ax = s.ax ∧ ReloadPoint s n false (t.pwm[n]) := by
  obtain ⟨u, bsn, pump, he, hlater, hat, hin⟩ : ∃ u bsn pump, exec (.carrierValley n) s = .next (valleyStrobe (beginPeriod (judgeCompares
      (atReload (modPwm u n (PwmAx.nextPeriod bsn pump)) n false) n) n) n) ∧ Later s u ∧ (u.pwm[n]).pos (perOf s n) ∈ [0] ∧
      InPeriod (u.pwm[n]) (perOf s n) := by
    obtain ⟨hat, hin, -⟩ := toPos_at hrun hp (keyValley n) (ps := [0]) (by simp) (by have := hp.pos; simp; omega)
    refine ⟨toPos s n (keyValley n) [0], rgN (toPos s n (keyValley n) [0]) (Sig.PWM_BSN n.val),
      rgN (toPos s n (keyValley n) [0]) (Sig.GD_CPT_EN n.val) == 1, ?_, toPos_later s n _ _, hat, hin⟩
    show execCarrierValley n s = _
    rw [execCarrierValley, if_pos hrun]
    rfl
  obtain ⟨hcnt, hup⟩ := hin.at_valley (List.mem_singleton.mp hat)
  have hv : (modPwm u n (PwmAx.nextPeriod bsn pump)).pwm[n] = (u.pwm[n]).nextPeriod bsn pump := modPwm_module u n _
  obtain ⟨hax, hclk, hcount⟩ := atReload_rest (modPwm u n (PwmAx.nextPeriod bsn pump)) n false
  have hs := ((judgeCompares_settled (atReload (modPwm u n (PwmAx.nextPeriod bsn pump)) n false) n).trans (beginPeriod_settled _ n)).trans
    (valleyStrobe_settled _ n)
  have hcount := (count_of_settled (hs.modules n)).trans hcount
  rw [hv] at hcount
  have hj : (u.pwm[n]).j = (s.pwm[n]).j := hlater.j n
  refine ⟨_, he, (congrArg (fun x => x.1) hcount).trans hcnt, (congrArg (fun x => x.2.1) hcount).trans hup, ?_, ?_,
    hs.ax.trans (hax.trans hlater.ax), reloadPoint (u := modPwm u n (PwmAx.nextPeriod bsn pump)) false hlater.regs hlater.ax (fun ph => ?_) hs⟩
  · exact hj ▸ (congrArg (fun x => x.2.2.2.2) hcount :)
  · rw [hs.clk, hclk]
    exact hlater.tb
  · rw [hv, nextPeriod_act, hlater.ch]

theorem execCarrierPeak_counts (hbelow : (s.pwm[n]).down = false → (s.pwm[n]).cnt < perOf s n) :
    ∃ t, exec (.carrierPeak n) s = .next t ∧ (t.pwm[n]).cnt = perOf s n ∧ (t.pwm[n]).down = true ∧ (t.pwm[n]).j = (s.pwm[n]).j ∧
      s.clk.tb ≤ t.clk.tb ∧ t.ax = s.ax ∧ ReloadPoint s n true (t.pwm[n]) := by
  obtain ⟨u, he, hlater, hat, hin, hup⟩ : ∃ u, exec (.carrierPeak n) s = .next (judgeCompares (atReload u n true) n) ∧ Later s u ∧
      (u.pwm[n]).pos (perOf s n) ∈ [perOf s n] ∧ InPeriod (u.pwm[n]) (perOf s n) ∧ ((u.pwm[n]).down = false → (u.pwm[n]).cnt < perOf s n) := by
    obtain ⟨hat, hin, hup⟩ := toPos_at hrun hp (keyPeak n) (ps := [perOf s n]) (by simp) (by have := hp.pos; simp; omega)
    refine ⟨toPos s n (keyPeak n) [perOf s n], ?_, toPos_later s n _ _, hat, hin, hup hbelow⟩
    show execCarrierPeak n s = _
    rw [execCarrierPeak, if_pos hrun]
    rfl
  have hpos := List.mem_singleton.mp hat
  have hcnt : (u.pwm[n]).cnt = perOf s n := (hin.cnt_of_le hpos.le).trans hpos
  have hdn : (u.pwm[n]).down = true := by
    by_contra hno
    have := hup (Bool.eq_false_of_not_eq_true hno)
    omega
  obtain ⟨hax, hclk, hcount⟩ := atReload_rest u n true
  have hs := judgeCompares_settled (atReload u n true) n
  have hcount := (count_of_settled (hs.modules n)).trans hcount
  refine ⟨_, he, (congrArg (fun x => x.1) hcount).trans hcnt, (congrArg (fun x => x.2.1) hcount).trans hdn,
    (congrArg (fun x => x.2.2.2.2) hcount).trans (hlater.j n), ?_,
    hs.ax.trans (hax.trans hlater.ax), reloadPoint true hlater.regs hlater.ax (fun ph => congrArg Chan.act (hlater.ch n ph)) hs⟩
  · rw [hs.clk, hclk]
    exact hlater.tb

end

theorem ReloadPoint.clauses {s : State} {n : Axis} {peak : Bool} {p : PwmAx} (h : ReloadPoint s n peak p) :
    (reloadsAt s n peak = true → p.trgA = rgN s (Sig.PWM_TRGA n.val) ∧ p.slopeA = rgN s (Sig.PWM_TRGA_SLOPE n.val) ∧
      p.trgB = rgN s (Sig.PWM_TRGB n.val) ∧ p.slopeB = rgN s (Sig.PWM_TRGB_SLOPE n.val)) ∧
    (reloadsAt s n peak = true → hostCompares s n = true → ∀ ph, (p.ch ph).act = cmpShadow s n ph) ∧
    (reloadsAt s n peak = false ∨ hostCompares s n = false → ∀ ph, (p.ch ph).act = ((s.pwm[n]).ch ph).act) :=
  ⟨fun hl => ⟨(h.tags hl).trgA, (h.tags hl).slopeA, (h.tags hl).trgB, (h.tags hl).slopeB⟩, h.loaded, h.kept⟩

/-- Settles O43: the counter starts at a valley of R179 with every shadow loaded; valleys and peaks bring it to 0 and to PER, and each is a
reload point where PWM_RELOAD selects it. -/
theorem countersRunFromValleyToPeak : Obligations.CountersRunFromValleyToPeak := by
  refine ⟨execCounterStart_starts, fun s n hrun hper htop hdown => ?_, fun s n hrun hper htop hdown hbelow => ?_⟩
  · obtain ⟨t, he, hcnt, hup, hj, htb, hax, hload⟩ := execCarrierValley_counts s n hrun ⟨hper, htop, hdown⟩
    exact ⟨t, he, hcnt, hup, hj, htb, hax, hload.clauses⟩
  · obtain ⟨t, he, hcnt, hdn, hj, htb, hax, hload⟩ := execCarrierPeak_counts s n hrun ⟨hper, htop, hdown⟩ hbelow
    exact ⟨t, he, hcnt, hdn, hj, htb, hax, hload.clauses⟩

end Sys2Proof.Machine
end

section
/-! O44: the compares, the stretches, the bootstrap refresh and the tags of a module. -/

namespace Sys2Proof.Machine

/-! ### A step of one channel (R181, R184) -/

/-- A channel without its stage 5: the compare, the filter, the bootstrap counts and the filtered level. -/
def Chan.stages (c : Chan) : Chan :=
  { Chan.init with
    act := c.act, ideal := c.ideal, filt := c.filt, since := c.since, suppressed := c.suppressed, stretch := c.stretch,
    wholeOn := c.wholeOn, offSince := c.offSince, bsCount := c.bsCount, bsArmed := c.bsArmed, bsOn := c.bsOn, stage4 := c.stage4 }

/-- A step of one channel gives its stages as the step says. -/
theorem chanStep_stages (s : State) (n : Axis) (ph : Fin 3) (f : Chan → Chan) :
    (((chanStep s n ph f).pwm[n]).ch ph).stages = (f ((s.pwm[n]).ch ph)).stages := by
  unfold chanStep
  rw [withEdges_ch, modPwm_module, ch_modCh_same]
  dsimp only
  split <;> rfl

/-- A step of one channel leaves the other channels of the module as they are. -/
theorem chanStep_other (s : State) (n : Axis) {ph q : Fin 3} (f : Chan → Chan) (h : q ≠ ph) :
    ((chanStep s n ph f).pwm[n]).ch q = (s.pwm[n]).ch q := by
  have hch (g : Chan → Chan) : ((modPwm s n (fun p => p.modCh ph g)).pwm[n]).ch q = (s.pwm[n]).ch q := by
    rw [modPwm_module, ch_modCh_ne _ _ h]
  have hgate (g : Chan → Chan) (hi : Bool) : gateOn (modPwm s n (fun p => p.modCh ph g)) n ⟨q, hi⟩ = gateOn s n ⟨q, hi⟩ :=
    gateOn_congr (s := s) (t := modPwm s n (fun p => p.modCh ph g)) rfl rfl rfl rfl (fun hi => by unfold cmdOf; rw [hch]) hi
  unfold chanStep
  rw [withEdges_ch]
  simp only [hch, hgate, turned_same]

theorem chanStep_regs (s : State) (n : Axis) (ph : Fin 3) (f : Chan → Chan) : (chanStep s n ph f).regs = s.regs :=
  (withEdges_rest s n _).regs

theorem chanStep_ax (s : State) (n : Axis) (ph : Fin 3) (f : Chan → Chan) : (chanStep s n ph f).ax = s.ax :=
  (withEdges_rest s n _).ax

/-! ### What the filter shows (R213, R214) -/

@[simp] theorem filterFlag_pwm (s : State) (n : Axis) (a : FilterAct) : (filterFlag s n a).pwm = s.pwm := by cases a <;> rfl

@[simp] theorem filterFlag_ax (s : State) (n : Axis) (a : FilterAct) : (filterFlag s n a).ax = s.ax := by cases a <;> rfl

theorem filterFlag_rg (s : State) (n : Axis) (a : FilterAct) {k : Nat} (hs : k ≠ Sig.PWM_STAT n.val) (hc : k ≠ Sig.PWM_FILTER_COUNT n.val) :
    rg (filterFlag s n a) k = rg s k := by
  cases a with
  | pass | held => rfl
  | stretched | dropped => exact (rg_incR_ne _ hc).trans (rg_setB_ne _ _ _ hs)

theorem filterFlag_signals (s : State) (n : Axis) (a : FilterAct) :
    SignalsBut [Sig.PWM_STAT n.val, Sig.PWM_FILTER_COUNT n.val] s (filterFlag s n a) := by
  intro k hk _
  simp only [List.mem_cons, List.not_mem_nil, or_false, not_or] at hk
  exact filterFlag_rg s n a hk.1 hk.2

theorem filter_keys (n : Axis) : Sig.PWM_STAT n.val ≠ Sig.PWM_FILTER_COUNT n.val := by
  simp only [Sig.PWM_STAT, Sig.PWM_FILTER_COUNT]
  omega

/-- A stretch sets STRETCHED, a suppression SUPPRESSED; each counts one, and both flags stay. -/
theorem filterFlag_shows (s : State) (n : Axis) (dropped : Bool) :
    let t := filterFlag s n (if dropped then .dropped else .stretched)
    rgB t (Sig.PWM_STAT n.val) (if dropped then 6 else 7) = true ∧
      (∀ i, i < 32 → rgB s (Sig.PWM_STAT n.val) i = true → rgB t (Sig.PWM_STAT n.val) i = true) ∧
      rg t (Sig.PWM_FILTER_COUNT n.val) = rg s (Sig.PWM_FILTER_COUNT n.val) + 1 := by
  have hflag (b i : Nat) (hi : i < 32) : rgB (incR (setB s (Sig.PWM_STAT n.val) b true) (Sig.PWM_FILTER_COUNT n.val)) (Sig.PWM_STAT n.val) i =
      if i = b then true else rgB s (Sig.PWM_STAT n.val) i := by
    rw [rgB, rg_incR_ne _ (filter_keys n), ← rgB, rgB_setB _ _ _ _ _ hi]
  have hcount (b : Nat) : rg (incR (setB s (Sig.PWM_STAT n.val) b true) (Sig.PWM_FILTER_COUNT n.val)) (Sig.PWM_FILTER_COUNT n.val) =
      rg s (Sig.PWM_FILTER_COUNT n.val) + 1 := by
    rw [rg_incR_same, rg_setB_ne _ _ _ (filter_keys n).symm]
  have hstays (b i : Nat) (hi : i < 32) (h : rgB s (Sig.PWM_STAT n.val) i = true) :
      rgB (incR (setB s (Sig.PWM_STAT n.val) b true) (Sig.PWM_FILTER_COUNT n.val)) (Sig.PWM_STAT n.val) i = true := by
    rw [hflag b i hi, h, ite_self]
  cases dropped
  · exact ⟨by exact (hflag 7 7 (by decide)).trans (if_pos rfl), hstays 7, hcount 7⟩
  · exact ⟨by exact (hflag 6 6 (by decide)).trans (if_pos rfl), hstays 6, hcount 6⟩

/-! ### COMPARE_MATCH (R180, R186) -/

theorem edge_ideal (c : Chan) (x : Bool) (t mode minpw predicted bsref : Nat) : (c.edge x t mode minpw predicted bsref).1.ideal = x := by
  have hlevel (c : Chan) (x : Bool) : (c.level x t bsref).ideal = c.ideal := by cases x <;> rfl
  unfold Chan.edge
  dsimp only
  split_ifs
  case pos h => exact h
  case neg => exact hlevel _ x
  all_goals rfl

/-- H* of a phase takes its new ideal level; the other phases stand. -/
theorem setIdeal_ch (s : State) (n : Axis) (ph : Fin 3) (x : Bool) : (((setIdeal s n ph x).pwm[n]).ch ph).ideal = x ∧
    ∀ q, q ≠ ph → ((setIdeal s n ph x).pwm[n]).ch q = (s.pwm[n]).ch q := by
  unfold setIdeal
  simp only [filterFlag_pwm]
  refine ⟨(congrArg Chan.ideal (chanStep_stages s n ph _) :).trans (edge_ideal _ x _ _ _ _ _), fun q hq => chanStep_other s n _ hq⟩

theorem setIdeal_signals (s : State) (n : Axis) (ph : Fin 3) (x : Bool) :
    SignalsBut [Sig.PWM_STAT n.val, Sig.PWM_FILTER_COUNT n.val] s (setIdeal s n ph x) := fun k hk hl =>
  (filterFlag_signals _ n _ k hk hl).trans (rg_of_regs (chanStep_regs s n ph _) k)

theorem execCompareMatch_levels (s : State) (n : Axis) (ph : Fin 3) (hrun : counting s n = true) (hlive : (s.pwm[n]).live = true)
    (hlo : 0 < effCompare ((s.pwm[n]).ch ph).act (s.pwm[n]).j) (hhi : effCompare ((s.pwm[n]).ch ph).act (s.pwm[n]).j < perOf s n)
    (htop : (s.pwm[n]).cnt ≤ perOf s n) (hdown : (s.pwm[n]).down = true → 0 < (s.pwm[n]).cnt) :
    ∃ t, exec (.compareMatch n ph) s = .next t ∧ (t.pwm[n]).cnt = effCompare ((s.pwm[n]).ch ph).act (s.pwm[n]).j ∧
      ((t.pwm[n]).ch ph).ideal = (t.pwm[n]).down ∧ (∀ q, q ≠ ph → (t.pwm[n]).ch q = (s.pwm[n]).ch q) ∧ t.ax = s.ax ∧
      SignalsBut [Sig.PWM_STAT n.val, Sig.PWM_FILTER_COUNT n.val] s t := by
  generalize hc : effCompare ((s.pwm[n]).ch ph).act (s.pwm[n]).j = c at hlo hhi
  obtain ⟨u, he, hlater, hat, hin⟩ : ∃ u, exec (.compareMatch n ph) s = .next (setIdeal u n ph (u.pwm[n]).down) ∧ Later s u ∧
      (u.pwm[n]).pos (perOf s n) ∈ [c, 2 * perOf s n - c] ∧ InPeriod (u.pwm[n]) (perOf s n) := by
    obtain ⟨hat, hin, -⟩ := toPos_at hrun ⟨by omega, htop, hdown⟩ (keyCompare n ph) (ps := [c, 2 * perOf s n - c]) (by simp)
      (by simp; omega)
    refine ⟨toPos s n (keyCompare n ph) [c, 2 * perOf s n - c], ?_, toPos_later s n _ _, hat, hin⟩
    show execCompareMatch n ph s = _
    simp only [execCompareMatch, hc, hrun, hlive, hlo, hhi, decide_true, Bool.and_self, if_true]
  have hcnt : (u.pwm[n]).cnt = c := by
    simp only [List.mem_cons, List.not_mem_nil, or_false] at hat
    rcases hat with h | h
    · rw [hin.cnt_of_le (by omega), h]
    · rw [hin.cnt_of_ge (by omega), h]
      omega
  have hs := setIdeal_settled u n ph (u.pwm[n]).down
  obtain ⟨hideal, hother⟩ := setIdeal_ch u n ph (u.pwm[n]).down
  refine ⟨_, he, (congrArg PwmAx.cnt (hs.modules n) :).trans hcnt, hideal.trans (congrArg PwmAx.down (hs.modules n) :).symm,
    fun q hq => (hother q hq).trans (hlater.ch n q), hs.ax.trans hlater.ax, fun k hk hl => ?_⟩
  exact (setIdeal_signals u n ph _ k hk hl).trans (hlater.rg k)

/-! ### MINPW_STRETCH_END (R199 to R202) -/

/-- A prediction reads the module, its period, its compare shadow and its reload settings alone. -/
theorem predictWidth_congr {s u : State} {n : Axis} (ph : Fin 3) (x : Bool) (hpwm : u.pwm = s.pwm) (hax : u.ax = s.ax)
    (hk : ∀ k ∈ [Sig.PWM_PER n.val, Sig.PWM_SRC n.val, Sig.PWM_RELOAD n.val, Sig.PWM_CMPU n.val + ph.val], rg u k = rg s k) :
    predictWidth u n ph x = predictWidth s n ph x := by
  have hper : perOf u n = perOf s n := congrArg BitVec.toNat (hk _ (by simp))
  have hshadow : cmpShadow u n ph = cmpShadow s n ph := congrArg BitVec.toNat (hk _ (by simp))
  have hre (peak : Bool) : reloadsAt u n peak = reloadsAt s n peak := by
    unfold reloadsAt rgN
    rw [hk _ (by simp)]
  have hhost : hostCompares u n = hostCompares s n := by
    unfold hostCompares rgN
    rw [hk _ (by simp), SameAx.axSt hax]
  simp only [predictWidth, hper, hshadow, hre, hhost, hpwm]

theorem level_stages (c : Chan) (x : Bool) (t bsref : Nat) : (c.level x t bsref).filt = x ∧ (c.level x t bsref).since = t := by
  cases x <;> exact ⟨rfl, rfl⟩

theorem prediction_keys (n : Axis) (ph : Fin 3) :
    ∀ k ∈ [Sig.PWM_PER n.val, Sig.PWM_SRC n.val, Sig.PWM_RELOAD n.val, Sig.PWM_CMPU n.val + ph.val],
      k ≠ Sig.PWM_STAT n.val ∧ k ≠ Sig.PWM_FILTER_COUNT n.val := by
  revert n ph
  decide

theorem filter_settings (n : Axis) : ∀ k ∈ [Sig.PWM_MINPW n.val, Sig.PWM_MINPW_MODE n.val],
    k ≠ Sig.PWM_STAT n.val ∧ k ≠ Sig.PWM_FILTER_COUNT n.val := by
  revert n
  decide

/-- Whether the pulse that the end of a stretch begins is too narrow for DROP (R199). -/
def stretchDrops (s : State) (n : Axis) (ph : Fin 3) (e : Nat) : Prop :=
  minpwMode s n ph = 1 ∧ predictWidth (toTick s e) n ph ((s.pwm[n]).ch ph).ideal < rgN s (Sig.PWM_MINPW n.val)

/-- The state at the end of a stretch, the stretch shown and counted. -/
def stretchShown (s : State) (n : Axis) (e : Nat) : State := filterFlag (toTick s e) n .stretched

theorem stretchShown_rg (s : State) (n : Axis) (e : Nat) {k : Nat} (hs : k ≠ Sig.PWM_STAT n.val) (hc : k ≠ Sig.PWM_FILTER_COUNT n.val) :
    rg (stretchShown s n e) k = rg s k := (filterFlag_rg _ n _ hs hc).trans ((toTick_later s e).rg k)

/-- The prediction that the end of a stretch makes is that of `stretchDrops`. -/
theorem stretchShown_drops (s : State) (n : Axis) (ph : Fin 3) (e : Nat) : (minpwMode (stretchShown s n e) n ph = 1 ∧
    predictWidth (stretchShown s n e) n ph ((s.pwm[n]).ch ph).ideal < rgN (stretchShown s n e) (Sig.PWM_MINPW n.val)) ↔
    stretchDrops s n ph e := by
  have hset (k : Nat) (hk : k ∈ [Sig.PWM_MINPW n.val, Sig.PWM_MINPW_MODE n.val]) : rg (stretchShown s n e) k = rg s k :=
    stretchShown_rg s n e (filter_settings n k hk).1 (filter_settings n k hk).2
  have hmode : minpwMode (stretchShown s n e) n ph = minpwMode s n ph := by
    unfold minpwMode rgF rgN
    rw [hset _ (by simp)]
  have hmin : rgN (stretchShown s n e) (Sig.PWM_MINPW n.val) = rgN s (Sig.PWM_MINPW n.val) := congrArg BitVec.toNat (hset _ (by simp))
  have hpred (x : Bool) : predictWidth (stretchShown s n e) n ph x = predictWidth (toTick s e) n ph x :=
    predictWidth_congr ph _ (filterFlag_pwm _ n _) (filterFlag_ax _ n _)
      (fun k hk => filterFlag_rg _ n _ (prediction_keys n ph k hk).1 (prediction_keys n ph k hk).2)
  rw [stretchDrops, hmode, hmin, hpred]

/-- The end of a stretch is a step of its channel: to the ideal level from its tick on, or to the other one, suppressed. -/
theorem execMinpwStretchEnd_eq {s : State} {n : Axis} {ph : Fin 3} {e : Nat} (hst : ((s.pwm[n]).ch ph).stretch = some e) :
    ∃ f, (f ((s.pwm[n]).ch ph)).stretch = none ∧
      (¬stretchDrops s n ph e → exec (.minpwStretchEnd n ph) s = .next (chanStep (stretchShown s n e) n ph f) ∧
        (f ((s.pwm[n]).ch ph)).filt = ((s.pwm[n]).ch ph).ideal ∧ (f ((s.pwm[n]).ch ph)).since = e) ∧
      (stretchDrops s n ph e → exec (.minpwStretchEnd n ph) s = .next (filterFlag (chanStep (stretchShown s n e) n ph f) n .dropped) ∧
        (f ((s.pwm[n]).ch ph)).filt = !((s.pwm[n]).ch ph).ideal ∧ (f ((s.pwm[n]).ch ph)).suppressed = true) := by
  have hch : ((stretchShown s n e).pwm[n]).ch ph = (s.pwm[n]).ch ph := by
    rw [stretchShown, filterFlag_pwm]
    exact (toTick_later s e).ch n ph
  have hdrop := stretchShown_drops s n ph e
  have hexec : exec (.minpwStretchEnd n ph) s = execMinpwStretchEnd n ph s := rfl
  have hshown : filterFlag (toTick s e) n .stretched = stretchShown s n e := rfl
  simp only [execMinpwStretchEnd, hst, hshown, hch] at hexec
  generalize (s.pwm[n]).ch ph = c at *
  by_cases hf : c.ideal = c.filt
  · rw [if_pos hf, ← hf] at hexec
    by_cases hd : stretchDrops s n ph e
    · rw [if_pos (decide_eq_true (hdrop.mpr hd))] at hexec
      exact ⟨_, rfl, fun h => absurd hd h, fun _ => ⟨hexec, by rw [(level_stages _ _ _ _).1, hf], rfl⟩⟩
    · rw [if_neg (fun h => hd (hdrop.mp (of_decide_eq_true h)))] at hexec
      exact ⟨_, rfl, fun _ => ⟨hexec, hf.symm, rfl⟩, fun h => absurd h hd⟩
  · have hn : (!c.filt) = c.ideal := (Bool.eq_not_of_ne hf).symm
    rw [if_neg hf, hn] at hexec
    by_cases hd : stretchDrops s n ph e
    · rw [if_pos (decide_eq_true (hdrop.mpr hd))] at hexec
      exact ⟨_, rfl, fun h => absurd hd h, fun _ => ⟨hexec, by rw [← hn, Bool.not_not], rfl⟩⟩
    · rw [if_neg (fun h => hd (hdrop.mp (of_decide_eq_true h)))] at hexec
      exact ⟨_, rfl, fun _ => ⟨hexec, (level_stages _ _ _ _).1.trans hn, (level_stages _ _ _ _).2⟩, fun h => absurd h hd⟩

theorem stretchShown_signals (s : State) (n : Axis) (e : Nat) :
    SignalsBut [Sig.PWM_STAT n.val, Sig.PWM_FILTER_COUNT n.val] s (stretchShown s n e) := fun k hk hl =>
  (filterFlag_signals _ n _ k hk hl).trans ((toTick_later s e).rg k)

/-- What the end of a stretch shows and counts. -/
theorem stretchShown_shows (s : State) (n : Axis) (e : Nat) : rgB (stretchShown s n e) (Sig.PWM_STAT n.val) 7 = true ∧
    rg (stretchShown s n e) (Sig.PWM_FILTER_COUNT n.val) = rg s (Sig.PWM_FILTER_COUNT n.val) + 1 := by
  obtain ⟨hbit, -, hcount⟩ := filterFlag_shows (toTick s e) n false
  exact ⟨hbit, hcount.trans (congrArg (· + 1) ((toTick_later s e).rg _))⟩

theorem execMinpwStretchEnd_ends (s : State) (n : Axis) (ph : Fin 3) (e : Nat) (hst : ((s.pwm[n]).ch ph).stretch = some e) :
    ∃ t, exec (.minpwStretchEnd n ph) s = .next t ∧ ((t.pwm[n]).ch ph).stretch = none ∧ rgB t (Sig.PWM_STAT n.val) 7 = true ∧
      (¬stretchDrops s n ph e → ((t.pwm[n]).ch ph).filt = ((s.pwm[n]).ch ph).ideal ∧ ((t.pwm[n]).ch ph).since = e ∧
        rg t (Sig.PWM_FILTER_COUNT n.val) = rg s (Sig.PWM_FILTER_COUNT n.val) + 1) ∧
      (stretchDrops s n ph e → ((t.pwm[n]).ch ph).filt = !((s.pwm[n]).ch ph).ideal ∧ ((t.pwm[n]).ch ph).suppressed = true ∧
        rgB t (Sig.PWM_STAT n.val) 6 = true ∧ rg t (Sig.PWM_FILTER_COUNT n.val) = rg s (Sig.PWM_FILTER_COUNT n.val) + 2) ∧
      t.ax = s.ax ∧ SignalsBut [Sig.PWM_STAT n.val, Sig.PWM_FILTER_COUNT n.val] s t := by
  obtain ⟨f, hnone, hpass, hdrop⟩ := execMinpwStretchEnd_eq hst
  obtain ⟨hbit, hcount⟩ := stretchShown_shows s n e
  have hax : (chanStep (stretchShown s n e) n ph f).ax = s.ax :=
    (chanStep_ax _ n ph f).trans ((filterFlag_ax _ n _).trans (toTick_later s e).ax)
  have hregs := chanStep_regs (stretchShown s n e) n ph f
  have hstages := chanStep_stages (stretchShown s n e) n ph f
  rw [show ((stretchShown s n e).pwm[n]).ch ph = (s.pwm[n]).ch ph by
    rw [stretchShown, filterFlag_pwm]; exact (toTick_later s e).ch n ph] at hstages
  have hsig := stretchShown_signals s n e
  generalize chanStep (stretchShown s n e) n ph f = u at *
  by_cases hd : stretchDrops s n ph e
  · obtain ⟨he, hfilt, hsup⟩ := hdrop hd
    obtain ⟨hbit6, hstays, hcount2⟩ := filterFlag_shows u n true
    refine ⟨_, he, ?_, hstays 7 (by decide) ((rgB_of_regs hregs _ _).trans hbit), fun h => absurd hd h, fun _ => ⟨?_, ?_, hbit6, ?_⟩,
      (filterFlag_ax u n _).trans hax, fun k hk hl => ?_⟩
    · rw [filterFlag_pwm]
      exact (congrArg Chan.stretch hstages :).trans hnone
    · rw [filterFlag_pwm]
      exact (congrArg Chan.filt hstages :).trans hfilt
    · rw [filterFlag_pwm]
      exact (congrArg Chan.suppressed hstages :).trans hsup
    · refine hcount2.trans ?_
      rw [rg_of_regs hregs, hcount, BitVec.add_assoc]
      rfl
    · exact (filterFlag_signals u n _ k hk hl).trans ((rg_of_regs hregs k).trans (hsig k hk hl))
  · obtain ⟨he, hfilt, hsince⟩ := hpass hd
    refine ⟨u, he, (congrArg Chan.stretch hstages :).trans hnone, (rgB_of_regs hregs _ _).trans hbit, fun _ => ⟨?_, ?_, ?_⟩,
      fun h => absurd h hd, hax, fun k hk hl => (rg_of_regs hregs k).trans (hsig k hk hl)⟩
    · exact (congrArg Chan.filt hstages :).trans hfilt
    · exact (congrArg Chan.since hstages :).trans hsince
    · exact (rg_of_regs hregs _).trans hcount

/-! ### BOOTSTRAP_REFRESH (R204, R205) -/

theorem refresh_keys (n : Axis) : Sig.PWM_STAT n.val ≠ Sig.PWM_BSREF_COUNT n.val := by
  simp only [Sig.PWM_STAT, Sig.PWM_BSREF_COUNT]
  omega

theorem execBootstrapRefresh_begins (s : State) (n : Axis) (ph : Fin 3) (hrun : counting s n = true)
    (hoff : ((s.pwm[n]).ch ph).bsOn = false) (hdue : ((s.pwm[n]).ch ph).bsArmed = true) :
    ∃ t, exec (.bootstrapRefresh n ph) s = .next t ∧ ((t.pwm[n]).ch ph).bsOn = true ∧ ((t.pwm[n]).ch ph).bsArmed = false ∧
      ((t.pwm[n]).ch ph).stage4 = false ∧ ((t.pwm[n]).ch ph).bsCount = 0 ∧ rgB t (Sig.PWM_STAT n.val) 8 = true ∧
      rg t (Sig.PWM_BSREF_COUNT n.val) = rg s (Sig.PWM_BSREF_COUNT n.val) + 1 ∧
      SignalsBut [Sig.PWM_STAT n.val, Sig.PWM_BSREF_COUNT n.val] s t := by
  obtain ⟨u, he, hlater⟩ : ∃ u, exec (.bootstrapRefresh n ph) s = .next (chanStep
      (incR (setB u (Sig.PWM_STAT n.val) 8 true) (Sig.PWM_BSREF_COUNT n.val)) n ph
      (fun c => { c with bsArmed := false, bsOn := true, stage4 := false, bsCount := 0 })) ∧ Later s u := by
    refine ⟨_, ?_, toPos_later s n (0x1080 + 4 * n.val + ph.val) [perOf s n - rgN s (Sig.PWM_BSREF n.val) / 2]⟩
    show execBootstrapRefresh n ph s = _
    simp only [execBootstrapRefresh, hrun, hoff, hdue, Bool.and_false, Bool.and_self, Bool.false_eq_true, if_false, if_true]
  have hstages := chanStep_stages (incR (setB u (Sig.PWM_STAT n.val) 8 true) (Sig.PWM_BSREF_COUNT n.val)) n ph
    (fun c => { c with bsArmed := false, bsOn := true, stage4 := false, bsCount := 0 })
  have hregs := chanStep_regs (incR (setB u (Sig.PWM_STAT n.val) 8 true) (Sig.PWM_BSREF_COUNT n.val)) n ph
    (fun c => { c with bsArmed := false, bsOn := true, stage4 := false, bsCount := 0 })
  refine ⟨_, he, (congrArg Chan.bsOn hstages :), (congrArg Chan.bsArmed hstages :), (congrArg Chan.stage4 hstages :),
    (congrArg Chan.bsCount hstages :), ?_, ?_, fun k hk _ => ?_⟩
  · rw [rgB_of_regs hregs, rgB, rg_incR_ne _ (refresh_keys n), ← rgB, rgB_setB _ _ _ _ _ (by decide), if_pos rfl]
  · rw [rg_of_regs hregs, rg_incR_same, rg_setB_ne _ _ _ (refresh_keys n).symm, hlater.rg]
  · simp only [List.mem_cons, List.not_mem_nil, or_false, not_or] at hk
    rw [rg_of_regs hregs, rg_incR_ne _ hk.2, rg_setB_ne _ _ _ hk.1, hlater.rg]

theorem execBootstrapRefresh_ends (s : State) (n : Axis) (ph : Fin 3) (hrun : counting s n = true)
    (hon : ((s.pwm[n]).ch ph).bsOn = true) :
    ∃ t, exec (.bootstrapRefresh n ph) s = .next t ∧ ((t.pwm[n]).ch ph).bsOn = false ∧
      ((t.pwm[n]).ch ph).stage4 = ((s.pwm[n]).ch ph).filt ∧ t.regs = s.regs := by
  obtain ⟨u, he, hlater⟩ : ∃ u, exec (.bootstrapRefresh n ph) s = .next (chanStep u n ph (fun c => { c with bsOn := false, stage4 := c.filt })) ∧
      Later s u := by
    refine ⟨_, ?_, toPos_later s n (0x1080 + 4 * n.val + ph.val) [perOf s n + rgN s (Sig.PWM_BSREF n.val) / 2]⟩
    show execBootstrapRefresh n ph s = _
    simp only [execBootstrapRefresh, hrun, hon, Bool.and_self, if_true]
  have hstages := chanStep_stages u n ph (fun c => { c with bsOn := false, stage4 := c.filt })
  rw [hlater.ch n ph] at hstages
  exact ⟨_, he, (congrArg Chan.bsOn hstages :), (congrArg Chan.stage4 hstages :), (chanStep_regs u n ph _).trans hlater.regs⟩

/-! ### TAG_COMPARE (R207, R208, R262, R263, R277) -/

/-- A tag compare fires inside the period, where the counter stands at it. -/
theorem trgPos_lt {v sl per q : Nat} (h : q ∈ trgPos v sl per) : q < 2 * per := by
  unfold trgPos at h
  rcases List.mem_append.mp h with h | h
  all_goals
    split at h
    · simp only [List.mem_singleton] at h
      omega
    · exact absurd h List.not_mem_nil

theorem cnt_of_trgPos {p : PwmAx} {v sl per : Nat} (hp : InPeriod p per) (h : p.pos per ∈ trgPos v sl per) : p.cnt = v := by
  unfold trgPos at h
  rcases List.mem_append.mp h with h | h
  · split at h
    · rw [List.mem_singleton] at h
      rw [hp.cnt_of_le (by omega), h]
    · exact absurd h List.not_mem_nil
  · split at h
    · rw [List.mem_singleton] at h
      rw [hp.cnt_of_ge (by omega), h]
      omega
    · exact absurd h List.not_mem_nil

section
variable {s : State} {n : Axis} (hrun : counting s n = true) (hp : InPeriod (s.pwm[n]) (perOf s n))
  (ha : trgPos (s.pwm[n]).trgA (s.pwm[n]).slopeA (perOf s n) ≠ []) (hb : trgPos (s.pwm[n]).trgB (s.pwm[n]).slopeB (perOf s n) = [])
include hrun hp ha hb

/-- Where TRGA alone is enabled, a tag compare brings the counter to TRGA and pushes its tag. -/
theorem execTagCompare_eq : ∃ u, exec (.tagCompare n) s = .next (pushTag u n false) ∧ Later s u ∧ (u.pwm[n]).cnt = (s.pwm[n]).trgA := by
  obtain ⟨hat, hin, -⟩ := toPos_at hrun hp (keyTag n) ha (fun q hq => trgPos_lt hq)
  refine ⟨toPos s n (keyTag n) (trgPos (s.pwm[n]).trgA (s.pwm[n]).slopeA (perOf s n)), ?_, toPos_later s n _ _, cnt_of_trgPos hin hat⟩
  show execTagCompare n s = _
  simp only [execTagCompare, hb, List.append_nil, List.contains_nil, Bool.false_eq_true, if_false]
  have hany : (counting s n && !(trgPos (s.pwm[n]).trgA (s.pwm[n]).slopeA (perOf s n)).isEmpty) = true := by
    rw [hrun, Bool.true_and, Bool.not_eq_true', List.isEmpty_eq_false_iff]
    exact ha
  rw [if_pos hany, if_pos (List.contains_iff_mem.mpr hat)]

theorem execTagCompare_pushes (hroom : (s.eng[engOf n]).fifo.length < 16) :
    ∃ t, exec (.tagCompare n) s = .next t ∧
      (t.eng[engOf n]).fifo = (s.eng[engOf n]).fifo ++
        [⟨tagWord t.clk.tb (t.clk.tb / 40) (t.pwm[n]).down false (slotOf n), t.clk.tb, n⟩] ∧
      (t.pwm[n]).cnt = (s.pwm[n]).trgA ∧ t.ax = s.ax ∧ SignalsBut [Sig.SMP_FIFO_MAX (engOf n).val] s t := by
  obtain ⟨u, he, hlater, hcnt⟩ := execTagCompare_eq hrun hp ha hb
  rw [pushTag] at he
  dsimp only at he
  rw [if_neg (by rw [hlater.eng]; omega)] at he
  refine ⟨_, he, ?_, hcnt, hlater.ax, fun k hk _ => ?_⟩
  · rw [setN_eng, ← hlater.eng]
    exact congrArg Engine.fifo (modV_same _ _ _)
  · rw [rg_setN_ne _ _ (fun e => hk (List.mem_singleton.mpr e)), modEng_rg, hlater.rg]

theorem execTagCompare_loses (hfull : 16 ≤ (s.eng[engOf n]).fifo.length) :
    ∃ t, exec (.tagCompare n) s = .next t ∧ t.eng = s.eng ∧
      rg t (Sig.SMP_TAG_LOST (engOf n).val) = rg s (Sig.SMP_TAG_LOST (engOf n).val) + 1 ∧
      rg t (Sig.LP_SKIP_COUNT n.val) = rg s (Sig.LP_SKIP_COUNT n.val) + 1 ∧ Counts s t (axSrc n 7) := by
  obtain ⟨u, he, hlater, -⟩ := execTagCompare_eq hrun hp ha hb
  rw [pushTag] at he
  dsimp only at he
  rw [if_pos (by rw [hlater.eng]; exact hfull), tagLost_eq] at he
  have hq := axFault_quiet (tagLostCounted u n) n 7
  obtain ⟨hnd, hlost, hskip⟩ := lost_keys_distinct n
  simp only [List.nodup_cons, List.mem_cons, not_or, List.not_mem_nil, not_false_eq_true] at hnd
  obtain ⟨⟨hSL, -, hSK, hSR, -⟩, ⟨hLP, hLK, hLR, -⟩, ⟨hPK, hPR, -⟩, ⟨hKR, -⟩, -⟩ := hnd
  refine ⟨_, he, ?_, ?_, ?_, axFault_counts n 7 (by decide) (by rw [tagLostCounted_flt, hlater.flt]) ?_⟩
  · rw [hq.eng, tagLostCounted_eng, hlater.eng]
  · rw [hq.keys _ hlost, tagLostCounted, rg_incR_ne _ hLK, rg_setB_ne _ _ _ hLP, rg_incR_same, rg_setB_ne _ _ _ (Ne.symm hSL), hlater.rg]
  · rw [hq.keys _ hskip, tagLostCounted, rg_incR_same, rg_setB_ne _ _ _ (Ne.symm hPK), rg_incR_ne _ (Ne.symm hLK),
      rg_setB_ne _ _ _ (Ne.symm hSK), hlater.rg]
  · rw [roleOf, rgN, tagLostCounted, rg_incR_ne _ (Ne.symm hKR), rg_setB_ne _ _ _ (Ne.symm hPR), rg_incR_ne _ (Ne.symm hLR),
      rg_setB_ne _ _ _ (Ne.symm hSR), hlater.rg, ← rgN, ← roleOf]

end

/-! ### The obligation -/

/-- Settles O44: the compares, the ends of stretches, the bootstrap refresh and the tag compares of a module. -/
theorem pulsesAndTagsFollowTheCounter : Obligations.PulsesAndTagsFollowTheCounter := by
  refine ⟨execCompareMatch_levels, fun s n ph e hst => ?_, execBootstrapRefresh_begins, execBootstrapRefresh_ends,
    fun s n hrun hper htop hdown ha hb => execTagCompare_pushes hrun ⟨hper, htop, hdown⟩ ha hb,
    fun s n hrun hper htop hdown ha hb => execTagCompare_loses hrun ⟨hper, htop, hdown⟩ ha hb⟩
  obtain ⟨t, he, hnone, hbit, hpass, hdrop, hax, hsig⟩ := execMinpwStretchEnd_ends s n ph e hst
  refine ⟨t, he, hnone, hbit, fun h => hpass (fun hd => ?_), fun hmode hpred => hdrop ⟨hmode, hpred⟩, hax, hsig⟩
  rcases h with h | h
  · exact h hd.1
  · exact absurd hd.2 (Nat.not_lt.mpr h)

end Sys2Proof.Machine
end

section
/-! O45: the turn-ons, the handshakes and the blanking window of a module. -/

namespace Sys2Proof.Machine

/-! ### DEADTIME_TURN_ON (R191, R192) -/

theorem riseMax_signals (s : State) (n : Axis) : SignalsBut [Sig.GD_RISE_MAX n.val] s (riseMax s n) := fun _ hk _ =>
  rg_setN_ne _ _ (fun e => hk (List.mem_singleton.mpr e))

/-- A time to VGS_ON that is kept leaves every gate as it is driven. -/
theorem riseMax_gateOn (s : State) (n : Axis) (g : Gate) : gateOn (riseMax s n) n g = gateOn s n g := by
  have hne : Sig.GD_LATCH n.val ≠ Sig.GD_RISE_MAX n.val := by
    simp only [Sig.GD_LATCH, Sig.GD_RISE_MAX]
    omega
  exact gateOn_congr (s := s) (t := riseMax s n) (ph := g.ph) rfl rfl rfl (rg_setN_ne _ _ hne) (fun _ => rfl) g.hi

/-- A turn-on of a phase after its dead time: the channel changed, and the time to VGS_ON kept. -/
def turnOn (s : State) (n : Axis) (ph : Fin 3) (f : Chan → Chan) : State :=
  riseMax (withEdges s n (fun s => modPwm s n (fun p => p.modCh ph f))) n

section
variable (s : State) (n : Axis) (ph : Fin 3) (f : Chan → Chan)

theorem turnOn_rest : (turnOn s n ph f).ax = s.ax ∧ (turnOn s n ph f).clk = s.clk ∧ SignalsBut [Sig.GD_RISE_MAX n.val] s (turnOn s n ph f) := by
  have h := withEdges_rest s n (fun s => modPwm s n (fun p => p.modCh ph f))
  exact ⟨h.ax, h.clk, fun k hk hl => (riseMax_signals _ n k hk hl).trans (rg_of_regs h.regs k)⟩

/-- The channel is the changed one, with the ticks at which its gates went on. -/
theorem turnOn_ch : ((turnOn s n ph f).pwm[n]).ch ph = (f ((s.pwm[n]).ch ph)).turned
    (fun hi => gateOn s n ⟨ph, hi⟩) (fun hi => gateOn (turnOn s n ph f) n ⟨ph, hi⟩) s.clk.tb := by
  have hgate (hi : Bool) : gateOn (turnOn s n ph f) n ⟨ph, hi⟩ = gateOn (modPwm s n (fun p => p.modCh ph f)) n ⟨ph, hi⟩ :=
    (riseMax_gateOn _ n _).trans (withEdges_gateOn s n _ _)
  simp only [hgate]
  refine (withEdges_ch s n (fun s => modPwm s n (fun p => p.modCh ph f)) ph).trans ?_
  rw [modPwm_module, ch_modCh_same]
  rfl

theorem turnOn_cmdOf (hi : Bool) : cmdOf (turnOn s n ph f) n ⟨ph, hi⟩ =
    if hi then (f ((s.pwm[n]).ch ph)).cmdH else (f ((s.pwm[n]).ch ph)).cmdL := by
  unfold cmdOf
  rw [turnOn_ch]
  rfl

end

/-- A turn-on not before either of two ticks, and what it leaves. -/
theorem turnOn_afterBoth (s : State) (n : Axis) (ph : Fin 3) (f : Chan → Chan) (a b : Nat) :
    let t := turnOn (toTick s (max a b)) n ph f
    (t.pwm[n]).ch ph = (f ((s.pwm[n]).ch ph)).turned (fun hi => gateOn s n ⟨ph, hi⟩) (fun hi => gateOn t n ⟨ph, hi⟩) t.clk.tb ∧
      (∀ hi, cmdOf t n ⟨ph, hi⟩ = if hi then (f ((s.pwm[n]).ch ph)).cmdH else (f ((s.pwm[n]).ch ph)).cmdL) ∧
      (inRun s = true → a ≤ t.clk.tb ∧ b ≤ t.clk.tb) ∧ t.ax = s.ax ∧ SignalsBut [Sig.GD_RISE_MAX n.val] s t := by
  have hu := toTick_later s (max a b)
  obtain ⟨hax, hclk, hsig⟩ := turnOn_rest (toTick s (max a b)) n ph f
  refine ⟨?_, fun hi => ?_, fun hrun => ?_, hax.trans hu.ax, fun k hk hl => (hsig k hk hl).trans (hu.rg k)⟩
  · rw [turnOn_ch, hu.ch, hclk]
    simp only [hu.gateOn]
  · rw [turnOn_cmdOf, hu.ch]
  · rw [hclk, toTick_tb _ hrun]
    omega

/-- A channel whose pending high side leaves its dead time. -/
def Chan.goHigh (c : Chan) : Chan := { c with cmdH := true, pendH := false, belowH := false }

/-- A channel whose pending low side leaves its dead time. -/
def Chan.goLow (c : Chan) : Chan := { c with cmdL := true, pendL := false, belowL := false }

theorem execDeadtimeTurnOn_high (s : State) (n : Axis) (ph : Fin 3) (hpend : ((s.pwm[n]).ch ph).pendH = true)
    (hcmd : ((s.pwm[n]).ch ph).cmdL = false) (hwait : ((s.pwm[n]).ch ph).awaitL = false) (hbelow : ((s.pwm[n]).ch ph).belowL = true) :
    ∃ t, exec (.deadtimeTurnOn n ⟨ph, true⟩) s = .next t ∧
      (t.pwm[n]).ch ph = { (s.pwm[n]).ch ph with cmdH := true, pendH := false, belowH := false, onH := ((t.pwm[n]).ch ph).onH } ∧
      (gateOn s n ⟨ph, true⟩ = false → gateOn t n ⟨ph, true⟩ = true → ((t.pwm[n]).ch ph).onH = t.clk.tb) ∧
      (inRun s = true → ((s.pwm[n]).ch ph).offL + rgN s (Sig.PWM_DTMIN n.val) ≤ t.clk.tb ∧ ((s.pwm[n]).ch ph).seenL ≤ t.clk.tb) ∧
      t.ax = s.ax ∧ SignalsBut [Sig.GD_RISE_MAX n.val] s t := by
  have he : exec (.deadtimeTurnOn n ⟨ph, true⟩) s = .next (turnOn (toTick s (max (((s.pwm[n]).ch ph).offL + rgN s (Sig.PWM_DTMIN n.val))
      ((s.pwm[n]).ch ph).seenL)) n ph Chan.goHigh) := by
    show execDeadtimeTurnOn n ⟨ph, true⟩ s = _
    rw [execDeadtimeTurnOn, if_pos rfl, if_pos (by simp only [hpend, hcmd, hwait, hbelow, Bool.not_false, Bool.and_self])]
    rfl
  obtain ⟨hch, hcmds, htime, hax, hsig⟩ := turnOn_afterBoth s n ph Chan.goHigh (((s.pwm[n]).ch ph).offL + rgN s (Sig.PWM_DTMIN n.val))
    ((s.pwm[n]).ch ph).seenL
  simp only [Chan.turned, gateOn_of_other (hi := false) (hcmds true), Bool.and_false, Bool.false_eq_true, if_false] at hch
  refine ⟨_, he, ?_, fun h0 h1 => ?_, htime, hax, hsig⟩
  · rw [hch]
    rfl
  · rw [hch]
    exact if_pos (by simp only [h0, h1, Bool.not_false, Bool.and_self])

theorem execDeadtimeTurnOn_low (s : State) (n : Axis) (ph : Fin 3) (hpend : ((s.pwm[n]).ch ph).pendL = true)
    (hcmd : ((s.pwm[n]).ch ph).cmdH = false) (hwait : ((s.pwm[n]).ch ph).awaitH = false) (hbelow : ((s.pwm[n]).ch ph).belowH = true) :
    ∃ t, exec (.deadtimeTurnOn n ⟨ph, false⟩) s = .next t ∧
      (t.pwm[n]).ch ph = { (s.pwm[n]).ch ph with cmdL := true, pendL := false, belowL := false, onL := ((t.pwm[n]).ch ph).onL } ∧
      (gateOn s n ⟨ph, false⟩ = false → gateOn t n ⟨ph, false⟩ = true → ((t.pwm[n]).ch ph).onL = t.clk.tb) ∧
      (inRun s = true → ((s.pwm[n]).ch ph).offH + rgN s (Sig.PWM_DTMIN n.val) ≤ t.clk.tb ∧ ((s.pwm[n]).ch ph).seenH ≤ t.clk.tb) ∧
      t.ax = s.ax ∧ SignalsBut [Sig.GD_RISE_MAX n.val] s t := by
  have he : exec (.deadtimeTurnOn n ⟨ph, false⟩) s = .next (turnOn (toTick s (max (((s.pwm[n]).ch ph).offH + rgN s (Sig.PWM_DTMIN n.val))
      ((s.pwm[n]).ch ph).seenH)) n ph Chan.goLow) := by
    show execDeadtimeTurnOn n ⟨ph, false⟩ s = _
    rw [execDeadtimeTurnOn, if_neg Bool.false_ne_true, if_pos (by simp only [hpend, hcmd, hwait, hbelow, Bool.not_false, Bool.and_self])]
    rfl
  obtain ⟨hch, hcmds, htime, hax, hsig⟩ := turnOn_afterBoth s n ph Chan.goLow (((s.pwm[n]).ch ph).offH + rgN s (Sig.PWM_DTMIN n.val))
    ((s.pwm[n]).ch ph).seenH
  simp only [Chan.turned, gateOn_of_other (hi := true) (hcmds false), Bool.and_false, Bool.false_eq_true, if_false] at hch
  refine ⟨_, he, ?_, fun h0 h1 => ?_, htime, hax, hsig⟩
  · rw [hch]
    rfl
  · rw [hch]
    exact if_pos (by simp only [h0, h1, Bool.not_false, Bool.and_self])

/-! ### GATE_SENSE_REPORT (R191 to R193) -/

theorem execGateSenseReport_high (s : State) (n : Axis) (ph : Fin 3) (hwait : ((s.pwm[n]).ch ph).awaitH = true)
    (hcmd : ((s.pwm[n]).ch ph).cmdH = false) :
    ∃ t, exec (.gateSenseReport n ⟨ph, true⟩) s = .next t ∧
      (t.pwm[n]).ch ph = { (s.pwm[n]).ch ph with awaitH := false, belowH := true, seenH := s.clk.tb + 2 } ∧
      rgN t (Sig.PWM_DT_HS_U n.val + ph.val) = min 65535 (s.clk.tb - ((s.pwm[n]).ch ph).offH + 2) ∧
      (∀ k, k ≠ Sig.PWM_DT_HS_U n.val + ph.val → rg t k = rg s k) ∧ t.ax = s.ax := by
  have he : exec (.gateSenseReport n ⟨ph, true⟩) s = execGateSenseReport n ⟨ph, true⟩ s := rfl
  simp only [execGateSenseReport, hwait, if_true] at he
  refine ⟨_, he, ?_, ?_, fun k hk => ?_, rfl⟩
  · rw [setN_pwm, modPwm_module, ch_modCh_same, if_neg (by rw [hcmd]; exact Bool.false_ne_true), if_pos hwait]
  · rw [rgN_setN _ _ _ (by omega), modPwm_clk]
  · rw [rg_setN_ne _ _ hk, modPwm_rg]

/-! ### HS_TIMEOUT (R193, R235) -/

/-- A latch SC, WEAK, XCMD or HS_TO of a half-bridge isolates it (R235). -/
theorem isolated_of_latch {s : State} {n : Axis} {ph : Fin 3} {b : Nat} (hb : b < 6)
    (h : rgB s (Sig.GD_LATCH n.val) (8 * ph.val + b) = true) : isolated s n ph = true := by
  have hbit : (latchByte s n ph % 64).testBit b = true := by
    rw [latchByte, rgF, Nat.mod_mod_of_dvd _ (by decide : 64 ∣ 2 ^ 8), show 64 = 2 ^ 6 from rfl, Nat.testBit_mod_two_pow,
      Nat.testBit_div_two_pow, decide_eq_true hb, Bool.true_and, Nat.add_comm]
    exact h
  have hne : latchByte s n ph % 64 ≠ 0 := fun e => by simp [e] at hbit
  simp [isolated, hne]

/-- The half-bridge of a gate whose handshake timed out, before the event of the source. -/
def timedOut (s : State) (n : Axis) (ph : Fin 3) : State :=
  withEdges s n (fun s => outOfService (setLatch (setB s (Sig.PWM_STAT n.val) (9 + ph.val) true) n ph 5) n ph.val)

theorem timedOut_rest (s : State) (n : Axis) (ph : Fin 3) :
    (timedOut s n ph).regs = (setLatch (setB s (Sig.PWM_STAT n.val) (9 + ph.val) true) n ph 5).regs ∧
      (timedOut s n ph).flt = s.flt :=
  ⟨(withEdges_rest s n _).regs, (withEdges_rest s n _).flt⟩

theorem timeout_keys (n : Axis) : [Sig.GD_LATCH n.val, Sig.PWM_STAT n.val, Sig.FLT_ROLE_AX n.val].Nodup ∧
    Sig.GD_LATCH n.val ∉ ledgerKeys ∧ Sig.PWM_STAT n.val ∉ ledgerKeys := by
  revert n
  decide

theorem timedOut_signals (s : State) (n : Axis) (ph : Fin 3) {k : Nat} (hl : k ≠ Sig.GD_LATCH n.val) (hp : k ≠ Sig.PWM_STAT n.val) :
    rg (timedOut s n ph) k = rg s k := by
  rw [rg_of_regs (timedOut_rest s n ph).1, setLatch, rg_setB_ne _ _ _ hl, rg_setB_ne _ _ _ hp]

theorem timedOut_latch (s : State) (n : Axis) (ph : Fin 3) : rgB (timedOut s n ph) (Sig.GD_LATCH n.val) (8 * ph.val + 5) = true := by
  rw [rgB_of_regs (timedOut_rest s n ph).1, setLatch, rgB_setB _ _ _ _ _ (by omega), if_pos rfl]

theorem timedOut_shown (s : State) (n : Axis) (ph : Fin 3) : rgB (timedOut s n ph) (Sig.PWM_STAT n.val) (9 + ph.val) = true := by
  obtain ⟨hnd, -, -⟩ := timeout_keys n
  simp only [List.nodup_cons, List.mem_cons, not_or, List.not_mem_nil, not_false_eq_true] at hnd
  obtain ⟨⟨hLP, -⟩, -⟩ := hnd
  rw [rgB_of_regs (timedOut_rest s n ph).1, setLatch, rgB_setB_ne _ _ _ _ (Ne.symm hLP), rgB_setB _ _ _ _ _ (by omega), if_pos rfl]

theorem execHsTimeout_isolates (s : State) (n : Axis) (g : Gate)
    (hwait : (if g.hi then ((s.pwm[n]).ch g.ph).awaitH else ((s.pwm[n]).ch g.ph).awaitL) = true)
    (hmark : markOf s (keyTimeout n g) ≠ (if g.hi then ((s.pwm[n]).ch g.ph).offH else ((s.pwm[n]).ch g.ph).offL) + 361) :
    ∃ t, exec (.hsTimeout n g) s = .next t ∧ rgB t (Sig.GD_LATCH n.val) (8 * g.ph.val + 5) = true ∧
      rgB t (Sig.PWM_STAT n.val) (9 + g.ph.val) = true ∧ isolated t n g.ph = true ∧ (∀ hi, gateOn t n ⟨g.ph, hi⟩ = false) ∧
      Counts s t (axSrc n 4) ∧ SignalsBut [Sig.GD_LATCH n.val, Sig.PWM_STAT n.val] s t := by
  have he : exec (.hsTimeout n g) s = execHsTimeout n g s := rfl
  unfold execHsTimeout at he
  dsimp only at he
  rw [if_pos (by rw [hwait, Bool.true_and, bne_iff_ne]; exact hmark)] at he
  obtain ⟨u, he, hu⟩ : ∃ u, exec (.hsTimeout n g) s = .next (axFault (timedOut u n g.ph) n 4) ∧ Later s u :=
    ⟨_, he, (toTick_later s _).trans (setMark_later _ _ _)⟩
  obtain ⟨hnd, hlatch, hstat⟩ := timeout_keys n
  simp only [List.nodup_cons, List.mem_cons, not_or, List.not_mem_nil, not_false_eq_true] at hnd
  obtain ⟨⟨-, hLR, -⟩, ⟨hPR, -⟩, -⟩ := hnd
  have hq := axFault_quiet (timedOut u n g.ph) n 4
  have hset : rgB (axFault (timedOut u n g.ph) n 4) (Sig.GD_LATCH n.val) (8 * g.ph.val + 5) = true :=
    (hq.rgB _ hlatch).trans (timedOut_latch u n g.ph)
  have hiso := isolated_of_latch (by decide) hset
  refine ⟨_, he, hset, (hq.rgB _ hstat).trans (timedOut_shown u n g.ph), hiso, fun hi => gateOn_of_isolated hiso,
    axFault_counts n 4 (by decide) ?_ ?_, fun k hk hl => ?_⟩
  · rw [(timedOut_rest u n g.ph).2, hu.flt]
  · rw [roleOf, rgN, timedOut_signals u n g.ph (Ne.symm hLR) (Ne.symm hPR), hu.rg, ← rgN, ← roleOf]
  · simp only [List.mem_cons, List.not_mem_nil, or_false, not_or] at hk
    rw [hq.keys k hl, timedOut_signals u n g.ph hk.1 hk.2, hu.rg]

/-! ### The blanking window (R210, R211) -/

theorem execAtcWindowOpen_opens (s : State) (n : Axis) (x : Nat) (hat : (s.pwm[n]).atcOpenAt = some x) :
    ∃ t, exec (.atcWindowOpen n) s = .next t ∧ (t.pwm[n]).atcOpen = true ∧ (t.pwm[n]).atcOpenAt = none ∧ t.regs = s.regs ∧
      t.ax = s.ax ∧ (inRun s = true → x ≤ t.clk.tb) := by
  have he : exec (.atcWindowOpen n) s = .next (modPwm (toTick s x) n (fun p => { p with atcOpen := true, atcOpenAt := none })) := by
    show execAtcWindowOpen n s = _
    rw [execAtcWindowOpen, hat]
  have hu := toTick_later s x
  refine ⟨_, he, ?_, ?_, hu.regs, hu.ax, fun hrun => ?_⟩
  · rw [modPwm_module]
  · rw [modPwm_module]
  · rw [modPwm_clk, toTick_tb _ hrun]
    exact le_max_right _ _

theorem execAtcWindowClose_closes (s : State) (n : Axis) (x : Nat) (hat : (s.pwm[n]).atcCloseAt = some x)
    (hopen : (s.pwm[n]).atcOpen = true) :
    ∃ t, exec (.atcWindowClose n) s = .next t ∧ (t.pwm[n]).atcOpen = false ∧ (t.pwm[n]).atcCloseAt = none ∧ t.regs = s.regs ∧ t.ax = s.ax ∧
      (inRun s = true → x ≤ t.clk.tb) := by
  have he : exec (.atcWindowClose n) s = .next (modPwm (toTick s x) n (fun p => { p with atcOpen := false, atcCloseAt := none })) := by
    show execAtcWindowClose n s = _
    rw [execAtcWindowClose, hat]
    exact if_pos hopen
  have hu := toTick_later s x
  refine ⟨_, he, ?_, ?_, hu.regs, hu.ax, fun hrun => ?_⟩
  · rw [modPwm_module]
  · rw [modPwm_module]
  · rw [modPwm_clk, toTick_tb _ hrun]
    exact le_max_right _ _

/-! ### The obligation -/

/-- Settles O45: the turn-ons after a handshake, its timeout, and the blanking window. -/
theorem gatesTurnOnAfterTheHandshake : Obligations.GatesTurnOnAfterTheHandshake :=
  ⟨execDeadtimeTurnOn_high, execDeadtimeTurnOn_low, execGateSenseReport_high, execHsTimeout_isolates, execAtcWindowOpen_opens,
    execAtcWindowClose_closes⟩

end Sys2Proof.Machine
end

section
/-! O47, the trips: what an event of a source leaves of the trip of every axis, and TRIP_IN. -/

namespace Sys2Proof.Machine

/-! ### What a fault reaction leaves of the gate drive -/

/-- The gate drive of every axis as it was, its precharge sequence apart. -/
def SameTrips (s t : State) : Prop := ∀ n : Axis, (t.gd[n]).noPulses = (s.gd[n]).noPulses

namespace SameTrips

theorem refl (s : State) : SameTrips s s := fun _ => rfl
theorem trans {s t u : State} (h : SameTrips s t) (g : SameTrips t u) : SameTrips s u := fun n => (g n).trans (h n)
theorem of_gd {s t : State} (h : t.gd = s.gd) : SameTrips s t := fun n => by rw [h]

theorem post : PostFrame SameTrips where
  refl := refl
  trans := trans
  posts _ _ _ _ _ := of_gd rfl
  ledger _ _ _ _ := of_gd rfl

variable {s t : State} (h : SameTrips s t)
include h

theorem tripNow (n : Axis) : (t.gd[n]).tripNow = (s.gd[n]).tripNow := (congrArg GdAx.tripNow (h n) :)
theorem out (n : Axis) : (t.gd[n]).out = (s.gd[n]).out := (congrArg GdAx.out (h n) :)

end SameTrips

section
variable (s : State) (n : Axis)

theorem noPulses_trips : SameTrips s (modGd s n GdAx.noPulses) := fun m => modV_view s.gd n GdAx.noPulses GdAx.noPulses (fun _ => rfl) m

theorem withLines_gd (f : State → State) : (withLines s n f).gd = (f s).gd := by
  unfold withLines
  dsimp only
  split <;> rfl

theorem withEdges_gd (f : State → State) : (withEdges s n f).gd = (f s).gd := (withEdges_rest s n f).gd

theorem leavePosition_trips : SameTrips s (leavePosition s n) :=
  ((SameTrips.of_gd rfl : SameTrips s (discardPlan s n)).trans (endWaits_keeps SameTrips.post _ _ _)).trans
    (dropDeferred_keeps SameTrips.post _ _ _)

theorem axisTo_trips (st : AxState) : SameTrips s (axisTo s n st) := by
  have hevt (b : AxBase) : SameTrips s (evt (modAx s n (fun _ => b)) (40 + n.val)) := .of_gd rfl
  unfold axisTo
  dsimp only
  split
  · exact .refl s
  · refine SameTrips.trans ?_ (endWaits_keeps SameTrips.post _ _ _)
    exact SameTrips.post.ite ((hevt _).trans (leavePosition_trips _ n)) (hevt _)

theorem passSettle_trips : SameTrips s (passSettle s n) := by
  unfold passSettle
  split
  case h_1 x _ =>
    have hset : SameTrips s (setPasses s n x.1) := .of_gd rfl
    exact hset.trans (modeDone_keeps SameTrips.post _)
  case h_2 => exact .refl s

theorem toDisabled_trips : SameTrips s (toDisabled s n) := by
  have hstop : SameTrips s (openLoops (modPwm (gatesOff s n) n PwmAx.stop) n) := .of_gd (withEdges_gd s n _)
  have hout (u : State) : SameTrips u (modObs (setReq u n false) n (fun o => { o with sens := false, est := 0, enter := none })) := .of_gd rfl
  have hidle (u : State) : SameTrips u (if inRun (idleAgain u) then beginLearn (idleAgain u) n else idleAgain u) :=
    SameTrips.post.ite (.of_gd rfl) (.of_gd rfl)
  refine SameTrips.post.ite (.refl s) ?_
  exact ((((hstop.trans (passSettle_trips _ n)).trans (noPulses_trips _ n)).trans (hout _)).trans (axisTo_trips _ n .disabled)).trans (hidle _)

theorem toFault_trips (serve : Bool) : SameTrips s (toFault s n serve) := by
  have hopen : SameTrips s (modGd (openLoops s n) n GdAx.noPulses) := noPulses_trips (openLoops s n) n
  have hfault (u : State) : SameTrips u (withLines u n (fun u => modAx (axisTo u n .fault) n (fun b => { b with serve := serve }))) :=
    (axisTo_trips u n .fault).trans (.of_gd (withLines_gd u n _))
  have hgates (u : State) : SameTrips u (gatesFault u n serve) := .of_gd (withLines_gd u n _)
  refine SameTrips.post.ite (.refl s) ?_
  exact ((hopen.trans (.of_gd (modPwm_gd _ n _))).trans (hfault _)).trans (hgates _)

theorem toShort_trips : SameTrips s (toShort s n) := by
  have hopen : SameTrips s (modGd (openLoops s n) n GdAx.noPulses) := noPulses_trips (openLoops s n) n
  have hshort (u : State) : SameTrips u (withEdges u n (fun u => axisTo u n .safeShort)) :=
    (axisTo_trips u n .safeShort).trans (.of_gd (withEdges_gd u n _))
  refine SameTrips.post.ite (.refl s) ?_
  exact (hopen.trans (hshort _)).trans (.of_gd (withEdges_gd _ n _))

theorem toPattern_trips : SameTrips s (toPattern s n) := SameTrips.post.ite (toShort_trips s n) (toFault_trips s n false)

theorem toHold_trips (byFault : Bool) : SameTrips s (toHold s n byFault) := by
  have hax (u : State) (f : AxBase → AxBase) : SameTrips u (modAx u n f) := .of_gd rfl
  have hserve (c : CarAx → CarAx) (l : LoopAx → LoopAx) : SameTrips s (axisTo (modLoop (modCar s n c) n l) n .hold) :=
    (axisTo_trips (modLoop (modCar s n c) n l) n .hold)
  unfold toHold
  split
  case h_1 | h_2 | h_3 | h_4 => exact (hserve _ _).trans (hax _ _)
  case h_5 => exact .of_gd rfl
  case h_6 => exact SameTrips.post.ite (toDisabled_trips s n) (.refl s)
  case h_7 => exact .refl s

theorem reactAxis_trips (r : Nat) : SameTrips s (reactAxis s n r) := by
  unfold reactAxis
  dsimp only
  split
  · exact .of_gd rfl
  · exact toHold_trips s n true
  · exact SameTrips.post.ite (toFault_trips s n true) (.refl s)
  · exact SameTrips.post.ite (toFault_trips s n false) (.refl s)
  · exact SameTrips.post.ite (toShort_trips s n) (.refl s)
  · exact .refl s

end

section
variable (s : State) (code : Nat)

theorem stageSnaps_trips (p : Snap → Bool) : SameTrips s (stageSnaps s p) :=
  SameTrips.post.each _ _ (fun u _ _ => stageSlice_keeps SameTrips.post u _ _ _) _

theorem openSnap_trips (react prior : Nat) : SameTrips s (openSnap s code react prior) := by
  unfold openSnap
  dsimp only
  split
  · exact stageEvent_keeps SameTrips.post s _ _ _ _
  · exact stageSnaps_trips _ _

theorem enterSafe_trips : SameTrips s (enterSafe s code) := by
  have h := SameTrips.post
  have hmode (u : State) (f : Flt) : SameTrips u { u with flt := f } := .of_gd rfl
  have hsup (u : State) (x : Sup) : SameTrips u { u with sup := x } := .of_gd rfl
  have hplan (u : State) (n : Axis) : SameTrips u (discardPlan u n) := .of_gd rfl
  unfold enterSafe
  refine h.ite (.refl s) ?_
  exact h.trans (h.trans (h.trans (h.trans (h.trans (h.trans (h.trans (hmode s _) (h.ledger _ _ _ (by decide)))
    (h.each _ _ (fun u n _ => toPattern_trips u n) _)) (h.each _ _ (fun u n _ => hplan u n) _)) (hsup _ _))
    (h.ledger _ _ _ (by decide))) (evt_keeps h _ 73)) (dropDeferred_keeps h _ _ _)

theorem applyReact_trips (r : Nat) : SameTrips s (applyReact s code r) := by
  unfold applyReact
  split
  · exact enterSafe_trips s code
  · split
    · exact reactAxis_trips s _ r
    · exact SameTrips.post.each _ _ (fun u n _ => reactAxis_trips u n r) s

theorem faultEvtB_trips (bind : Bool) : SameTrips s (faultEvtB s code bind) := by
  have hsrc (f : FltSrc) : SameTrips s (setSrc s code f) := .of_gd rfl
  unfold faultEvtB
  dsimp only
  split
  · exact hsrc _
  · split
    · refine ((SameTrips.trans ?_ (openSnap_trips _ code _ _))).trans (applyReact_trips _ code _)
      split <;> exact ((hsrc _).trans (countLasting_keeps SameTrips.post _ code)).trans (evt_keeps SameTrips.post _ _)
    · exact (hsrc _).trans (transientSlice_keeps SameTrips.post _ code (fun _ _ => .of_gd rfl))

/-- An event of an axis source leaves every trip as it stands. -/
theorem axFault_trips (n : Axis) (src : Nat) : SameTrips s (axFault s n src) := faultEvtB_trips s _ _

end

end Sys2Proof.Machine
end

section
/-! O47, TRIP_IN: the latch, its count and the action that GD_TRIP_ACT selects. -/

namespace Sys2Proof.Machine

/-! ### What a trip asks of the half-bridges (R234) -/

/-- A trip that turns every gate off asks for that until the axis next leaves DISABLED. -/
theorem ddDemand_of_tripOff {s : State} {n : Axis} (h : bitOf (s.gd[n]).out 3 = true) : ddDemand s n = .off := by
  have hw (d : Demand) : d.worse .off = .off := by cases d <;> rfl
  unfold ddDemand
  dsimp only
  rw [h, Bool.true_or, if_pos rfl, hw]

/-- A trip that turns the high sides off asks for the low sides, or for less. -/
theorem ddDemand_of_tripShort {s : State} {n : Axis} (h : bitOf (s.gd[n]).out 4 = true) : ddDemand s n = .off ∨ ddDemand s n = .short := by
  have hw (d : Demand) (b : Bool) : d.worse (if b then .off else .short) = .off ∨ d.worse (if b then .off else .short) = .short := by
    cases d <;> cases b <;> simp [Demand.worse]
  unfold ddDemand
  dsimp only
  rw [if_pos h]
  exact hw _ _

/-! ### TRIP_IN (R211, R233, R234, R239) -/

/-- TRIP latched with the action that is selected. -/
def tripLatched (act : Nat) (n : Axis) (s : State) : State :=
  if act = 2 then outOfService (setB s (Sig.GD_LATCH n.val) 30 true) n 3
  else if act = 3 then outOfService (setB s (Sig.GD_LATCH n.val) 30 true) n 4
  else setB s (Sig.GD_LATCH n.val) 30 true

section
variable (act : Nat) (n : Axis) (s : State)

theorem tripLatched_regs : (tripLatched act n s).regs = (setB s (Sig.GD_LATCH n.val) 30 true).regs := by
  unfold tripLatched
  split_ifs <;> rfl

theorem tripLatched_flt : (tripLatched act n s).flt = s.flt := by
  unfold tripLatched
  split_ifs <;> rfl

theorem tripLatched_tripNow : ((tripLatched act n s).gd[n]).tripNow = (s.gd[n]).tripNow := by
  unfold tripLatched
  split_ifs
  · exact (congrArg GdAx.tripNow (modV_same s.gd n _) :)
  · exact (congrArg GdAx.tripNow (modV_same s.gd n _) :)
  · rfl

/-- An action takes its bit out of service. -/
theorem tripLatched_out (hact : act = 2 ∨ act = 3) : bitOf ((tripLatched act n s).gd[n]).out (act + 1) = true := by
  have hbit (u : State) (b : Nat) : bitOf ((outOfService u n b).gd[n]).out b = true := by
    have h : (outOfService u n b).gd[n] = { u.gd[n] with out := (u.gd[n]).out ||| 2 ^ b } := modV_same u.gd n _
    rw [h, bitOf, Nat.testBit_or, Nat.testBit_two_pow_self, Bool.or_true]
  rcases hact with rfl | rfl
  · exact hbit _ 3
  · exact hbit _ 4

end

/-- A trip as its event finds it: latched, its edges made, and counted. -/
def tripTaken (act : Nat) (n : Axis) (s : State) : State := incR (withEdges s n (tripLatched act n)) (Sig.GD_TRIP_COUNT n.val)

theorem tripTaken_rest (act : Nat) (n : Axis) (s : State) :
    (tripTaken act n s).regs = (incR (setB s (Sig.GD_LATCH n.val) 30 true) (Sig.GD_TRIP_COUNT n.val)).regs ∧
      (tripTaken act n s).flt = s.flt ∧ (tripTaken act n s).gd = (tripLatched act n s).gd := by
  have h := withEdges_rest s n (tripLatched act n)
  have hincR {u v : State} (h : u.regs = v.regs) (k : Nat) : (incR u k).regs = (incR v k).regs := by
    simp only [incR, setR, rg, h]
  exact ⟨hincR (h.regs.trans (tripLatched_regs act n s)) _, h.flt.trans (tripLatched_flt act n s), h.gd⟩

theorem trip_keys (n : Axis) : [Sig.GD_LATCH n.val, Sig.GD_TRIP_COUNT n.val, Sig.FLT_ROLE_AX n.val].Nodup ∧
    Sig.GD_LATCH n.val ∉ ledgerKeys ∧ Sig.GD_TRIP_COUNT n.val ∉ ledgerKeys := by
  revert n
  decide

theorem tripTaken_rg (act : Nat) (n : Axis) (s : State) {k : Nat} (hl : k ≠ Sig.GD_LATCH n.val) (hc : k ≠ Sig.GD_TRIP_COUNT n.val) :
    rg (tripTaken act n s) k = rg s k := by
  rw [rg_of_regs (tripTaken_rest act n s).1, rg_incR_ne _ hc, rg_setB_ne _ _ _ hl]

theorem tripTaken_latched (act : Nat) (n : Axis) (s : State) : rgB (tripTaken act n s) (Sig.GD_LATCH n.val) 30 = true ∧
    rg (tripTaken act n s) (Sig.GD_TRIP_COUNT n.val) = rg s (Sig.GD_TRIP_COUNT n.val) + 1 := by
  have hne : Sig.GD_LATCH n.val ≠ Sig.GD_TRIP_COUNT n.val := by
    simp only [Sig.GD_LATCH, Sig.GD_TRIP_COUNT]
    omega
  refine ⟨?_, ?_⟩
  · rw [rgB_of_regs (tripTaken_rest act n s).1, rgB, rg_incR_ne _ hne, ← rgB, rgB_setB _ _ _ _ _ (by decide), if_pos rfl]
  · rw [rg_of_regs (tripTaken_rest act n s).1, rg_incR_same, rg_setB_ne _ _ _ hne.symm]

theorem tripSeen_tripNow (s : State) (n : Axis) (x : Bool) : ((tripSeen s n x).gd[n]).tripNow = x :=
  (congrArg GdAx.tripNow (modV_same s.gd n _) :)

theorem execTripIn_latches (s : State) (n : Axis) (hact : rgN s (Sig.GD_TRIP_ACT n.val) ≠ 0) (hopen : (s.pwm[n]).atcOpen = false)
    (hnot : tripped s n = false) :
    ∃ t, exec (.tripIn n) s = .next t ∧ tripped t n = true ∧ (t.gd[n]).tripNow = true ∧
      rg t (Sig.GD_TRIP_COUNT n.val) = rg s (Sig.GD_TRIP_COUNT n.val) + 1 ∧ Counts s t (axSrc n 5) ∧
      (rgN s (Sig.GD_TRIP_ACT n.val) = 2 → ∀ g, gateOn t n g = false) ∧
      (rgN s (Sig.GD_TRIP_ACT n.val) = 3 → ∀ g : Gate, g.hi = true → gateOn t n g = false) ∧
      SignalsBut [Sig.GD_LATCH n.val, Sig.GD_TRIP_COUNT n.val] s t := by
  generalize hact' : rgN s (Sig.GD_TRIP_ACT n.val) = act at hact
  have he : exec (.tripIn n) s = .next (axFault (tripTaken act n (tripSeen s n true)) n 5) := by
    have hgo : ¬(act = 0 ∨ tripped (tripSeen s n true) n = true) := by
      rintro (h | h)
      · exact hact h
      · exact absurd (hnot.symm.trans h) (by decide)
    show execTripIn n s = _
    unfold execTripIn
    dsimp only
    rw [if_neg (by rw [hopen]; exact Bool.false_ne_true), hact', if_neg hgo]
    rfl
  obtain ⟨hnd, hlatch, hcount⟩ := trip_keys n
  simp only [List.nodup_cons, List.mem_cons, not_or, List.not_mem_nil, not_false_eq_true] at hnd
  obtain ⟨⟨-, hLR, -⟩, ⟨hCR, -⟩, -⟩ := hnd
  obtain ⟨hset, hone⟩ := tripTaken_latched act n (tripSeen s n true)
  obtain ⟨-, hflt, hgd⟩ := tripTaken_rest act n (tripSeen s n true)
  have hq := axFault_quiet (tripTaken act n (tripSeen s n true)) n 5
  have htrips := axFault_trips (tripTaken act n (tripSeen s n true)) n 5
  have hout (h : act = 2 ∨ act = 3) : bitOf ((axFault (tripTaken act n (tripSeen s n true)) n 5).gd[n]).out (act + 1) = true := by
    rw [htrips.out, hgd]
    exact tripLatched_out act n _ h
  refine ⟨_, he, (hq.rgB 30 hlatch).trans hset, ?_, (hq.keys _ hcount).trans hone, axFault_counts n 5 (by decide) ?_ ?_, ?_, ?_, ?_⟩
  · rw [htrips.tripNow, hgd, tripLatched_tripNow, tripSeen_tripNow]
  · rw [hflt]
    rfl
  · rw [roleOf, rgN, tripTaken_rg act n _ (Ne.symm hLR) (Ne.symm hCR)]
    rfl
  · rintro rfl g
    exact gateOn_of_off g (ddDemand_of_tripOff (hout (.inl rfl)))
  · rintro rfl g hg
    rcases ddDemand_of_tripShort (hout (.inr rfl)) with h | h
    · exact gateOn_of_off g h
    · exact gateOn_of_short h hg
  · intro k hk hl
    simp only [List.mem_cons, List.not_mem_nil, or_false, not_or] at hk
    exact (hq.keys k hl).trans (tripTaken_rg act n _ hk.1 hk.2)

theorem execTripIn_shows (s : State) (n : Axis) (hact : rgN s (Sig.GD_TRIP_ACT n.val) = 0) (hopen : (s.pwm[n]).atcOpen = false) :
    ∃ t, exec (.tripIn n) s = .next t ∧ (t.gd[n]).tripNow = true ∧ { t with gd := s.gd } = s := by
  refine ⟨tripSeen s n true, ?_, tripSeen_tripNow s n true, rfl⟩
  show execTripIn n s = _
  unfold execTripIn
  dsimp only
  rw [if_neg (by rw [hopen]; exact Bool.false_ne_true), if_pos (.inl hact)]

theorem execTripIn_blanked (s : State) (n : Axis) (hopen : (s.pwm[n]).atcOpen = true) : exec (.tripIn n) s = .next s := by
  show execTripIn n s = _
  unfold execTripIn
  exact if_pos hopen

end Sys2Proof.Machine
end

section
/-! O47, the precharge pulses (R241). -/

namespace Sys2Proof.Machine

/-! ### Changes of the channels -/

/-- The channels of a module changed, with the edges that this makes. -/
def withChannels (s : State) (n : Axis) (f : Nat → Chan → Chan) : State :=
  withEdges s n (fun s => modPwm s n (fun p => p.mapCh (f s.clk.tb)))

theorem withChannels_rest (s : State) (n : Axis) (f : Nat → Chan → Chan) : OnlyModules s (withChannels s n f) :=
  OnlyModules.trans ⟨_, rfl⟩ (withEdges_rest s n (fun s => modPwm s n (fun p => p.mapCh (f s.clk.tb))))

/-- Each channel is the changed one, but for the ticks of its turn-ons. -/
theorem withChannels_ch (s : State) (n : Axis) (f : Nat → Chan → Chan) (ph : Fin 3) : ∃ l0 l1 t,
    ((withChannels s n f).pwm[n]).ch ph = (f s.clk.tb ((s.pwm[n]).ch ph)).turned l0 l1 t := by
  have h := withEdges_ch s n (fun s => modPwm s n (fun p => p.mapCh (f s.clk.tb))) ph
  rw [modPwm_module, ch_mapCh] at h
  exact ⟨_, _, _, h⟩

theorem withChannels_cmdOf (s : State) (n : Axis) (f : Nat → Chan → Chan) (g : Gate) : cmdOf (withChannels s n f) n g =
    if g.hi then (f s.clk.tb ((s.pwm[n]).ch g.ph)).cmdH else (f s.clk.tb ((s.pwm[n]).ch g.ph)).cmdL := by
  obtain ⟨l0, l1, t, e⟩ := withChannels_ch s n f g.ph
  unfold cmdOf
  rw [e]
  rfl

/-! ### The end of a pulse -/

theorem gatesOff_eq (s : State) (n : Axis) : gatesOff s n = withChannels s n (fun t c => c.want t false false) := rfl

theorem gatesOff_rest (s : State) (n : Axis) : OnlyModules s (gatesOff s n) := by
  rw [gatesOff_eq]
  exact withChannels_rest s n _

theorem gatesOff_cmdOf (s : State) (n : Axis) (g : Gate) : cmdOf (gatesOff s n) n g = false := by
  rw [gatesOff_eq, withChannels_cmdOf]
  simp [Chan.want]

theorem rgN_of_regs {s t : State} (h : t.regs = s.regs) (k : Nat) : rgN t k = rgN s k := congrArg BitVec.toNat (rg_of_regs h k)

theorem modGd_module (s : State) (n : Axis) (f : GdAx → GdAx) : (modGd s n f).gd[n] = f (s.gd[n]) := modV_same _ _ _

/-- A pulse that ends has its gates off; its bookkeeping is of the gate drive alone. -/
theorem pulseOff_rest (s : State) (n : Axis) : let u := gatesOff (toTick s (s.gd[n]).nextAt) n
    (pulseOff s n).ax = u.ax ∧ (pulseOff s n).regs = u.regs ∧ (pulseOff s n).clk = u.clk ∧ (pulseOff s n).pwm = u.pwm := by
  unfold pulseOff
  exact ⟨rfl, rfl, rfl, rfl⟩

theorem execPrechargePulse_ends (s : State) (n : Axis) (hst : axSt s n = .precharge) (hpulse : (s.gd[n]).pulse = true) :
    ∃ t, exec (.prechargePulse n) s = .next t ∧ (t.gd[n]).pulse = false ∧ (t.gd[n]).precharge = (s.gd[n]).precharge + 1 ∧
      (t.gd[n]).nextAt = (s.gd[n]).nextAt + 400 * rgN s (Sig.GD_PRECHG_OFF n.val) ∧ (∀ g, cmdOf t n g = false) ∧
      (inRun s = true → (s.gd[n]).nextAt ≤ t.clk.tb) ∧ t.ax = s.ax ∧ t.regs = s.regs := by
  have he : exec (.prechargePulse n) s = .next (pulseOff s n) := by
    show execPrechargePulse n s = _
    rw [execPrechargePulse, if_neg (fun h => h hst), if_pos hpulse]
  have hu := toTick_later s (s.gd[n]).nextAt
  have hoff := gatesOff_rest (toTick s (s.gd[n]).nextAt) n
  have hgd : (pulseOff s n).gd[n] = { s.gd[n] with
      pulse := false, precharge := (s.gd[n]).precharge + 1,
      nextAt := (s.gd[n]).nextAt + 400 * rgN s (Sig.GD_PRECHG_OFF n.val) } := by
    unfold pulseOff
    dsimp only
    rw [modGd_module, rgN_of_regs hoff.regs, hu.rgN, hoff.gd, hu.gd]
  obtain ⟨hax, hregs, hclk, hpwm⟩ := pulseOff_rest s n
  refine ⟨_, he, congrArg GdAx.pulse hgd, congrArg GdAx.precharge hgd, congrArg GdAx.nextAt hgd, fun g => ?_, fun hrun => ?_,
    hax.trans (hoff.ax.trans hu.ax), hregs.trans (hoff.regs.trans hu.regs)⟩
  · rw [cmdOf, hpwm]
    exact gatesOff_cmdOf _ n g
  · rw [hclk, hoff.clk, toTick_tb _ hrun]
    exact le_max_right _ _

/-! ### The begin of a pulse -/

/-- A low side that is pending leaves where the high side is confirmed off (R191). -/
def Chan.lowLeaves (c : Chan) : Chan :=
  if c.pendL && !c.cmdH && !c.awaitH && c.belowH then { c with cmdL := true, pendL := false, belowL := false } else c

theorem lowSidesOn_eq (s : State) (n : Axis) : lowSidesOn s n = withChannels s n (fun _ => Chan.lowLeaves) := rfl

theorem gatesShort_eq (s : State) (n : Axis) : gatesShort s n = withChannels s n (fun t c => c.want t false true) := rfl

theorem lowLeaves_cmdH (c : Chan) : c.lowLeaves.cmdH = c.cmdH := by
  unfold Chan.lowLeaves
  split <;> rfl

/-- A low side that was on stays on, and one that was asked for goes on where the high side was confirmed off. -/
theorem lowLeaves_wanted (c : Chan) (l0 l1 : Bool → Bool) (t t' : Nat) (hcmd : c.cmdH = false) (hwait : c.awaitH = false) (hbelow : c.belowH = true) :
    ((c.want t false true).turned l0 l1 t').lowLeaves.cmdL = true := by
  cases hl : c.cmdL <;> simp [Chan.lowLeaves, Chan.turned, Chan.want, hcmd, hwait, hbelow, hl]

/-- The low sides asked for and let out, the high sides off. -/
def lowSides (s : State) (n : Axis) : State := lowSidesOn (gatesShort s n) n

theorem lowSides_rest (s : State) (n : Axis) : OnlyModules s (lowSides s n) := by
  rw [lowSides, lowSidesOn_eq, gatesShort_eq]
  exact (withChannels_rest s n _).trans (withChannels_rest _ n _)

theorem lowSides_high (s : State) (n : Axis) (ph : Fin 3) : cmdOf (lowSides s n) n ⟨ph, true⟩ = false := by
  obtain ⟨l0, l1, t, e⟩ := withChannels_ch s n (fun t c => c.want t false true) ph
  rw [lowSides, lowSidesOn_eq, withChannels_cmdOf, if_pos rfl, lowLeaves_cmdH, gatesShort_eq, e]
  exact Bool.and_false _

theorem lowSides_low (s : State) (n : Axis) (ph : Fin 3) (hcmd : ((s.pwm[n]).ch ph).cmdH = false) (hwait : ((s.pwm[n]).ch ph).awaitH = false)
    (hbelow : ((s.pwm[n]).ch ph).belowH = true) : cmdOf (lowSides s n) n ⟨ph, false⟩ = true := by
  obtain ⟨l0, l1, t, e⟩ := withChannels_ch s n (fun t c => c.want t false true) ph
  rw [lowSides, lowSidesOn_eq, withChannels_cmdOf, if_neg Bool.false_ne_true, gatesShort_eq, e]
  exact lowLeaves_wanted _ l0 l1 _ t hcmd hwait hbelow

/-- The bookkeeping of a pulse that begins, its low sides let out. -/
def pulseBegun (s : State) (n : Axis) : State :=
  modGd (riseMax s n) n (fun g => { g with pulse := true, nextAt := g.nextAt + 400 * rgN (riseMax s n) (Sig.GD_PRECHG_ON n.val) })

theorem pulseOn_eq (s : State) (n : Axis) : pulseOn s n = pulseBegun (lowSides (toTick s (s.gd[n]).nextAt) n) n := rfl

theorem pulseBegun_rest (s : State) (n : Axis) : (pulseBegun s n).ax = s.ax ∧ (pulseBegun s n).clk = s.clk ∧ (pulseBegun s n).pwm = s.pwm ∧
    SignalsBut [Sig.GD_RISE_MAX n.val] s (pulseBegun s n) := ⟨rfl, rfl, rfl, riseMax_signals s n⟩

theorem pulseBegun_gd (s : State) (n : Axis) : (pulseBegun s n).gd[n] =
    { s.gd[n] with pulse := true, nextAt := (s.gd[n]).nextAt + 400 * rgN s (Sig.GD_PRECHG_ON n.val) } := by
  have hne : Sig.GD_PRECHG_ON n.val ≠ Sig.GD_RISE_MAX n.val := by
    simp only [Sig.GD_PRECHG_ON, Sig.GD_RISE_MAX]
    omega
  have hon : rgN (riseMax s n) (Sig.GD_PRECHG_ON n.val) = rgN s (Sig.GD_PRECHG_ON n.val) := congrArg BitVec.toNat (rg_setN_ne _ _ hne)
  rw [pulseBegun, modGd_module, hon]
  rfl

theorem execPrechargePulse_begins (s : State) (n : Axis) (hst : axSt s n = .precharge) (hpulse : (s.gd[n]).pulse = false)
    (hmore : (s.gd[n]).precharge < rgN s (Sig.GD_PRECHG_N n.val)) :
    ∃ t, exec (.prechargePulse n) s = .next t ∧ (t.gd[n]).pulse = true ∧ (t.gd[n]).precharge = (s.gd[n]).precharge ∧
      (t.gd[n]).nextAt = (s.gd[n]).nextAt + 400 * rgN s (Sig.GD_PRECHG_ON n.val) ∧
      (∀ ph, ((s.pwm[n]).ch ph).cmdH = false → ((s.pwm[n]).ch ph).awaitH = false → ((s.pwm[n]).ch ph).belowH = true →
        cmdOf t n ⟨ph, false⟩ = true) ∧
      (∀ ph, cmdOf t n ⟨ph, true⟩ = false) ∧ (inRun s = true → (s.gd[n]).nextAt ≤ t.clk.tb) ∧ t.ax = s.ax ∧
      SignalsBut [Sig.GD_RISE_MAX n.val] s t := by
  have he : exec (.prechargePulse n) s = .next (pulseBegun (lowSides (toTick s (s.gd[n]).nextAt) n) n) := by
    show execPrechargePulse n s = _
    rw [execPrechargePulse, if_neg (fun h => h hst), if_neg (by rw [hpulse]; exact Bool.false_ne_true), if_pos hmore, pulseOn_eq]
  have hu := toTick_later s (s.gd[n]).nextAt
  have hlow := lowSides_rest (toTick s (s.gd[n]).nextAt) n
  obtain ⟨hax, hclk, hpwm, hsig⟩ := pulseBegun_rest (lowSides (toTick s (s.gd[n]).nextAt) n) n
  have hgd := pulseBegun_gd (lowSides (toTick s (s.gd[n]).nextAt) n) n
  rw [hlow.gd, hu.gd, rgN_of_regs hlow.regs, hu.rgN] at hgd
  refine ⟨_, he, (congrArg GdAx.pulse hgd :), (congrArg GdAx.precharge hgd :), (congrArg GdAx.nextAt hgd :), fun ph hcmd hwait hbelow => ?_,
    fun ph => ?_, fun hrun => ?_, hax.trans (hlow.ax.trans hu.ax), fun k hk hl => ?_⟩
  · rw [← hu.ch] at hcmd hwait hbelow
    rw [cmdOf, hpwm]
    exact lowSides_low _ n ph hcmd hwait hbelow
  · rw [cmdOf, hpwm]
    exact lowSides_high _ n ph
  · rw [hclk, hlow.clk, toTick_tb _ hrun]
    exact le_max_right _ _
  · rw [hsig k hk hl, rg_of_regs hlow.regs, hu.rg]

end Sys2Proof.Machine
end

section
/-! O47, the end of precharge (R241, R296). -/

namespace Sys2Proof.Machine

/-! ### Answers set no event (R139) -/

/-- The sticky events as they were. -/
def SameEvents (s t : State) : Prop := t.link.events = s.link.events

namespace SameEvents

theorem trans {s t u : State} (h : SameEvents s t) (g : SameEvents t u) : SameEvents s u := Eq.trans g h

theorem postBytes (s : State) (r : Nat) (bs : List Byte) : SameEvents s (postBytes s r bs) := (postBytes_fields s r bs).2.2.2

theorem countFail (s : State) (r : Req) (op st : Nat) : SameEvents s (countFail s r op st) := by
  unfold Machine.countFail
  split <;> rfl

theorem answer (s : State) (r : Req) (op st : Nat) (p : List Byte) : SameEvents s (answer s r op st p) := by
  refine (countFail s r op st).trans ?_
  unfold Machine.answer sendResp
  dsimp only
  split_ifs
  · rfl
  · rfl
  · exact postBytes _ _ _

theorem answerAgg (s : State) (r : Req) (op : Nat) (got : List TRes) (late : Bool) : SameEvents s (answerAgg s r op got late) := by
  refine (countFail s r op (aggStatus got)).trans ?_
  unfold Machine.answerAgg
  dsimp only
  split_ifs
  · rfl
  · rfl
  · exact postBytes _ _ _

theorem aggAdd (s : State) (r : Req) (got : List TRes) : SameEvents s (aggAdd s r got) :=
  forEach_inv (Q := SameEvents s) _ _ (fun u a _ hu => hu.trans (answerAgg u a.req a.opcode a.got a.late)) rfl

theorem finishDev (s : State) (r : Req) (op st : Nat) (p : List Byte) : SameEvents s (finishDev s r op st p) := by
  unfold Machine.finishDev
  dsimp only
  split
  · exact aggAdd (latch s r) r _
  · exact answer (latch s r) r op _ _

theorem finishWait (s : State) (w : Wait) (st : Nat) (p : List Byte) : SameEvents s (finishWait s w st p) := by
  have hlatch (more : Bool) : SameEvents s (if more then s else latch s w.req) := by cases more <;> rfl
  unfold Machine.finishWait
  split
  · dsimp only
    by_cases h : aggregated w.req w.opcode = true
    · rw [if_pos h]
      exact (hlatch _).trans (aggAdd _ _ _)
    · rw [if_neg h]
      exact answer (latch s w.req) _ _ _ _
  · exact finishDev s _ _ _ _

theorem endWaits (s : State) (p : Wait → Bool) (f : State → Wait → Nat × List Byte) : SameEvents s (endWaits s p f) :=
  forEach_inv (Q := SameEvents s) _ _ (fun u w _ hu => hu.trans (finishWait u w (f u w).1 (f u w).2)) rfl

end SameEvents

/-- An axis that comes out of PRECHARGE has its event, and no other axis changes (R296). -/
theorem axisTo_ofPrecharge (s : State) (n : Axis) {st : AxState} (h : axSt s n = .precharge) (hne : st ≠ .precharge) :
    bitOf (axisTo s n st).link.events (40 + n.val) = true ∧ ∀ m, m ≠ n → (axisTo s n st).ax[m] = s.ax[m] := by
  have hst : axSt s n ≠ st := fun e => hne (e.symm.trans h)
  obtain ⟨b, -, -, hb⟩ := axisTo_change hst
  refine ⟨?_, fun m hm => ?_⟩
  · have hpos : inPosition (s.ax[n]) = false := by
      rw [inPosition, show (s.ax[n]).st = .precharge from h]
      rfl
    unfold axisTo
    dsimp only
    rw [if_neg (show (s.ax[n]).st ≠ st from hst), hpos, Bool.false_and, if_neg Bool.false_ne_true, SameEvents.endWaits, evt_bit]
    simp
  · rw [hb.ax]
    exact modV_ne s.ax _ (Ne.symm hm)

/-! ### The initialisation of the engine (R180, R303) -/

/-- The axis states, the link and what the first task of an axis finds as they were. -/
structure Unbegun (n : Axis) (s t : State) : Prop where
  ax : t.ax = s.ax
  link : t.link = s.link
  tag : (t.loop[n]).lastTag = (s.loop[n]).lastTag
  first : (t.loop[n]).firstTask = (s.loop[n]).firstTask

namespace Unbegun

variable {n : Axis}

theorem refl (s : State) : Unbegun n s s := ⟨rfl, rfl, rfl, rfl⟩

theorem trans {s t u : State} (h : Unbegun n s t) (g : Unbegun n t u) : Unbegun n s u :=
  ⟨g.ax.trans h.ax, g.link.trans h.link, g.tag.trans h.tag, g.first.trans h.first⟩

/-- An update of the parts that the relation does not speak of. -/
theorem of_rest {s t : State} (ha : t.ax = s.ax) (hk : t.link = s.link) (hl : t.loop = s.loop) : Unbegun n s t :=
  ⟨ha, hk, by rw [hl], by rw [hl]⟩

theorem of_modules {s t : State} (h : OnlyModules s t) : Unbegun n s t := of_rest h.ax h.link h.loop

theorem modLoop (s : State) {f : LoopAx → LoopAx} (ht : ∀ l, (f l).lastTag = l.lastTag) (hf : ∀ l, (f l).firstTask = l.firstTask) :
    Unbegun n s (modLoop s n f) :=
  ⟨rfl, rfl, modV_view s.loop n f LoopAx.lastTag ht n, modV_view s.loop n f LoopAx.firstTask hf n⟩

end Unbegun

section
variable (s : State) (n : Axis)

theorem setIdeal_unbegun (ph : Fin 3) (x : Bool) : Unbegun n s (setIdeal s n ph x) := by
  have hflag (u : State) (a : FilterAct) : Unbegun n u (filterFlag u n a) := by
    cases a <;> exact .of_rest rfl rfl rfl
  have hstep (f : Chan → Chan) : Unbegun n s (chanStep s n ph f) :=
    .of_rest (withEdges_rest s n _).ax (withEdges_rest s n _).link (withEdges_rest s n _).loop
  exact (hstep _).trans (hflag _ _)

theorem initCompare_unbegun (ph : Fin 3) (w : Nat) : Unbegun n s (initCompare s n ph w) := by
  have hact : Unbegun n s (modPwm s n (fun p => { p.modCh ph (fun c => { c with act := w }) with live := true })) := .of_rest rfl rfl rfl
  unfold initCompare
  dsimp only
  split_ifs
  · exact hact
  · exact hact.trans (setIdeal_unbegun _ n ph _)
  · exact hact
  · exact hact.trans (setIdeal_unbegun _ n ph _)

theorem svm_unbegun (vd vq tho vm : Rat) : Unbegun n s (svm s n vd vq tho vm).1 := by
  have hduty (u : State) (x : Rat) : Unbegun n u (dutyOf u x vm).1 := by
    unfold dutyOf
    split
    · exact .of_rest rfl rfl rfl
    · exact .refl u
  have hlim (u : State) {c : Prop} [Decidable c] : Unbegun n u (if c then setB u (Sig.LP_STAT n.val) 5 true else u) := by
    split
    · exact .of_rest rfl rfl rfl
    · exact .refl u
  unfold svm
  dsimp only
  exact (((hduty s _).trans (hduty _ _)).trans (hduty _ _)).trans (hlim _)

theorem initLoop_unbegun (goal : AxState) : Unbegun n s (initLoop s n goal) := by
  unfold initLoop
  dsimp only
  by_cases h : rgN s (Sig.PWM_SRC n.val) ≠ 0
  · rw [if_pos h]
    exact .refl s
  · rw [if_neg h]
    refine Unbegun.trans ?_ (Unbegun.modLoop _ (fun _ => rfl) (fun _ => rfl))
    exact (((svm_unbegun s n _ _ _ _).trans (initCompare_unbegun _ n 0 _)).trans (initCompare_unbegun _ n 1 _)).trans (initCompare_unbegun _ n 2 _)

theorem carLoad_unbegun (tag : Nat) (pos : Int) (v : Rat) : Unbegun n s (carLoad s n tag pos v) := by
  have hcar (u : State) (f : CarAx → CarAx) : Unbegun n u (modCar u n f) := .of_rest rfl rfl rfl
  have hslots (u : State) : Unbegun n u (slotsReload u n) :=
    forEach_inv (Q := Unbegun n u) _ _ (fun t k _ ht => ht.trans (by
      split
      · exact hcar t _
      · exact .refl t)) (.refl u)
  have htrigger (u : State) : Unbegun n u (carTrigger u n) := by
    obtain ⟨f, car, -, e⟩ := carTrigger_rest u n
    rw [e]
    exact .of_rest rfl rfl rfl
  exact ((hcar s _).trans (hslots _)).trans (htrigger _)

end

/-! ### PRECHARGE_COMPLETE -/

/-- An axis before the first task after its precharge: the observer started, no tag taken (R241, R403). -/
def taskFirst (s : State) (n : Axis) : State :=
  modLoop (obsStart s n) n (fun l =>
    { l with bankA := Bank.init, bankB := Bank.init.compl, lastTag := none, lastSet := none, firstTask := true,
             preCur := (s.ax[n]).goal.closesCurrent, preEmf := true, preSpd := (s.ax[n]).goal.closesSpeed,
             prePos := decide ((s.ax[n]).goal = .position), tsSpd := 0, tsPos := 0, dueSpd := none, duePos := none, dueObs := none,
             owedSpd := false, owedPos := false, stopRate := none })

theorem taskFirst_loop (s : State) (n : Axis) : ((taskFirst s n).loop[n]).lastTag = none ∧ ((taskFirst s n).loop[n]).firstTask = true := by
  have h (f : LoopAx → LoopAx) : (modLoop (obsStart s n) n f).loop[n] = f ((obsStart s n).loop[n]) := modV_same _ n f
  unfold taskFirst
  rw [h]
  exact ⟨rfl, rfl⟩

/-- An axis in the state that was asked for, its edges made. -/
def goalReached (s : State) (n : Axis) (goal : AxState) : State := withEdges s n (fun s => axisTo s n goal)

theorem goalReached_rest (s : State) (n : Axis) (goal : AxState) : OnlyModules (axisTo s n goal) (goalReached s n goal) :=
  withEdges_rest s n (fun s => axisTo s n goal)

theorem gatesModule_rest (s : State) (n : Axis) : OnlyModules s (gatesModule s n) := by
  rw [show gatesModule s n = withChannels s n (fun t c => c.wantModule t) from rfl]
  exact withChannels_rest s n _

/-- The speed reference of a loop set (R303). -/
def refLoaded (s : State) (n : Axis) (w : Rat) : State :=
  modLoop s n (fun l => { l with bankA := { l.bankA with wRef := some w }, bankB := Bank.compl { l.bankA with wRef := some w } })

theorem refLoaded_unbegun (s : State) (n : Axis) (w : Rat) : Unbegun n s (refLoaded s n w) := Unbegun.modLoop s (fun _ => rfl) (fun _ => rfl)

/-- The loops of an axis that goes to POSITION loaded from its feedback at tick `t` (R303). -/
def positionLoaded (s : State) (n : Axis) (goal : AxState) (t : Nat) : State :=
  if goal = .position then
    carLoad (refLoaded s n (fbkSpeed s n t)) n t (fbkPos (refLoaded s n (fbkSpeed s n t)) n t) (fbkSpeed s n t * 65536)
  else s

theorem prechargeDone_eq (s : State) (n : Axis) : prechargeDone s n =
    positionLoaded (gatesModule (goalReached (initLoop (taskFirst s n) n (s.ax[n]).goal) n (s.ax[n]).goal) n) n (s.ax[n]).goal
      (initLoop (taskFirst s n) n (s.ax[n]).goal).clk.tb := rfl

theorem positionLoaded_unbegun (s : State) (n : Axis) (goal : AxState) (t : Nat) : Unbegun n s (positionLoaded s n goal t) := by
  unfold positionLoaded
  split
  · exact (refLoaded_unbegun s n _).trans (carLoad_unbegun _ n _ _ _)
  · exact .refl s

/-- The end of precharge brings the axis into the state that was asked for, and leaves that state as it is. -/
theorem prechargeDone_reached (s : State) (n : Axis) :
    Unbegun n (goalReached (initLoop (taskFirst s n) n (s.ax[n]).goal) n (s.ax[n]).goal) (prechargeDone s n) := by
  rw [prechargeDone_eq]
  exact (Unbegun.of_modules (gatesModule_rest _ n)).trans (positionLoaded_unbegun _ n _ _)

theorem prechargeDone_enters (s : State) (n : Axis) (hst : axSt s n = .precharge) (hgoal : (s.ax[n]).goal ≠ .precharge) :
    axSt (prechargeDone s n) n = (s.ax[n]).goal ∧ (∀ m, m ≠ n → (prechargeDone s n).ax[m] = s.ax[m]) ∧
      bitOf (prechargeDone s n).link.events (40 + n.val) = true ∧ ((prechargeDone s n).loop[n]).lastTag = none ∧
      ((prechargeDone s n).loop[n]).firstTask = true := by
  have hdone := prechargeDone_reached s n
  have hinit := initLoop_unbegun (taskFirst s n) n (s.ax[n]).goal
  have hax : (initLoop (taskFirst s n) n (s.ax[n]).goal).ax = s.ax := hinit.ax
  obtain ⟨htag, hfirst⟩ := taskFirst_loop s n
  revert hdone hinit hax
  generalize initLoop (taskFirst s n) n (s.ax[n]).goal = u
  intro hdone hinit hax
  have hreached := goalReached_rest u n (s.ax[n]).goal
  obtain ⟨harrives, -, -, hloop, -⟩ := axisTo_arrives u n (s.ax[n]).goal
  obtain ⟨hevent, hother⟩ := axisTo_ofPrecharge u n (SameAx.axSt hax n ▸ hst) hgoal
  refine ⟨?_, fun m hm => ?_, ?_, ?_, ?_⟩
  · exact (SameAx.axSt (hdone.ax.trans hreached.ax) n).trans harrives
  · rw [hdone.ax, hreached.ax, hother m hm, hax]
  · rw [hdone.link, hreached.link]
    exact hevent
  · rw [hdone.tag, hreached.loop, hloop, hinit.tag, htag]
  · rw [hdone.first, hreached.loop, hloop, hinit.first, hfirst]

theorem execPrechargeComplete_enters (s : State) (n : Axis) (hrun : inRun s = true) (hst : axSt s n = .precharge)
    (hpulse : (s.gd[n]).pulse = false) (hall : rgN s (Sig.GD_PRECHG_N n.val) ≤ (s.gd[n]).precharge) (hgoal : (s.ax[n]).goal ≠ .precharge) :
    ∃ t, exec (.prechargeComplete n) s = .next t ∧ axSt t n = (s.ax[n]).goal ∧ (∀ m, m ≠ n → t.ax[m] = s.ax[m]) ∧
      bitOf t.link.events (40 + n.val) = true ∧ (t.loop[n]).lastTag = none ∧ (t.loop[n]).firstTask = true := by
  have he : exec (.prechargeComplete n) s = .next (prechargeDone (toTick s (s.gd[n]).nextAt) n) := by
    show execPrechargeComplete n s = _
    unfold execPrechargeComplete
    exact if_pos (by simp only [hrun, hst, hpulse, hall, decide_true, Bool.not_false, Bool.and_self])
  have hax := (toTick_later s (s.gd[n]).nextAt).ax
  obtain ⟨hto, hother, hrest⟩ := prechargeDone_enters (toTick s (s.gd[n]).nextAt) n (SameAx.axSt hax n ▸ hst) (by rw [hax]; exact hgoal)
  rw [hax] at hto
  simp only [hax] at hother
  exact ⟨_, he, hto, hother, hrest⟩

/-! ### The obligation -/

/-- Settles O47: the trips, the precharge pulses and the end of precharge. -/
theorem tripsAndPrechargeActOnTheBridge : Obligations.TripsAndPrechargeActOnTheBridge :=
  ⟨execTripIn_latches, execTripIn_shows, execTripIn_blanked, execPrechargePulse_begins, execPrechargePulse_ends, execPrechargeComplete_enters⟩

end Sys2Proof.Machine
end

section
/-! O46: the latches of a half-bridge, what isolates it and what is reported alone. -/

namespace Sys2Proof.Machine

/-! ### What isolates a half-bridge (R235, R238) -/

/-- The bits of a phase that isolate are the lower six of its latch byte. -/
theorem testBit_latchByte (s : State) (n : Axis) (ph : Fin 3) (i : Nat) :
    (latchByte s n ph % 64).testBit i = (decide (i < 6) && rgB s (Sig.GD_LATCH n.val) (8 * ph.val + i)) := by
  rw [latchByte, rgF, Nat.mod_mod_of_dvd _ (by decide : 64 ∣ 2 ^ 8), show 64 = 2 ^ 6 from rfl, Nat.testBit_mod_two_pow,
    Nat.testBit_div_two_pow, Nat.add_comm]
  rfl

/-- Where the latches that isolate and what is out of service agree, the same half-bridges are isolated. -/
theorem isolated_congr {s t : State} {n : Axis} {ph : Fin 3}
    (hl : ∀ i, i < 6 → rgB t (Sig.GD_LATCH n.val) (8 * ph.val + i) = rgB s (Sig.GD_LATCH n.val) (8 * ph.val + i))
    (ho : (t.gd[n]).out = (s.gd[n]).out) : isolated t n ph = isolated s n ph := by
  have hbyte : latchByte t n ph % 64 = latchByte s n ph % 64 := by
    refine Nat.eq_of_testBit_eq fun i => ?_
    rw [testBit_latchByte, testBit_latchByte]
    by_cases hi : i < 6
    · rw [hl i hi]
    · rw [decide_eq_false hi, Bool.false_and, Bool.false_and]
  rw [isolated, isolated, hbyte, ho]

/-! ### A latch that isolates (R224 to R226, R231, R232, R239) -/

/-- The latches of an axis are not its role, and no event of a source writes them. -/
theorem gdLatch_keys (n : Axis) : Sig.FLT_ROLE_AX n.val ≠ Sig.GD_LATCH n.val ∧ Sig.GD_LATCH n.val ∉ ledgerKeys := by
  revert n
  decide

/-- A signal that counts the latches of an axis: neither the latches nor the role of the axis, and written by no event of a source. -/
structure CountKey (n : Axis) (k : Nat) : Prop where
  latch : k ≠ Sig.GD_LATCH n.val
  role : k ≠ Sig.FLT_ROLE_AX n.val
  ledger : k ∉ ledgerKeys

theorem bridge_countKeys (n : Axis) :
    CountKey n (Sig.GD_SC_COUNT n.val) ∧ CountKey n (Sig.GD_DIDT_COUNT n.val) ∧ CountKey n (Sig.GD_WEAK_COUNT n.val) := by
  have h : ∀ n : Axis, ∀ k ∈ [Sig.GD_SC_COUNT n.val, Sig.GD_DIDT_COUNT n.val, Sig.GD_WEAK_COUNT n.val],
      k ≠ Sig.GD_LATCH n.val ∧ k ≠ Sig.FLT_ROLE_AX n.val ∧ k ∉ ledgerKeys := by decide
  have hk {k : Nat} (hmem : k ∈ [Sig.GD_SC_COUNT n.val, Sig.GD_DIDT_COUNT n.val, Sig.GD_WEAK_COUNT n.val]) : CountKey n k :=
    ⟨(h n k hmem).1, (h n k hmem).2.1, (h n k hmem).2.2⟩
  exact ⟨hk (by simp), hk (by simp), hk (by simp)⟩

/-- A half-bridge whose latch is set, out of service, its edges made. -/
def latchedOff (s : State) (n : Axis) (ph : Fin 3) (bit : Nat) : State :=
  withEdges s n (fun s => outOfService (setLatch s n ph bit) n ph.val)

/-- The count of a latch, where it has one. -/
def latchCounted (s : State) : Option Nat → State
  | some k => incR s k
  | none => s

theorem isolateLatch_eq (s : State) (n : Axis) (ph : Fin 3) (bit : Nat) (count : Option Nat) (src : Nat) :
    isolateLatch s n ph bit count src = axFault (latchCounted (latchedOff s n ph bit) count) n src := by
  cases count <;> rfl

theorem latchedOff_rest (s : State) (n : Axis) (ph : Fin 3) (bit : Nat) : (latchedOff s n ph bit).regs = (setLatch s n ph bit).regs ∧
    (latchedOff s n ph bit).flt = s.flt ∧ (latchedOff s n ph bit).clk = s.clk := by
  have h := withEdges_rest s n (fun s => outOfService (setLatch s n ph bit) n ph.val)
  exact ⟨h.regs, h.flt, h.clk⟩

theorem latchCounted_rest (s : State) (count : Option Nat) : (latchCounted s count).flt = s.flt ∧ (latchCounted s count).clk = s.clk := by
  cases count <;> exact ⟨rfl, rfl⟩

theorem latchCounted_rg (s : State) {count : Option Nat} {k : Nat} (hk : k ∉ count) : rg (latchCounted s count) k = rg s k := by
  cases count with
  | none => rfl
  | some j => exact rg_incR_ne s (fun e => hk (congrArg some e.symm))

/-- A half-bridge isolated between two states: its latch stands, both gates are off, the source has counted one event, and of the signals
only the latches and the count have changed (R235, R239). -/
structure Isolates (n : Axis) (ph : Fin 3) (bit : Nat) (count : Option Nat) (src : Nat) (s t : State) : Prop where
  latch : rgB t (Sig.GD_LATCH n.val) (8 * ph.val + bit) = true
  iso : isolated t n ph = true
  gates : ∀ hi, gateOn t n ⟨ph, hi⟩ = false
  counted : ∀ k ∈ count, rg t k = rg s k + 1
  event : Counts s t (axSrc n src)
  signals : SignalsBut (Sig.GD_LATCH n.val :: count.toList) s t

section
variable {s u : State} (hu : Later s u) {n : Axis} (ph : Fin 3) {bit : Nat} (hb : bit < 6) {count : Option Nat}
  (hc : ∀ k ∈ count, CountKey n k) {src : Nat} (hsrc : src < 256)
include hu hb hc hsrc

/-- A latch that isolates, set after time has passed. -/
theorem isolateLatch_isolates : Isolates n ph bit count src s (isolateLatch u n ph bit count src) := by
  rw [isolateLatch_eq]
  obtain ⟨hregs, hflt, -⟩ := latchedOff_rest u n ph bit
  obtain ⟨hflt', -⟩ := latchCounted_rest (latchedOff u n ph bit) count
  have hq := axFault_quiet (latchCounted (latchedOff u n ph bit) count) n src
  obtain ⟨hrole, hledger⟩ := gdLatch_keys n
  have hoff {k : Nat} (hk : k ≠ Sig.GD_LATCH n.val) : rg (latchedOff u n ph bit) k = rg s k := by
    rw [rg_of_regs hregs, setLatch, rg_setB_ne _ _ _ hk, hu.rg]
  have hlatch : rgB (axFault (latchCounted (latchedOff u n ph bit) count) n src) (Sig.GD_LATCH n.val) (8 * ph.val + bit) = true := by
    rw [hq.rgB _ hledger, rgB, latchCounted_rg _ (fun h => (hc _ h).latch rfl), ← rgB, rgB_of_regs hregs, setLatch,
      rgB_setB _ _ _ _ _ (by omega), if_pos rfl]
  have hiso := isolated_of_latch hb hlatch
  refine ⟨hlatch, hiso, fun hi => gateOn_of_isolated hiso, fun k hk => ?_, axFault_counts n src hsrc ?_ ?_, fun k hk hl => ?_⟩
  · obtain rfl : count = some k := hk
    rw [hq.keys k (hc k rfl).ledger, latchCounted, rg_incR_same, hoff (hc k rfl).latch]
  · rw [hflt', hflt, hu.flt]
  · rw [roleOf, rgN, latchCounted_rg _ (fun h => (hc _ h).role rfl), hoff hrole, ← rgN, ← roleOf]
  · simp only [List.mem_cons, Option.mem_toList, not_or] at hk
    rw [hq.keys k hl, latchCounted_rg _ hk.2, hoff hk.1]

end

/-- A latch that isolates takes no time. -/
theorem isolateLatch_tb (s : State) (n : Axis) (ph : Fin 3) (bit : Nat) (count : Option Nat) (src : Nat) :
    (isolateLatch s n ph bit count src).clk.tb = s.clk.tb := by
  obtain ⟨-, -, hclk⟩ := latchedOff_rest s n ph bit
  rw [isolateLatch_eq, (axFault_quiet _ n src).tb, (latchCounted_rest _ count).2, hclk]

theorem execScTrip_isolates (s : State) (n : Axis) (g : Gate) (hmode : rgN s (Sig.GD_SC_MODE n.val) = 0) (hon : gateOn s n g = true) :
    ∃ t, exec (.scTrip n g) s = .next t ∧ rgB t (Sig.GD_LATCH n.val) (8 * g.ph.val + if g.hi then 1 else 0) = true ∧
      isolated t n g.ph = true ∧ (∀ hi, gateOn t n ⟨g.ph, hi⟩ = false) ∧
      rg t (Sig.GD_SC_COUNT n.val) = rg s (Sig.GD_SC_COUNT n.val) + 1 ∧ Counts s t (axSrc n 0) ∧
      (inRun s = true → armedAt s n g + 10 * rgN s (Sig.GD_SC_FILT n.val) ≤ t.clk.tb) ∧
      SignalsBut [Sig.GD_LATCH n.val, Sig.GD_SC_COUNT n.val] s t := by
  obtain ⟨hkey, -, -⟩ := bridge_countKeys n
  have h := isolateLatch_isolates (toTick_later s (armedAt s n g + 10 * rgN s (Sig.GD_SC_FILT n.val))) g.ph
    (bit := if g.hi then 1 else 0) (by split <;> decide) (count := some (Sig.GD_SC_COUNT n.val))
    (by rintro _ ⟨⟩; exact hkey) (src := 0) (by decide)
  refine ⟨_, ?_, h.latch, h.iso, h.gates, h.counted _ rfl, h.event, fun hrun => ?_, h.signals⟩
  · show execScTrip n g s = _
    rw [execScTrip, hmode, hon]
    rfl
  · rw [isolateLatch_tb, toTick_tb _ hrun]
    exact le_max_right _ _

/-- Either weak gate is latched as the time to its comparator says (R231, R232). -/
theorem execGateWeak_isolates (s : State) (n : Axis) (g : Gate) (sag : Bool) (hon : gateOn s n g = true) :
    ∃ t, exec (if sag then .gateWeakSag n g else .gateWeak n g) s = .next t ∧
      rgB t (Sig.GD_LATCH n.val) (8 * g.ph.val + if g.hi then 3 else 2) = true ∧ isolated t n g.ph = true ∧
      (∀ hi, gateOn t n ⟨g.ph, hi⟩ = false) ∧ rg t (Sig.GD_WEAK_COUNT n.val) = rg s (Sig.GD_WEAK_COUNT n.val) + 1 ∧
      Counts s t (axSrc n 2) ∧ (inRun s = true → turnedOn s n g + (if sag then 100 else 760) ≤ t.clk.tb) ∧
      SignalsBut [Sig.GD_LATCH n.val, Sig.GD_WEAK_COUNT n.val] s t := by
  obtain ⟨-, -, hkey⟩ := bridge_countKeys n
  have he : exec (if sag then .gateWeakSag n g else .gateWeak n g) s = .next (weakLatch s n g (if sag then 100 else 760)) := by
    cases sag <;> rfl
  rw [weakLatch, if_pos hon] at he
  have h := isolateLatch_isolates (toTick_later s (turnedOn s n g + if sag then 100 else 760)) g.ph
    (bit := if g.hi then 3 else 2) (by split <;> decide) (count := some (Sig.GD_WEAK_COUNT n.val))
    (by rintro _ ⟨⟩; exact hkey) (src := 2) (by decide)
  refine ⟨_, he, h.latch, h.iso, h.gates, h.counted _ rfl, h.event, fun hrun => ?_, h.signals⟩
  rw [isolateLatch_tb, toTick_tb _ hrun]
  exact le_max_right _ _

theorem execXcmd_isolates (s : State) (n : Axis) (ph : Fin 3) (hnot : bitOf (latchByte s n ph) 4 = false) :
    ∃ t, exec (.xcmd n ph) s = .next t ∧ rgB t (Sig.GD_LATCH n.val) (8 * ph.val + 4) = true ∧ isolated t n ph = true ∧
      (∀ hi, gateOn t n ⟨ph, hi⟩ = false) ∧ Counts s t (axSrc n 3) ∧ SignalsBut [Sig.GD_LATCH n.val] s t := by
  have h := isolateLatch_isolates (Later.refl s) (n := n) ph (bit := 4) (by decide) (count := none) (by rintro _ ⟨⟩) (src := 3) (by decide)
  refine ⟨_, ?_, h.latch, h.iso, h.gates, h.event, h.signals⟩
  show execXcmd n ph s = _
  rw [execXcmd, hnot]
  rfl

/-! ### DIDT_TRIP, for report only (R227 to R229) -/

/-- A latch DIDT_H or DIDT_L, counted, as its event finds it. -/
def didtLatched (s : State) (n : Axis) (ph : Fin 3) (bit : Nat) : State := incR (setLatch s n ph bit) (Sig.GD_DIDT_COUNT n.val)

theorem didtLatched_rg (s : State) (n : Axis) (ph : Fin 3) (bit : Nat) {k : Nat} (hl : k ≠ Sig.GD_LATCH n.val)
    (hc : k ≠ Sig.GD_DIDT_COUNT n.val) : rg (didtLatched s n ph bit) k = rg s k := by
  rw [didtLatched, rg_incR_ne _ hc, setLatch, rg_setB_ne _ _ _ hl]

theorem didtLatched_latch (s : State) (n : Axis) (ph : Fin 3) {bit i : Nat} (hi : i < 32) :
    rgB (didtLatched s n ph bit) (Sig.GD_LATCH n.val) i = if i = 8 * ph.val + bit then true else rgB s (Sig.GD_LATCH n.val) i := by
  obtain ⟨-, hkey, -⟩ := bridge_countKeys n
  rw [rgB, didtLatched, rg_incR_ne _ hkey.latch.symm, ← rgB, setLatch, rgB_setB _ _ _ _ _ hi]

theorem execDidtTrip_reports (s : State) (n : Axis) (g : Gate) (hmode : rgN s (Sig.GD_SC_MODE n.val) = 1) (hon : gateOn s n g = true)
    (hnot : bitOf (latchByte s n g.ph) (if g.hi then 7 else 6) = false) :
    ∃ t, exec (.didtTrip n g) s = .next t ∧ rgB t (Sig.GD_LATCH n.val) (8 * g.ph.val + if g.hi then 7 else 6) = true ∧
      (∀ ph, isolated t n ph = isolated s n ph) ∧ rg t (Sig.GD_DIDT_COUNT n.val) = rg s (Sig.GD_DIDT_COUNT n.val) + 1 ∧
      Counts s t (axSrc n 1) ∧ (inRun s = true → armedAt s n g ≤ t.clk.tb) ∧
      SignalsBut [Sig.GD_LATCH n.val, Sig.GD_DIDT_COUNT n.val] s t := by
  have he : exec (.didtTrip n g) s =
      .next (axFault (didtLatched (toTick s (armedAt s n g)) n g.ph (if g.hi then 7 else 6)) n 1) := by
    show execDidtTrip n g s = _
    simp only [execDidtTrip, hmode, hon, hnot]
    rfl
  have hbit : 6 ≤ (if g.hi then 7 else 6) ∧ (if g.hi then 7 else 6) < 8 := by split <;> decide
  generalize (if g.hi then 7 else 6) = bit at he hbit ⊢
  have hu := toTick_later s (armedAt s n g)
  have hq := axFault_quiet (didtLatched (toTick s (armedAt s n g)) n g.ph bit) n 1
  have htrips := axFault_trips (didtLatched (toTick s (armedAt s n g)) n g.ph bit) n 1
  obtain ⟨-, hkey, -⟩ := bridge_countKeys n
  obtain ⟨hrole, hledger⟩ := gdLatch_keys n
  have hout : ((didtLatched (toTick s (armedAt s n g)) n g.ph bit).gd[n]).out = (s.gd[n]).out :=
    congrArg (fun v : Vector GdAx 8 => (v[n]).out) hu.gd
  refine ⟨_, he, ?_, fun ph => isolated_congr (fun i hi => ?_) ((htrips.out n).trans hout), ?_, axFault_counts n 1 (by decide) ?_ ?_,
    fun hrun => ?_, fun k hk hl => ?_⟩
  · rw [hq.rgB _ hledger, didtLatched_latch _ n _ (by omega), if_pos rfl]
  · rw [hq.rgB _ hledger, didtLatched_latch _ n _ (by omega), if_neg (by omega), rgB_of_regs hu.regs]
  · rw [hq.keys _ hkey.ledger, didtLatched, rg_incR_same, setLatch, rg_setB_ne _ _ _ hkey.latch, hu.rg]
  · exact congrArg (fun f : Flt => cellGet f.srcs (axSrc n 1)) hu.flt
  · rw [roleOf, rgN, didtLatched_rg _ n _ _ hrole hkey.role.symm, hu.rg, ← rgN, ← roleOf]
  · rw [hq.tb]
    show armedAt s n g ≤ (toTick s (armedAt s n g)).clk.tb
    rw [toTick_tb _ hrun]
    exact le_max_right _ _
  · simp only [List.mem_cons, List.not_mem_nil, or_false, not_or] at hk
    rw [hq.keys k hl, didtLatched_rg _ n _ _ hk.1 hk.2, hu.rg]

/-! ### The obligation -/

/-- Settles O46: the latches that isolate their half-bridge, and the one that is for report only. -/
theorem bridgeLatchesIsolateTheirHalfBridge : Obligations.BridgeLatchesIsolateTheirHalfBridge :=
  ⟨execScTrip_isolates, execDidtTrip_reports, execGateWeak_isolates, execXcmd_isolates⟩

end Sys2Proof.Machine
end

section
/-! O41, a write of one signal that no other block follows, and the clearing of the latches of an axis. -/

namespace Sys2Proof.Machine

/-! ### A write that nothing follows (R149, R155) -/

/-- Whether a frame that writes a signal has nothing to do after the write: it is of no compare slot, and the parameter area keeps none
of it. -/
def framePlain (key : Nat) : Bool :=
  allAxes.all (fun n => [0, 1, 2, 3].all (fun k => key != Sig.CAR_CMP_POS n.val k && key != Sig.CAR_CMP_CFG n.val k)) &&
    !(Sig.FLT_CFG :: keptKeys).contains key

theorem frameWritten_plain {key : Nat} (h : framePlain key = true) (s : State) : frameWritten s [key] [] false = s := by
  obtain ⟨hslot, hkept⟩ := Bool.and_eq_true_iff.mp h
  have hlate : lateLoads s [key] [] = s := by simp [lateLoads, forEach]
  have hslots : slotsWritten s [key] = s := by
    refine forEach_inv (Q := fun t => t = s) _ _ (fun t n hn ht => ?_) rfl
    refine forEach_inv (Q := fun t => t = s) _ _ (fun t k hk ht => ?_) ht
    have hne := List.all_eq_true.mp (List.all_eq_true.mp hslot n hn) k hk
    simp only [Bool.and_eq_true, bne_iff_ne] at hne
    rw [if_neg (by simp [hne.1.symm, hne.2.symm]), ht]
  unfold frameWritten
  dsimp only
  rw [hlate, if_neg Bool.false_ne_true, hslots, if_neg (by simpa using hkept)]

/-- A frame with one pair that its checks accept, with the conditions that are active behind the latches: the effect of the write, what
follows the frame, and OK. -/
theorem sigWriteAns_pair {s : State} {r : Req} {key : Nat} {row : SigRow} {sid w : Word} (active : Nat) (hany : (r.devSel == 0x1F) = false)
    (hrow : sidRow s false sid = some (key, row)) (hmod : sid.toNat % 0x10000 = key) (hcode : key < Sig.AO_CODE 0 ∨ Sig.AO_CODE 5 < key)
    (hv : writeStatus s false sid w = stOk) : sigWriteAns s r [(sid, w)] active [] false =
      (frameWritten (writeKey s key row w active) [key] [] false, ansOk (countPayload 1 0xFFFF)) := by
  have hpair : codePair (sid, w) = false := by
    simp only [codePair, hmod, Bool.and_eq_false_iff, decide_eq_false_iff_not, not_le]
    exact hcode
  unfold sigWriteAns
  dsimp only
  rw [hany, writePairs_single active hrow hv]
  dsimp only
  rw [strobeWithin_single _ hpair]
  simp [pairKeys, hmod]

/-- A write that its checks accept passes the checks after those of R147. -/
theorem laterStatus_of_writeStatus {s : State} {sid w : Word} (h : writeStatus s false sid w = stOk) :
    laterStatus s (sid.toNat % 0x10000) w = stOk := by
  unfold writeStatus pairStatus at h
  split at h
  case isTrue hbad => exact absurd h hbad
  case isFalse =>
    split at h
    · exact absurd h (by decide)
    · exact h

/-- A write of one signal that is carried out, where nothing follows it: its effect on the state whose runtime has taken it, which passes the
later checks, and an answer that leaves the signals as they are. -/
theorem writeCmd_carried {s : State} {r : Req} {key : Nat} {w : Word} (active : Nat) (hk : key < 0x9000)
    (hcode : key < Sig.AO_CODE 0 ∨ Sig.AO_CODE 5 < key) (hplain : framePlain key = true) (ha : WriteAccepted s r key w) :
    ∃ rt row, laterStatus { s with rt := rt } key w = stOk ∧
      AnswersOnly (writeKey { s with rt := rt } key row w active) (writeCmd s r [(sidOf s key, w)] active [] false) ∧
      (writeCmd s r [(sidOf s key, w)] active [] false).regs = (writeKey { s with rt := rt } key row w active).regs := by
  obtain ⟨rt, e⟩ := unhand_rest s r
  have hv := ha.value
  rw [e] at hv
  have hmod := sidOf_mod s (key := key) (by omega)
  obtain ⟨p, hp⟩ := sidRow_of_writeStatus hv
  obtain ⟨row, -, rfl⟩ := Option.map_eq_some_iff.mp ((sidRow_sidOf { s with rt := rt } hk).symm.trans hp)
  have hany : (r.devSel == 0x1F) = false := (Bool.or_eq_false_iff.mp ha.frame.single).1
  have hcmd : writeCmd s r [(sidOf s key, w)] active [] false =
      answered r opSigWrite (writeKey { s with rt := rt } key row w active, ansOk (countPayload 1 0xFFFF)) := by
    rw [writeCmd, devCmd_eq ha.frame, if_neg (by simp), e, sigWriteAns_pair active hany hp hmod hcode hv, frameWritten_plain hplain]
  have hlater := laterStatus_of_writeStatus hv
  rw [hmod] at hlater
  rw [hcmd]
  exact ⟨rt, row, hlater, answered_only _ _ _, answered_ok_regs rfl⟩

/-! ### The conditions behind the latches (R237) -/

theorem latchActive_of_pwm {s t : State} (h : t.pwm = s.pwm) (n : Axis) (active i : Nat) :
    latchActive t n active i = latchActive s n active i := by
  unfold latchActive
  rw [h]

/-! ### One latch after another -/

theorem OnlySignal.trans {k : Nat} {s t u : State} (h : OnlySignal k s t) (g : OnlySignal k t u) : OnlySignal k s u :=
  ⟨(congrArg (fun v : State => { v with regs := s.regs }) g.1).trans h.1, fun j hj => (g.2 j hj).trans (h.2 j hj)⟩

/-- What a write does for one latch that it names and that stands: kept and refused while its condition is active, else cleared. -/
def latchCleared (n : Axis) (active : Nat) (s : State) (i : Nat) : State :=
  if latchActive s n active i then setB s (Sig.GD_LATCH n.val) 31 true else setB s (Sig.GD_LATCH n.val) i false

/-- The latches of a list, one after another. -/
def latchesCleared (n : Axis) (active : Nat) (s : State) (bits : List Nat) : State := forEach bits s (latchCleared n active)

section
variable (n : Axis) (active : Nat) (s : State)

theorem latchCleared_only (i : Nat) : OnlySignal (Sig.GD_LATCH n.val) s (latchCleared n active s i) := by
  unfold latchCleared
  split <;> exact onlySignal_setR s _ _

theorem latchesCleared_only (bits : List Nat) : OnlySignal (Sig.GD_LATCH n.val) s (latchesCleared n active s bits) :=
  forEach_inv (Q := OnlySignal (Sig.GD_LATCH n.val) s) _ _ (fun t i _ ht => ht.trans (latchCleared_only n active t i)) ⟨rfl, fun _ _ => rfl⟩

theorem latchCleared_active (i j : Nat) : latchActive (latchCleared n active s i) n active j = latchActive s n active j :=
  latchActive_of_pwm (congrArg State.pwm (latchCleared_only n active s i).1 :) n active j

theorem latchCleared_rgB {i j : Nat} (hi : i < 31) (hj : j < 31) : rgB (latchCleared n active s i) (Sig.GD_LATCH n.val) j =
    (rgB s (Sig.GD_LATCH n.val) j && !(decide (j = i) && !latchActive s n active j)) := by
  unfold latchCleared
  by_cases h : j = i
  · subst h
    cases ha : latchActive s n active j
    · rw [if_neg Bool.false_ne_true, rgB_setB _ _ _ _ _ (by omega)]
      simp
    · rw [if_pos rfl, rgB_setB _ _ _ _ _ (by omega), if_neg (by omega)]
      simp
  · have hkeep (b : Bool) {k : Nat} (hk : j ≠ k) :
        rgB (setB s (Sig.GD_LATCH n.val) k b) (Sig.GD_LATCH n.val) j = rgB s (Sig.GD_LATCH n.val) j := by
      rw [rgB_setB _ _ _ _ _ (by omega), if_neg hk]
    split
    · rw [hkeep true (by omega)]
      simp [h]
    · rw [hkeep false h]
      simp [h]

/-- CLEAR_REFUSED is set by an active latch, and no latch clears it. -/
theorem latchCleared_refused {i : Nat} (hi : i < 31) (h : rgB s (Sig.GD_LATCH n.val) 31 = true ∨ latchActive s n active i = true) :
    rgB (latchCleared n active s i) (Sig.GD_LATCH n.val) 31 = true := by
  unfold latchCleared
  split
  case isTrue => rw [rgB_setB _ _ _ _ _ (by decide), if_pos rfl]
  case isFalse hn =>
    rw [rgB_setB _ _ _ _ _ (by decide), if_neg (by omega)]
    exact h.resolve_right hn

theorem latchesCleared_rgB {bits : List Nat} (hbits : ∀ i ∈ bits, i < 31) {j : Nat} (hj : j < 31) :
    rgB (latchesCleared n active s bits) (Sig.GD_LATCH n.val) j =
      (rgB s (Sig.GD_LATCH n.val) j && !(decide (j ∈ bits) && !latchActive s n active j)) := by
  induction bits generalizing s with
  | nil => simp [latchesCleared, forEach]
  | cons i bits ih =>
    have h := ih (latchCleared n active s i) (fun k hk => hbits k (List.mem_cons_of_mem i hk))
    rw [latchCleared_rgB n active s (hbits i List.mem_cons_self) hj, latchCleared_active] at h
    refine Eq.trans h ?_
    rw [show decide (j ∈ i :: bits) = (decide (j = i) || decide (j ∈ bits)) by simp]
    cases rgB s (Sig.GD_LATCH n.val) j <;> cases latchActive s n active j <;> simp

theorem latchesCleared_refused {bits : List Nat} (hbits : ∀ i ∈ bits, i < 31) {i : Nat} (hi : i ∈ bits) (ha : latchActive s n active i = true) :
    rgB (latchesCleared n active s bits) (Sig.GD_LATCH n.val) 31 = true := by
  induction bits generalizing s with
  | nil => exact absurd hi List.not_mem_nil
  | cons j bits ih =>
    have hrest (k : Nat) (hk : k ∈ bits) : k < 31 := hbits k (List.mem_cons_of_mem j hk)
    rcases List.mem_cons.mp hi with rfl | hi
    · exact forEach_inv (Q := fun t => rgB t (Sig.GD_LATCH n.val) 31 = true) _ _
        (fun t k hk ht => latchCleared_refused n active t (hrest k hk) (.inl ht))
        (latchCleared_refused n active s (hbits i List.mem_cons_self) (.inr ha))
    · exact ih _ hrest hi ((latchCleared_active n active s j i).trans ha)

end

/-! ### A write of GD_LATCH (R237, R238) -/

/-- The state in which a write of GD_LATCH clears the latches: the trip input seen, CLEAR_REFUSED cleared where bit 31 is written. -/
def clearBegun (s : State) (n : Axis) (v active : Nat) : State :=
  if bitOf v 31 then setB (tripSeen s n (bitOf active 30)) (Sig.GD_LATCH n.val) 31 false else tripSeen s n (bitOf active 30)

/-- The latches that a write of GD_LATCH names and that stand. -/
def latchesNamed (s : State) (n : Axis) (v : Nat) : List Nat :=
  (List.range 31).filter (fun i => bitOf v i && rgB s (Sig.GD_LATCH n.val) i)

theorem latchClear_eq (s : State) (n : Axis) (v active : Nat) : latchClear s n v active =
    latchesCleared n active (clearBegun s n v active) (latchesNamed (clearBegun s n v active) n v) := rfl

theorem clearBegun_rest (s : State) (n : Axis) (v active : Nat) :
    OnlySignal (Sig.GD_LATCH n.val) (tripSeen s n (bitOf active 30)) (clearBegun s n v active) := by
  unfold clearBegun
  split
  · exact onlySignal_setR _ _ _
  · exact ⟨rfl, fun _ _ => rfl⟩

theorem clearBegun_rgB (s : State) (n : Axis) (v active : Nat) {i : Nat} (hi : i < 31) :
    rgB (clearBegun s n v active) (Sig.GD_LATCH n.val) i = rgB s (Sig.GD_LATCH n.val) i := by
  unfold clearBegun
  split
  · rw [rgB_setB _ _ _ _ _ (by omega), if_neg (by omega)]
    rfl
  · rfl

theorem clearBegun_active (s : State) (n : Axis) (v active i : Nat) :
    latchActive (clearBegun s n v active) n active i = latchActive s n active i :=
  latchActive_of_pwm (congrArg State.pwm (clearBegun_rest s n v active).1 :) n active i

theorem mem_latchesNamed {s : State} {n : Axis} {v i : Nat} :
    i ∈ latchesNamed s n v ↔ i < 31 ∧ bitOf v i = true ∧ rgB s (Sig.GD_LATCH n.val) i = true := by
  simp [latchesNamed]

/-- A write of GD_LATCH clears the latches that it names and whose condition is not active. -/
theorem latchClear_rgB (s : State) (n : Axis) (v active : Nat) {i : Nat} (hi : i < 31) : rgB (latchClear s n v active) (Sig.GD_LATCH n.val) i =
    (rgB s (Sig.GD_LATCH n.val) i && !(bitOf v i && !latchActive s n active i)) := by
  rw [latchClear_eq, latchesCleared_rgB n active _ (fun j hj => (mem_latchesNamed.mp hj).1) hi, clearBegun_active]
  have hmem : decide (i ∈ latchesNamed (clearBegun s n v active) n v) = (bitOf v i && rgB s (Sig.GD_LATCH n.val) i) := by
    simp [mem_latchesNamed, clearBegun_rgB s n v active hi, hi]
  rw [hmem, clearBegun_rgB s n v active hi]
  cases rgB s (Sig.GD_LATCH n.val) i <;> simp

/-- A latch that is named and whose condition is active shows in CLEAR_REFUSED. -/
theorem latchClear_refused {s : State} {n : Axis} {v active i : Nat} (hi : i < 31) (hset : rgB s (Sig.GD_LATCH n.val) i = true)
    (hv : bitOf v i = true) (ha : latchActive s n active i = true) : rgB (latchClear s n v active) (Sig.GD_LATCH n.val) 31 = true := by
  rw [latchClear_eq]
  exact latchesCleared_refused n active _ (fun j hj => (mem_latchesNamed.mp hj).1)
    (mem_latchesNamed.mpr ⟨hi, hv, (clearBegun_rgB s n v active hi).trans hset⟩) ((clearBegun_active s n v active i).trans ha)

/-- A write of GD_LATCH returns nothing to service and changes no other signal (R238). -/
theorem latchClear_rest (s : State) (n : Axis) (v active : Nat) : ((latchClear s n v active).gd[n]).out = (s.gd[n]).out ∧
    (latchClear s n v active).ax = s.ax ∧ ∀ k, k ≠ Sig.GD_LATCH n.val → rg (latchClear s n v active) k = rg s k := by
  have h := (clearBegun_rest s n v active).trans (latchesCleared_only n active _ (latchesNamed (clearBegun s n v active) n v))
  rw [← latchClear_eq] at h
  have hgd : (latchClear s n v active).gd = (tripSeen s n (bitOf active 30)).gd := (congrArg State.gd h.1 :)
  refine ⟨?_, (congrArg State.ax h.1 :), h.2⟩
  rw [hgd]
  exact (congrArg GdAx.out (modV_same s.gd n _) :)

theorem writeKey_gdLatch (s : State) (n : Axis) (row : SigRow) (w : Word) (active : Nat) :
    writeKey s (Sig.GD_LATCH n.val) row w active = latchClear s n w.toNat active := by
  have hkey : Sig.GD_LATCH n.val = n.val * 0x1000 + 0x120 := rfl
  have hlt : Sig.GD_LATCH n.val / 0x1000 < 8 := by omega
  have hn : (⟨Sig.GD_LATCH n.val / 0x1000, hlt⟩ : Axis) = n := Fin.ext (by dsimp only; omega)
  have hi : Sig.GD_LATCH n.val % 0x1000 = 0x120 := by omega
  unfold writeKey
  rw [dif_pos hlt, hn, hi]
  rfl

theorem gdLatch_plain (n : Axis) : framePlain (Sig.GD_LATCH n.val) = true := by
  revert n
  decide

theorem execGdLatchClear_clears (s : State) (r : Req) (n : Axis) (v : Word) (active : Nat) (ha : WriteAccepted s r (Sig.GD_LATCH n.val) v) :
    ∃ t, exec (.gdLatchClear r n v active) s = .next t ∧
      (∀ i, i < 31 → rgB t (Sig.GD_LATCH n.val) i = (rgB s (Sig.GD_LATCH n.val) i && !(bitOf v.toNat i && !latchActive s n active i))) ∧
      ((∃ i, i < 31 ∧ rgB s (Sig.GD_LATCH n.val) i = true ∧ bitOf v.toNat i = true ∧ latchActive s n active i = true) →
        rgB t (Sig.GD_LATCH n.val) 31 = true) ∧
      (t.gd[n]).out = (s.gd[n]).out ∧ t.ax = s.ax ∧ SignalsBut [Sig.GD_LATCH n.val] s t := by
  have hkey : Sig.GD_LATCH n.val < Sig.AO_CODE 0 := by
    simp only [Sig.GD_LATCH, Sig.AO_CODE]
    omega
  obtain ⟨rt, row, -, hrest, hregs⟩ := writeCmd_carried active (hkey.trans (by decide)) (.inl hkey) (gdLatch_plain n) ha
  rw [writeKey_gdLatch] at hrest hregs
  obtain ⟨hout, hax, hother⟩ := latchClear_rest { s with rt := rt } n v.toNat active
  have hgd := (congrArg State.gd hrest :)
  refine ⟨_, show execGdLatchClear r n v active s = _ from if_pos ha.frame.serves, fun j hj => ?_, ?_, ?_, ?_, fun k hk _ => ?_⟩
  · rw [rgB_of_regs hregs]
    exact latchClear_rgB { s with rt := rt } n v.toNat active hj
  · rintro ⟨j, hj, hset, hv, hact⟩
    rw [rgB_of_regs hregs]
    exact latchClear_refused (s := { s with rt := rt }) hj hset hv hact
  · exact (congrArg (fun g : Vector GdAx 8 => (g[n]).out) hgd).trans hout
  · exact (congrArg State.ax hrest :).trans hax
  · rw [rg_of_regs hregs]
    exact hother k (fun h => hk (List.mem_singleton.mpr h))

end Sys2Proof.Machine
end

section
/-! O41, the pins of a slice, and the obligation. -/

namespace Sys2Proof.Machine

/-! ### What pins a slice (R590) -/

theorem pinned_of_rcd {s t : State} (h : t.rcd = s.rcd) (x : Slice) : pinned t x = pinned s x := by
  unfold pinned
  rw [h]

theorem sliceOf_seq {s : State} {seq : Nat} {x : Slice} (hx : sliceOf s seq = some x) : x.seq = seq :=
  beq_iff_eq.mp (List.find?_some hx :)

/-! ### FC_PIN -/

/-- A pin that is accepted stands, with every pin that stood; no slice and no signal changes. -/
theorem pinWrite_pins {s : State} {seq : Nat} {x : Slice} (hx : sliceOf s seq = some x) (hok : (pinWrite s seq).2 = stOk) :
    pinned (pinWrite s seq).1 x = true ∧ (pinWrite s seq).1.rcd.slices = s.rcd.slices ∧
      (∀ y, pinned s y = true → pinned (pinWrite s seq).1 y = true) ∧ (pinWrite s seq).1.regs = s.regs := by
  have hseq := sliceOf_seq hx
  unfold pinWrite at hok ⊢
  rw [hx] at hok ⊢
  dsimp only at hok ⊢
  by_cases hp : pinned s x = true
  · rw [if_pos hp]
    exact ⟨hp, rfl, fun _ => id, rfl⟩
  · rw [if_neg hp] at hok ⊢
    by_cases hfit : pinsFit { s with rcd := { s.rcd with hostPins := s.rcd.hostPins ++ [seq] } } = true
    · rw [if_pos hfit]
      refine ⟨?_, rfl, fun y hy => ?_, rfl⟩
      · simp [pinned, evt, hseq]
      · simp only [pinned, evt, Bool.or_eq_true, List.contains_iff_mem, List.mem_append] at hy ⊢
        exact hy.imp_left .inl
    · rw [if_neg hfit] at hok
      exact absurd (show stRange = stOk from hok) (by decide)

theorem execFcPin_pins (s : State) (r : Req) (v : Word) (x : Slice) (ha : WriteAccepted s r Sig.FC_PIN v) (hx : sliceOf s v.toNat = some x) :
    ∃ t, exec (.fcPin r v) s = .next t ∧ pinned t x = true ∧ t.rcd.slices = s.rcd.slices ∧
      (∀ y, pinned s y = true → pinned t y = true) ∧ SignalsBut [] s t := by
  obtain ⟨rt, row, hlater, hrest, hregs⟩ := writeCmd_carried 0 (by decide) (by decide) (by decide) ha
  have hwrite (u : State) : writeKey u Sig.FC_PIN row v 0 = (pinWrite u v.toNat).1 := rfl
  rw [hwrite] at hrest hregs
  obtain ⟨hpin, hslices, hall, hsig⟩ := pinWrite_pins (s := { s with rt := rt }) hx hlater
  have hrcd := (congrArg State.rcd hrest :)
  refine ⟨_, show execFcPin r v s = _ from if_pos ha.frame.serves, (pinned_of_rcd hrcd x).trans hpin,
    (congrArg Rec.slices hrcd).trans hslices, fun y hy => (pinned_of_rcd hrcd y).trans (hall y hy), fun k _ _ => ?_⟩
  exact rg_of_regs (hregs.trans hsig) k

/-! ### FC_UNPIN -/

/-- Staging an event slice changes no slice and no pin, and of the signals only those of staging. -/
theorem stageEvent_pins (s : State) (code idx count : Nat) (data : List Byte) :
    (stageEvent s code idx count data).rcd.slices = s.rcd.slices ∧ (∀ y, pinned (stageEvent s code idx count data) y = pinned s y) ∧
      SignalsBut [] s (stageEvent s code idx count data) := by
  refine ⟨?_, fun y => ?_, fun k _ hl => (stageEvent_quiet s code idx count data).keys k hl⟩
  · unfold stageEvent
    split <;> rfl
  · unfold stageEvent
    split <;> rfl

/-- A pin that is released goes from its slice alone. -/
theorem freePin_releases (s : State) (x : Slice) : pinned (freePin s x) x = false ∧ (freePin s x).rcd.slices = s.rcd.slices ∧
    (∀ y, y.seq ≠ x.seq → pinned (freePin s x) y = pinned s y) ∧ SignalsBut [] s (freePin s x) := by
  unfold freePin
  dsimp only
  obtain ⟨hslices, hpins, hsig⟩ := stageEvent_pins { s with rcd := { s.rcd with
    hostPins := s.rcd.hostPins.filter (fun q => q != x.seq)
    freedPins := if x.autoPin then s.rcd.freedPins ++ [x.seq] else s.rcd.freedPins } } 0x0040 0xFFFF 1 (leBytes 4 x.seq)
  refine ⟨(hpins x).trans ?_, hslices, fun y hy => (hpins y).trans ?_, hsig⟩
  · cases hx : x.autoPin <;> simp [pinned, hx]
  · have hhost : (s.rcd.hostPins.filter (fun q => q != x.seq)).contains y.seq = s.rcd.hostPins.contains y.seq := by
      simp [List.contains_eq_mem, hy]
    have hfreed : (if x.autoPin then s.rcd.freedPins ++ [x.seq] else s.rcd.freedPins).contains y.seq = s.rcd.freedPins.contains y.seq := by
      split
      · simp [List.contains_eq_mem, hy]
      · rfl
    simp only [pinned, hhost, hfreed]

/-- An unpin that is accepted leaves its slice without a pin, and every other slice as it was. -/
theorem unpinWrite_releases {s : State} {seq : Nat} {x : Slice} (hx : sliceOf s seq = some x) (hok : (unpinWrite s seq).2 = stOk) :
    pinned (unpinWrite s seq).1 x = false ∧ (unpinWrite s seq).1.rcd.slices = s.rcd.slices ∧
      (∀ y, y.seq ≠ x.seq → pinned (unpinWrite s seq).1 y = pinned s y) ∧ SignalsBut [] s (unpinWrite s seq).1 := by
  unfold unpinWrite at hok ⊢
  rw [hx] at hok ⊢
  dsimp only at hok ⊢
  split at hok
  case isTrue h =>
    rw [if_pos h]
    exact freePin_releases s x
  case isFalse h =>
    rw [if_neg h]
    split at hok
    case isTrue hp =>
      rw [if_pos hp]
      split at hok
      · exact absurd (show stDeniedLifecycle = stOk from hok) (by decide)
      case isFalse hlife =>
        rw [if_neg hlife]
        exact freePin_releases s x
    case isFalse hp =>
      rw [if_neg hp]
      exact ⟨Bool.eq_false_of_not_eq_true hp, rfl, fun _ _ => rfl, fun _ _ _ => rfl⟩

theorem execFcUnpin_releases (s : State) (r : Req) (v : Word) (x : Slice) (ha : WriteAccepted s r Sig.FC_UNPIN v)
    (hx : sliceOf s v.toNat = some x) :
    ∃ t, exec (.fcUnpin r v) s = .next t ∧ pinned t x = false ∧ t.rcd.slices = s.rcd.slices ∧
      (∀ y, y.seq ≠ x.seq → pinned t y = pinned s y) ∧ SignalsBut [] s t := by
  obtain ⟨rt, row, hlater, hrest, hregs⟩ := writeCmd_carried 0 (by decide) (by decide) (by decide) ha
  have hwrite (u : State) : writeKey u Sig.FC_UNPIN row v 0 = (unpinWrite u v.toNat).1 := rfl
  rw [hwrite] at hrest hregs
  obtain ⟨hpin, hslices, hother, hsig⟩ := unpinWrite_releases (s := { s with rt := rt }) hx hlater
  have hrcd := (congrArg State.rcd hrest :)
  refine ⟨_, show execFcUnpin r v s = _ from if_pos ha.frame.serves, (pinned_of_rcd hrcd x).trans hpin,
    (congrArg Rec.slices hrcd).trans hslices, fun y hy => (pinned_of_rcd hrcd y).trans (hother y hy), fun k hk hl => ?_⟩
  exact (rg_of_regs hregs k).trans (hsig k hk hl)

/-! ### The obligation -/

/-- Settles O41: the latches that a write of GD_LATCH clears, and the pins that FC_PIN and FC_UNPIN set and release. -/
theorem latchesAndPinsAreCleared : Obligations.LatchesAndPinsAreCleared :=
  ⟨execGdLatchClear_clears, execFcPin_pins, execFcUnpin_releases⟩

end Sys2Proof.Machine
end

section
/-! O38, a write of one signal with what follows its frame, and the position-compare slots. -/

namespace Sys2Proof.Machine

/-! ### A write and what follows its frame (R149, R155) -/

/-- A write of one signal that is carried out: its effect on the state whose runtime has taken it, what follows the frame, and an answer that
leaves the signals as they are. -/
theorem writeOne_carried {s : State} {r : Req} {key : Nat} {w : Word} (hk : key < 0x9000) (hcode : key < Sig.AO_CODE 0 ∨ Sig.AO_CODE 5 < key)
    (ha : WriteAccepted s r key w) :
    ∃ rt row, sigFind key = some row ∧
      AnswersOnly (frameWritten (writeKey { s with rt := rt } key row w 0) [key] [] false) (writeOne s r key w) ∧
      (writeOne s r key w).regs = (frameWritten (writeKey { s with rt := rt } key row w 0) [key] [] false).regs := by
  obtain ⟨rt, e⟩ := unhand_rest s r
  have hv := ha.value
  rw [e] at hv
  have hmod := sidOf_mod s (key := key) (by omega)
  obtain ⟨p, hp⟩ := sidRow_of_writeStatus hv
  obtain ⟨row, hf, rfl⟩ := Option.map_eq_some_iff.mp ((sidRow_sidOf { s with rt := rt } hk).symm.trans hp)
  have hany : (r.devSel == 0x1F) = false := (Bool.or_eq_false_iff.mp ha.frame.single).1
  rw [writeOne_eq, devCmd_eq ha.frame, e, sigWriteAns_pair 0 hany hp hmod hcode hv]
  exact ⟨rt, row, hf, answered_only _ _ _, answered_ok_regs rfl⟩

/-- A frame that writes one signal is followed by its slots and the parameter area. -/
theorem frameWritten_single (s : State) (key : Nat) : frameWritten s [key] [] false =
    if (Sig.FLT_CFG :: keptKeys).contains key then storeParams (slotsWritten s [key]) else slotsWritten s [key] := by
  have hlate : lateLoads s [key] [] = s := by simp [lateLoads, forEach]
  unfold frameWritten
  dsimp only
  rw [hlate, if_neg Bool.false_ne_true, List.any_cons, List.any_nil, Bool.or_false]

/-- A frame that writes no signal of a slot writes no slot. -/
theorem slotsWritten_none {key : Nat} (h : ∀ (m : Axis), ∀ j < 4, key ≠ Sig.CAR_CMP_POS m.val j ∧ key ≠ Sig.CAR_CMP_CFG m.val j) (s : State) :
    slotsWritten s [key] = s := by
  refine forEach_inv (Q := fun t => t = s) _ _ (fun t m _ ht => forEach_inv (Q := fun t => t = s) _ _ (fun u j hj hu => ?_) ht) rfl
  obtain ⟨hpos, hcfg⟩ := h m j (by simp at hj; omega)
  rw [if_neg (by simp [hpos.symm, hcfg.symm]), hu]

theorem writeKey_axis (s : State) (n : Axis) {i : Nat} (hi : i < 0x1000) (row : SigRow) (w : Word) (active : Nat) :
    writeKey s (n.val * 0x1000 + i) row w active = writeAxis s n i row w active := by
  have hlt : (n.val * 0x1000 + i) / 0x1000 < 8 := by omega
  have hn : (⟨(n.val * 0x1000 + i) / 0x1000, hlt⟩ : Axis) = n := Fin.ext (by dsimp only; omega)
  have hitem : (n.val * 0x1000 + i) % 0x1000 = i := by omega
  unfold writeKey
  rw [dif_pos hlt, hn, hitem]

/-- The signals of the axes stand before those of the device. -/
theorem axisKey_lt (n : Axis) {i : Nat} (hi : i < 0x1000) : n.val * 0x1000 + i < 0x8000 := by omega

/-! ### One thing of a list -/

/-- Where one thing of a list alone acts, the list does what that thing does. -/
theorem forEach_only {α : Type} (f : State → α → State) {xs : List α} {x : α} (hx : x ∈ xs) (hnd : xs.Nodup)
    (hskip : ∀ s, ∀ y ∈ xs, y ≠ x → f s y = s) (s : State) : forEach xs s f = f s x := by
  induction xs generalizing s with
  | nil => exact absurd hx List.not_mem_nil
  | cons y ys ih =>
    obtain ⟨hy, hys⟩ := List.nodup_cons.mp hnd
    have hrest (u : State) (z : α) (hz : z ∈ ys) : z ≠ x → f u z = u := hskip u z (List.mem_cons_of_mem y hz)
    show forEach ys (f s y) f = f s x
    by_cases e : y = x
    · subst e
      exact forEach_inv (Q := fun t => t = f s y) f ys (fun t z hz ht => (hrest t z hz (fun h => hy (h ▸ hz))).trans ht) rfl
    · rw [hskip s y List.mem_cons_self e]
      exact ih ((List.mem_cons.mp hx).resolve_left (Ne.symm e)) hys hrest s

theorem getD_setAt_ne {α : Type} (xs : List α) {i j : Nat} (y d : α) (h : j ≠ i) : (setAt xs i y).getD j d = xs.getD j d := by
  rw [setAt_eq_set, List.getD_eq_getElem?_getD, List.getElem?_set_ne (Ne.symm h), List.getD_eq_getElem?_getD]

/-! ### The signals of a position-compare slot (R335) -/

/-- The place of a slot's configuration or position among the signals of an axis. -/
def slotItem (k : Fin 4) (cfg : Bool) : Nat := (if cfg then 0x324 else 0x320) + k.val

/-- The signal that gives a slot its configuration or its position. -/
def slotKey (n : Axis) (k : Fin 4) (cfg : Bool) : Nat := if cfg then Sig.CAR_CMP_CFG n.val k.val else Sig.CAR_CMP_POS n.val k.val

section
variable (n : Axis) (k : Fin 4) (cfg : Bool)

theorem slotItem_bounds : 0x320 ≤ slotItem k cfg ∧ slotItem k cfg < 0x328 := by
  unfold slotItem
  split <;> omega

theorem slotKey_eq : slotKey n k cfg = n.val * 0x1000 + slotItem k cfg := by
  cases cfg <;> exact Nat.add_assoc _ _ _

theorem slotKey_lt : slotKey n k cfg < 0x8000 := by
  have h := slotItem_bounds k cfg
  rw [slotKey_eq]
  exact axisKey_lt n (by omega)

/-- A signal of a slot names that slot alone. -/
theorem slotKey_names (m : Axis) {j : Nat} (hj : j < 4) :
    ([slotKey n k cfg].contains (Sig.CAR_CMP_POS m.val j) || [slotKey n k cfg].contains (Sig.CAR_CMP_CFG m.val j)) = true ↔
      m = n ∧ j = k.val := by
  simp only [List.contains_iff_mem, List.mem_singleton, Bool.or_eq_true, Fin.ext_iff]
  cases cfg
  · simp only [slotKey, Sig.CAR_CMP_POS, Sig.CAR_CMP_CFG, if_neg Bool.false_ne_true]
    omega
  · simp only [slotKey, Sig.CAR_CMP_POS, Sig.CAR_CMP_CFG, if_true]
    omega

/-- The slot signals are plain ones: no write clears their bits (R148). -/
theorem slotKey_plain {row : SigRow} (h : sigFind (slotKey n k cfg) = some row) : row.acc ≠ .w1c := by
  have hall : ∀ (n : Axis) (k : Fin 4) (cfg : Bool), (sigFind (slotKey n k cfg)).all (fun row => row.acc != .w1c) = true := by decide +kernel
  have hrow := hall n k cfg
  rw [h] at hrow
  exact bne_iff_ne.mp hrow

theorem slotKey_unkept : (Sig.FLT_CFG :: keptKeys).contains (slotKey n k cfg) = false := by
  revert n k cfg
  decide +kernel

theorem writeKey_slot (s : State) {row : SigRow} (h : sigFind (slotKey n k cfg) = some row) (w : Word) :
    writeKey s (slotKey n k cfg) row w 0 = setR s (slotKey n k cfg) w := by
  obtain ⟨hlo, hhi⟩ := slotItem_bounds k cfg
  have hplain : ∀ i, 0x320 ≤ i → i < 0x328 →
      writeAxis s n i row w 0 = if row.acc = .w1c then w1cWrite s (n.val * 0x1000 + i) w else setR s (n.val * 0x1000 + i) w := by
    intro i hlo hhi
    interval_cases i <;> rfl
  rw [slotKey_eq, writeKey_axis s n (by omega), hplain _ hlo hhi, if_neg (slotKey_plain n k cfg h)]

/-- A frame that writes a signal of a slot writes that slot (R335). -/
theorem slotsWritten_slot (s : State) : slotsWritten s [slotKey n k cfg] = slotWritten s n k.val := by
  have hfour {j : Nat} (hj : j ∈ [0, 1, 2, 3]) : j < 4 := by simp at hj; omega
  unfold slotsWritten
  rw [forEach_only _ (mem_allAxes n) (by decide), forEach_only _ (x := k.val) (by revert k; decide) (by decide),
    if_pos ((slotKey_names n k cfg n k.isLt).mpr ⟨rfl, rfl⟩)]
  · exact fun t j hj hne => if_neg (fun h => hne ((slotKey_names n k cfg n (hfour hj)).mp h).2)
  · intro t m _ hne
    exact forEach_inv (Q := fun u => u = t) _ _
      (fun u j hj hu => (if_neg (fun h => hne ((slotKey_names n k cfg m (hfour hj)).mp h).1)).trans hu) rfl

theorem frameWritten_slot (s : State) : frameWritten s [slotKey n k cfg] [] false = slotWritten s n k.val := by
  rw [frameWritten_single, slotKey_unkept, if_neg Bool.false_ne_true, slotsWritten_slot]

end

/-! ### A slot written (R335) -/

/-- A slot that is written is armed for its next check where its DIR is not 0, and the other slots of its axis stay. -/
theorem slotWritten_arms {s t : State} {n : Axis} {k : Nat} (hk : k < (s.car[n]).slots.length) (hcar : t.car = (slotWritten s n k).car)
    (hregs : t.regs = s.regs) :
    ((t.car[n]).slots.getD k CmpSlot.init).arming = (rgF t (Sig.CAR_CMP_CFG n.val k) 0 2 != 0) ∧
      (rgF t (Sig.CAR_CMP_CFG n.val k) 0 2 = 0 → ((t.car[n]).slots.getD k CmpSlot.init).armed = false) ∧
      ∀ j, j ≠ k → (t.car[n]).slots.getD j CmpSlot.init = (s.car[n]).slots.getD j CmpSlot.init := by
  have hslots : (t.car[n]).slots = setAt (s.car[n]).slots k
      ⟨rgF s (Sig.CAR_CMP_CFG n.val k) 0 2 != 0,
        rgF s (Sig.CAR_CMP_CFG n.val k) 0 2 != 0 && ((s.car[n]).slots.getD k CmpSlot.init).armed,
        ((s.car[n]).slots.getD k CmpSlot.init).prev⟩ := by
    rw [hcar]
    exact (congrArg CarAx.slots (modV_same s.car n _) :)
  have hdir : rgF t (Sig.CAR_CMP_CFG n.val k) 0 2 = rgF s (Sig.CAR_CMP_CFG n.val k) 0 2 := by
    unfold rgF rgN
    rw [rg_of_regs hregs]
  rw [hslots, hdir, getD_setAt_same _ _ _ hk]
  refine ⟨rfl, fun h0 => ?_, fun j hj => getD_setAt_ne _ _ _ hj⟩
  simp [h0]

theorem execCompareSlotArm_arms (s : State) (r : Req) (n : Axis) (slot : Fin 4) (cfg : Bool) (v : Word)
    (hlen : (s.car[n]).slots.length = 4) (ha : WriteAccepted s r (slotKey n slot cfg) v) :
    ∃ t, exec (.compareSlotArm r n slot cfg v) s = .next t ∧ rg t (slotKey n slot cfg) = v ∧
      ((t.car[n]).slots.getD slot.val CmpSlot.init).arming = (rgF t (Sig.CAR_CMP_CFG n.val slot.val) 0 2 != 0) ∧
      (rgF t (Sig.CAR_CMP_CFG n.val slot.val) 0 2 = 0 → ((t.car[n]).slots.getD slot.val CmpSlot.init).armed = false) ∧
      (∀ k, k ≠ slot.val → (t.car[n]).slots.getD k CmpSlot.init = (s.car[n]).slots.getD k CmpSlot.init) ∧ t.ax = s.ax ∧
      SignalsBut [slotKey n slot cfg] s t := by
  have hkey := slotKey_lt n slot cfg
  obtain ⟨rt, row, hrow, hrest, hregs⟩ := writeOne_carried (by omega) (.inl (hkey.trans (by decide))) ha
  rw [writeKey_slot n slot cfg _ hrow, frameWritten_slot] at hrest hregs
  have hcar : (writeOne s r (slotKey n slot cfg) v).car = (slotWritten (setR { s with rt := rt } (slotKey n slot cfg) v) n slot.val).car :=
    (congrArg State.car hrest :)
  obtain ⟨harming, hdisarmed, hothers⟩ := slotWritten_arms (s := setR { s with rt := rt } (slotKey n slot cfg) v)
    (lt_of_lt_of_eq slot.isLt hlen.symm) hcar hregs
  exact ⟨_, show execCompareSlotArm r n slot cfg v s = _ from if_pos ha.frame.serves, (rg_of_regs hregs _).trans (rg_setR_same _ _ _),
    harming, hdisarmed, hothers, (congrArg State.ax hrest :),
    fun k hk _ => (rg_of_regs hregs k).trans (rg_setR_ne _ _ (fun h => hk (List.mem_singleton.mpr h)))⟩

end Sys2Proof.Machine
end

section
/-! O38, the excitation of a driver, the turns of the angle, the gain, homing, and the obligation. -/

namespace Sys2Proof.Machine

/-! ### A signal of a driver (R344) -/

/-- A value given to all four channels of a driver. -/
def driverSignals (s : State) (d : Fin 2) (i : Nat) (w : Word) : State :=
  forEach (drvAxes d) s (fun s m => setR s (m.val * 0x1000 + i) w)

theorem driverWrite_eq (s : State) (n : Axis) (i : Nat) (w : Word) : driverWrite s n i w =
    if inRun (driverSignals s (drvOf n) i w) then startExc (driverSignals s (drvOf n) i w) (drvOf n) true
    else modExc (driverSignals s (drvOf n) i w) (drvOf n) (fun e => { e with started := false }) := rfl

section
variable (s : State) (d : Fin 2) (i : Nat) (w : Word)

theorem driverSignals_rest : ∃ regs, driverSignals s d i w = { s with regs := regs } :=
  forEach_inv (Q := fun t => ∃ regs, t = { s with regs := regs }) _ _
    (fun t m _ ⟨regs, e⟩ => ⟨regWrite regs (m.val * 0x1000 + i) w, by rw [e]; rfl⟩) ⟨s.regs, rfl⟩

theorem driverSignals_rg {m : Axis} (hm : drvOf m = d) : rg (driverSignals s d i w) (m.val * 0x1000 + i) = w := by
  refine forEach_reaches (P := fun t => rg t (m.val * 0x1000 + i) = w) (Q := fun _ => True) _ ((mem_drvAxes m d).mpr hm)
    (fun _ _ _ => trivial) (fun t _ => rg_setR_same t _ w) (fun t y ht => ?_) trivial
  by_cases e : m.val * 0x1000 + i = y.val * 0x1000 + i
  · rw [e]
    exact rg_setR_same t _ w
  · exact (rg_setR_ne t w e).trans ht

theorem driverSignals_other {k : Nat} (hk : ∀ m : Axis, k ≠ m.val * 0x1000 + i) : rg (driverSignals s d i w) k = rg s k :=
  forEach_inv (Q := fun t => rg t k = rg s k) _ _ (fun t m _ ht => (rg_setR_ne t w (hk m)).trans ht) rfl

end

/-! ### The start of an excitation (R342, R348) -/

/-- A driver whose phase and count of periods begin anew; it is on where a channel is enabled. -/
def excBegun (s : State) (d : Fin 2) : State :=
  modExc s d (fun e => { e with
    on := (drvAxes d).any (fun n => rgN s (Sig.RSV_EN n.val) == 1), start := s.clk.tb
    started := e.started || (drvAxes d).any (fun n => rgN s (Sig.RSV_EN n.val) == 1), periods := 0, ramp := none })

section
variable (s : State) (d : Fin 2) (first : Bool)

theorem startExc_eq : startExc s d first = forEach (drvAxes d) (excBegun s d) (fun t n =>
    modRsv t n (fun x => x.start (rgN s (Sig.RSV_EN n.val) == 1) (first || !(s.exc[d]).started) t.clk.tb)) := rfl

/-- A start of an excitation changes no signal, and of the drivers what begins anew. -/
theorem startExc_rest : (startExc s d first).regs = s.regs ∧ (startExc s d first).exc = (excBegun s d).exc := by
  rw [startExc_eq]
  refine forEach_inv (Q := fun t => t.regs = s.regs ∧ t.exc = (excBegun s d).exc) _ _ (fun t m _ ht => ?_) ⟨rfl, rfl⟩
  exact ht

theorem startExc_exc : ((startExc s d first).exc[d]).start = s.clk.tb ∧ ((startExc s d first).exc[d]).periods = 0 ∧
    ((startExc s d first).exc[d]).on = (drvAxes d).any (fun n => rgN s (Sig.RSV_EN n.val) == 1) := by
  rw [(startExc_rest s d first).2, excBegun, modExc, modV_same]
  exact ⟨rfl, rfl, rfl⟩

/-- A start of an excitation starts each channel of its driver. -/
theorem startExc_rsv {m : Axis} (hm : drvOf m = d) : (startExc s d first).rsv[m] =
    (s.rsv[m]).start (rgN s (Sig.RSV_EN m.val) == 1) (first || !(s.exc[d]).started) s.clk.tb := by
  rw [startExc_eq]
  refine forEach_once (P := fun t => t.rsv[m] = (s.rsv[m]).start (rgN s (Sig.RSV_EN m.val) == 1) (first || !(s.exc[d]).started) s.clk.tb)
    (Q := fun t => t.rsv[m] = s.rsv[m] ∧ t.clk.tb = s.clk.tb) _ ((mem_drvAxes m d).mpr hm) (drvAxes_nodup d) ?_ ?_ ?_ ⟨rfl, rfl⟩
  · exact fun t y hy ht => ⟨(modV_ne t.rsv _ hy).trans ht.1, ht.2⟩
  · intro t ⟨hrsv, htb⟩
    refine (modV_same t.rsv m _).trans ?_
    rw [hrsv, htb]
  · exact fun t y hy ht => (modV_ne t.rsv _ hy).trans ht

theorem startExc_rsv_other {m : Axis} (hm : drvOf m ≠ d) : (startExc s d first).rsv[m] = s.rsv[m] := by
  rw [startExc_eq]
  refine forEach_inv (Q := fun t => t.rsv[m] = s.rsv[m]) _ _ (fun t y hy ht => ?_) rfl
  have hne : y ≠ m := fun e => hm ((mem_drvAxes m d).mp (e ▸ hy))
  exact (modV_ne t.rsv _ hne).trans ht

end

/-- The first-start sequence of an enabled channel learns its phase, and its angle is not valid (R348). -/
theorem start_first_learns (x : RsvAx) (t : Nat) : (x.start true true t).learnPhase = true ∧ (x.start true true t).valid = false := ⟨rfl, rfl⟩

/-! ### A write of the excitation (R344) -/

/-- The place of the amplitude or the frequency of the excitation among the signals of an axis. -/
def excItem (amp : Bool) : Nat := if amp then 0x409 else 0x408

/-- The signal that gives the amplitude or the frequency of the excitation of an axis. -/
def excKey (n : Axis) (amp : Bool) : Nat := if amp then Sig.RSV_EXC_AMP n.val else Sig.RSV_EXC_FREQ n.val

section
variable (n : Axis) (amp : Bool)

theorem excKey_eq : excKey n amp = n.val * 0x1000 + excItem amp := by
  cases amp <;> rfl

theorem excItem_bounds : 0x408 ≤ excItem amp ∧ excItem amp < 0x40A := by
  cases amp <;> decide

theorem excKey_lt : excKey n amp < 0x8000 := by
  have h := excItem_bounds amp
  rw [excKey_eq]
  exact axisKey_lt n (by omega)

theorem writeKey_exc (s : State) (row : SigRow) (w : Word) : writeKey s (excKey n amp) row w 0 = driverWrite s n (excItem amp) w := by
  have h := excItem_bounds amp
  rw [excKey_eq, writeKey_axis s n (by omega)]
  cases amp <;> rfl

/-- The parameter area keeps the excitation. -/
theorem excKey_kept : (Sig.FLT_CFG :: keptKeys).contains (excKey n amp) = true := by
  revert n amp
  decide +kernel

theorem frameWritten_exc (s : State) : frameWritten s [excKey n amp] [] false = storeParams s := by
  rw [frameWritten_single, excKey_kept, if_pos rfl, slotsWritten_none]
  intro m j hj
  have h := excItem_bounds amp
  rw [excKey_eq]
  simp only [Sig.CAR_CMP_POS, Sig.CAR_CMP_CFG]
  omega

end

/-- What a write of the excitation does to the driver and its channels: every channel holds the value, and in RUN the excitation restarts with
the first-start sequence; the channels of the other driver stay. -/
theorem driverWrite_restarts (s : State) (n : Axis) (amp : Bool) (w : Word) :
    (∀ m : Axis, drvOf m = drvOf n → rg (driverWrite s n (excItem amp) w) (excKey m amp) = w) ∧
      (inRun s = true → ((driverWrite s n (excItem amp) w).exc[drvOf n]).start = s.clk.tb ∧
        ((driverWrite s n (excItem amp) w).exc[drvOf n]).periods = 0 ∧
        ∀ m : Axis, drvOf m = drvOf n → rgN s (Sig.RSV_EN m.val) = 1 →
          ((driverWrite s n (excItem amp) w).exc[drvOf n]).on = true ∧ ((driverWrite s n (excItem amp) w).rsv[m]).learnPhase = true ∧
            ((driverWrite s n (excItem amp) w).rsv[m]).valid = false) ∧
      ∀ m : Axis, drvOf m ≠ drvOf n → (driverWrite s n (excItem amp) w).rsv[m] = s.rsv[m] := by
  obtain ⟨regs, hsame⟩ := driverSignals_rest s (drvOf n) (excItem amp) w
  have hrun : inRun (driverSignals s (drvOf n) (excItem amp) w) = inRun s := by rw [hsame]; rfl
  have htb : (driverSignals s (drvOf n) (excItem amp) w).clk.tb = s.clk.tb := by rw [hsame]
  have hrsv : (driverSignals s (drvOf n) (excItem amp) w).rsv = s.rsv := by rw [hsame]
  have hen (m : Axis) : rgN (driverSignals s (drvOf n) (excItem amp) w) (Sig.RSV_EN m.val) = rgN s (Sig.RSV_EN m.val) := by
    have hitem := excItem_bounds amp
    refine congrArg BitVec.toNat (driverSignals_other s (drvOf n) (excItem amp) w (fun y => ?_))
    simp only [Sig.RSV_EN]
    omega
  have hval (m : Axis) (hm : drvOf m = drvOf n) : rg (driverSignals s (drvOf n) (excItem amp) w) (excKey m amp) = w := by
    rw [excKey_eq]
    exact driverSignals_rg s (drvOf n) (excItem amp) w hm
  rw [driverWrite_eq, hrun]
  generalize driverSignals s (drvOf n) (excItem amp) w = u at *
  cases hr : inRun s
  case false =>
    rw [if_neg Bool.false_ne_true]
    exact ⟨hval, fun h => absurd h Bool.false_ne_true, fun m _ => by rw [modExc, hrsv]⟩
  case true =>
    rw [if_pos rfl]
    obtain ⟨hstart, hperiods, hon⟩ := startExc_exc u (drvOf n) true
    refine ⟨fun m hm => (rg_of_regs (startExc_rest u (drvOf n) true).1 _).trans (hval m hm),
      fun _ => ⟨hstart.trans htb, hperiods, fun m hm hone => ⟨?_, ?_⟩⟩, fun m hm => (startExc_rsv_other u _ true hm).trans (by rw [hrsv])⟩
    · rw [hon]
      exact List.any_eq_true.mpr ⟨m, (mem_drvAxes m _).mpr hm, beq_iff_eq.mpr ((hen m).trans hone)⟩
    · rw [startExc_rsv u _ true hm, (hen m).trans hone]
      exact start_first_learns _ _

theorem execExcitationRestart_restarts (s : State) (r : Req) (n : Axis) (amp : Bool) (v : Word) (ha : WriteAccepted s r (excKey n amp) v) :
    ∃ t, exec (.excitationRestart r n amp v) s = .next t ∧ (∀ m : Axis, drvOf m = drvOf n → rg t (excKey m amp) = v) ∧
      (inRun s = true → (t.exc[drvOf n]).start = s.clk.tb ∧ (t.exc[drvOf n]).periods = 0 ∧
        ∀ m : Axis, drvOf m = drvOf n → rgN s (Sig.RSV_EN m.val) = 1 →
          (t.exc[drvOf n]).on = true ∧ (t.rsv[m]).learnPhase = true ∧ (t.rsv[m]).valid = false) ∧
      ∀ m : Axis, drvOf m ≠ drvOf n → t.rsv[m] = s.rsv[m] := by
  have hkey := excKey_lt n amp
  obtain ⟨rt, row, -, hrest, hregs⟩ := writeOne_carried (by omega) (.inl (hkey.trans (by decide))) ha
  rw [writeKey_exc, frameWritten_exc] at hrest hregs
  obtain ⟨hval, hrun, hother⟩ := driverWrite_restarts { s with rt := rt } n amp v
  have hexc : (writeOne s r (excKey n amp) v).exc = (driverWrite { s with rt := rt } n (excItem amp) v).exc := (congrArg State.exc hrest :)
  have hrsv : (writeOne s r (excKey n amp) v).rsv = (driverWrite { s with rt := rt } n (excItem amp) v).rsv := (congrArg State.rsv hrest :)
  refine ⟨writeOne s r (excKey n amp) v, show execExcitationRestart r n amp v s = _ from if_pos ha.frame.serves,
    fun m hm => (rg_of_regs hregs _).trans (hval m hm), ?_⟩
  rw [hexc, hrsv]
  exact ⟨hrun, hother⟩

/-! ### RSV_TURNS (R366) -/

/-- The turns of the angle replaced, its part of a turn kept. -/
theorem floor_turns (k : Int) (x : Rat) : ((k : Rat) + (x - x.floor)).floor = k := by
  show ⌊(k : Rat) + Int.fract x⌋ = k
  rw [Int.floor_intCast_add, Int.floor_fract, add_zero]

theorem turnsWrite_turns (s : State) (n : Axis) (v : Word) : (turnsWrite s n v).rsv =
    modV s.rsv n (fun x => { x with theta := (v.toInt : Rat) + (x.theta - x.theta.floor), mt := false }) := rfl

theorem turnsWrite_other (s : State) (n : Axis) (v : Word) {k : Nat} (hturns : k ≠ Sig.RSV_TURNS n.val) (hpos : k ≠ Sig.RSV_POS n.val) :
    rg (turnsWrite s n v) k = rg s k :=
  (rg_setR_ne _ _ hpos).trans (rg_setR_ne s v hturns)

theorem writeKey_rsvTurns (s : State) (n : Axis) (row : SigRow) (w : Word) : writeKey s (Sig.RSV_TURNS n.val) row w 0 = turnsWrite s n w :=
  writeKey_axis s n (by decide) row w 0

theorem rsvTurns_plain (n : Axis) : framePlain (Sig.RSV_TURNS n.val) = true := by
  revert n
  decide

theorem execRsvTurnsWrite_sets (s : State) (r : Req) (n : Axis) (v : Word) (ha : WriteAccepted s r (Sig.RSV_TURNS n.val) v) :
    ∃ t, exec (.rsvTurnsWrite r n v) s = .next t ∧ (t.rsv[n]).theta.floor = v.toInt ∧
      (t.rsv[n]).theta - (v.toInt : Rat) = (s.rsv[n]).theta - ((s.rsv[n]).theta.floor : Rat) ∧ (t.rsv[n]).mt = false ∧
      (∀ m, m ≠ n → t.rsv[m] = s.rsv[m]) ∧ SignalsBut [Sig.RSV_TURNS n.val, Sig.RSV_POS n.val] s t := by
  have hkey : Sig.RSV_TURNS n.val < 0x8000 := axisKey_lt n (by decide)
  obtain ⟨rt, row, -, hrest, hregs⟩ := writeCmd_carried 0 (by omega) (.inl (hkey.trans (by decide))) (rsvTurns_plain n) ha
  rw [writeKey_rsvTurns] at hrest hregs
  have hrsv : (writeOne s r (Sig.RSV_TURNS n.val) v).rsv = (turnsWrite { s with rt := rt } n v).rsv := (congrArg State.rsv hrest :)
  refine ⟨writeOne s r (Sig.RSV_TURNS n.val) v, show execRsvTurnsWrite r n v s = _ from if_pos ha.frame.serves, ?_⟩
  rw [hrsv, turnsWrite_turns, modV_same]
  refine ⟨floor_turns _ _, add_sub_cancel_left _ _, rfl, fun m hm => modV_ne s.rsv _ (Ne.symm hm), fun k hk _ => ?_⟩
  obtain ⟨hturns, hpos⟩ : k ≠ Sig.RSV_TURNS n.val ∧ k ≠ Sig.RSV_POS n.val := by simpa using hk
  exact (rg_of_regs hregs k).trans (turnsWrite_other _ n v hturns hpos)

/-! ### SMP_GAIN (R256, R257) -/

theorem writeKey_smpGain (s : State) (n : Axis) (row : SigRow) (w : Word) :
    writeKey s (Sig.SMP_GAIN_AX n.val) row w 0 = gainWritten s n w.toNat := by
  fin_cases n <;> rfl

theorem smpGain_plain (n : Axis) : framePlain (Sig.SMP_GAIN_AX n.val) = true := by
  revert n
  decide

/-- The signals that a write of the gain leaves: the gain, and both offsets at 0. -/
def gainSignals (s : State) (n : Axis) (v : Nat) : State :=
  setN (setN (setN s (Sig.SMP_GAIN_AX n.val) v) (Sig.SMP_OFS (2 * n.val)) 0) (Sig.SMP_OFS (2 * n.val + 1)) 0

/-- The state in which a write of the gain leaves an axis that learns nothing: its offsets are the defaults. -/
def gainDefaults (s : State) (n : Axis) (v : Nat) : State :=
  modOfs (gainSignals s n v) n (fun o => { o with dflt := true, learning := false })

section
variable (s : State) (n : Axis) (v : Nat)

theorem gainWritten_eq : gainWritten s n v =
    if inRun s && decide (axSt s n = .disabled) then beginLearn (gainDefaults s n v) n else gainDefaults s n v := rfl

theorem gainSignals_rg : rg (gainSignals s n v) (Sig.SMP_GAIN_AX n.val) = BitVec.ofNat 32 v ∧
    rg (gainSignals s n v) (Sig.SMP_OFS (2 * n.val)) = 0 ∧ rg (gainSignals s n v) (Sig.SMP_OFS (2 * n.val + 1)) = 0 := by
  have hgain (j : Nat) : Sig.SMP_GAIN_AX n.val ≠ Sig.SMP_OFS j := by
    simp only [Sig.SMP_GAIN_AX, Sig.SMP_OFS]
    omega
  have hofs : Sig.SMP_OFS (2 * n.val) ≠ Sig.SMP_OFS (2 * n.val + 1) := by
    simp only [Sig.SMP_OFS]
    omega
  refine ⟨?_, ?_, rg_setN_same _ _ _⟩
  · exact (rg_setN_ne _ _ (hgain _)).trans ((rg_setN_ne _ _ (hgain _)).trans (rg_setN_same _ _ _))
  · exact (rg_setN_ne _ _ hofs).trans (rg_setN_same _ _ _)

theorem gainWritten_regs : (gainWritten s n v).regs = (gainSignals s n v).regs := by
  rw [gainWritten_eq]
  split <;> rfl

/-- A write of the gain returns the offsets to their defaults, and a learn begins where the axis is DISABLED in RUN (R256, R257). -/
theorem gainWritten_ofs : ((gainWritten s n v).ofs[n]).dflt = true ∧
    ((gainWritten s n v).ofs[n]).learning = (inRun s && decide (axSt s n = .disabled)) := by
  have hdefault : (gainDefaults s n v).ofs[n] = { s.ofs[n] with dflt := true, learning := false } := modV_same s.ofs n _
  have hlearn : (beginLearn (gainDefaults s n v) n).ofs[n] =
      { (gainDefaults s n v).ofs[n] with learning := true, spoiled := false, sumU := (0, 0), sumV := (0, 0) } :=
    modV_same (gainDefaults s n v).ofs n _
  rw [gainWritten_eq]
  cases inRun s && decide (axSt s n = .disabled)
  case false =>
    rw [if_neg Bool.false_ne_true, hdefault]
    exact ⟨rfl, rfl⟩
  case true =>
    rw [if_pos rfl, hlearn, hdefault]
    exact ⟨rfl, rfl⟩

end

theorem execSmpGainWrite_sets (s : State) (r : Req) (n : Axis) (v : Word) (ha : WriteAccepted s r (Sig.SMP_GAIN_AX n.val) v) :
    ∃ t, exec (.smpGainWrite r n v) s = .next t ∧ rg t (Sig.SMP_GAIN_AX n.val) = v ∧ rg t (Sig.SMP_OFS (2 * n.val)) = 0 ∧
      rg t (Sig.SMP_OFS (2 * n.val + 1)) = 0 ∧ (t.ofs[n]).dflt = true ∧
      (t.ofs[n]).learning = (inRun s && decide (axSt s n = .disabled)) ∧
      SignalsBut [Sig.SMP_GAIN_AX n.val, Sig.SMP_OFS (2 * n.val), Sig.SMP_OFS (2 * n.val + 1)] s t := by
  have hkey : Sig.SMP_GAIN_AX n.val < 0x8118 := by
    simp only [Sig.SMP_GAIN_AX]
    omega
  obtain ⟨rt, row, -, hrest, hregs⟩ := writeCmd_carried 0 (by omega) (.inl (hkey.trans (by decide))) (smpGain_plain n) ha
  rw [writeKey_smpGain] at hrest hregs
  rw [gainWritten_regs] at hregs
  have hofs : (writeOne s r (Sig.SMP_GAIN_AX n.val) v).ofs = (gainWritten { s with rt := rt } n v.toNat).ofs := (congrArg State.ofs hrest :)
  obtain ⟨hgain, hU, hV⟩ := gainSignals_rg { s with rt := rt } n v.toNat
  obtain ⟨hdflt, hlearning⟩ := gainWritten_ofs { s with rt := rt } n v.toNat
  refine ⟨writeOne s r (Sig.SMP_GAIN_AX n.val) v, show execSmpGainWrite r n v s = _ from if_pos ha.frame.serves,
    (rg_of_regs hregs _).trans (hgain.trans (by simp)), (rg_of_regs hregs _).trans hU, (rg_of_regs hregs _).trans hV, hofs ▸ hdflt,
    hofs ▸ hlearning, fun k hk _ => (rg_of_regs hregs k).trans ?_⟩
  simp only [List.mem_cons, List.not_mem_nil, or_false, not_or] at hk
  obtain ⟨hkGain, hkU, hkV⟩ := hk
  exact (rg_setN_ne _ _ hkV).trans ((rg_setN_ne _ _ hkU).trans (rg_setN_ne _ _ hkGain))

/-! ### FB_Z_ARM (R424, R428) -/

/-- FB_Z_ARM written 1 arms homing. -/
theorem writeKey_fbZArm (s : State) (n : Axis) (row : SigRow) :
    writeKey s (Sig.FB_Z_ARM n.val) row 1 0 = modFb s n (fun f => { f with armed := true }) :=
  writeKey_axis s n (by decide) row 1 0

theorem fbZArm_plain (n : Axis) : framePlain (Sig.FB_Z_ARM n.val) = true := by
  revert n
  decide

theorem execFbZArm_arms (s : State) (r : Req) (n : Axis) (ha : WriteAccepted s r (Sig.FB_Z_ARM n.val) 1) :
    ∃ t, exec (.fbZArm r n 1) s = .next t ∧ t.fb[n] = { s.fb[n] with armed := true } ∧ (∀ m, m ≠ n → t.fb[m] = s.fb[m]) ∧
      t.ax = s.ax ∧ SignalsBut [] s t := by
  have hkey : Sig.FB_Z_ARM n.val < 0x8000 := axisKey_lt n (by decide)
  obtain ⟨rt, row, -, hrest, hregs⟩ := writeCmd_carried 0 (by omega) (.inl (hkey.trans (by decide))) (fbZArm_plain n) ha
  rw [writeKey_fbZArm] at hrest hregs
  have hfb : (writeOne s r (Sig.FB_Z_ARM n.val) 1).fb = modV s.fb n (fun f => { f with armed := true }) := (congrArg State.fb hrest :)
  refine ⟨writeOne s r (Sig.FB_Z_ARM n.val) 1, show execFbZArm r n 1 s = _ from if_pos ha.frame.serves, ?_, fun m hm => ?_,
    (congrArg State.ax hrest :), fun k _ _ => rg_of_regs hregs k⟩
  · rw [hfb, modV_same]
  · rw [hfb, modV_ne _ _ (Ne.symm hm)]

/-! ### The obligation -/

/-- Settles O38: what a write of a compare slot, of the turns, of the excitation, of the gain and of FB_Z_ARM does. -/
theorem motionAndAngleSignalsAreWritten : Obligations.MotionAndAngleSignalsAreWritten :=
  ⟨execCompareSlotArm_arms, execRsvTurnsWrite_sets, execExcitationRestart_restarts, execSmpGainWrite_sets, execFbZArm_arms⟩

end Sys2Proof.Machine
end

section
/-! O56, what answers, changes of axis state and the fault manager leave of the ring link: all but the frames that wait to be forwarded. -/

namespace Sys2Proof.Machine

/-- The ring link as it was, the frames that wait to be forwarded apart, and every sticky event that was set still set. -/
structure RingStands (s t : State) : Prop where
  ring : { t.emq with queues := s.emq.queues, frameId := s.emq.frameId } = s.emq
  events : ∀ i, bitOf s.link.events i = true → bitOf t.link.events i = true

namespace RingStands

theorem refl (s : State) : RingStands s s := ⟨rfl, fun _ => id⟩

theorem trans {s t u : State} (h : RingStands s t) (g : RingStands t u) : RingStands s u :=
  ⟨(congrArg (fun e : Emq => { e with queues := s.emq.queues, frameId := s.emq.frameId }) g.ring).trans h.ring,
    fun i hi => g.events i (h.events i hi)⟩

theorem ite {c : Prop} [Decidable c] {s a b : State} (ha : RingStands s a) (hb : RingStands s b) : RingStands s (if c then a else b) := by
  split
  · exact ha
  · exact hb

theorem each {α : Type} (xs : List α) (f : State → α → State) (hf : ∀ s x, RingStands s (f s x)) (s : State) :
    RingStands s (forEach xs s f) :=
  forEach_inv (Q := RingStands s) f xs (fun t x _ h => h.trans (hf t x)) (refl s)

/-- An update of the parts that the relation does not speak of. -/
theorem of_rest {s t : State} (he : t.emq = s.emq) (hl : t.link.events = s.link.events) : RingStands s t :=
  ⟨by rw [he], fun i hi => by rw [hl]; exact hi⟩

/-- What a state keeps, a state before it keeps that differs in the parts that the relation does not speak of. -/
theorem after {s t u : State} (g : RingStands t u) (he : t.emq = s.emq) (hl : t.link.events = s.link.events) : RingStands s u :=
  (of_rest he hl).trans g

theorem of_modules {s t : State} (h : OnlyModules s t) : RingStands s t := by
  obtain ⟨pwm, rfl⟩ := h
  exact of_rest rfl rfl

theorem evt (s : State) (i : Nat) : RingStands s (evt s i) := ⟨rfl, fun j hj => by rw [evt_bit, hj, Bool.or_true]⟩

/-! ### Answers (R161) -/

theorem forwardBytes (s : State) (hi re : Bool) (d : Nat) (due : Option Nat) (key : Option (Nat × Nat)) (bs : List Byte) :
    RingStands s (forwardBytes s hi re d due key bs) := ⟨rfl, fun _ => id⟩

theorem postBytes (s : State) (r : Nat) (bs : List Byte) : RingStands s (postBytes s r bs) := ite (of_rest rfl rfl) (of_rest rfl rfl)

theorem countFail (s : State) (r : Req) (op st : Nat) : RingStands s (countFail s r op st) := ite (refl s) (of_rest rfl rfl)

theorem answer (s : State) (r : Req) (op st : Nat) (p : List Byte) : RingStands s (answer s r op st p) :=
  (countFail s r op st).trans (ite (refl _) (ite (forwardBytes _ _ _ _ _ _ _) (postBytes _ _ _)))

theorem answerAgg (s : State) (r : Req) (op : Nat) (got : List TRes) (late : Bool) : RingStands s (answerAgg s r op got late) :=
  (countFail s r op _).trans (ite (refl _) (ite (forwardBytes _ _ _ _ _ _ _) (postBytes _ _ _)))

theorem latch (s : State) (r : Req) : RingStands s (latch s r) := of_rest rfl rfl

theorem aggAdd (s : State) (r : Req) (got : List TRes) : RingStands s (aggAdd s r got) :=
  (each _ _ (fun s _ => answerAgg s _ _ _ _) _).after rfl rfl

theorem finishDev (s : State) (r : Req) (op st : Nat) (p : List Byte) : RingStands s (finishDev s r op st p) :=
  ite ((latch s r).trans (aggAdd _ _ _)) ((latch s r).trans (answer _ _ _ _ _))

theorem finishWait (s : State) (w : Wait) (st : Nat) (p : List Byte) : RingStands s (finishWait s w st p) := by
  unfold Machine.finishWait
  split
  · exact ite ((ite (refl s) (latch s _)).trans (aggAdd _ _ _)) ((latch s _).trans (answer _ _ _ _ _))
  · exact finishDev s _ _ _ _

theorem endWaits (s : State) (p : Wait → Bool) (f : State → Wait → Nat × List Byte) : RingStands s (endWaits s p f) :=
  (each _ _ (fun s w => finishWait s w _ _) _).after rfl rfl

theorem dropDeferred (s : State) (p : Deferred → Bool) (st : Nat) : RingStands s (dropDeferred s p st) := by
  have hanswer (t : State) (d : Deferred) : RingStands t (answerDeferred t d st []) :=
    ite ((latch t _).trans (answerAgg _ _ _ _ _)) ((latch t _).trans (answer _ _ _ _ _))
  exact (each _ _ hanswer _).after rfl rfl

/-! ### Changes of axis state -/

theorem withLines {s : State} {n : Axis} {f : State → State} (hf : RingStands s (f s)) : RingStands s (withLines s n f) :=
  ite hf (hf.trans (of_rest rfl rfl))

theorem withEdges {s : State} {n : Axis} {f : State → State} (hf : RingStands s (f s)) : RingStands s (withEdges s n f) :=
  hf.trans (of_modules (withEdges_rest s n f))

theorem leavePosition (s : State) (n : Axis) : RingStands s (leavePosition s n) :=
  ((endWaits (discardPlan s n) _ _).trans (dropDeferred _ _ _)).after rfl rfl

theorem axisTo (s : State) (n : Axis) (st : AxState) : RingStands s (axisTo s n st) := by
  have hevt (b : AxBase) : RingStands s (Machine.evt (modAx s n (fun _ => b)) (40 + n.val)) := (evt _ _).after rfl rfl
  exact ite (refl s) (trans (ite ((hevt _).trans (leavePosition _ n)) (hevt _)) (endWaits _ _ _))

theorem passSettle (s : State) (n : Axis) : RingStands s (passSettle s n) := by
  unfold Machine.passSettle
  split
  case h_1 x _ =>
    have hset : RingStands s (setPasses s n x.1) := of_rest rfl rfl
    exact hset.trans (ite (endWaits _ _ _) (refl _))
  case h_2 => exact refl s

theorem toDisabled (s : State) (n : Axis) : RingStands s (toDisabled s n) := by
  have hstop : RingStands s (openLoops (modPwm (gatesOff s n) n PwmAx.stop) n) :=
    (of_modules (gatesOff_rest s n)).trans (of_rest rfl rfl)
  have hout (u : State) : RingStands u (modObs (setReq (modGd u n GdAx.noPulses) n false) n
      (fun o => { o with sens := false, est := 0, enter := none })) := of_rest rfl rfl
  have hidle (u : State) : RingStands u (if inRun (idleAgain u) then beginLearn (idleAgain u) n else idleAgain u) :=
    ite (of_rest rfl rfl) (of_rest rfl rfl)
  exact ite (refl s) ((((hstop.trans (passSettle _ n)).trans (hout _)).trans (axisTo _ n .disabled)).trans (hidle _))

theorem toFault (s : State) (n : Axis) (serve : Bool) : RingStands s (toFault s n serve) := by
  have hfault (u : State) : RingStands u
      (Machine.withLines u n (fun u => modAx (Machine.axisTo u n .fault) n (fun b => { b with serve := serve }))) :=
    withLines ((axisTo u n .fault).trans (of_rest rfl rfl))
  have hgates (u : State) : RingStands u (gatesFault u n serve) := withLines (of_rest rfl rfl)
  exact ite (refl s) (((hfault _).trans (hgates _)).after rfl rfl)

theorem toShort (s : State) (n : Axis) : RingStands s (toShort s n) := by
  have hshort (u : State) : RingStands u (Machine.withEdges u n (fun u => Machine.axisTo u n .safeShort)) :=
    withEdges (axisTo u n .safeShort)
  have hgates (u : State) : RingStands u (gatesShort u n) := withEdges (of_rest rfl rfl)
  exact ite (refl s) (((hshort _).trans (hgates _)).after rfl rfl)

theorem toPattern (s : State) (n : Axis) : RingStands s (toPattern s n) := ite (toShort s n) (toFault s n false)

theorem toHold (s : State) (n : Axis) (byFault : Bool) : RingStands s (toHold s n byFault) := by
  have hhold (c : CarAx → CarAx) (l : LoopAx → LoopAx) : RingStands s (Machine.axisTo (modLoop (modCar s n c) n l) n .hold) :=
    (axisTo (modLoop (modCar s n c) n l) n .hold).after rfl rfl
  unfold Machine.toHold
  split
  case h_1 | h_2 | h_3 | h_4 => exact (hhold _ _).trans (of_rest rfl rfl)
  case h_5 => exact of_rest rfl rfl
  case h_6 => exact ite (toDisabled s n) (refl s)
  case h_7 => exact refl s

/-! ### The fault manager -/

theorem stageEvent (s : State) (code idx count : Nat) (data : List Byte) : RingStands s (stageEvent s code idx count data) := by
  obtain ⟨rcd, regs, e⟩ := stageEvent_rest s code idx count data
  exact of_rest (by rw [e]) (by rw [e])

theorem stageSnaps (s : State) (p : Snap → Bool) : RingStands s (stageSnaps s p) := by
  have hstage (u : State) (x : Snap) : RingStands u (stageSlice u kindSnapshot (snapPayload u x) true) := by
    obtain ⟨rcd, regs, e⟩ := stageSlice_rest u kindSnapshot (snapPayload u x) true
    exact of_rest (by rw [e]) (by rw [e])
  exact (each _ _ hstage _).after rfl rfl

theorem openSnap (s : State) (code react prior : Nat) : RingStands s (openSnap s code react prior) := by
  unfold Machine.openSnap
  dsimp only
  split
  · exact stageEvent s _ _ _ _
  · exact (stageSnaps _ _).after rfl rfl

theorem enterSafe (s : State) (code : Nat) : RingStands s (enterSafe s code) := by
  have hmode (f : Flt) : RingStands s (setN { s with flt := f } Sig.FLT_SAFE_CAUSE code) := of_rest rfl rfl
  have hplan (u : State) (n : Axis) : RingStands u (discardPlan u n) := of_rest rfl rfl
  have hsup (u : State) (x : Sup) : RingStands u (setB { u with sup := x } Sig.FLT_STAT 4 true) := of_rest rfl rfl
  unfold Machine.enterSafe
  refine ite (refl s) ?_
  exact ((((((hmode _).trans (each _ _ (fun u n => toPattern u n) _)).trans (each _ _ hplan _)).trans (hsup _ _)).trans (evt _ 73)).trans
    (dropDeferred _ _ _))

theorem reactAxis (s : State) (n : Axis) (r : Nat) : RingStands s (reactAxis s n r) := by
  unfold Machine.reactAxis
  dsimp only
  split
  · exact of_rest rfl rfl
  · exact toHold s n true
  · exact ite (toFault s n true) (refl s)
  · exact ite (toFault s n false) (refl s)
  · exact ite (toShort s n) (refl s)
  · exact refl s

theorem applyReact (s : State) (code r : Nat) : RingStands s (applyReact s code r) := by
  unfold Machine.applyReact
  split
  · exact enterSafe s code
  · split
    · exact reactAxis s _ r
    · exact each _ _ (fun s n => reactAxis s n r) s

theorem countLasting (s : State) (code : Nat) : RingStands s (countLasting s code) := by
  unfold Machine.countLasting
  split
  · exact of_rest rfl rfl
  · exact refl s

/-- An event of a source leaves the ring link as it is. -/
theorem faultEvtB (s : State) (code : Nat) (bind : Bool) : RingStands s (faultEvtB s code bind) := by
  have hsrc (u : State) (f : FltSrc) : RingStands u (setSrc u code f) := of_rest rfl rfl
  unfold Machine.faultEvtB
  dsimp only
  split
  · exact hsrc s _
  · split
    · refine (trans ?_ (openSnap _ code _ _)).trans (applyReact _ code _)
      split <;> exact ((hsrc s _).trans (countLasting _ code)).trans (evt _ _)
    · exact (hsrc s _).trans (ite ((hsrc _ _).trans (stageEvent _ _ _ _ _)) (refl _))

theorem devFault (s : State) (src : Nat) : RingStands s (devFault s src) := faultEvtB s _ _

end RingStands

end Sys2Proof.Machine
end

section
/-! O56: the census, NO_LEAD, the search, mastership, the epoch, breaks and heal. -/

namespace Sys2Proof.Machine

/-! ### RING_STAT (R570) -/

theorem ringFlag_bit (s : State) {i : Nat} (hi : i < 32) : rgB (ringFlag s i) Sig.RING_STAT i = true := by
  rw [ringFlag, rgB_setB _ _ _ _ _ hi, if_pos rfl]

theorem ringFlag_rg (s : State) (i : Nat) {k : Nat} (hk : k ≠ Sig.RING_STAT) : rg (ringFlag s i) k = rg s k := rg_setB_ne _ _ _ hk

theorem ringStat_not_ledger : Sig.RING_STAT ∉ ledgerKeys := by decide

theorem evt_sets (s : State) (i : Nat) : bitOf (evt s i).link.events i = true := by simp [evt_bit]

/-! ### The census (R547) -/

/-- The census that the heartbeats show in effect, shown and reported. -/
def censusTaken (s : State) : State :=
  evt (ringFlag (settleLead { s with emq := { s.emq with census := observed s, censusAge := 0 } }) 3) 82

/-- The census taken, with the event of RING_HB where a member is lost (R565). -/
def censusCounted (s : State) (lost : Bool) : State := if lost then devFault (censusTaken s) 44 else censusTaken s

/-- What the event of RING_HB leaves of a census taken. -/
theorem censusCounted_stands (s : State) (lost : Bool) :
    RingStands (censusTaken s) (censusCounted s lost) ∧ Quiet (censusTaken s) (censusCounted s lost) := by
  cases lost
  · exact ⟨.refl _, .refl _⟩
  · exact ⟨.devFault _ 44, devFault_quiet _ 44⟩

/-- The end of NO_LEAD touches neither the census, nor the signals, nor the link. -/
theorem endNoLead_rest (s : State) : (endNoLead s).emq.census = s.emq.census ∧ (endNoLead s).regs = s.regs ∧ (endNoLead s).link = s.link := by
  unfold endNoLead
  split
  · refine forEach_inv (Q := fun t => t.emq.census = s.emq.census ∧ t.regs = s.regs ∧ t.link = s.link) _ _ (fun t n _ ht => ?_)
      ⟨rfl, rfl, rfl⟩
    split <;> exact ht
  · exact ⟨rfl, rfl, rfl⟩

theorem execCensusChange_eq {s : State} (hrun : inRun s = true) (hmode : s.emq.mode ≠ 0)
    (hnew : (observed s).map censusKey ≠ s.emq.census.map censusKey) (hshown : (observed s).map censusKey = s.emq.shown)
    (hsteady : 2 ≤ s.emq.steady) : ∃ lost, exec .censusChange s =
      .next (if duplicated (censusCounted s lost) then censusCounted s lost else endNoLead (censusCounted s lost)) := by
  refine ⟨_, show execCensusChange s = _ from if_pos ?_⟩
  rw [hshown] at hnew ⊢
  simp [hrun, hmode, hnew, hsteady]

theorem execCensusChange_takes (s : State) (hrun : inRun s = true) (hmode : s.emq.mode ≠ 0)
    (hnew : (observed s).map censusKey ≠ s.emq.census.map censusKey) (hshown : (observed s).map censusKey = s.emq.shown)
    (hsteady : 2 ≤ s.emq.steady) :
    ∃ t, exec .censusChange s = .next t ∧ t.emq.census = observed s ∧ rgB t Sig.RING_STAT 3 = true ∧ bitOf t.link.events 82 = true := by
  obtain ⟨lost, he⟩ := execCensusChange_eq hrun hmode hnew hshown hsteady
  obtain ⟨hring, hquiet⟩ := censusCounted_stands s lost
  have hcensus : (censusCounted s lost).emq.census = observed s := (congrArg Emq.census hring.ring :)
  have hflag : rgB (censusCounted s lost) Sig.RING_STAT 3 = true :=
    (hquiet.rgB 3 ringStat_not_ledger).trans (ringFlag_bit _ (by decide))
  have hevent : bitOf (censusCounted s lost).link.events 82 = true := hring.events 82 (evt_sets _ 82)
  refine ⟨_, he, ?_⟩
  split
  · exact ⟨hcensus, hflag, hevent⟩
  · obtain ⟨hc, hr, hl⟩ := endNoLead_rest (censusCounted s lost)
    exact ⟨hc.trans hcensus, (rgB_of_regs hr _ _).trans hflag, hl ▸ hevent⟩

/-! ### NO_LEAD (R298, R552) -/

theorem axisTo_axSt (s : State) (n : Axis) (st : AxState) (m : Axis) : axSt (axisTo s n st) m = if m = n then st else axSt s m := by
  split
  case isTrue e => exact e ▸ (axisTo_arrives s n st).1
  case isFalse hm =>
    by_cases h : axSt s n = st
    · rw [show axisTo s n st = s from if_pos h]
    · obtain ⟨b, -, -, hb⟩ := axisTo_change h
      rw [SameAx.axSt hb.ax]
      exact congrArg AxBase.st (modV_ne s.ax _ (Ne.symm hm))

/-- HOLD takes an axis out of a state with tasks, or leaves it in HOLD; no other axis changes its state (R297). -/
theorem toHold_axSt {s : State} {n : Axis} (h : (axSt s n).serving = true) (byFault : Bool) (m : Axis) :
    axSt (toHold s n byFault) m = if m = n then .hold else axSt s m := by
  have hmod (u : State) (f : AxBase → AxBase) (hf : ∀ b, (f b).st = b.st) : axSt (modAx u n f) m = axSt u m :=
    modV_view u.ax n f AxBase.st hf m
  have henter (c : CarAx → CarAx) (l : LoopAx → LoopAx) : axSt (axisTo (modLoop (modCar s n c) n l) n .hold) m =
      if m = n then .hold else axSt s m := axisTo_axSt _ n .hold m
  unfold toHold
  split
  case h_1 | h_2 | h_3 | h_4 => exact (hmod _ _ (by exact fun _ => rfl)).trans (henter _ _)
  case h_5 e =>
    have hstays : axSt s m = if m = n then .hold else axSt s m := by
      by_cases em : m = n
      · rw [if_pos em, em, e]
      · rw [if_neg em]
    exact (hmod _ _ (by exact fun _ => rfl)).trans hstays
  case h_6 e => exact absurd (e ▸ h) (by decide)
  case h_7 => cases hst : axSt s n <;> simp_all [AxState.serving]

/-- HOLD taken by several axes that run. -/
theorem forEach_toHold_axSt (xs : List Axis) (s : State) (hxs : ∀ n ∈ xs, (axSt s n).serving = true) (m : Axis) :
    axSt (forEach xs s (fun s n => toHold s n true)) m = if m ∈ xs then .hold else axSt s m := by
  induction xs generalizing s with
  | nil => rfl
  | cons x xs ih =>
    have hx := toHold_axSt (hxs x List.mem_cons_self) true
    have hrest : ∀ n ∈ xs, (axSt (toHold s x true) n).serving = true := fun n hn => by
      rw [hx]
      split
      · rfl
      · exact hxs n (List.mem_cons_of_mem x hn)
    refine (ih (toHold s x true) hrest).trans ?_
    rw [hx]
    by_cases hm : m ∈ xs <;> by_cases e : m = x <;> simp [hm, e]

/-- The axes that run: in OPEN, TORQUE, SPEED or POSITION. -/
def runningAxes (s : State) : List Axis :=
  allAxes.filter (fun n =>
    decide (axSt s n = .opn) || decide (axSt s n = .torque) || decide (axSt s n = .speed) || decide (axSt s n = .position))

theorem mem_runningAxes (s : State) (n : Axis) :
    n ∈ runningAxes s ↔ (axSt s n = .opn ∨ axSt s n = .torque ∨ axSt s n = .speed ∨ axSt s n = .position) := by
  simp [runningAxes, mem_allAxes, or_assoc]

theorem runningAxes_serve {s : State} {n : Axis} (h : n ∈ runningAxes s) : (axSt s n).serving = true := by
  rcases (mem_runningAxes s n).mp h with e | e | e | e <;> rw [e] <;> rfl

/-- NO_LEAD shown and reported. -/
def noLeadShown (s : State) : State := evt (ringFlag { s with emq := { s.emq with noLead := true } } 4) 83

theorem execNoLead_holds (s : State) (hrun : inRun s = true) (hdup : duplicated s = true) (hlead : s.emq.noLead = false)
    (hage : 4 ≤ s.emq.censusAge) :
    ∃ t, exec .noLead s = .next t ∧ t.emq.noLead = true ∧ rgB t Sig.RING_STAT 4 = true ∧ bitOf t.link.events 83 = true ∧
      (∀ n, (axSt s n = .opn ∨ axSt s n = .torque ∨ axSt s n = .speed ∨ axSt s n = .position) → axSt t n = .hold) ∧
      ∀ n, ¬(axSt s n = .opn ∨ axSt s n = .torque ∨ axSt s n = .speed ∨ axSt s n = .position) → axSt t n = axSt s n := by
  have he : exec .noLead s = .next (forEach (runningAxes s) (noLeadShown s) (fun s n => toHold s n true)) :=
    show execNoLead s = _ from if_pos (by simp [hrun, hdup, hlead, hage])
  have hring : RingStands (noLeadShown s) (forEach (runningAxes s) (noLeadShown s) (fun s n => toHold s n true)) :=
    .each _ _ (fun u n => .toHold u n true) _
  have hquiet : Quiet (noLeadShown s) (forEach (runningAxes s) (noLeadShown s) (fun s n => toHold s n true)) :=
    .each _ _ (fun u n => toHold_quiet u n true) _
  have hst (n : Axis) : axSt (forEach (runningAxes s) (noLeadShown s) (fun s n => toHold s n true)) n =
      if n ∈ runningAxes s then .hold else axSt s n := forEach_toHold_axSt _ (noLeadShown s) (fun n hn => runningAxes_serve hn) n
  refine ⟨_, he, (congrArg Emq.noLead hring.ring :), (hquiet.rgB 4 ringStat_not_ledger).trans (ringFlag_bit _ (by decide)),
    hring.events 83 (evt_sets _ 83), fun n hn => ?_, fun n hn => ?_⟩
  · rw [hst, if_pos ((mem_runningAxes s n).mpr hn)]
  · rw [hst, if_neg (fun h => hn ((mem_runningAxes s n).mp h))]

/-! ### Search and mastership (R549, R550, R567) -/

theorem execSearchTimeout_masters (s : State) (hrun : inRun s = true) (hmode : s.emq.mode = 1) (hmaster : s.emq.isMaster = false) :
    ∃ t, exec .searchTimeout s = .next t ∧ t.emq.isMaster = true ∧ t.emq.master = some (ringId s) ∧ t.emq.pos = 0 ∧
      t.emq.epochOwn = false ∧ t.clk.tb = s.clk.tb + 8000 + 4000 * s.emq.wait ∧ t.clk.epoch = s.clk.epoch ∧ t.regs = s.regs := by
  have hlater := toTick_later s (s.clk.tb + 8000 + 4000 * s.emq.wait)
  have htb := toTick_tb (s.clk.tb + 8000 + 4000 * s.emq.wait) hrun
  have hid : ringId (toTick s (s.clk.tb + 8000 + 4000 * s.emq.wait)) = ringId s := by rw [ringId, toTick_pwr, ringId]
  have hepoch : (toTick s (s.clk.tb + 8000 + 4000 * s.emq.wait)).clk.epoch = s.clk.epoch := by
    unfold toTick
    split <;> rfl
  refine ⟨_, show execSearchTimeout s = _ from if_pos (by simp [hrun, hmode, hmaster]), rfl, congrArg some hid, rfl, rfl, ?_, hepoch, hlater.regs⟩
  exact htb.trans (Nat.max_eq_right (by omega))

theorem execMastershipChange_passes (s : State) (p id : Nat) (hrun : inRun s = true) (hmode : s.emq.mode = 2 ∨ s.emq.mode = 3)
    (hlow : lowestId (lockedMembers s) = some (p, id))
    (hdue : (∃ m, s.emq.master = some m ∧ id < m ∧ 4 ≤ s.emq.usurped) ∨ (s.emq.mode = 3 ∧ 4 ≤ s.emq.sinceStamp)) :
    ∃ t, exec .mastershipChange s = .next t ∧ t.emq.master = some id ∧ (t.emq.isMaster = true ↔ p = s.emq.pos) ∧
      rgB t Sig.RING_STAT 8 = true ∧ ∀ k, k ≠ Sig.RING_STAT → rg t k = rg s k := by
  have hcond : (inRun s && (s.emq.mode == 2 || s.emq.mode == 3) &&
      ((outranked s && decide (4 ≤ s.emq.usurped)) || (s.emq.mode == 3 && decide (4 ≤ s.emq.sinceStamp)))) = true := by
    rcases hdue with ⟨m, hmaster, hlt, hfor⟩ | ⟨hfold, hsince⟩
    · have hout : outranked s = true := by simp [outranked, hlow, hmaster, hlt]
      simp [hrun, hmode, hout, hfor]
    · simp [hrun, hfold, hsince]
  have he : exec .mastershipChange s = .next (ringFlag (settleLead { s with emq :=
      { s.emq with master := some id, isMaster := decide (p = s.emq.pos), sinceStamp := 0, usurped := 0 } }) 8) := by
    show execMastershipChange s = _
    unfold execMastershipChange
    rw [hlow]
    exact if_pos hcond
  exact ⟨_, he, rfl, decide_eq_true_iff, ringFlag_bit _ (by decide), fun k hk => ringFlag_rg _ 8 hk⟩

/-! ### The epoch (R556, R658) -/

theorem execEpochAdopt_adopts (s : State) (b : Int) (c : Nat) (hrun : inRun s = true) (hmode : s.emq.mode ≠ 0) (hown : s.emq.epochOwn = true)
    (hbound : s.emq.bound = some (b, c)) (hstop : ∀ n : Axis, (s.pwm[n]).running = false ∧ (s.pwm[n]).startPend = false) :
    ∃ t, exec .epochAdopt s = .next t ∧ t.clk = { s.clk with epoch := (b + 12) / 25 - 4000 * (c : Int) } ∧ t.emq.epochOwn = false ∧
      rgB t Sig.RING_STAT 9 = true := by
  have hall : allAxes.all (fun n => !(s.pwm[n]).running && !(s.pwm[n]).startPend) = true :=
    List.all_eq_true.mpr (fun n _ => by rw [(hstop n).1, (hstop n).2]; rfl)
  have he : exec .epochAdopt s = .next (ringFlag { s with
      clk := { s.clk with epoch := (b + 12) / 25 - 4000 * (c : Int) }, emq := { s.emq with epochOwn := false } } 9) := by
    show execEpochAdopt s = _
    unfold execEpochAdopt
    rw [hbound, hall]
    exact if_pos (by simp [hrun, hown, hmode])
  exact ⟨_, he, rfl, rfl, ringFlag_bit _ (by decide)⟩

/-! ### Breaks and heal (R565, R566, R568) -/

/-- The entry into fold operation: RING_MODE is 3, position and RIN stand, and RING_STAT is the one signal that it writes. -/
theorem enterFold_facts (s : State) : (enterFold s).emq.mode = 3 ∧ (enterFold s).emq.pos = s.emq.pos ∧
    (enterFold s).emq.rinOk = s.emq.rinOk ∧ (enterFold s).flt = s.flt ∧ ∀ k, k ≠ Sig.RING_STAT → rg (enterFold s) k = rg s k := by
  unfold enterFold
  split
  case isTrue h => exact ⟨h, rfl, rfl, rfl, fun _ _ => rfl⟩
  case isFalse => exact ⟨rfl, rfl, rfl, rfl, fun k hk => (ringFlag_rg _ 6 hk).trans (ringFlag_rg _ 1 hk)⟩

/-- The break declared in fold operation: line head, shown, reported and counted. -/
def breakDeclared (u : State) : State :=
  incR (evt (ringFlag { u with emq := { u.emq with head := true, breakPos := u.emq.pos } } 0) 81) Sig.RING_BREAK_COUNT

theorem breakDeclared_signals (u : State) : rgB (breakDeclared u) Sig.RING_STAT 0 = true ∧
    rg (breakDeclared u) Sig.RING_BREAK_COUNT = rg u Sig.RING_BREAK_COUNT + 1 := by
  have hne : Sig.RING_STAT ≠ Sig.RING_BREAK_COUNT := by decide
  constructor
  · rw [breakDeclared, rgB, rg_incR_ne _ hne]
    exact ringFlag_bit _ (by decide)
  · rw [breakDeclared, rg_incR_same]
    exact congrArg (· + 1) (ringFlag_rg _ 0 hne.symm)

theorem execBreakDetected_eq {s : State} (hrun : inRun s = true) (hmode : s.emq.mode = 2 ∨ s.emq.mode = 3) (hhead : s.emq.head = false) :
    exec .breakDetected s = .next (devFault (breakDeclared (enterFold { s with emq := { s.emq with rinOk := false } })) 44) :=
  show execBreakDetected s = _ from if_pos (by simp [hrun, hmode, hhead])

theorem execBreakDetected_folds (s : State) (hrun : inRun s = true) (hmode : s.emq.mode = 2 ∨ s.emq.mode = 3) (hhead : s.emq.head = false) :
    ∃ t, exec .breakDetected s = .next t ∧ t.emq.mode = 3 ∧ t.emq.head = true ∧ t.emq.breakPos = s.emq.pos ∧ t.emq.rinOk = false ∧
      rgB t Sig.RING_STAT 0 = true ∧ rg t Sig.RING_BREAK_COUNT = rg s Sig.RING_BREAK_COUNT + 1 ∧ bitOf t.link.events 81 = true ∧
      Counts s t (devSrc 44) := by
  have he := execBreakDetected_eq hrun hmode hhead
  obtain ⟨hfold, hpos, hrin, hflt, hsig⟩ := enterFold_facts { s with emq := { s.emq with rinOk := false } }
  revert he hfold hpos hrin hflt hsig
  generalize enterFold { s with emq := { s.emq with rinOk := false } } = u
  intro he hfold hpos hrin hflt hsig
  obtain ⟨hflag, hcount⟩ := breakDeclared_signals u
  have hstands := RingStands.devFault (breakDeclared u) 44
  have hquiet := devFault_quiet (breakDeclared u) 44
  have hring {α : Type} (f : Emq → α) := congrArg f hstands.ring
  exact ⟨_, he, (hring Emq.mode).trans hfold, (hring Emq.head :), (hring Emq.breakPos).trans hpos, (hring Emq.rinOk).trans hrin,
    (hquiet.rgB 0 ringStat_not_ledger).trans hflag,
    (hquiet.keys _ (by decide)).trans (hcount.trans (congrArg (· + 1) (hsig _ (by decide)))), hstands.events 81 (evt_sets _ 81),
    counts_of_flt (w := breakDeclared u) hflt (faultEvtB_counts _ _ _)⟩

theorem execHeal_marks (s : State) (hrun : inRun s = true) (hmode : s.emq.mode = 3) (hhead : s.emq.head = true) (hheal : s.emq.heal = 0) :
    exec .heal s = .next { s with emq := { s.emq with heal := 3, rinOk := true } } :=
  show execHeal s = _ from if_pos (by simp [hrun, hmode, hhead, hheal])

/-! ### The obligation -/

/-- Settles O56: the census, NO_LEAD, the search, mastership, the epoch, breaks and heal. -/
theorem ringMembersFollowTheRing : Obligations.RingMembersFollowTheRing :=
  ⟨execCensusChange_takes, execNoLead_holds, execSearchTimeout_masters, execMastershipChange_passes, execEpochAdopt_adopts,
    execBreakDetected_folds, execHeal_marks⟩

end Sys2Proof.Machine
end
